-- ==== Sys2Proof/Word.lean ====
section
/-! DEFINITION. The plainest data types of the model: bytes, 32-bit register words, and tables.

A register word is a bit vector, because software reads and writes it whole and reserved bits must keep their
places. A byte of a packet, a frame or of Hearth is a bit vector for the same reason. Indices, addresses once
computed, counts and times are natural numbers. -/
namespace Sys2Proof

/-- One byte. -/
abbrev Byte := BitVec 8

/-- One 4-byte register (R518). -/
abbrev Word := BitVec 32

/-- A finite map from natural numbers: strictly rising keys, and no entry equal to the default of its reader. -/
abbrev Tbl (α : Type) := List (Nat × α)

end Sys2Proof
end

