-- ==== Sys2Proof/Syntax.lean ====
section
/-! DEFINITION. The commands: one constructor per row of the opcode table, with the row's operands. A command of the
opcode reference (R365 to R394) names the fetched packet by its handle `k`; a function is 0 for the PF and v for VF v;
`p` is a partition, `d` a port, `t` a tong, `a` an anvil, `b` a bank. Frames and flits are their bytes. An operand with a
default is a finding that the command may come without. -/
namespace Sys2Proof

/-- What the calibration of a Gleed channel found (R240, R247, R252, R262): bias of its laser in percent of maximum, after-laser power in
0.01 dBm, received quality, and on a rack port the four PAM4 DAC codes, the mean heater drive that puts the ring on its channel, and the
crosstalk coefficients of its six neighbours. -/
structure ChanCal where
  bias : Nat := 0
  power : Nat := 0
  quality : Nat := 0
  dac : List Nat := [0, 0, 0, 0]
  heat : Nat := 0
  coef : List Nat := [0, 0, 0, 0, 0, 0]
deriving DecidableEq, Repr

/-- A command of the block (the opcode table). -/
inductive Instr where
  /-- NOP: No-operation packet that only performs its header wait, signal and barrier. (R369) -/
  | nop (k : Nat)
  /-- SET_MODE: Mode command that switches a partition between procession and resident mode, at once or held pending until the open lap closes. (R21) -/
  | setMode (k : Nat)
  /-- IDENTIFY: Returns the CHIP_ID and the firmware version. (R369) -/
  | identify (k : Nat)
  /-- TONG_DESC: Starts a tong list whose first descriptor is carried in an extended entry. (R370) -/
  | tongDesc (k : Nat)
  /-- TONG_LIST: Starts a tong list from a descriptor held in Hearth. (R370) -/
  | tongList (k : Nat)
  /-- TONG_DESCRIPTOR_START: A tong checks the next descriptor, waits on its semaphore, and then copies its rows. (R141) -/
  | tongDescriptorStart (t : Nat)
  /-- TONG_DESCRIPTOR_DONE: A descriptor's last byte becomes visible; the tong signals, arrives at the barrier, and moves on to NEXT or ends the list. (R141) -/
  | tongDescriptorDone (t : Nat) (ecc : List (Nat × Bool))
  /-- TONG_WAIT_TIMEOUT: A descriptor's WAIT_TIMEOUT ends before its semaphore wait is met, so the descriptor fails with TIMEOUT. (R141) -/
  | tongWaitTimeout (t : Nat)
  /-- FILL: A tong writes a repeated pattern over whole words of a Hearth range, which clears poison. (R371) -/
  | fill (k : Nat)
  /-- FILL_DONE: A fill ends after LENGTH / 204.8 GB/s, and its packet completes. (R371) -/
  | fillDone (t : Nat)
  /-- BULK_RECEIVE: Binds a VC5 receive binding to a slot ring and initialises its FULL and EMPTY semaphores. (R372) -/
  | bulkReceive (k : Nat)
  /-- BULK_UNBIND: Removes a VC5 receive binding once any frame being written into it has ended. (R372) -/
  | bulkUnbind (k : Nat)
  /-- WEIGHT_LOAD: Loads a weight region from Hearth into the anvil's loading buffer. (R373) -/
  | weightLoad (k : Nat)
  /-- WEIGHT_LOAD_DONE: A weight load completes, so passes waiting on the region or on a swap may proceed. (R103) -/
  | weightLoadDone (a : Nat) (ecc : List (Nat × Bool))
  /-- PASS: Runs one anvil pass of B vectors against a region of the active buffer, optionally swapping buffers first. (R374) -/
  | pass (k : Nat)
  /-- PASS_DONE: A pass writes its last accumulator row in pass order and completes. (R152) -/
  | passDone (a : Nat) (parity : Bool) (ecc : List (Nat × Bool)) (acc : List (Nat × Bool))
  /-- EPILOGUE: Converts accumulator rows to Hearth vectors, optionally through a gate table. (R375) -/
  | epilogue (k : Nat)
  /-- EPILOGUE_DONE: An epilogue ends after 14 + ROWS cycles and its packet completes. (R375) -/
  | epilogueDone (a : Nat) (acc : List (Nat × Bool))
  /-- VEC_OP: Runs one vector-unit operation over Hearth rows. (R376) -/
  | vecOp (k : Nat)
  /-- VEC_OP_DONE: A vector operation ends after its latency and its packet completes. (R376) -/
  | vecOpDone (a : Nat) (ecc : List (Nat × Bool))
  /-- CQ_INTERRUPT_TIMER: The coalescing TIME ends after the first uncovered entry, and the CQ's message is sent. (R360) -/
  | cqInterruptTimer (p : Nat) (j : Nat)
  /-- LAP_START: Lap-start packet that checks a lap plan and creates custody state for one epoch of a ring. (R377) -/
  | lapStart (k : Nat)
  /-- LAP_OPEN: Epoch E opens at the later of its start machine time and the close of E − 1, and the phase becomes FORWARD. (R45) -/
  | lapOpen (p : Nat) (r : Nat)
  /-- LAP_RESOLVE: Resolves an in-doubt lap as COMMIT or ABORT. (R382) -/
  | lapResolve (k : Nat)
  /-- REHOME: Rehome pass that moves optimizer billets from an old home to a new home under lap custody. (R383) -/
  | rehome (k : Nat)
  /-- BILLET_DEPART: After SEM_USED, or at the home's turn in PLAN_ORDER, a billet is staged onward and becomes ON_WIRE with a retained copy. (R380) -/
  | billetDepart (p : Nat) (r : Nat) (n : Nat) (unused : Bool)
  /-- BILLET_RECEIVED: A complete billet arrives; the receiver checks it and answers TAKEN, DUPLICATE, RESEND_SEGMENTS, NOT_OPEN, STALE, REFUSED or WAITING. (R38) -/
  | billetReceived (p : Nat) (frame : List Byte)
  /-- GRADIENT_ADMIT: A held-back gradient billet is admitted once the member's contribution is complete. (R43) -/
  | gradientAdmit (p : Nat) (r : Nat) (n : Nat)
  /-- VERDICT_RECEIVED: A sender receives a verdict and releases, resends or discards its retained copy, or originates ABORT. (R36) -/
  | verdictReceived (p : Nat) (frame : List Byte)
  /-- NOT_OPEN_RESEND_TIMER: 100 µs after NOT_OPEN, the sender resends the whole billet over the same hop. (R36) -/
  | notOpenResendTimer (p : Nat) (r : Nat) (tok : Bool) (n : Nat)
  /-- CUSTODY_DEADLINE_EXPIRY: The custody deadline of a hop runs out and the hop is in trouble. (R54) -/
  | custodyDeadlineExpiry (p : Nat) (r : Nat) (tok : Bool) (n : Nat)
  /-- HOP_RECOVERY_EXPIRY: The hop recovery window ends with no verdict, so the sender originates ABORT. (R56) -/
  | hopRecoveryExpiry (p : Nat) (r : Nat) (tok : Bool) (n : Nat)
  /-- LANDING_SLOT_GRANT: After its EMPTY wait is met, a campus receiver grants a landing slot to VC1 or VC3. (R256) -/
  | landingSlotGrant (d : Nat) (p : Nat) (r : Nat)
  /-- MEMBER_PREPARED: Every billet homed at the member is retired and no retained copy remains, so the member forwards the PREPARE token it holds. (R46) -/
  | memberPrepared (p : Nat) (r : Nat)
  /-- PREPARE_TOKEN_RECEIVED: PREPARE arrives; it is forwarded when the member is prepared, or it records COMMIT at the leader. (R47) -/
  | prepareTokenReceived (p : Nat) (frame : List Byte)
  /-- COMMIT_TOKEN_RECEIVED: COMMIT arrives; the home applies the optimizer, closes the epoch and forwards the token. (R46) -/
  | commitTokenReceived (p : Nat) (frame : List Byte)
  /-- ABORT_TOKEN_RECEIVED: ABORT arrives; the member aborts the epoch and forwards the token in its direction of travel. (R49) -/
  | abortTokenReceived (p : Nat) (frame : List Byte)
  /-- COMMIT_WINDOW_EXPIRY: The commit window ends; the leader decides ABORT, or another member falls IN_DOUBT. (R50) -/
  | commitWindowExpiry (p : Nat) (r : Nat)
  /-- RELAY_WINDOW_EXPIRY: The relay entry of a reset prepared member is dropped after one commit window. (R59) -/
  | relayWindowExpiry (p : Nat) (r : Nat)
  /-- LINE_SETUP: Line-setup packet; at the entry member it sends the SETUP circuit round the line. (R385) -/
  | lineSetup (k : Nat)
  /-- LINE_REROUTE: Line-reroute packet that restores a line over new hops and keeps its slots. (R385) -/
  | lineReroute (k : Nat)
  /-- LINE_TEARDOWN: Frees a line's activation buffers and lightbank blocks when no stream is admitted, parked or TORN. (R386) -/
  | lineTeardown (k : Nat)
  /-- SETUP_FRAME_RECEIVED: A SETUP frame reaches a member, which checks its own packet and writes its result into the frame. (R385) -/
  | setupFrameReceived (p : Nat) (frame : List Byte)
  /-- SETUP_COMMIT_RECEIVED: A COMMIT frame programs the member's layers and lightbank blocks and completes its packet. (R385) -/
  | setupCommitReceived (p : Nat) (frame : List Byte)
  /-- SETUP_UNDO_RECEIVED: An UNDO frame completes the member's packet with the failing status and keeps no state. (R385) -/
  | setupUndoReceived (p : Nat) (frame : List Byte)
  /-- SETUP_FETCH_TIMEOUT: A member's packet is not fetched within 100 ms of the SETUP frame, so its result is TIMEOUT. (R385) -/
  | setupFetchTimeout (p : Nat) (frame : List Byte)
  /-- SETUP_FRAME_WAIT_TIMEOUT: A member's setup packet waits 1 s without a SETUP frame and completes with TIMEOUT. (R385) -/
  | setupFrameWaitTimeout (k : Nat)
  /-- STREAM_ADMIT: Stream-admit packet that sends an ADMIT frame round the line. (R80) -/
  | streamAdmit (k : Nat)
  /-- ADMIT_FRAME_RECEIVED: A member claims a FREE slot and writes the initial state, or turns the frame into UNDO. (R80) -/
  | admitFrameReceived (p : Nat) (frame : List Byte)
  /-- UNDO_FRAME_RECEIVED: An UNDO frame returns each CLAIMED slot of the stream to FREE. (R80) -/
  | undoFrameReceived (p : Nat) (frame : List Byte)
  /-- STREAM_PARK: Stream-park packet that moves each member's slot to a park entry or to the host image. (R83) -/
  | streamPark (k : Nat)
  /-- STREAM_RESUME: Stream-resume packet that refills slots from a park entry or from the host image. (R83) -/
  | streamResume (k : Nat)
  /-- STREAM_RELEASE: Stream-release packet that frees the stream's slots and park entries. (R83) -/
  | streamRelease (k : Nat)
  /-- STREAM_STATE_FRAME_RECEIVED: A park or resume frame on VC4 reaches a member, which copies its slot out or in. (R83) -/
  | streamStateFrameReceived (p : Nat) (frame : List Byte)
  /-- STEP: Step packet that carries one step of one stream round the line. (R85) -/
  | step (k : Nat)
  /-- CHUNK: Chunk packet that carries L consecutive steps of one stream. (R89) -/
  | chunk (k : Nat)
  /-- STEP_DISPATCH: The entry member dispatches a queued step or chunk once MAX_INFLIGHT allows, and starts its step deadline. (R75) -/
  | stepDispatch (p : Nat) (k : Nat)
  /-- ACTIVATION_FRAME_RECEIVED: An activation frame arrives at a member, which checks it and applies it to its layers, or at the entry member, which completes the packet. (R73) -/
  | activationFrameReceived (p : Nat) (frame : List Byte)
  /-- LAYER_COMPUTE_DONE: A member finishes a layer's step or chunk, writes the state and hands the frame to the next layer or hop. (R85) -/
  | layerComputeDone (p : Nat) (i : Nat)
  /-- STEP_DEADLINE_EXPIRY: A step deadline ends; the packet completes with TIMEOUT and the stream becomes TORN. (R88) -/
  | stepDeadlineExpiry (k : Nat)
  /-- LINE_BROKEN_NOTICE_RECEIVED: The entry member receives a line-broken notice and completes the line's in-flight packets with LINK_LOST. (R98) -/
  | lineBrokenNoticeReceived (p : Nat) (frame : List Byte)
  /-- BATCH_WINDOW_EXPIRY: BATCH_WINDOW ends, and the waiting steps are batched into one anvil pass. (R95) -/
  | batchWindowExpiry (p : Nat) (line : Nat) (layer : Nat := 0)
  /-- TABLE_LOAD: Table-load packet that replaces a local PWL gate table between two evaluations. (R388) -/
  | tableLoad (k : Nat)
  /-- LBK_PRODUCT_DONE: The ADC outputs are decoded and the recurrent term is written to the stream slot. (R163) -/
  | lbkProductDone (p : Nat) (i : Nat) (c0 : List Int) (c1 : List Int) (cmp0 : Option (Int × Int)) (cmp1 : Option (Int × Int))
  /-- SHADOW_VERDICT: A shadow check's digital result is compared with the analog one, and the value is replaced on divergence. (R171) -/
  | shadowVerdict (p : Nat) (i : Nat)
  /-- LBK_TEMP_SAMPLE: Every 10 µs the bank reads its temperature and recomputes heater codes, or goes to fallback when outside 40 to 70 °C. (R161) -/
  | lbkTempSample (b : Nat) (t : Nat)
  /-- LBK_SWEEP_TIMER: SWEEP_PERIOD elapses and a calibration sweep of the bank starts. (R166) -/
  | lbkSweepTimer (b : Nat)
  /-- LBK_SWEEP: Packet that starts a calibration sweep now, or joins the one running. (R389) -/
  | lbkSweep (k : Nat)
  /-- ROW_SETTLED: A spare row's heaters have settled, and its comparison with the active row begins. (R166) -/
  | rowSettled (b : Nat) (r : Nat)
  /-- ROW_FIT_DONE: A freed row's refit ends; the row becomes a spare or is marked failed. (R166) -/
  | rowFitDone (b : Nat) (residual : Nat) (inputs : List Nat)
  /-- LBK_TABLES_STALE: With no healthy spare, the row tables age beyond SWEEP_PERIOD and every block goes to fallback. (R168) -/
  | lbkTablesStale (b : Nat)
  /-- LBK_STAGE_POWER_LOSS: A stage monitor reads 3 dB low for 10 µs and the located stage is handled. (R169) -/
  | lbkStagePowerLoss (b : Nat) (stage : Nat) (idx : Nat)
  /-- LBK_LASER_CHANGE_DONE: The spare lightbank laser is tuned and switched in, and a sweep follows. (R246) -/
  | lbkLaserChangeDone (b : Nat)
  /-- LBK_BLOCK_STATUS: Returns a block's fallback state and its counters. (R389) -/
  | lbkBlockStatus (k : Nat)
  /-- LBK_FORCE_FALLBACK: Holds a block in digital fallback, or releases it. (R389) -/
  | lbkForceFallback (k : Nat)
  /-- LINK_CONFIG: Link-configuration packet that writes a port's VC weights. (R390) -/
  | linkConfig (k : Nat)
  /-- ADDRESS_ASSIGN: Address-assign packet that makes the chip a seed and floods ASSIGN. (R221) -/
  | addressAssign (k : Nat)
  /-- LINK_MEASURE: Packet that runs one time measurement on a port now. (R390) -/
  | linkMeasure (k : Nat)
  /-- SEM_SET: Semaphore-set packet that writes a semaphore value when no waiter is present. (R391) -/
  | semSet (k : Nat)
  /-- SEM_SIGNAL: Packet that signals a semaphore by COUNT. (R391) -/
  | semSignal (k : Nat)
  /-- SEM_WAIT_TIMEOUT: A semaphore wait's timeout ends first, so the wait fails and changes nothing. (R147) -/
  | semWaitTimeout (p : Nat) (i : Nat) (j : Nat)
  /-- BARRIER_SET: Packet that writes a barrier's EXPECTED, TARGET and SIGNAL_COUNT. (R391) -/
  | barrierSet (k : Nat)
  /-- BARRIER_ARRIVE: Packet that makes COUNT arrivals at a barrier in one cycle. (R391) -/
  | barrierArrive (k : Nat)
  /-- POWER_CAP: Packet that sets the chip power cap. (R392) -/
  | powerCap (k : Nat)
  /-- THERMAL_HINT: Packet that hands schedule hint records to Quench. (R433) -/
  | thermalHint (k : Nat)
  /-- POWER_READ: Returns chip and partition power, the cap, the share and the lowest effective ACLK. (R392) -/
  | powerRead (k : Nat)
  /-- EVR_COPY: Copies the event records that the issuing function may see to Hearth or to the host. (R393) -/
  | evrCopy (k : Nat)
  /-- EVR_CLEAR: Packet that clears the event recorder. (R489) -/
  | evrClear (k : Nat)
  /-- EVR_PERSIST: Packet that starts persistence of unarchived records. (R490) -/
  | evrPersist (k : Nat)
  /-- FW_STAGE: Reads, verifies and writes a firmware image into the slot that is not running. (R466) -/
  | fwStage (k : Nat)
  /-- FW_ACTIVATE: Selects a verified slot for a trial boot, or confirms the running trial slot. (R467) -/
  | fwActivate (k : Nat)
  /-- CONFIG_WRITE: Writes a configuration slot with the host's board sections and the calibration in force. (R466) -/
  | configWrite (k : Nat)
  /-- FLASH_READ: Copies flash bytes to the host. (R394) -/
  | flashRead (k : Nat)
  /-- BULK_FRAME_RECEIVED: A bulk transfer frame is written to the next slot of its binding and FULL is signalled, or the frame is dropped. (R395) -/
  | bulkFrameReceived (p : Nat) (frame : List Byte)
  /-- MANAGEMENT_FRAME_RECEIVED: A PROXY_DOORBELL or PROXY_IRQ management frame is applied or discarded. (R396) -/
  | managementFrameReceived (p : Nat) (frame : List Byte)
  /-- SQ_DOORBELL: A write of a new SQ tail, accepted or rejected against the fetch head. (R343) -/
  | sqDoorbell (fn : Nat) (p : Nat) (i : Nat) (v : Nat)
  /-- CQ_DOORBELL: A write of a new CQ head that returns completion entries. (R344) -/
  | cqDoorbell (fn : Nat) (p : Nat) (j : Nat) (v : Nat)
  /-- PROXY_DOORBELL_WRITE: A CMD_PROXY_DB write that forwards a doorbell to a proxied partition as a management frame. (R362) -/
  | proxyDoorbellWrite (fn : Nat) (p : Nat) (lo : Nat) (hi : Nat)
  /-- SQ_STOP: CMD_SQ_CTRL.STOP halts fetching from an SQ after the burst in progress. (R363) -/
  | sqStop (fn : Nat) (p : Nat) (i : Nat)
  /-- SQ_RESTART: CMD_SQ_CTRL.RESTART resumes a STOPPED ring from its head. (R351) -/
  | sqRestart (fn : Nat) (p : Nat) (i : Nat)
  /-- RING_ENABLE: A write that sets ENABLE of a ring; it is checked and resets the pointers. (R550) -/
  | ringEnable (fn : Nat) (p : Nat) (cq : Bool) (i : Nat) (v : Nat)
  /-- RING_DISABLE: A write of ENABLE = 0 that disables a ring, or is refused for a CQ still in use. (R550) -/
  | ringDisable (fn : Nat) (p : Nat) (cq : Bool) (i : Nat) (v : Nat)
  /-- FETCH_BURST_ISSUE: The fetch engine visits the next LOCKED partition and issues one burst from a ring chosen by deficit round robin. (R350) -/
  | fetchBurstIssue
  /-- FETCH_BURST_ARRIVE: Every byte of a burst has arrived; the head advances and each packet is checked and reserves a CQ slot. (R350) -/
  | fetchBurstArrive (p : Nat) (i : Nat)
  /-- PACKET_DISPATCH: A packet is handed to its unit once its fences and ring order allow. (R353) -/
  | packetDispatch (p : Nat) (i : Nat)
  /-- PACKET_TIMEOUT: A packet timeout is observed; the packet is withdrawn, stopped, or noted with NOTE 0x02. (R358) -/
  | packetTimeout (k : Nat)
  /-- PRT_LOCK: PRT_CTRL.LOCK sets the configuration lock when the partition passes its checks. (R329) -/
  | prtLock (fn : Nat) (p : Nat)
  /-- PRT_RESET: A PF write of PRT_CTRL.RESET starts a partition reset. (R333) -/
  | prtReset (p : Nat)
  /-- PRT_RELEASE: PRT_CTRL.RELEASE resets the partition and returns every carved unit to free. (R337) -/
  | prtRelease (p : Nat)
  /-- PARTITION_RESET_DONE: Zeroing and clearing end; the mode becomes resident, the lock clears, and the state settles. (R334) -/
  | partitionResetDone (p : Nat)
  /-- PARTITION_STATE_LOST: An uncorrectable error in per-partition state outside Hearth faults the partition at once. (R499) -/
  | partitionStateLost (p : Nat)
  /-- GRANULE_OWNER_WRITE: A PF write that hands a granule to a new owner or frees it, starting its zeroing. (R139) -/
  | granuleOwnerWrite (g : Nat) (v : Nat)
  /-- GRANULE_ZEROING_DONE: Zeroing of a granule ends, and accesses of its new owner proceed. (R139) -/
  | granuleZeroingDone (g : Nat)
  /-- ANVIL_OWNER_WRITE: A PRT_ANVILS write that clears an anvil's buffers, accumulators and registers before the ownership change. (R548) -/
  | anvilOwnerWrite (p : Nat) (mask : Nat)
  /-- SLOT_QUOTA_WRITE: A SEQ_SLOT_CFG write that is checked against the free quota and the stream pool limit. (R78) -/
  | slotQuotaWrite (fn : Nat) (p : Nat) (v : Nat)
  /-- POOL_LIMIT_WRITE: A PF write of the stream pool limit. (R79) -/
  | poolLimitWrite (v : Nat)
  /-- VEC_SR_SEED_WRITE: A VEC_SR_SEED write that reseeds the lane generators before the next instruction. (R124) -/
  | vecSrSeedWrite (fn : Nat) (p : Nat) (v : Nat)
  /-- SEM_VALUE_WRITE: A SEM_VALUE write, accepted only while the semaphore has no waiter. (R148) -/
  | semValueWrite (fn : Nat) (p : Nat) (i : Nat) (v : Nat)
  /-- SEM_SIGNAL_WRITE: A SEM_SIGNAL register write that signals by COUNT. (R148) -/
  | semSignalWrite (fn : Nat) (p : Nat) (i : Nat) (v : Nat)
  /-- SEM_BARRIER_WRITE: A SEM_BARRIER write, refused while arrivals are pending. (R150) -/
  | semBarrierWrite (fn : Nat) (p : Nat) (j : Nat) (v : Nat)
  /-- REGISTER_WRITE: A host write to a register with no behaviour of its own, applied whole or ignored. (R518) -/
  | registerWrite (fn : Nat) (addr : Nat) (len : Nat) (val : Nat)
  /-- LOW_WORD_READ: A read of the low word of a 64-bit pair, which latches the high word. (R269) -/
  | lowWordRead (fn : Nat) (addr : Nat) (len : Nat)
  /-- BAR0_ILLEGAL_ACCESS: A BAR0 access of an illegal size or alignment, or to a reserved offset, completes with UR or is dropped. (R295) -/
  | bar0IllegalAccess (fn : Nat) (addr : Nat) (len : Nat) (write : Bool)
  /-- HOST_BAR2_READ: A host read of Hearth through BAR2, completed after earlier posted writes. (R303) -/
  | hostBar2Read (fn : Nat) (addr : Nat) (len : Nat) (ecc : List (Nat × Bool))
  /-- HOST_BAR2_WRITE: A host posted write to Hearth through BAR2. (R303) -/
  | hostBar2Write (fn : Nat) (addr : Nat) (data : List Byte) (ecc : List (Nat × Bool) := [])
  /-- PCI_CONFIG_WRITE: A PCIe configuration write, for example to Bus Master Enable, which releases waiting requests. (R298) -/
  | pciConfigWrite (fn : Nat) (field : Nat) (val : Nat)
  /-- VF_ENABLE_WRITE: A write of VF Enable or NumVFs, accepted only while every partition is unconfigured. (R296) -/
  | vfEnableWrite (enable : Bool) (num : Nat)
  /-- HOST_PORT_RESET: PERST assertion, hot reset or DL_Down resets the PCIe core, the tags and every partition. (R290) -/
  | hostPortReset (kind : Nat)
  /-- PERST_DEASSERT: PCI_PERST_N deasserts and link training starts within 20 ms. (R291) -/
  | perstDeassert
  /-- HOST_LINK_SETTLED: Training or Recovery settles at a rate and width, and DEGRADED is set or cleared. (R292) -/
  | hostLinkSettled (rate : Nat) (width : Nat) (flit : Bool)
  /-- FUNCTION_LEVEL_RESET: An FLR of a VF resets its partition and quarantines its outstanding tags. (R317) -/
  | functionLevelReset (v : Nat)
  /-- HOST_REQUEST_ISSUE: A request waiting for Bus Master Enable or for a tag under the floor and cap rules is issued. (R307) -/
  | hostRequestIssue (r : Nat)
  /-- HOST_COMPLETION_RECEIVED: A completion arrives and ends, continues or fails its request by status and tag state. (R305) -/
  | hostCompletionReceived (tag : Nat) (fn : Nat) (status : Nat) (poison : Bool) (data : List Byte)
  /-- COMPLETION_TIMEOUT: A request's Completion Timeout is observed; the tag is quarantined and the issuer fails with HOST_READ_TIMEOUT. (R309) -/
  | completionTimeout (tag : Nat)
  /-- TAG_QUARANTINE_EXPIRY: A quarantined tag's period ends and the tag becomes free. (R310) -/
  | tagQuarantineExpiry (tag : Nat)
  /-- MSIX_UNMASK: A vector becomes unmasked and enabled, and its pending message is sent. (R299) -/
  | msixUnmask (fn : Nat) (v : Nat)
  /-- PROXY_REQUEST_RECEIVED: A serving partition receives READ_REQ or WRITE and issues it on its own host port. (R320) -/
  | proxyRequestReceived (p : Nat) (frame : List Byte)
  /-- PROXY_RESPONSE_RECEIVED: A READ_RSP or WRITE_ACK completes the source's proxy request, or is discarded as late. (R321) -/
  | proxyResponseReceived (p : Nat) (frame : List Byte)
  /-- PROXY_DEADLINE_EXPIRY: A proxy deadline ends; the request fails and its proxy tag is quarantined. (R321) -/
  | proxyDeadlineExpiry (p : Nat) (tag : Nat)
  /-- PROXY_TAG_QUARANTINE_EXPIRY: A quarantined proxy tag is freed after a further PROXY_DEADLINE. (R321) -/
  | proxyTagQuarantineExpiry (p : Nat) (tag : Nat)
  /-- LINK_TRAINING_START: A link starts training on its allotted quads: after allotment, after link-down idle, or on the 1 s retry. (R184) -/
  | linkTrainingStart (d : Nat)
  /-- TRAINING_STEP_TIMEOUT: A training step misses its limit; the attempt fails and its quads are counted towards failure. (R184) -/
  | trainingStepTimeout (d : Nat) (passed : Nat)
  /-- LINK_INIT_RECEIVED: A LINK_INIT ordered set arrives; the width is agreed, or the link is held down. (R190) -/
  | linkInitReceived (d : Nat) (os : List Byte)
  /-- CONFIG_FLIT_RECEIVED: A CONFIG flit sets credits from the peer's buffers and brings the link ACTIVE once SEEN is exchanged. (R194) -/
  | configFlitReceived (d : Nat) (flit : List Byte) (fec : Bool) (cor : Nat := 0)
  /-- DATA_FLIT_RECEIVED: A DATA flit is checked, accepted in order or discarded, and its ACK_SEQ and credits are applied. (R198) -/
  | dataFlitReceived (d : Nat) (flit : List Byte) (fec : Bool) (cor : Nat := 0)
  /-- CONTROL_FLIT_RECEIVED: A CONTROL flit's ACK_SEQ, NAK and credit totals are applied. (R196) -/
  | controlFlitReceived (d : Nat) (flit : List Byte) (fec : Bool) (cor : Nat := 0)
  /-- ACK_REPORT_DUE: 200 ns pass with unacknowledged flits, so an acknowledgement is sent. (R198) -/
  | ackReportDue (d : Nat)
  /-- NAK_REPEAT_TIMER: NAK is set again every 1 µs while a gap remains. (R199) -/
  | nakRepeatTimer (d : Nat)
  /-- REPLAY_TIMER_EXPIRY: The 2 µs replay timer ends with no ACK_SEQ advance, so every unacknowledged flit is replayed. (R200) -/
  | replayTimerExpiry (d : Nat) (tie : Bool := false)
  /-- LINK_REQ_RECEIVED: A LINK_REQ is answered with LINK_ACK, or crossing requests are resolved by CHIP_ID. (R206) -/
  | linkReqReceived (d : Nat) (os : List Byte)
  /-- LINK_ACK_RECEIVED: A LINK_ACK starts the pause; each end sends PAUSE on every active quad. (R204) -/
  | linkAckReceived (d : Nat) (os : List Byte)
  /-- LINK_REQ_RESEND_TIMER: A LINK_REQ is resent every 1 µs until LINK_ACK arrives. (R203) -/
  | linkReqResendTimer (d : Nat)
  /-- LINK_REQ_TIMEOUT: A LINK_REQ is unanswered for 10 µs, and the link goes down. (R203) -/
  | linkReqTimeout (d : Nat)
  /-- PAUSE_RECEIVED: PAUSE has been sent and received, so the new active set is fixed. (R204) -/
  | pauseReceived (d : Nat)
  /-- QUADS_READY: The quads of the new set are ready, and RESUME is sent. (R204) -/
  | quadsReady (d : Nat)
  /-- RESUME_RECEIVED: A RESUME arrives, and the sender replays from the peer's ACK_SEQ + 1. (R204) -/
  | resumeReceived (d : Nat) (os : List Byte)
  /-- PAUSE_LIMIT_EXPIRY: A retrain or width-change pause exceeds its limit, and the link goes down. (R209) -/
  | pauseLimitExpiry (d : Nat)
  /-- LINK_SILENCE_EXPIRY: No valid flit or ordered set arrives for 4 µs, and the link goes down. (R209) -/
  | linkSilenceExpiry (d : Nat)
  /-- QUAD_FAULT: A quad loses lock or exceeds its error limits; it leaves SUSTAIN and NARROW is requested. (R207) -/
  | quadFault (d : Nat) (quads : Nat)
  /-- FAILED_QUAD_RETRAIN: Every 1 s, a failed allotted quad is trained in the background. (R208) -/
  | failedQuadRetrain (d : Nat)
  /-- QUAD_PRBS_PASSED: A retrained quad runs 10 ms of PRBS cleanly, returns to SUSTAIN, and WIDEN is requested. (R208) -/
  | quadPrbsPassed (d : Nat) (k : Nat)
  /-- LNK_CTRL_RETRAIN: LNK_CTRL.RETRAIN requests a retrain handshake. (R203) -/
  | lnkCtrlRetrain (d : Nat)
  /-- LNK_CTRL_DOWN: LNK_CTRL.DOWN takes the link down. (R209) -/
  | lnkCtrlDown (d : Nat)
  /-- LNK_TARGET_QUADS_WRITE: A change of TARGET_QUADS requests a width change. (R203) -/
  | lnkTargetQuadsWrite (d : Nat) (n : Nat)
  /-- HELLO_SEND_TIMER: A port sends HELLO after its link becomes ACTIVE, and then every HELLO_PERIOD. (R218) -/
  | helloSendTimer (d : Nat)
  /-- HELLO_RECEIVED: A HELLO finds the neighbour, or flags a miswired port, or fences the port on a slice mismatch. (R219) -/
  | helloReceived (d : Nat) (frame : List Byte)
  /-- NEIGHBOUR_LOST_TIMER: Three of the neighbour's periods pass without a valid HELLO, so it is lost. (R218) -/
  | neighbourLostTimer (d : Nat)
  /-- ASSIGN_RECEIVED: An ASSIGN on a mesh port is taken when newer and then flooded, or ignored. (R221) -/
  | assignReceived (d : Nat) (frame : List Byte)
  /-- FRAME_INGRESS: A fabric frame is checked at ingress and then delivered, forwarded or dropped. (R229) -/
  | frameIngress (d : Nat) (v : Nat)
  /-- ANT_FENCE_WRITE: A write of ANT_PORT_CFG.FENCE fences a port or lifts its fence. (R226) -/
  | antFenceWrite (d : Nat) (fence : Bool)
  /-- LINE_FRAME_RECEIVED: A campus line frame is aligned and unpacked into flits and ordered sets. (R243) -/
  | lineFrameReceived (d : Nat) (c : Nat) (frame : List Byte) (fec : Bool := false)
  /-- SWAP_REQ_RECEIVED: SWAP_REQ makes the transmitter send the lane's symbols on the TO channel as well. (R250) -/
  | swapReqReceived (d : Nat) (os : List Byte)
  /-- SWAP_TO_VERIFIED: The receiver checks 1,000 clean codewords on TO, switches its input and sends SWAP_ACK. (R250) -/
  | swapToVerified (d : Nat) (ok : Bool)
  /-- SWAP_ACK_RECEIVED: SWAP_ACK stops transmission on FROM and SWAP_DONE is sent. (R250) -/
  | swapAckReceived (d : Nat) (os : List Byte)
  /-- SWAP_DONE_RECEIVED: SWAP_DONE confirms that the FROM channel is free. (R250) -/
  | swapDoneReceived (d : Nat) (os : List Byte)
  /-- SWAP_TIME_LIMIT: A swap passes its time limit and is abandoned, with TO marked suspect. (R250) -/
  | swapTimeLimit (d : Nat)
  /-- CHANNEL_CAL_VISIT: Each CAL_PERIOD, a port moves the next channel to a spare and calibrates it. (R252) -/
  | channelCalVisit (d : Nat)
  /-- CHANNEL_CAL_DONE: A freed channel finishes calibration and becomes the new spare. (R252) -/
  | channelCalDone (d : Nat) (pass : Bool) (m : ChanCal := {})
  /-- LASER_FAILED: A port laser loses power or reaches maximum bias, and a repair follows. (R245) -/
  | laserFailed (i : Nat) (bias : Nat := 0) (power : Nat := 0)
  /-- LASER_WORN: A laser's bias exceeds 1.4 times its factory value, and it is retired at its next visit. (R245) -/
  | laserWorn (i : Nat) (bias : Nat) (power : Nat := 0)
  /-- RING_LOCK_LOST: A ring's error exceeds 6 GHz for 1 ms, and its quad is faulty. (R247) -/
  | ringLockLost (d : Nat) (c : Nat) (rx : Bool) (err : Nat)
  /-- LIGHT_MONITOR_LOW: A Gleed monitor reads 3 dB low for 10 µs and the fault is located to a stage. (R257) -/
  | lightMonitorLow (d : Nat) (stage : Nat) (c : Nat) (reading : Nat := 0)
  /-- SIGNAL_ABSENT: No receive signal for 100 µs limits transmit power. (R258) -/
  | signalAbsent (d : Nat)
  /-- APR_PROBE_TIMER: A 2 ms full-power probe is sent every 1 s. (R258) -/
  | aprProbeTimer (d : Nat)
  /-- SIGNAL_RESTORED: Signal is received for 1 ms; full power is restored and training starts. (R258) -/
  | signalRestored (d : Nat)
  /-- TCLK_PRESENT: TCLK stays in its window for 1 ms; rack time starts or holdover ends. (R271) -/
  | tclkPresent
  /-- TCLK_LOST: TCLK is lost; holdover begins and every link goes down. (R271) -/
  | tclkLost
  /-- RTSYNC_PULSE: A sampled RTSYNC edge aligns, corrects or loads rack time, or is ignored. (R274) -/
  | rtsyncPulse
  /-- RTSYNC_MISS_DECISION: Four cycles after an expected instant with no pulse, a miss is counted. (R274) -/
  | rtsyncMissDecision
  /-- RACK_TICK: Bits [19:0] of rack time become zero, and an armed MT_OFFSET is applied. (R273) -/
  | rackTick
  /-- RT_LOAD_ARM: CLK_RT_LOAD ARM arms a rack-time load for the next acted-on RTSYNC. (R275) -/
  | rtLoadArm (tick : Nat)
  /-- MT_OFFSET_ARM: CLK_MT_ARM arms a new MT_OFFSET for the next rack tick. (R278) -/
  | mtOffsetArm
  /-- ACLK_PLL_LOCK_LOST: The ACLK PLL loses lock and the domain runs from OSC × 12. (R267) -/
  | aclkPllLockLost
  /-- ACLK_CHANGE_DONE: A change of chip ACLK completes once the new PLL locks. (R267) -/
  | aclkChangeDone
  /-- TIME_MEASURE_START: At training or every TIME_PERIOD, a link starts a measurement of eight TIME_REQs. (R281) -/
  | timeMeasureStart (d : Nat)
  /-- TIME_REQ_SEND: The next TIME_REQ of a measurement is sent 1 µs after the previous one. (R281) -/
  | timeReqSend (d : Nat)
  /-- TIME_REQ_RECEIVED: A TIME_REQ is stamped and answered with TIME_RSP. (R280) -/
  | timeReqReceived (d : Nat) (os : List Byte)
  /-- TIME_RSP_RECEIVED: A TIME_RSP gives one offset and delay pair. (R281) -/
  | timeRspReceived (d : Nat) (os : List Byte)
  /-- TIME_MEASURE_END: The measurement window ends; the best pair updates the offset and delay, or the measurement fails. (R281) -/
  | timeMeasureEnd (d : Nat)
  /-- INPUT_OUT: A power input is outside its limits for 20 µs, and the changeover state machine moves. (R409) -/
  | inputOut (bus : Bool) (vb : Nat) (vr : Nat) (vn : Nat)
  /-- INPUT_QUALIFIED: An input completes its qualification window, and the state machine moves to it. (R398) -/
  | inputQualified (bus : Bool) (vb : Nat) (vr : Nat) (vn : Nat)
  /-- FET_DEADTIME_EXPIRY: 10 µs after one enable falls, the other input's enable goes high. (R411) -/
  | fetDeadtimeExpiry
  /-- NODE_SETTLED: The node stays within limits for 100 µs and the changeover settles. (R411) -/
  | nodeSettled (vb : Nat) (vr : Nat) (vn : Nat)
  /-- NODE_AT_32V: The node falls to 32 V in PARK; the power-down sequence runs and the chip goes DARK. (R414) -/
  | nodeAt32v (vn : Nat)
  /-- RAIL_POWER_GOOD: A rail reaches power-good in the power-up sequence, and the next rail follows. (R405) -/
  | railPowerGood (r : Nat) (vout : Nat) (straps : Nat)
  /-- RAIL_RAMP_TIMEOUT: A rail misses its 5 ms power-up limit; the chip powers down and stays DARK. (R405) -/
  | railRampTimeout (r : Nat)
  /-- RAIL_RETRY_TIMER: One second after a failed power-up or a restartable rail fault, Bellows retries. (R405) -/
  | railRetryTimer (r : Nat)
  /-- RAIL_FAULT: A rail fault in service is handled by the rail's row of the fault table. (R406) -/
  | railFault (r : Nat) (status : Nat) (comm : Bool)
  /-- BELLOWS_CONTROL_PERIOD: Every 1 ms, power is measured and charged, and each partition's step and duty are adjusted. (R416) -/
  | bellowsControlPeriod (pout : List Nat) (est : List Nat) (seqEst : Nat) (steps : List Nat) (hearth : List Nat) (flits : List Nat) (banks : List Nat) (status : List Nat) (vb : Nat) (vr : Nat) (vn : Nat)
  /-- VCORE_DROOP: The VCORE sense falls 50 mV below setpoint, and every anvil step is halved. (R418) -/
  | vcoreDroop
  /-- VCORE_DROOP_RECOVERY: 10 µs after the sense recovers, the steps of R416 return. (R418) -/
  | vcoreDroopRecovery
  /-- BEL_CAP_WRITE: A cap write that takes effect at the next period boundary and rescales shares if needed. (R417) -/
  | belCapWrite (watts : Nat)
  /-- BEL_ACLK_WRITE: A write of TARGET_STEPS that changes N with the VCORE voltage in the right order. (R403) -/
  | belAclkWrite (steps : Nat)
  /-- VALVE_CYCLE_START: At a valve's cycle start, OPEN_MS is computed and an energise command is issued. (R429) -/
  | valveCycleStart (v : Nat) (duty : Nat) (meas : Nat)
  /-- FORECAST_TICK: Every 4 ms, the forecaster builds 64 heat bins for each section. (R428) -/
  | forecastTick (heat : List (List (List Nat))) (meas : List Nat)
  /-- PULL_TIME_END: PULL_TIME ends; the coil goes to HOLD or releases. (R425) -/
  | pullTimeEnd (v : Nat) (closing : Option Nat)
  /-- PROFILE_END: The profile end is reached, and the coil releases into RELEASE_WAIT. (R426) -/
  | profileEnd (v : Nat) (closing : Option Nat)
  /-- RELEASE_WAIT_END: RELEASE_WAIT ends, and a PENDING command starts a pull-in. (R426) -/
  | releaseWaitEnd (v : Nat)
  /-- FORCED_OFF_END: The 200 ms FORCED_OFF ends, and a PENDING command starts a pull-in. (R426) -/
  | forcedOffEnd (v : Nat)
  /-- PULL_IN_LIMIT: The 50 ms hardware limit moves the coil to HOLD. (R427) -/
  | pullInLimit (v : Nat)
  /-- ON_TIME_LIMIT: The 4.0 s hardware limit forces a release by fast decay. (R427) -/
  | onTimeLimit (v : Nat)
  /-- COIL_FAULT: An open or shorted coil makes the valve FAILED and leaves it open. (R438) -/
  | coilFault (v : Nat)
  /-- SECTION_TEMP_SAMPLE: Every 1 ms, a section's temperature is read and its level is entered or left. (R436) -/
  | sectionTempSample (x : Nat) (t : Nat) (ma : Nat)
  /-- TEMP_SOURCE_FAULT: No valid reading for 10 ms puts the section at THROTTLE. (R438) -/
  | tempSourceFault (x : Nat)
  /-- FORECAST_SILENCE: No forecast for 20 ms makes sections run reactive. (R431) -/
  | forecastSilence
  /-- THROTTLE_STEP_PERIOD: Each 1 ms, Quench's step cap falls by 2 while THROTTLE holds, or rises by 1 after it is left. (R437) -/
  | throttleStepPeriod
  /-- STOP_HOLD_TIMEOUT: A packet held 100 ms at the STOP level completes with THERMAL_LIMIT. (R437) -/
  | stopHoldTimeout (k : Nat)
  /-- QCH_CALIBRATE: QCH_CTRL.CALIBRATE starts valve delay and transit calibration. (R435) -/
  | qchCalibrate
  /-- QCH_CALIBRATION_DONE: A section's calibration visit ends, and the next section follows. (R435) -/
  | qchCalibrationDone (closing : Nat) (opening : Nat) (transit : Nat) (idle : Nat)
  /-- VALVE_CLEAR: QCH_VALVE_CFG.CLEAR returns a FAILED valve to OFF. (R438) -/
  | valveClear (v : Nat)
  /-- AUX_RISE: AUX power rises; the AUX domain resets and the power-on timeline starts. (R448) -/
  | auxRise
  /-- CHIP_RESET: A chip reset resets every partition and the host port, and runs the boot again. (R446) -/
  | chipReset (cause : Nat)
  /-- GLB_CHIP_RESET: A PF write of GLB_CTRL.CHIP_RESET starts a chip reset. (R445) -/
  | glbChipReset
  /-- CHIP_READY: Configuration is applied and READY is set, after Quench calibration if needed. (R448) -/
  | chipReady
  /-- SMITH_WATCHDOG_EXPIRY: A smith's 500 ms watchdog expires and a chip reset follows. (R444) -/
  | smithWatchdogExpiry (k : Nat)
  /-- FLASH_OP_DONE: A flash program or erase ends, and the next operation of the sequence follows. (R457) -/
  | flashOpDone (blank : Bool)
  /-- FLASH_BUSY_TIMEOUT: A program still busy at 5 ms or an erase at 3 s is a flash fault. (R457) -/
  | flashBusyTimeout
  /-- CALIBRATION_SAVE_TIMER: Refined calibration is saved to the other configuration slot, at most once per 24 h. (R465) -/
  | calibrationSaveTimer
  /-- MCTP_CONTROL_MESSAGE: An MCTP control message arrives on the sideband and is answered. (R469) -/
  | mctpControlMessage (cmd : Nat) (data : List Byte)
  /-- PLDM_MONITOR_REQUEST: A PLDM Type 0 or Type 2 request is answered. (R469) -/
  | pldmMonitorRequest (typ : Nat) (cmd : Nat) (data : List Byte)
  /-- PLDM_UPDATE_COMMAND: A PLDM Type 5 update command stages the image or the configuration. (R469) -/
  | pldmUpdateCommand (cmd : Nat) (data : List Byte)
  /-- PLDM_ACTIVATE_FIRMWARE: ActivateFirmware applies FW_ACTIVATE and then a chip reset with cause 4. (R469) -/
  | pldmActivateFirmware
  /-- SPDM_REQUEST: An SPDM request for identity, certificates, challenge or measurements is answered. (R469) -/
  | spdmRequest (code : Nat) (p1 : Nat) (p2 : Nat) (data : List Byte)
  /-- DEBUG_TAP_TOKEN: A signed token opens the private debug TAP. (R469) -/
  | debugTapToken (key : Nat) (token : List Byte)
  /-- JTAG_INSTRUCTION: A boundary-scan instruction is applied, with the power and valve balls observe-only. (R538) -/
  | jtagInstruction (instr : Nat)
  /-- EVR_EVENT_TAKEN: The recorder takes a queued event and coalesces, suppresses, loses or records it. (R482) -/
  | evrEventTaken
  /-- EVR_TOKEN_REFILL: A code's bucket gains one token every 1 / RATE s. (R484) -/
  | evrTokenRefill (code : Nat)
  /-- EVR_CTRL_CLEAR: EVR_CTRL.CLEAR clears the recorder, unless the clear is refused. (R489) -/
  | evrCtrlClear (force : Bool)
  /-- EVR_CTRL_PERSIST: EVR_CTRL.PERSIST starts persistence. (R490) -/
  | evrCtrlPersist
  /-- EVR_CURSOR_FIRST: EVR_CURSOR.FIRST moves the cursor to the lowest visible VALID slot. (R488) -/
  | evrCursorFirst (fn : Nat)
  /-- EVR_CURSOR_NEXT: EVR_CURSOR.NEXT moves the cursor to the next visible VALID slot above INDEX. (R488) -/
  | evrCursorNext (fn : Nat) (idx : Nat)
  /-- ARCHIVE_RECORD: The steward smith writes the oldest unarchived record to the archive ring and sets ARCHIVED. (R491) -/
  | archiveRecord
  /-- CHIP_FATAL_FAULT: A chip-fatal cause stops fetching, aborts laps, notifies, and starts persistence. (R502) -/
  | chipFatalFault (cause : Nat) (book : Nat)
  /-- FATAL_RESET_TIMEOUT: 2.0 s after a chip-fatal fault with no mark written, a chip reset with cause 5 follows. (R502) -/
  | fatalResetTimeout
  /-- FATAL_COUNT_EXPIRY: 600 s after the last fatal reset, FATAL_RESETS returns to 0. (R504) -/
  | fatalCountExpiry
  /-- GLB_FAULT_RELEASE: GLB_FAULT_CTRL.RELEASE clears HELD and FATAL_RESETS and sets READY. (R504) -/
  | glbFaultRelease
  /-- SCRUB_READ: The scrubber reads the next Hearth word and handles any error under R133. (R135) -/
  | scrubRead (find : Nat)
  /-- FLIT_SLOT: The link transmitter fills its next flit slot with a replayed flit, an owed CONTROL flit, a CONFIG flit or a DATA flit chosen by VC arbitration and credit. (R192) -/
  | flitSlot (d : Nat)
  /-- TRAINING_LOCK_ACHIEVED: The quads of a training link achieve signal detect, CDR lock, equaliser adaptation, FEC lock and deskew, and LINK_INIT starts on each quad. (R184) -/
  | trainingLockAchieved (d : Nat)
  /-- RETRAIN_ADVANCE_TIMEOUT: ACK_SEQ has not advanced within 1 ms after an escalated retrain resumed, so the link goes down. (R201) -/
  | retrainAdvanceTimeout (d : Nat)
  /-- ACLK_PLL_LOCK_RESTORED: The ACLK PLL regains lock and the domain returns from OSC × 12 to its set frequency. (R267) -/
  | aclkPllLockRestored
  /-- ANVIL_CLEARING_DONE: Clearing of an anvil's buffers, accumulators and registers ends within 10 µs, and its ownership change takes effect. (R548) -/
  | anvilClearingDone (a : Nat)
  /-- AUX_FALL: AUX power falls, and the recorder SRAM, the AUX-domain registers, the changeover hardware and the valve engine are lost. (R472) -/
  | auxFall
  /-- LASER_SECTION_OUT_OF_RANGE: The Gleed laser section lies outside 54.0 to 56.0 °C for 100 ms, and event 0x2208 is recorded. (R261) -/
  | laserSectionOutOfRange
  /-- PCI_REFCLK_RESTORED: PCI_REFCLK becomes present, and the PCIe core leaves the reset it was held in and PCLK runs. (R289) -/
  | pciRefclkRestored
  /-- BOOT_IMAGE_LOADED: The ROM finishes reading and verifying the chosen image, loads it, and all four smiths start firmware. (R448) -/
  | bootImageLoaded (fit : Bool)
  /-- HOST_PORT_STAGE: Firmware has read and applied the configuration and loaded the function configuration, so configuration requests are answered without retry. (R291) -/
  | hostPortStage
  /-- VCORE_SETTLED: The AVSBus status reports VCORE settled at its higher voltage, and Bellows then raises N. (R403) -/
  | vcoreSettled
  /-- ARMATURE_NO_MOTION: A pull-in shows no current dip within 60 ms, so event 0x4104 is recorded and DELAY is left unchanged. (R434) -/
  | armatureNoMotion (v : Nat)
deriving DecidableEq, Repr

end Sys2Proof
end

