-- ==== Sys2Proof/Decode.lean ====
section
/-! DEFINITION. Commands spelled by words. The opcode table gives bits to no row: every command comes from outside as
a register access, a packet, a frame or an event, never as an instruction word. -/
namespace Sys2Proof

/-- The command that a word spells by the table's bits; the table gives none, so no word spells one (log entry 1). -/
def decodeTableWord (_nbits _w : Nat) : Option Instr := none

end Sys2Proof
end

