-- ==== Sys2Proof/Config.lean ====
section
/-! DEFINITION. What one chip fixes and the manual leaves open: fuses, signature verification, and the stream of free
values. Each is a constant without a body, so no proof can lean on what it is. -/
namespace Sys2Proof

/-- The stream of free values: the n-th value that the manual leaves open. DESIGN CHOICE (log entry 3): the step reads
the stream at State.freeCtr and advances it. -/
opaque Config.freeWord : Nat → BitVec 64

/-- CHIP_ID, fused at manufacture (R451). -/
opaque Config.chipId : BitVec 64

/-- Security version floor fused at manufacture, 0 to 63 (R451). -/
opaque Config.svnFloor : BitVec 6

/-- KEY_VALID bits fused at manufacture (R451). -/
opaque Config.keyValid : BitVec 4

/-- KEY_REVOKED bits fused at manufacture (R451). -/
opaque Config.keyRevoked : BitVec 4

/-- SHA-384 digests of the public keys of the four key slots, fused at manufacture (R451). -/
opaque Config.keyDigest : Nat → BitVec 384

/-- ECDSA P-384 (R451, R452, R463): whether a signature, r then s, over a SHA-384 value holds under a public key, X then Y. The manual
names the algorithm and not its computation. -/
opaque Config.signatureGood : List (BitVec 8) → BitVec 384 → List (BitVec 8) → Bool

/-- The signature of a debug token under the key of a slot (R469): the manual gives no layout of the token. -/
opaque Config.tokenGood : Nat → List (BitVec 8) → Bool

/-- Factory crosstalk coefficients of the rack ports' rings (R247), signed Q1.15: port, ring, neighbour 0 to 5. -/
opaque Config.ringCrosstalk : Nat → Nat → Nat → BitVec 16

/-- GLD_CAL as a save writes it (R463), from the section in force and the place in the stream of free values: its layout is Sahold's
own. -/
opaque Config.gldCal : List (BitVec 8) → Nat → List (BitVec 8)

/-- HMAC-SHA-384 over the calibration sections with the key derived from the device key seed (R463): the manual names the
algorithm and keeps the seed from every reader. -/
opaque Config.calMac : List (BitVec 8) → BitVec 384

/-- SHA-384 (R463, R469): the manual names the algorithm and does not give its computation. -/
opaque Config.sha384 : List (BitVec 8) → BitVec 384

/-- SHA-384 of the boot ROM (R469). -/
opaque Config.romDigest : BitVec 384

/-- The version field of the JTAG IDCODE (R538). -/
opaque Config.jtagVersion : BitVec 4

/-- The JEDEC manufacturer identity of Sahold (R538). -/
opaque Config.jedecId : BitVec 11

end Sys2Proof
end

