-- ==== Sys2Proof/Machine/Bits.lean ====
section
/-! DEFINITION. Bit fields, byte order, tables and CRC-32C, as the whole manual uses them. -/
namespace Sys2Proof.Machine

/-- Bits [hi:lo] of a number. -/
def bits (w hi lo : Nat) : Nat := (w / 2 ^ lo) % 2 ^ (hi + 1 - lo)

/-- The number `w` with bits [hi:lo] replaced by `v` (taken modulo the field's width). -/
def putBits (w hi lo v : Nat) : Nat :=
  w - bits w hi lo * 2 ^ lo + (v % 2 ^ (hi + 1 - lo)) * 2 ^ lo

/-- Bit `i` of a number. -/
def bitAt (w i : Nat) : Bool := w / 2 ^ i % 2 == 1

/-- Boolean as a bit. -/
def b2n (b : Bool) : Nat := if b then 1 else 0

/-- Field [hi:lo] of a register word. -/
def fld (w : Word) (hi lo : Nat) : Nat := bits w.toNat hi lo

/-- A register word with field [hi:lo] set to `v`. -/
def setFld (w : Word) (hi lo v : Nat) : Word := BitVec.ofNat 32 (putBits w.toNat hi lo v)

/-- Saturating 32-bit increment of a counter word. -/
def satAdd (w : Word) (n : Nat) : Word := BitVec.ofNat 32 (min (w.toNat + n) 0xFFFFFFFF)

/-- Little-endian value of a byte list. -/
def leVal : List Byte → Nat
  | [] => 0
  | b :: bs => b.toNat + 256 * leVal bs

/-- `n` little-endian bytes of a number. -/
def leBytes : Nat → Nat → List Byte
  | 0, _ => []
  | n + 1, v => BitVec.ofNat 8 v :: leBytes n (v / 256)

/-- `n` bytes at an offset; bytes beyond the end of the list read as zero. -/
def slice (bs : List Byte) (off n : Nat) : List Byte :=
  let t := (bs.drop off).take n
  t ++ List.replicate (n - t.length) 0

/-- Unsigned 8-bit field at a byte offset. -/
def u8 (bs : List Byte) (off : Nat) : Nat := leVal (slice bs off 1)
/-- Unsigned little-endian 16-bit field at a byte offset. -/
def u16 (bs : List Byte) (off : Nat) : Nat := leVal (slice bs off 2)
/-- Unsigned little-endian 32-bit field at a byte offset. -/
def u32 (bs : List Byte) (off : Nat) : Nat := leVal (slice bs off 4)
/-- Unsigned little-endian 64-bit field at a byte offset. -/
def u64 (bs : List Byte) (off : Nat) : Nat := leVal (slice bs off 8)

/-- The list with the bytes from `off` on replaced by `v`; it keeps its length. -/
def splice (bs : List Byte) (off : Nat) (v : List Byte) : List Byte :=
  bs.take off ++ (v.take (bs.length - off)) ++ bs.drop (off + v.length)

/-- Signed reading of an `n`-bit two's complement number. -/
def sext (n v : Nat) : Int := if v < 2 ^ (n - 1) then (v : Int) else (v : Int) - (2 ^ n : Nat)

/-- `n`-bit two's complement of an integer. -/
def twos (n : Nat) (v : Int) : Nat := (v % ((2 ^ n : Nat) : Int)).toNat

/-- One step of the reflected CRC-32C register for one input bit (polynomial 0x1EDC6F41, reflected 0x82F63B78). -/
def crcBit (c : BitVec 32) : BitVec 32 :=
  if c.getLsbD 0 then (c >>> 1) ^^^ 0x82F63B78#32 else c >>> 1

/-- Eight CRC steps over one byte. -/
def crcByte (c : BitVec 32) (b : Byte) : BitVec 32 :=
  crcBit <| crcBit <| crcBit <| crcBit <| crcBit <| crcBit <| crcBit <| crcBit <| (c ^^^ b.setWidth 32)

/-- CRC-32C of a byte list, with all-ones start and final inversion. -/
def crc32c (bs : List Byte) : Nat := (~~~ (bs.foldl crcByte 0xFFFFFFFF#32)).toNat

/-- Round up to a multiple of `m`. -/
def roundUp (n m : Nat) : Nat := (n + m - 1) / m * m

/-- Number of ones in the low `n` bits. -/
def popcount : Nat → Nat → Nat
  | 0, _ => 0
  | n + 1, w => w % 2 + popcount n (w / 2)

/-- Positions of the ones in the low `n` bits, rising. -/
def onesOf (n w : Nat) : List Nat := (List.range n).filter (bitAt w)

/-- The word whose ones are at the listed positions. -/
def maskOf (l : List Nat) : Nat := l.foldl (fun m i => if bitAt m i then m else m + 2 ^ i) 0

/-! Tables. -/

/-- The entry of a key, if there is one. -/
def tfind {α : Type} : Tbl α → Nat → Option α
  | [], _ => none
  | (k, v) :: t, i => if k = i then some v else tfind t i

/-- The entry of a key, or the default value. -/
def tget {α : Type} (d : α) (t : Tbl α) (i : Nat) : α := (tfind t i).getD d

/-- Remove a key. -/
def tdel {α : Type} : Tbl α → Nat → Tbl α
  | [], _ => []
  | (k, v) :: t, i => if k = i then tdel t i else (k, v) :: tdel t i

/-- Insert or replace an entry, keeping the keys rising. -/
def tput {α : Type} : Tbl α → Nat → α → Tbl α
  | [], i, x => [(i, x)]
  | (k, v) :: t, i, x =>
    if i < k then (i, x) :: (k, v) :: t
    else if i = k then (k, x) :: t
    else (k, v) :: tput t i x

/-- Set an entry; the default value is kept unlisted. -/
def tset {α : Type} [DecidableEq α] (d : α) (t : Tbl α) (i : Nat) (x : α) : Tbl α :=
  if x = d then tdel t i else tput t i x

/-- Keys strictly rising, each above `lo`. -/
def twfFrom {α : Type} (ok : Nat → α → Bool) : Nat → Tbl α → Bool
  | _, [] => true
  | lo, (k, v) :: t => decide (lo ≤ k) && ok k v && twfFrom ok (k + 1) t

/-- The canonical form of a table: rising keys, and every entry meets `ok`. -/
def twf {α : Type} (ok : Nat → α → Bool) (t : Tbl α) : Bool := twfFrom ok 0 t

/-- Sorted insertion into a list of numbers without repeats. -/
def insNat : List Nat → Nat → List Nat
  | [], i => [i]
  | k :: t, i => if i < k then i :: k :: t else if i = k then k :: t else k :: insNat t i

end Sys2Proof.Machine
end

