-- ==== Sys2Proof/Machine/RegMap.lean ====
section
/-! DEFINITION. The register map: every register of the manual with its address, its fields, their access codes,
their reset values, their ranges and their reset domains (R514, R518, R524, and the register tables of each chapter:
R63, R97, R127, R154, R174, R211, R234, R262, R285, R322, R339, R363, R420, R441, R470, R494, R512). A field whose
reset value the table gives by index or by port is completed in `resetWord` of RegFile.lean. -/
namespace Sys2Proof.Machine

/-- Access codes (R518, R520). -/
inductive Acc where
  | ro | rw | rwl | w1s | w1c | wo
deriving DecidableEq, Repr

/-- Reset domains (R524). -/
inductive Dom where
  | aux | carve | part | hostPort | chip
deriving DecidableEq, Repr

/-- One field of a register: bits [hi:lo], access code, reset value, legal range, reset domain. -/
structure Fld where
  hi : Nat
  lo : Nat
  acc : Acc
  rst : Nat
  min : Nat
  max : Nat
  dom : Dom
deriving DecidableEq, Repr

/-- One register of the map: `insts` instances `istride` bytes apart, each with `n` copies `stride` bytes apart. -/
structure RegDesc where
  name : String
  base : Nat
  insts : Nat
  istride : Nat
  n : Nat
  stride : Nat
  flds : List Fld
deriving DecidableEq, Repr

/-- The 21 blocks in the order of R293, which is also the order of the VF windows (R515). -/
inductive Blk where
  | glb | pci | prt | cmd | anv | vec | hrt | tng | sem | seq | prc | lbk | lnk | ant | gld | clk | bel | qch | nvs
  | evr | sec
deriving DecidableEq, Repr

/-- Address of GLB_STATUS (R470). -/
def adrGlbStatus : Nat := 0x00000000
/-- Address of GLB_RESET_CAUSE (R470). -/
def adrGlbResetCause : Nat := 0x00000004
/-- Address of GLB_CHIP_ID_LO (R470). -/
def adrGlbChipIdLo : Nat := 0x00000008
/-- Address of GLB_CHIP_ID_HI (R470). -/
def adrGlbChipIdHi : Nat := 0x0000000C
/-- Address of GLB_CTRL (R470). -/
def adrGlbCtrl : Nat := 0x00000010
/-- Address of GLB_FW_VERSION (R470). -/
def adrGlbFwVersion : Nat := 0x00000014
/-- Address of GLB_FAULT_CFG (R512). -/
def adrGlbFaultCfg : Nat := 0x00000100
/-- Address of GLB_FAULT_STATUS (R512). -/
def adrGlbFaultStatus : Nat := 0x00000104
/-- Address of GLB_FAULT_CTRL (R512). -/
def adrGlbFaultCtrl : Nat := 0x00000108
/-- Address of GLB_FAULT_ESC (R512). -/
def adrGlbFaultEsc (j : Nat) : Nat := 0x00000110 + 0x4 * j
/-- Address of PCI_LINK_STATUS (R322). -/
def adrPciLinkStatus : Nat := 0x00100000
/-- Address of PCI_TAG_CFG (R322). -/
def adrPciTagCfg : Nat := 0x00100010
/-- Address of PCI_TAG_STATUS (R322). -/
def adrPciTagStatus : Nat := 0x00100014
/-- Address of PCI_REQ_TAGS (R322). -/
def adrPciReqTags (j : Nat) : Nat := 0x00100100 + 0x4 * j
/-- Address of PCI_PROXY_CFG (R322). -/
def adrPciProxyCfg (j : Nat) : Nat := 0x00100200 + 0x8 * j
/-- Address of PCI_PROXY_DEADLINE (R322). -/
def adrPciProxyDeadline (j : Nat) : Nat := 0x00100204 + 0x8 * j
/-- Address of PCI_CPL_TIMEOUTS (R322). -/
def adrPciCplTimeouts : Nat := 0x00100400
/-- Address of PCI_LATE_CPL (R322). -/
def adrPciLateCpl : Nat := 0x00100404
/-- Address of PCI_UNEXPECTED_CPL (R322). -/
def adrPciUnexpectedCpl : Nat := 0x00100408
/-- Address of PCI_CPL_ERRORS (R322). -/
def adrPciCplErrors : Nat := 0x0010040C
/-- Address of PCI_POISON_RX (R322). -/
def adrPciPoisonRx : Nat := 0x00100410
/-- Address of PCI_PROXY_LATE (R322). -/
def adrPciProxyLate : Nat := 0x00100414
/-- Address of PCI_HOLE_ACCESSES (R322). -/
def adrPciHoleAccesses : Nat := 0x00100418
/-- Address of PRT_STATUS (R339). -/
def adrPrtStatus (i : Nat) : Nat := 0x00200000 + 0x10000 * i
/-- Address of PRT_CTRL (R339). -/
def adrPrtCtrl (i : Nat) : Nat := 0x00200004 + 0x10000 * i
/-- Address of PRT_ANVILS (R339). -/
def adrPrtAnvils (i : Nat) : Nat := 0x00200010 + 0x10000 * i
/-- Address of PRT_TONGS (R339). -/
def adrPrtTongs (i : Nat) : Nat := 0x00200014 + 0x10000 * i
/-- Address of PRT_BANKS (R339). -/
def adrPrtBanks (i : Nat) : Nat := 0x00200018 + 0x10000 * i
/-- Address of PRT_POWER_SHARE (R339). -/
def adrPrtPowerShare (i : Nat) : Nat := 0x00200020 + 0x10000 * i
/-- Address of PRT_RESETS (R339). -/
def adrPrtResets (i : Nat) : Nat := 0x00200100 + 0x10000 * i
/-- Address of PRT_RESET_DROPS (R339). -/
def adrPrtResetDrops (i : Nat) : Nat := 0x00200104 + 0x10000 * i
/-- Address of PRT_FREE (R339). -/
def adrPrtFree : Nat := 0x00280000
/-- Address of FETCHED (R363). -/
def adrFetched (i : Nat) : Nat := 0x00300040 + 0x10000 * i
/-- Address of COMPLETED (R363). -/
def adrCompleted (i : Nat) : Nat := 0x00300044 + 0x10000 * i
/-- Address of FAILED (R363). -/
def adrFailed (i : Nat) : Nat := 0x00300048 + 0x10000 * i
/-- Address of TIMEOUTS (R363). -/
def adrTimeouts (i : Nat) : Nat := 0x0030004C + 0x10000 * i
/-- Address of DB_REJECTED (R363). -/
def adrDbRejected (i : Nat) : Nat := 0x00300050 + 0x10000 * i
/-- Address of CMD_SQ_BASE_LO (R363). -/
def adrCmdSqBaseLo (i j : Nat) : Nat := 0x00300100 + 0x10000 * i + 0x20 * j
/-- Address of CMD_SQ_BASE_HI (R363). -/
def adrCmdSqBaseHi (i j : Nat) : Nat := 0x00300104 + 0x10000 * i + 0x20 * j
/-- Address of CMD_SQ_CFG (R363). -/
def adrCmdSqCfg (i j : Nat) : Nat := 0x00300108 + 0x10000 * i + 0x20 * j
/-- Address of CMD_SQ_CTRL (R363). -/
def adrCmdSqCtrl (i j : Nat) : Nat := 0x0030010C + 0x10000 * i + 0x20 * j
/-- Address of CMD_SQ_STATUS (R363). -/
def adrCmdSqStatus (i j : Nat) : Nat := 0x00300110 + 0x10000 * i + 0x20 * j
/-- Address of CMD_SQ_TAIL (R363). -/
def adrCmdSqTail (i j : Nat) : Nat := 0x00300114 + 0x10000 * i + 0x20 * j
/-- Address of CMD_SQ_TIMEOUT (R363). -/
def adrCmdSqTimeout (i j : Nat) : Nat := 0x00300118 + 0x10000 * i + 0x20 * j
/-- Address of CMD_CQ_BASE_LO (R363). -/
def adrCmdCqBaseLo (i j : Nat) : Nat := 0x00300400 + 0x10000 * i + 0x20 * j
/-- Address of CMD_CQ_BASE_HI (R363). -/
def adrCmdCqBaseHi (i j : Nat) : Nat := 0x00300404 + 0x10000 * i + 0x20 * j
/-- Address of CMD_CQ_CFG (R363). -/
def adrCmdCqCfg (i j : Nat) : Nat := 0x00300408 + 0x10000 * i + 0x20 * j
/-- Address of CMD_CQ_IRQ (R363). -/
def adrCmdCqIrq (i j : Nat) : Nat := 0x0030040C + 0x10000 * i + 0x20 * j
/-- Address of CMD_CQ_STATUS (R363). -/
def adrCmdCqStatus (i j : Nat) : Nat := 0x00300410 + 0x10000 * i + 0x20 * j
/-- Address of CMD_CQ_RESERVED (R363). -/
def adrCmdCqReserved (i j : Nat) : Nat := 0x00300414 + 0x10000 * i + 0x20 * j
/-- Address of CMD_CQ_HEAD (R363). -/
def adrCmdCqHead (i j : Nat) : Nat := 0x00300418 + 0x10000 * i + 0x20 * j
/-- Address of CMD_SQ_DB (R363). -/
def adrCmdSqDb (i j : Nat) : Nat := 0x00301000 + 0x10000 * i + 0x10 * j
/-- Address of CMD_CQ_DB (R363). -/
def adrCmdCqDb (i j : Nat) : Nat := 0x00301008 + 0x10000 * i + 0x10 * j
/-- Address of CMD_PROXY_DB_LO (R363). -/
def adrCmdProxyDbLo (i : Nat) : Nat := 0x00301200 + 0x10000 * i
/-- Address of CMD_PROXY_DB_HI (R363). -/
def adrCmdProxyDbHi (i : Nat) : Nat := 0x00301204 + 0x10000 * i
/-- Address of ANV_STATUS (R127). -/
def adrAnvStatus (i : Nat) : Nat := 0x00400000 + 0x10000 * i
/-- Address of PASSES (R127). -/
def adrPasses (i : Nat) : Nat := 0x00400100 + 0x10000 * i
/-- Address of ANV_INT_SAT (R127). -/
def adrAnvIntSat (i : Nat) : Nat := 0x00400104 + 0x10000 * i
/-- Address of ANV_NAN_SCALE (R127). -/
def adrAnvNanScale (i : Nat) : Nat := 0x00400108 + 0x10000 * i
/-- Address of ANV_ECC_CORRECTED (R127). -/
def adrAnvEccCorrected (i : Nat) : Nat := 0x0040010C + 0x10000 * i
/-- Address of VEC_CVT_CFG (R127). -/
def adrVecCvtCfg (i : Nat) : Nat := 0x00500010 + 0x10000 * i
/-- Address of VEC_SR_SEED (R127). -/
def adrVecSrSeed (i : Nat) : Nat := 0x00500014 + 0x10000 * i
/-- Address of VEC_NAN_TO_INT (R127). -/
def adrVecNanToInt (i : Nat) : Nat := 0x00500100 + 0x10000 * i
/-- Address of HRT_GRANULE_OWNER (R154). -/
def adrHrtGranuleOwner (j : Nat) : Nat := 0x00600000 + 0x4 * j
/-- Address of HRT_SCRUB_CFG (R154). -/
def adrHrtScrubCfg : Nat := 0x00600400
/-- Address of HRT_ECC_CORRECTED (R154). -/
def adrHrtEccCorrected : Nat := 0x00600500
/-- Address of HRT_ECC_POISONED (R154). -/
def adrHrtEccPoisoned : Nat := 0x00600504
/-- Address of HRT_POISON_READS (R154). -/
def adrHrtPoisonReads : Nat := 0x00600508
/-- Address of TNG_STATUS (R154). -/
def adrTngStatus (i : Nat) : Nat := 0x00700000 + 0x8000 * i
/-- Address of TNG_CURRENT (R154). -/
def adrTngCurrent (i : Nat) : Nat := 0x00700008 + 0x8000 * i
/-- Address of SEM_VALUE (R154). -/
def adrSemValue (i j : Nat) : Nat := 0x00800000 + 0x10000 * i + 0x10 * j
/-- Address of SEM_SIGNAL (R154). -/
def adrSemSignal (i j : Nat) : Nat := 0x00800004 + 0x10000 * i + 0x10 * j
/-- Address of SEM_STATUS (R154). -/
def adrSemStatus (i j : Nat) : Nat := 0x00800008 + 0x10000 * i + 0x10 * j
/-- Address of SEM_BARRIER (R154). -/
def adrSemBarrier (i j : Nat) : Nat := 0x00802000 + 0x10000 * i + 0x10 * j
/-- Address of SEM_BARRIER_STATE (R154). -/
def adrSemBarrierState (i j : Nat) : Nat := 0x00802004 + 0x10000 * i + 0x10 * j
/-- Address of SEQ_SLOT_CFG (R97). -/
def adrSeqSlotCfg (i : Nat) : Nat := 0x00900010 + 0x10000 * i
/-- Address of SEQ_STEP_CFG (R97). -/
def adrSeqStepCfg (i : Nat) : Nat := 0x00900014 + 0x10000 * i
/-- Address of SEQ_BATCH_CFG (R97). -/
def adrSeqBatchCfg (i : Nat) : Nat := 0x00900018 + 0x10000 * i
/-- Address of SEQ_OCCUPANCY (R97). -/
def adrSeqOccupancy (i : Nat) : Nat := 0x00900100 + 0x10000 * i
/-- Address of STEPS_DONE (R97). -/
def adrStepsDone (i : Nat) : Nat := 0x00900200 + 0x10000 * i
/-- Address of STEP_TIMEOUTS (R97). -/
def adrStepTimeouts (i : Nat) : Nat := 0x00900204 + 0x10000 * i
/-- Address of LATE_RETURNS (R97). -/
def adrLateReturns (i : Nat) : Nat := 0x00900208 + 0x10000 * i
/-- Address of TORN (R97). -/
def adrTorn (i : Nat) : Nat := 0x0090020C + 0x10000 * i
/-- Address of PWL_NAN (R97). -/
def adrPwlNan (i : Nat) : Nat := 0x00900210 + 0x10000 * i
/-- Address of SEQ_TABLE_WORD (R97). -/
def adrSeqTableWord (i j : Nat) : Nat := 0x00901000 + 0x10000 * i + 0x4 * j
/-- Address of SEQ_POOL (R97). -/
def adrSeqPool : Nat := 0x00980000
/-- Address of PRC_HOP_TIMING0 (R62). -/
def adrPrcHopTiming0 (i : Nat) : Nat := 0x00A00010 + 0x10000 * i
/-- Address of PRC_HOP_TIMING1 (R62). -/
def adrPrcHopTiming1 (i : Nat) : Nat := 0x00A00014 + 0x10000 * i
/-- Address of PRC_COMMIT_WINDOW (R62). -/
def adrPrcCommitWindow (i : Nat) : Nat := 0x00A00018 + 0x10000 * i
/-- Address of PRC_RING_STATUS (R63). -/
def adrPrcRingStatus (i j : Nat) : Nat := 0x00A00100 + 0x10000 * i + 0x4 * j
/-- Address of DUPLICATES (R63). -/
def adrDuplicates (i : Nat) : Nat := 0x00A00200 + 0x10000 * i
/-- Address of STALE (R63). -/
def adrStale (i : Nat) : Nat := 0x00A00204 + 0x10000 * i
/-- Address of DETOURS (R63). -/
def adrDetours (i : Nat) : Nat := 0x00A00208 + 0x10000 * i
/-- Address of SEGMENT_RESENDS (R63). -/
def adrSegmentResends (i : Nat) : Nat := 0x00A0020C + 0x10000 * i
/-- Address of ABORTS (R63). -/
def adrAborts (i : Nat) : Nat := 0x00A00210 + 0x10000 * i
/-- Address of LBK_STATUS (R174). -/
def adrLbkStatus (i : Nat) : Nat := 0x00B00000 + 0x10000 * i
/-- Address of LBK_CAL_CFG (R174). -/
def adrLbkCalCfg (i : Nat) : Nat := 0x00B00010 + 0x10000 * i
/-- Address of LBK_ROW_MAP (R174). -/
def adrLbkRowMap (i j : Nat) : Nat := 0x00B00100 + 0x10000 * i + 0x4 * j
/-- Address of LBK_ROW_HEALTH (R174). -/
def adrLbkRowHealth (i j : Nat) : Nat := 0x00B00200 + 0x10000 * i + 0x4 * j
/-- Address of LBK_BLOCK0 (R174). -/
def adrLbkBlock0 (i j : Nat) : Nat := 0x00B00400 + 0x10000 * i + 0x10 * j
/-- Address of LBK_BLOCK1 (R174). -/
def adrLbkBlock1 (i j : Nat) : Nat := 0x00B00404 + 0x10000 * i + 0x10 * j
/-- Address of PRODUCTS (R174). -/
def adrProducts (i : Nat) : Nat := 0x00B00800 + 0x10000 * i
/-- Address of SHADOW_CHECKS (R174). -/
def adrShadowChecks (i : Nat) : Nat := 0x00B00804 + 0x10000 * i
/-- Address of DIVERGED (R174). -/
def adrDiverged (i : Nat) : Nat := 0x00B00808 + 0x10000 * i
/-- Address of CLIPS (R174). -/
def adrClips (i : Nat) : Nat := 0x00B0080C + 0x10000 * i
/-- Address of FALLBACK_PRODUCTS (R174). -/
def adrFallbackProducts (i : Nat) : Nat := 0x00B00810 + 0x10000 * i
/-- Address of PRODUCTS_NONFINITE (R174). -/
def adrProductsNonfinite (i : Nat) : Nat := 0x00B00814 + 0x10000 * i
/-- Address of LNK_ALLOT0 (R211). -/
def adrLnkAllot0 : Nat := 0x00C80000
/-- Address of LNK_ALLOT1 (R211). -/
def adrLnkAllot1 : Nat := 0x00C80004
/-- Address of LNK_STATUS (R211). -/
def adrLnkStatus (i : Nat) : Nat := 0x00C00000 + 0x10000 * i
/-- Address of LNK_PEER_ID_LO (R211). -/
def adrLnkPeerIdLo (i : Nat) : Nat := 0x00C00008 + 0x10000 * i
/-- Address of LNK_PEER_ID_HI (R211). -/
def adrLnkPeerIdHi (i : Nat) : Nat := 0x00C0000C + 0x10000 * i
/-- Address of LNK_CTRL (R211). -/
def adrLnkCtrl (i : Nat) : Nat := 0x00C00010 + 0x10000 * i
/-- Address of LNK_VC_BUF (R211). -/
def adrLnkVcBuf (i j : Nat) : Nat := 0x00C00020 + 0x10000 * i + 0x4 * j
/-- Address of LNK_VC_WEIGHT (R211). -/
def adrLnkVcWeight (i : Nat) : Nat := 0x00C00040 + 0x10000 * i
/-- Address of FLITS_TX (R211). -/
def adrFlitsTx (i : Nat) : Nat := 0x00C00100 + 0x10000 * i
/-- Address of FLITS_RX (R211). -/
def adrFlitsRx (i : Nat) : Nat := 0x00C00104 + 0x10000 * i
/-- Address of CRC_ERRORS (R211). -/
def adrCrcErrors (i : Nat) : Nat := 0x00C00108 + 0x10000 * i
/-- Address of REPLAYS (R211). -/
def adrReplays (i : Nat) : Nat := 0x00C0010C + 0x10000 * i
/-- Address of RETRAINS (R211). -/
def adrRetrains (i : Nat) : Nat := 0x00C00110 + 0x10000 * i
/-- Address of WIDTH_CHANGES (R211). -/
def adrWidthChanges (i : Nat) : Nat := 0x00C00114 + 0x10000 * i
/-- Address of LINK_DOWNS (R211). -/
def adrLinkDowns (i : Nat) : Nat := 0x00C00118 + 0x10000 * i
/-- Address of FEC_CORRECTED (R211). -/
def adrFecCorrected (i : Nat) : Nat := 0x00C0011C + 0x10000 * i
/-- Address of VC_DROPPED (R211). -/
def adrVcDropped (i : Nat) : Nat := 0x00C00120 + 0x10000 * i
/-- Address of CREDIT_OVERFLOW (R211). -/
def adrCreditOverflow (i : Nat) : Nat := 0x00C00124 + 0x10000 * i
/-- Address of ANT_ADDR (R234). -/
def adrAntAddr : Nat := 0x00D00000
/-- Address of ANT_GEN (R234). -/
def adrAntGen : Nat := 0x00D00004
/-- Address of ANT_CFG (R234). -/
def adrAntCfg : Nat := 0x00D00008
/-- Address of ANT_PART_SLICE (R234). -/
def adrAntPartSlice (j : Nat) : Nat := 0x00D00010 + 0x4 * j
/-- Address of ANT_PORT_CFG (R234). -/
def adrAntPortCfg (j : Nat) : Nat := 0x00D00100 + 0x10 * j
/-- Address of ANT_PORT_STATE (R234). -/
def adrAntPortState (j : Nat) : Nat := 0x00D00104 + 0x10 * j
/-- Address of ANT_PEER (R234). -/
def adrAntPeer (j : Nat) : Nat := 0x00D00108 + 0x10 * j
/-- Address of ANT_ROUTE_MATCH (R234). -/
def adrAntRouteMatch (j : Nat) : Nat := 0x00D01000 + 0x8 * j
/-- Address of ANT_ROUTE_ACTION (R234). -/
def adrAntRouteAction (j : Nat) : Nat := 0x00D01004 + 0x8 * j
/-- Address of HDR_ERRORS (R234). -/
def adrHdrErrors : Nat := 0x00D02000
/-- Address of FOREIGN_SLICE (R234). -/
def adrForeignSlice : Nat := 0x00D02004
/-- Address of BAD_TYPE (R234). -/
def adrBadType : Nat := 0x00D02008
/-- Address of HOP_EXPIRED (R234). -/
def adrHopExpired : Nat := 0x00D0200C
/-- Address of NO_ROUTE (R234). -/
def adrNoRoute : Nat := 0x00D02010
/-- Address of GLD_PORT_STATUS (R262). -/
def adrGldPortStatus (i : Nat) : Nat := 0x00E00000 + 0x10000 * i
/-- Address of GLD_CAL_CFG (R262). -/
def adrGldCalCfg (i : Nat) : Nat := 0x00E00010 + 0x10000 * i
/-- Address of GLD_CAMPUS_PLAN (R262). -/
def adrGldCampusPlan (i j : Nat) : Nat := 0x00E00020 + 0x10000 * i + 0x4 * j
/-- Address of GLD_TX_POWER (R262). -/
def adrGldTxPower (i : Nat) : Nat := 0x00E00034 + 0x10000 * i
/-- Address of GLD_CHAN_MAP (R262). -/
def adrGldChanMap (i j : Nat) : Nat := 0x00E00100 + 0x10000 * i + 0x4 * j
/-- Address of GLD_CHAN_HEALTH (R262). -/
def adrGldChanHealth (i j : Nat) : Nat := 0x00E00200 + 0x10000 * i + 0x4 * j
/-- Address of FLIT_GAPS (R262). -/
def adrFlitGaps (i : Nat) : Nat := 0x00E00400 + 0x10000 * i
/-- Address of FLITS_SUBSTITUTED (R262). -/
def adrFlitsSubstituted (i : Nat) : Nat := 0x00E00404 + 0x10000 * i
/-- Address of FRAMES_DISCARDED (R262). -/
def adrFramesDiscarded (i : Nat) : Nat := 0x00E00408 + 0x10000 * i
/-- Address of SWAPS (R262). -/
def adrSwaps (i : Nat) : Nat := 0x00E0040C + 0x10000 * i
/-- Address of FEC_UNCORRECTED (R262). -/
def adrFecUncorrected (i : Nat) : Nat := 0x00E00410 + 0x10000 * i
/-- Address of GLD_LASER (R262). -/
def adrGldLaser (j : Nat) : Nat := 0x00E80000 + 0x4 * j
/-- Address of CLK_STATUS (R285). -/
def adrClkStatus : Nat := 0x00F00000
/-- Address of CLK_ACLK (R285). -/
def adrClkAclk : Nat := 0x00F00004
/-- Address of CLK_ANVIL_ACLK (R285). -/
def adrClkAnvilAclk (j : Nat) : Nat := 0x00F00010 + 0x4 * j
/-- Address of CLK_RT_LO (R285). -/
def adrClkRtLo : Nat := 0x00F00040
/-- Address of CLK_RT_HI (R285). -/
def adrClkRtHi : Nat := 0x00F00044
/-- Address of CLK_MT_LO (R285). -/
def adrClkMtLo : Nat := 0x00F00048
/-- Address of CLK_MT_HI (R285). -/
def adrClkMtHi : Nat := 0x00F0004C
/-- Address of CLK_RT_LOAD_LO (R285). -/
def adrClkRtLoadLo : Nat := 0x00F00050
/-- Address of CLK_RT_LOAD_HI (R285). -/
def adrClkRtLoadHi : Nat := 0x00F00054
/-- Address of CLK_MT_OFFSET_LO (R285). -/
def adrClkMtOffsetLo : Nat := 0x00F00058
/-- Address of CLK_MT_OFFSET_HI (R285). -/
def adrClkMtOffsetHi : Nat := 0x00F0005C
/-- Address of CLK_MT_ARM (R285). -/
def adrClkMtArm : Nat := 0x00F00060
/-- Address of CLK_SYNC (R285). -/
def adrClkSync : Nat := 0x00F00070
/-- Address of CLK_TIME_CFG (R285). -/
def adrClkTimeCfg : Nat := 0x00F00080
/-- Address of CLK_PORT_OFFSET (R285). -/
def adrClkPortOffset (j : Nat) : Nat := 0x00F00100 + 0x8 * j
/-- Address of CLK_PORT_DELAY (R285). -/
def adrClkPortDelay (j : Nat) : Nat := 0x00F00104 + 0x8 * j
/-- Address of RTSYNC_MISSED (R285). -/
def adrRtsyncMissed : Nat := 0x00F00200
/-- Address of RTSYNC_CORRECTED (R285). -/
def adrRtsyncCorrected : Nat := 0x00F00204
/-- Address of RTSYNC_IGNORED (R285). -/
def adrRtsyncIgnored : Nat := 0x00F00208
/-- Address of TCLK_LOSSES (R285). -/
def adrTclkLosses : Nat := 0x00F0020C
/-- Address of BEL_STATUS (R420). -/
def adrBelStatus : Nat := 0x01000000
/-- Address of BEL_VOLTS (R420). -/
def adrBelVolts : Nat := 0x01000004
/-- Address of BEL_CFG (R420). -/
def adrBelCfg : Nat := 0x01000010
/-- Address of BEL_CAP (R420). -/
def adrBelCap : Nat := 0x01000014
/-- Address of BEL_ACLK (R420). -/
def adrBelAclk : Nat := 0x01000018
/-- Address of BEL_CHIP_POWER (R420). -/
def adrBelChipPower : Nat := 0x01000020
/-- Address of BEL_PART_POWER (R420). -/
def adrBelPartPower (j : Nat) : Nat := 0x01000100 + 0x10 * j
/-- Address of BEL_RAIL (R420). -/
def adrBelRail (j : Nat) : Nat := 0x01000200 + 0x4 * j
/-- Address of CHANGEOVERS (R420). -/
def adrChangeovers : Nat := 0x01000400
/-- Address of PARKS (R420). -/
def adrParks : Nat := 0x01000404
/-- Address of SHED_EVENTS (R420). -/
def adrShedEvents : Nat := 0x01000408
/-- Address of THROTTLED_PERIODS (R420). -/
def adrThrottledPeriods : Nat := 0x0100040C
/-- Address of QCH_CFG (R441). -/
def adrQchCfg : Nat := 0x01100000
/-- Address of QCH_CTRL (R441). -/
def adrQchCtrl : Nat := 0x01100004
/-- Address of QCH_SECTION_STATUS (R441). -/
def adrQchSectionStatus (j : Nat) : Nat := 0x01100100 + 0x10 * j
/-- Address of QCH_SECTION_LIMITS (R441). -/
def adrQchSectionLimits (j : Nat) : Nat := 0x01100104 + 0x10 * j
/-- Address of QCH_SECTION_FLOW (R441). -/
def adrQchSectionFlow (j : Nat) : Nat := 0x01100108 + 0x10 * j
/-- Address of QCH_VALVE_CFG (R441). -/
def adrQchValveCfg (j : Nat) : Nat := 0x01100400 + 0x10 * j
/-- Address of QCH_VALVE_STATUS (R441). -/
def adrQchValveStatus (j : Nat) : Nat := 0x01100404 + 0x10 * j
/-- Address of QCH_VALVE_CAL (R441). -/
def adrQchValveCal (j : Nat) : Nat := 0x01100408 + 0x10 * j
/-- Address of FORCED_RELEASES (R441). -/
def adrForcedReleases : Nat := 0x01100800
/-- Address of REACTIVE_ENTRIES (R441). -/
def adrReactiveEntries : Nat := 0x01100804
/-- Address of HINTS_REFUSED (R441). -/
def adrHintsRefused : Nat := 0x01100808
/-- Address of THERMAL_STOPS (R441). -/
def adrThermalStops : Nat := 0x0110080C
/-- Address of NVS_STATUS (R470). -/
def adrNvsStatus : Nat := 0x01200000
/-- Address of ERASES (R470). -/
def adrErases : Nat := 0x01200100
/-- Address of PROGRAMS (R470). -/
def adrPrograms : Nat := 0x01200104
/-- Address of HALF_ERASED_FOUND (R470). -/
def adrHalfErasedFound : Nat := 0x01200108
/-- Address of FLASH_FAULTS (R470). -/
def adrFlashFaults : Nat := 0x0120010C
/-- Address of SEC_STATE (R470). -/
def adrSecState : Nat := 0x01400000
/-- Address of EVR_STATUS (R494). -/
def adrEvrStatus : Nat := 0x01300000
/-- Address of EVR_CFG (R494). -/
def adrEvrCfg : Nat := 0x01300004
/-- Address of EVR_CTRL (R494). -/
def adrEvrCtrl : Nat := 0x01300008
/-- Address of EVR_CURSOR (R494). -/
def adrEvrCursor : Nat := 0x01300010
/-- Address of EVR_OVERFLOW (R494). -/
def adrEvrOverflow : Nat := 0x01300020
/-- Address of EVR_SUPPRESSED (R494). -/
def adrEvrSuppressed : Nat := 0x01300024
/-- Address of EVR_ARCHIVED (R494). -/
def adrEvrArchived : Nat := 0x01300028
/-- Address of EVR_PART_OVERFLOW (R494). -/
def adrEvrPartOverflow (j : Nat) : Nat := 0x01300040 + 0x4 * j
/-- Address of EVR_PART_LIMIT (R494). -/
def adrEvrPartLimit (j : Nat) : Nat := 0x01300060 + 0x4 * j
/-- Address of EVR_WINDOW (R494). -/
def adrEvrWindow (j : Nat) : Nat := 0x01301000 + 0x4 * j
/-- Address of EVR_CODE_CFG (R494). -/
def adrEvrCodeCfg (j : Nat) : Nat := 0x01304000 + 0x4 * j
/-- Address of EVR_SET (R494). -/
def adrEvrSet (j : Nat) : Nat := 0x01308000 + 0x4 * j
/-- Registers of block GLB. -/
def regsGlb : List RegDesc := [
  ⟨"GLB_STATUS", 0x00000000, 1, 0x0, 1, 0x0, [⟨0, 0, .ro, 0x0, 0, 1, .chip⟩,
    ⟨1, 1, .ro, 0x0, 0, 1, .chip⟩,
    ⟨2, 2, .ro, 0x0, 0, 1, .chip⟩,
    ⟨3, 3, .ro, 0x0, 0, 1, .chip⟩,
    ⟨4, 4, .ro, 0x0, 0, 1, .chip⟩,
    ⟨5, 5, .ro, 0x0, 0, 1, .chip⟩,
    ⟨6, 6, .ro, 0x0, 0, 1, .chip⟩,
    ⟨11, 8, .ro, 0x0, 0, 15, .chip⟩,
    ⟨13, 12, .ro, 0x0, 0, 3, .chip⟩,
    ⟨15, 14, .ro, 0x0, 0, 3, .chip⟩]⟩,
  ⟨"GLB_RESET_CAUSE", 0x00000004, 1, 0x0, 1, 0x0, [⟨3, 0, .ro, 0x0, 0, 15, .chip⟩]⟩,
  ⟨"GLB_CHIP_ID_LO", 0x00000008, 1, 0x0, 1, 0x0, [⟨31, 0, .ro, 0x0, 0, 4294967295, .chip⟩]⟩,
  ⟨"GLB_CHIP_ID_HI", 0x0000000C, 1, 0x0, 1, 0x0, [⟨31, 0, .ro, 0x0, 0, 4294967295, .chip⟩]⟩,
  ⟨"GLB_CTRL", 0x00000010, 1, 0x0, 1, 0x0, [⟨0, 0, .w1s, 0x0, 0, 1, .chip⟩]⟩,
  ⟨"GLB_FW_VERSION", 0x00000014, 1, 0x0, 1, 0x0, [⟨31, 0, .ro, 0x0, 0, 4294967295, .chip⟩]⟩,
  ⟨"GLB_FAULT_CFG", 0x00000100, 1, 0x0, 1, 0x0, [⟨7, 0, .rw, 0x8, 1, 255, .chip⟩,
    ⟨19, 8, .rw, 0x3E8, 100, 4000, .chip⟩]⟩,
  ⟨"GLB_FAULT_STATUS", 0x00000104, 1, 0x0, 1, 0x0, [⟨7, 0, .ro, 0x0, 0, 255, .chip⟩,
    ⟨15, 8, .ro, 0x0, 0, 255, .aux⟩,
    ⟨19, 16, .ro, 0x0, 0, 15, .aux⟩,
    ⟨20, 20, .ro, 0x0, 0, 1, .aux⟩]⟩,
  ⟨"GLB_FAULT_CTRL", 0x00000108, 1, 0x0, 1, 0x0, [⟨0, 0, .w1s, 0x0, 0, 1, .chip⟩]⟩,
  ⟨"GLB_FAULT_ESC", 0x00000110, 1, 0x0, 8, 0x4, [⟨7, 0, .ro, 0x0, 0, 255, .chip⟩,
    ⟨31, 8, .ro, 0x0, 0, 16777215, .chip⟩]⟩]
/-- Registers of block PCI. -/
def regsPci : List RegDesc := [
  ⟨"PCI_LINK_STATUS", 0x00100000, 1, 0x0, 1, 0x0, [⟨2, 0, .ro, 0x0, 0, 7, .chip⟩,
    ⟨7, 3, .ro, 0x0, 0, 31, .chip⟩,
    ⟨8, 8, .ro, 0x0, 0, 1, .chip⟩,
    ⟨9, 9, .ro, 0x0, 0, 1, .chip⟩]⟩,
  ⟨"PCI_TAG_CFG", 0x00100010, 1, 0x0, 1, 0x0, [⟨6, 0, .rw, 0x20, 0, 85, .chip⟩,
    ⟨25, 16, .rw, 0x180, 32, 768, .chip⟩]⟩,
  ⟨"PCI_TAG_STATUS", 0x00100014, 1, 0x0, 1, 0x0, [⟨9, 0, .ro, 0x300, 0, 1023, .hostPort⟩,
    ⟨19, 10, .ro, 0x0, 0, 1023, .hostPort⟩,
    ⟨29, 20, .ro, 0x0, 0, 1023, .hostPort⟩]⟩,
  ⟨"PCI_REQ_TAGS", 0x00100100, 1, 0x0, 9, 0x4, [⟨9, 0, .ro, 0x0, 0, 1023, .hostPort⟩,
    ⟨19, 10, .ro, 0x0, 0, 1023, .hostPort⟩]⟩,
  ⟨"PCI_PROXY_CFG", 0x00100200, 1, 0x0, 8, 0x8, [⟨23, 0, .rwl, 0x0, 0, 16777215, .carve⟩,
    ⟨24, 24, .rwl, 0x0, 0, 1, .carve⟩,
    ⟨25, 25, .rwl, 0x0, 0, 1, .carve⟩]⟩,
  ⟨"PCI_PROXY_DEADLINE", 0x00100204, 1, 0x0, 8, 0x8, [⟨9, 0, .rwl, 0x14, 1, 1000, .part⟩]⟩,
  ⟨"PCI_CPL_TIMEOUTS", 0x00100400, 1, 0x0, 1, 0x0, [⟨31, 0, .ro, 0x0, 0, 4294967295, .chip⟩]⟩,
  ⟨"PCI_LATE_CPL", 0x00100404, 1, 0x0, 1, 0x0, [⟨31, 0, .ro, 0x0, 0, 4294967295, .chip⟩]⟩,
  ⟨"PCI_UNEXPECTED_CPL", 0x00100408, 1, 0x0, 1, 0x0, [⟨31, 0, .ro, 0x0, 0, 4294967295, .chip⟩]⟩,
  ⟨"PCI_CPL_ERRORS", 0x0010040C, 1, 0x0, 1, 0x0, [⟨31, 0, .ro, 0x0, 0, 4294967295, .chip⟩]⟩,
  ⟨"PCI_POISON_RX", 0x00100410, 1, 0x0, 1, 0x0, [⟨31, 0, .ro, 0x0, 0, 4294967295, .chip⟩]⟩,
  ⟨"PCI_PROXY_LATE", 0x00100414, 1, 0x0, 1, 0x0, [⟨31, 0, .ro, 0x0, 0, 4294967295, .chip⟩]⟩,
  ⟨"PCI_HOLE_ACCESSES", 0x00100418, 1, 0x0, 1, 0x0, [⟨31, 0, .ro, 0x0, 0, 4294967295, .chip⟩]⟩]
/-- Registers of block PRT. -/
def regsPrt : List RegDesc := [
  ⟨"PRT_STATUS", 0x00200000, 8, 0x10000, 1, 0x0, [⟨2, 0, .ro, 0x0, 0, 7, .chip⟩,
    ⟨3, 3, .ro, 0x0, 0, 1, .chip⟩,
    ⟨11, 4, .ro, 0x0, 0, 255, .chip⟩,
    ⟨15, 12, .ro, 0x0, 0, 15, .chip⟩,
    ⟨21, 16, .ro, 0x0, 0, 63, .chip⟩,
    ⟨23, 22, .ro, 0x0, 0, 3, .chip⟩,
    ⟨31, 24, .ro, 0x0, 0, 255, .chip⟩]⟩,
  ⟨"PRT_CTRL", 0x00200004, 8, 0x10000, 1, 0x0, [⟨0, 0, .w1s, 0x0, 0, 1, .part⟩,
    ⟨1, 1, .w1s, 0x0, 0, 1, .part⟩,
    ⟨2, 2, .w1s, 0x0, 0, 1, .part⟩]⟩,
  ⟨"PRT_ANVILS", 0x00200010, 8, 0x10000, 1, 0x0, [⟨7, 0, .rw, 0x0, 0, 255, .carve⟩]⟩,
  ⟨"PRT_TONGS", 0x00200014, 8, 0x10000, 1, 0x0, [⟨31, 0, .rw, 0x0, 0, 4294967295, .carve⟩]⟩,
  ⟨"PRT_BANKS", 0x00200018, 8, 0x10000, 1, 0x0, [⟨1, 0, .rw, 0x0, 0, 3, .carve⟩]⟩,
  ⟨"PRT_POWER_SHARE", 0x00200020, 8, 0x10000, 1, 0x0, [⟨10, 0, .rw, 0x0, 0, 1250, .carve⟩]⟩,
  ⟨"PRT_RESETS", 0x00200100, 8, 0x10000, 1, 0x0, [⟨31, 0, .ro, 0x0, 0, 4294967295, .chip⟩]⟩,
  ⟨"PRT_RESET_DROPS", 0x00200104, 8, 0x10000, 1, 0x0, [⟨31, 0, .ro, 0x0, 0, 4294967295, .chip⟩]⟩,
  ⟨"PRT_FREE", 0x00280000, 1, 0x0, 1, 0x0, [⟨7, 0, .ro, 0x80, 0, 255, .chip⟩,
    ⟨11, 8, .ro, 0x8, 0, 15, .chip⟩,
    ⟨17, 12, .ro, 0x20, 0, 63, .chip⟩,
    ⟨28, 18, .ro, 0x47E, 0, 2047, .chip⟩]⟩]
/-- Registers of block CMD. -/
def regsCmd : List RegDesc := [
  ⟨"FETCHED", 0x00300040, 8, 0x10000, 1, 0x0, [⟨31, 0, .ro, 0x0, 0, 4294967295, .part⟩]⟩,
  ⟨"COMPLETED", 0x00300044, 8, 0x10000, 1, 0x0, [⟨31, 0, .ro, 0x0, 0, 4294967295, .part⟩]⟩,
  ⟨"FAILED", 0x00300048, 8, 0x10000, 1, 0x0, [⟨31, 0, .ro, 0x0, 0, 4294967295, .part⟩]⟩,
  ⟨"TIMEOUTS", 0x0030004C, 8, 0x10000, 1, 0x0, [⟨31, 0, .ro, 0x0, 0, 4294967295, .part⟩]⟩,
  ⟨"DB_REJECTED", 0x00300050, 8, 0x10000, 1, 0x0, [⟨31, 0, .ro, 0x0, 0, 4294967295, .part⟩]⟩,
  ⟨"CMD_SQ_BASE_LO", 0x00300100, 8, 0x10000, 16, 0x20, [⟨31, 0, .rwl, 0x0, 0, 4294967295, .part⟩]⟩,
  ⟨"CMD_SQ_BASE_HI", 0x00300104, 8, 0x10000, 16, 0x20, [⟨31, 0, .rwl, 0x0, 0, 4294967295, .part⟩]⟩,
  ⟨"CMD_SQ_CFG", 0x00300108, 8, 0x10000, 16, 0x20, [⟨4, 0, .rwl, 0x6, 6, 16, .part⟩,
    ⟨6, 5, .rwl, 0x0, 0, 3, .part⟩,
    ⟨11, 8, .rwl, 0x0, 0, 15, .part⟩,
    ⟨19, 12, .rwl, 0x1, 1, 255, .part⟩,
    ⟨31, 31, .rwl, 0x0, 0, 1, .part⟩]⟩,
  ⟨"CMD_SQ_CTRL", 0x0030010C, 8, 0x10000, 16, 0x20, [⟨0, 0, .w1s, 0x0, 0, 1, .part⟩,
    ⟨1, 1, .w1s, 0x0, 0, 1, .part⟩]⟩,
  ⟨"CMD_SQ_STATUS", 0x00300110, 8, 0x10000, 16, 0x20, [⟨15, 0, .ro, 0x0, 0, 65535, .part⟩,
    ⟨16, 16, .ro, 0x0, 0, 1, .part⟩,
    ⟨18, 17, .ro, 0x0, 0, 3, .part⟩,
    ⟨31, 24, .ro, 0x0, 0, 255, .part⟩]⟩,
  ⟨"CMD_SQ_TAIL", 0x00300114, 8, 0x10000, 16, 0x20, [⟨16, 0, .ro, 0x0, 0, 131071, .part⟩]⟩,
  ⟨"CMD_SQ_TIMEOUT", 0x00300118, 8, 0x10000, 16, 0x20, [⟨15, 0, .rwl, 0x0, 0, 65534, .part⟩]⟩,
  ⟨"CMD_CQ_BASE_LO", 0x00300400, 8, 0x10000, 16, 0x20, [⟨31, 0, .rwl, 0x0, 0, 4294967295, .part⟩]⟩,
  ⟨"CMD_CQ_BASE_HI", 0x00300404, 8, 0x10000, 16, 0x20, [⟨31, 0, .rwl, 0x0, 0, 4294967295, .part⟩]⟩,
  ⟨"CMD_CQ_CFG", 0x00300408, 8, 0x10000, 16, 0x20, [⟨4, 0, .rwl, 0x6, 6, 16, .part⟩,
    ⟨6, 5, .rwl, 0x0, 0, 3, .part⟩,
    ⟨31, 31, .rwl, 0x0, 0, 1, .part⟩]⟩,
  ⟨"CMD_CQ_IRQ", 0x0030040C, 8, 0x10000, 16, 0x20, [⟨5, 0, .rw, 0x0, 0, 63, .part⟩,
    ⟨6, 6, .rw, 0x0, 0, 1, .part⟩,
    ⟨15, 8, .rw, 0x1, 1, 255, .part⟩,
    ⟨31, 16, .rw, 0x0, 0, 65535, .part⟩]⟩,
  ⟨"CMD_CQ_STATUS", 0x00300410, 8, 0x10000, 16, 0x20, [⟨16, 0, .ro, 0x0, 0, 131071, .part⟩]⟩,
  ⟨"CMD_CQ_RESERVED", 0x00300414, 8, 0x10000, 16, 0x20, [⟨16, 0, .ro, 0x0, 0, 131071, .part⟩]⟩,
  ⟨"CMD_CQ_HEAD", 0x00300418, 8, 0x10000, 16, 0x20, [⟨16, 0, .ro, 0x0, 0, 131071, .part⟩]⟩,
  ⟨"CMD_SQ_DB", 0x00301000, 8, 0x10000, 16, 0x10, [⟨15, 0, .wo, 0x0, 0, 65535, .part⟩,
    ⟨16, 16, .wo, 0x0, 0, 1, .part⟩]⟩,
  ⟨"CMD_CQ_DB", 0x00301008, 8, 0x10000, 16, 0x10, [⟨15, 0, .wo, 0x0, 0, 65535, .part⟩,
    ⟨16, 16, .wo, 0x0, 0, 1, .part⟩]⟩,
  ⟨"CMD_PROXY_DB_LO", 0x00301200, 8, 0x10000, 1, 0x0, [⟨16, 0, .wo, 0x0, 0, 131071, .part⟩,
    ⟨20, 17, .wo, 0x0, 0, 15, .part⟩,
    ⟨21, 21, .wo, 0x0, 0, 1, .part⟩]⟩,
  ⟨"CMD_PROXY_DB_HI", 0x00301204, 8, 0x10000, 1, 0x0, [⟨23, 0, .wo, 0x0, 0, 16777215, .part⟩]⟩]
/-- Registers of block ANV. -/
def regsAnv : List RegDesc := [
  ⟨"ANV_STATUS", 0x00400000, 8, 0x10000, 1, 0x0, [⟨0, 0, .ro, 0x0, 0, 1, .chip⟩,
    ⟨1, 1, .ro, 0x0, 0, 1, .chip⟩,
    ⟨2, 2, .ro, 0x0, 0, 1, .chip⟩,
    ⟨3, 3, .ro, 0x0, 0, 1, .chip⟩,
    ⟨7, 4, .ro, 0x0, 0, 15, .chip⟩,
    ⟨10, 8, .ro, 0x0, 0, 7, .chip⟩]⟩,
  ⟨"PASSES", 0x00400100, 8, 0x10000, 1, 0x0, [⟨31, 0, .ro, 0x0, 0, 4294967295, .part⟩]⟩,
  ⟨"ANV_INT_SAT", 0x00400104, 8, 0x10000, 1, 0x0, [⟨31, 0, .ro, 0x0, 0, 4294967295, .part⟩]⟩,
  ⟨"ANV_NAN_SCALE", 0x00400108, 8, 0x10000, 1, 0x0, [⟨31, 0, .ro, 0x0, 0, 4294967295, .part⟩]⟩,
  ⟨"ANV_ECC_CORRECTED", 0x0040010C, 8, 0x10000, 1, 0x0, [⟨31, 0, .ro, 0x0, 0, 4294967295, .part⟩]⟩]
/-- Registers of block VEC. -/
def regsVec : List RegDesc := [
  ⟨"VEC_CVT_CFG", 0x00500010, 8, 0x10000, 1, 0x0, [⟨0, 0, .rw, 0x0, 0, 1, .part⟩,
    ⟨12, 8, .rwl, 0x8, 0, 16, .part⟩]⟩,
  ⟨"VEC_SR_SEED", 0x00500014, 8, 0x10000, 1, 0x0, [⟨31, 0, .rw, 0x1, 0, 4294967295, .part⟩]⟩,
  ⟨"VEC_NAN_TO_INT", 0x00500100, 8, 0x10000, 1, 0x0, [⟨31, 0, .ro, 0x0, 0, 4294967295, .part⟩]⟩]
/-- Registers of block HRT. -/
def regsHrt : List RegDesc := [
  ⟨"HRT_GRANULE_OWNER", 0x00600000, 1, 0x0, 128, 0x4, [⟨2, 0, .rw, 0x0, 0, 7, .carve⟩,
    ⟨3, 3, .rw, 0x0, 0, 1, .carve⟩,
    ⟨4, 4, .ro, 0x0, 0, 1, .chip⟩]⟩,
  ⟨"HRT_SCRUB_CFG", 0x00600400, 1, 0x0, 1, 0x0, [⟨7, 0, .rw, 0x8, 1, 168, .chip⟩]⟩,
  ⟨"HRT_ECC_CORRECTED", 0x00600500, 1, 0x0, 1, 0x0, [⟨31, 0, .ro, 0x0, 0, 4294967295, .chip⟩]⟩,
  ⟨"HRT_ECC_POISONED", 0x00600504, 1, 0x0, 1, 0x0, [⟨31, 0, .ro, 0x0, 0, 4294967295, .chip⟩]⟩,
  ⟨"HRT_POISON_READS", 0x00600508, 1, 0x0, 1, 0x0, [⟨31, 0, .ro, 0x0, 0, 4294967295, .chip⟩]⟩]
/-- Registers of block TNG. -/
def regsTng : List RegDesc := [
  ⟨"TNG_STATUS", 0x00700000, 32, 0x8000, 1, 0x0, [⟨2, 0, .ro, 0x0, 0, 7, .part⟩,
    ⟨3, 3, .ro, 0x0, 0, 1, .part⟩,
    ⟨5, 4, .ro, 0x0, 0, 3, .part⟩]⟩,
  ⟨"TNG_CURRENT", 0x00700008, 32, 0x8000, 1, 0x0, [⟨31, 0, .ro, 0xFFFFFFFF, 0, 4294967295, .part⟩]⟩]
/-- Registers of block SEM. -/
def regsSem : List RegDesc := [
  ⟨"SEM_VALUE", 0x00800000, 8, 0x10000, 256, 0x10, [⟨31, 0, .rw, 0x0, 0, 4294967295, .part⟩]⟩,
  ⟨"SEM_SIGNAL", 0x00800004, 8, 0x10000, 256, 0x10, [⟨7, 0, .wo, 0x0, 0, 255, .part⟩,
    ⟨31, 8, .wo, 0x0, 0, 16777215, .part⟩]⟩,
  ⟨"SEM_STATUS", 0x00800008, 8, 0x10000, 256, 0x10, [⟨0, 0, .ro, 0x0, 0, 1, .part⟩,
    ⟨1, 1, .w1c, 0x0, 0, 1, .part⟩]⟩,
  ⟨"SEM_BARRIER", 0x00802000, 8, 0x10000, 64, 0x10, [⟨10, 0, .rw, 0x1, 1, 1024, .part⟩,
    ⟨18, 11, .rw, 0x0, 0, 255, .part⟩,
    ⟨26, 19, .rw, 0x1, 1, 255, .part⟩]⟩,
  ⟨"SEM_BARRIER_STATE", 0x00802004, 8, 0x10000, 64, 0x10, [⟨10, 0, .ro, 0x0, 0, 2047, .part⟩,
    ⟨31, 16, .ro, 0x0, 0, 65535, .part⟩]⟩]
/-- Registers of block SEQ. -/
def regsSeq : List RegDesc := [
  ⟨"SEQ_SLOT_CFG", 0x00900010, 8, 0x10000, 1, 0x0, [⟨7, 0, .rwl, 0x0, 0, 128, .carve⟩,
    ⟨9, 8, .rwl, 0x3, 0, 3, .part⟩,
    ⟨21, 16, .rwl, 0x0, 0, 24, .carve⟩]⟩,
  ⟨"SEQ_STEP_CFG", 0x00900014, 8, 0x10000, 1, 0x0, [⟨15, 0, .rwl, 0xC8, 10, 65535, .part⟩,
    ⟨22, 16, .rwl, 0x10, 1, 64, .part⟩]⟩,
  ⟨"SEQ_BATCH_CFG", 0x00900018, 8, 0x10000, 1, 0x0, [⟨9, 0, .rw, 0x40, 1, 512, .part⟩,
    ⟨25, 16, .rw, 0x0, 0, 1000, .part⟩]⟩,
  ⟨"SEQ_OCCUPANCY", 0x00900100, 8, 0x10000, 1, 0x0, [⟨14, 0, .ro, 0x0, 0, 32767, .part⟩,
    ⟨30, 16, .ro, 0x0, 0, 32767, .part⟩]⟩,
  ⟨"STEPS_DONE", 0x00900200, 8, 0x10000, 1, 0x0, [⟨31, 0, .ro, 0x0, 0, 4294967295, .part⟩]⟩,
  ⟨"STEP_TIMEOUTS", 0x00900204, 8, 0x10000, 1, 0x0, [⟨31, 0, .ro, 0x0, 0, 4294967295, .part⟩]⟩,
  ⟨"LATE_RETURNS", 0x00900208, 8, 0x10000, 1, 0x0, [⟨31, 0, .ro, 0x0, 0, 4294967295, .part⟩]⟩,
  ⟨"TORN", 0x0090020C, 8, 0x10000, 1, 0x0, [⟨31, 0, .ro, 0x0, 0, 4294967295, .part⟩]⟩,
  ⟨"PWL_NAN", 0x00900210, 8, 0x10000, 1, 0x0, [⟨31, 0, .ro, 0x0, 0, 4294967295, .part⟩]⟩,
  ⟨"SEQ_TABLE_WORD", 0x00901000, 8, 0x10000, 1024, 0x4, [⟨31, 0, .ro, 0x0, 0, 4294967295, .part⟩]⟩,
  ⟨"SEQ_POOL", 0x00980000, 1, 0x0, 1, 0x0, [⟨5, 0, .rw, 0x8, 8, 32, .chip⟩,
    ⟨30, 16, .ro, 0x4000, 0, 32767, .chip⟩]⟩]
/-- Registers of block PRC. -/
def regsPrc : List RegDesc := [
  ⟨"PRC_HOP_TIMING0", 0x00A00010, 8, 0x10000, 1, 0x0, [⟨15, 0, .rwl, 0xC8, 10, 10000, .part⟩,
    ⟨31, 16, .rwl, 0x3E8, 10, 10000, .part⟩]⟩,
  ⟨"PRC_HOP_TIMING1", 0x00A00014, 8, 0x10000, 1, 0x0, [⟨15, 0, .rwl, 0x32, 1, 60000, .part⟩,
    ⟨31, 16, .rwl, 0xC8, 1, 60000, .part⟩]⟩,
  ⟨"PRC_COMMIT_WINDOW", 0x00A00018, 8, 0x10000, 1, 0x0, [⟨15, 0, .rwl, 0x3E8, 10, 60000, .part⟩]⟩,
  ⟨"PRC_RING_STATUS", 0x00A00100, 8, 0x10000, 2, 0x4, [⟨15, 0, .ro, 0x0, 0, 65535, .part⟩,
    ⟨18, 16, .ro, 0x0, 0, 7, .part⟩,
    ⟨20, 19, .ro, 0x0, 0, 3, .part⟩,
    ⟨21, 21, .ro, 0x0, 0, 1, .part⟩,
    ⟨22, 22, .ro, 0x0, 0, 1, .part⟩]⟩,
  ⟨"DUPLICATES", 0x00A00200, 8, 0x10000, 1, 0x0, [⟨31, 0, .ro, 0x0, 0, 4294967295, .part⟩]⟩,
  ⟨"STALE", 0x00A00204, 8, 0x10000, 1, 0x0, [⟨31, 0, .ro, 0x0, 0, 4294967295, .part⟩]⟩,
  ⟨"DETOURS", 0x00A00208, 8, 0x10000, 1, 0x0, [⟨31, 0, .ro, 0x0, 0, 4294967295, .part⟩]⟩,
  ⟨"SEGMENT_RESENDS", 0x00A0020C, 8, 0x10000, 1, 0x0, [⟨31, 0, .ro, 0x0, 0, 4294967295, .part⟩]⟩,
  ⟨"ABORTS", 0x00A00210, 8, 0x10000, 1, 0x0, [⟨31, 0, .ro, 0x0, 0, 4294967295, .part⟩]⟩]
/-- Registers of block LBK. -/
def regsLbk : List RegDesc := [
  ⟨"LBK_STATUS", 0x00B00000, 2, 0x10000, 1, 0x0, [⟨2, 0, .ro, 0x0, 0, 7, .chip⟩,
    ⟨3, 3, .ro, 0x0, 0, 1, .chip⟩,
    ⟨6, 4, .ro, 0x0, 0, 7, .chip⟩,
    ⟨7, 7, .ro, 0x0, 0, 1, .chip⟩,
    ⟨10, 8, .ro, 0x4, 0, 7, .chip⟩,
    ⟨13, 11, .ro, 0x0, 0, 7, .chip⟩,
    ⟨31, 16, .ro, 0x0, 0, 65535, .chip⟩]⟩,
  ⟨"LBK_CAL_CFG", 0x00B00010, 2, 0x10000, 1, 0x0, [⟨11, 0, .rwl, 0x3C, 1, 3600, .chip⟩,
    ⟨17, 12, .rwl, 0x5, 1, 40, .chip⟩,
    ⟨25, 18, .rwl, 0x4, 1, 255, .chip⟩]⟩,
  ⟨"LBK_ROW_MAP", 0x00B00100, 2, 0x10000, 64, 0x4, [⟨6, 0, .ro, 0x0, 0, 127, .chip⟩]⟩,
  ⟨"LBK_ROW_HEALTH", 0x00B00200, 2, 0x10000, 68, 0x4, [⟨1, 0, .ro, 0x0, 0, 3, .chip⟩,
    ⟨15, 8, .ro, 0x0, 0, 255, .chip⟩]⟩,
  ⟨"LBK_BLOCK0", 0x00B00400, 2, 0x10000, 16, 0x10, [⟨5, 0, .ro, 0x0, 0, 63, .part⟩,
    ⟨13, 7, .ro, 0x0, 0, 127, .part⟩,
    ⟨19, 14, .ro, 0x0, 0, 63, .part⟩,
    ⟨27, 21, .ro, 0x0, 0, 127, .part⟩,
    ⟨31, 28, .ro, 0x6, 0, 15, .part⟩]⟩,
  ⟨"LBK_BLOCK1", 0x00B00404, 2, 0x10000, 16, 0x10, [⟨16, 0, .ro, 0x100, 0, 131071, .part⟩,
    ⟨26, 17, .ro, 0x40, 0, 1023, .part⟩,
    ⟨27, 27, .ro, 0x0, 0, 1, .part⟩,
    ⟨28, 28, .ro, 0x0, 0, 1, .part⟩]⟩,
  ⟨"PRODUCTS", 0x00B00800, 2, 0x10000, 1, 0x0, [⟨31, 0, .ro, 0x0, 0, 4294967295, .part⟩]⟩,
  ⟨"SHADOW_CHECKS", 0x00B00804, 2, 0x10000, 1, 0x0, [⟨31, 0, .ro, 0x0, 0, 4294967295, .part⟩]⟩,
  ⟨"DIVERGED", 0x00B00808, 2, 0x10000, 1, 0x0, [⟨31, 0, .ro, 0x0, 0, 4294967295, .part⟩]⟩,
  ⟨"CLIPS", 0x00B0080C, 2, 0x10000, 1, 0x0, [⟨31, 0, .ro, 0x0, 0, 4294967295, .part⟩]⟩,
  ⟨"FALLBACK_PRODUCTS", 0x00B00810, 2, 0x10000, 1, 0x0, [⟨31, 0, .ro, 0x0, 0, 4294967295, .part⟩]⟩,
  ⟨"PRODUCTS_NONFINITE", 0x00B00814, 2, 0x10000, 1, 0x0, [⟨31, 0, .ro, 0x0, 0, 4294967295, .part⟩]⟩]
/-- Registers of block LNK. -/
def regsLnk : List RegDesc := [
  ⟨"LNK_ALLOT0", 0x00C80000, 1, 0x0, 1, 0x0, [⟨31, 0, .ro, 0x0, 0, 4294967295, .chip⟩]⟩,
  ⟨"LNK_ALLOT1", 0x00C80004, 1, 0x0, 1, 0x0, [⟨15, 0, .ro, 0x0, 0, 65535, .chip⟩,
    ⟨18, 16, .ro, 0x0, 0, 7, .chip⟩,
    ⟨19, 19, .ro, 0x0, 0, 1, .chip⟩]⟩,
  ⟨"LNK_STATUS", 0x00C00000, 8, 0x10000, 1, 0x0, [⟨2, 0, .ro, 0x0, 0, 7, .chip⟩,
    ⟨6, 3, .ro, 0x0, 0, 15, .chip⟩,
    ⟨10, 7, .ro, 0x0, 0, 15, .chip⟩,
    ⟨18, 11, .ro, 0x0, 0, 255, .chip⟩,
    ⟨26, 19, .ro, 0x0, 0, 255, .chip⟩,
    ⟨29, 27, .ro, 0x0, 0, 7, .chip⟩]⟩,
  ⟨"LNK_PEER_ID_LO", 0x00C00008, 8, 0x10000, 1, 0x0, [⟨31, 0, .ro, 0x0, 0, 4294967295, .chip⟩]⟩,
  ⟨"LNK_PEER_ID_HI", 0x00C0000C, 8, 0x10000, 1, 0x0, [⟨31, 0, .ro, 0x0, 0, 4294967295, .chip⟩]⟩,
  ⟨"LNK_CTRL", 0x00C00010, 8, 0x10000, 1, 0x0, [⟨3, 0, .rw, 0x8, 1, 8, .chip⟩,
    ⟨4, 4, .w1s, 0x0, 0, 1, .chip⟩,
    ⟨5, 5, .w1s, 0x0, 0, 1, .chip⟩]⟩,
  ⟨"LNK_VC_BUF", 0x00C00020, 8, 0x10000, 8, 0x4, [⟨6, 0, .rwl, 0x0, 0, 127, .chip⟩]⟩,
  ⟨"LNK_VC_WEIGHT", 0x00C00040, 8, 0x10000, 1, 0x0, [⟨3, 0, .rw, 0x8, 0, 15, .chip⟩,
    ⟨7, 4, .rw, 0x4, 0, 15, .chip⟩,
    ⟨11, 8, .rw, 0x8, 0, 15, .chip⟩,
    ⟨15, 12, .rw, 0x4, 0, 15, .chip⟩,
    ⟨19, 16, .rw, 0x2, 0, 15, .chip⟩]⟩,
  ⟨"FLITS_TX", 0x00C00100, 8, 0x10000, 1, 0x0, [⟨31, 0, .ro, 0x0, 0, 4294967295, .chip⟩]⟩,
  ⟨"FLITS_RX", 0x00C00104, 8, 0x10000, 1, 0x0, [⟨31, 0, .ro, 0x0, 0, 4294967295, .chip⟩]⟩,
  ⟨"CRC_ERRORS", 0x00C00108, 8, 0x10000, 1, 0x0, [⟨31, 0, .ro, 0x0, 0, 4294967295, .chip⟩]⟩,
  ⟨"REPLAYS", 0x00C0010C, 8, 0x10000, 1, 0x0, [⟨31, 0, .ro, 0x0, 0, 4294967295, .chip⟩]⟩,
  ⟨"RETRAINS", 0x00C00110, 8, 0x10000, 1, 0x0, [⟨31, 0, .ro, 0x0, 0, 4294967295, .chip⟩]⟩,
  ⟨"WIDTH_CHANGES", 0x00C00114, 8, 0x10000, 1, 0x0, [⟨31, 0, .ro, 0x0, 0, 4294967295, .chip⟩]⟩,
  ⟨"LINK_DOWNS", 0x00C00118, 8, 0x10000, 1, 0x0, [⟨31, 0, .ro, 0x0, 0, 4294967295, .chip⟩]⟩,
  ⟨"FEC_CORRECTED", 0x00C0011C, 8, 0x10000, 1, 0x0, [⟨31, 0, .ro, 0x0, 0, 4294967295, .chip⟩]⟩,
  ⟨"VC_DROPPED", 0x00C00120, 8, 0x10000, 1, 0x0, [⟨31, 0, .ro, 0x0, 0, 4294967295, .chip⟩]⟩,
  ⟨"CREDIT_OVERFLOW", 0x00C00124, 8, 0x10000, 1, 0x0, [⟨31, 0, .ro, 0x0, 0, 4294967295, .chip⟩]⟩]
/-- Registers of block ANT. -/
def regsAnt : List RegDesc := [
  ⟨"ANT_ADDR", 0x00D00000, 1, 0x0, 1, 0x0, [⟨23, 0, .ro, 0x0, 0, 16777215, .chip⟩,
    ⟨24, 24, .ro, 0x0, 0, 1, .chip⟩,
    ⟨25, 25, .ro, 0x0, 0, 1, .chip⟩]⟩,
  ⟨"ANT_GEN", 0x00D00004, 1, 0x0, 1, 0x0, [⟨15, 0, .ro, 0x0, 0, 65535, .chip⟩]⟩,
  ⟨"ANT_CFG", 0x00D00008, 1, 0x0, 1, 0x0, [⟨9, 0, .rw, 0xA, 1, 1000, .chip⟩,
    ⟨17, 10, .rw, 0x40, 8, 255, .chip⟩,
    ⟨22, 18, .rw, 0x4, 1, 16, .chip⟩]⟩,
  ⟨"ANT_PART_SLICE", 0x00D00010, 1, 0x0, 8, 0x4, [⟨11, 0, .rwl, 0x0, 0, 4094, .carve⟩]⟩,
  ⟨"ANT_PORT_CFG", 0x00D00100, 1, 0x0, 8, 0x10, [⟨2, 0, .rw, 0x0, 0, 7, .carve⟩,
    ⟨3, 3, .rw, 0x0, 0, 1, .carve⟩,
    ⟨4, 4, .rw, 0x0, 0, 1, .chip⟩,
    ⟨5, 5, .w1c, 0x0, 0, 1, .chip⟩]⟩,
  ⟨"ANT_PORT_STATE", 0x00D00104, 1, 0x0, 8, 0x10, [⟨1, 0, .ro, 0x0, 0, 3, .chip⟩,
    ⟨2, 2, .ro, 0x0, 0, 1, .chip⟩,
    ⟨14, 3, .ro, 0x0, 0, 4095, .chip⟩]⟩,
  ⟨"ANT_PEER", 0x00D00108, 1, 0x0, 8, 0x10, [⟨23, 0, .ro, 0x0, 0, 16777215, .chip⟩,
    ⟨24, 24, .ro, 0x0, 0, 1, .chip⟩,
    ⟨27, 25, .ro, 0x0, 0, 7, .chip⟩]⟩,
  ⟨"ANT_ROUTE_MATCH", 0x00D01000, 1, 0x0, 64, 0x8, [⟨15, 0, .rw, 0x0, 0, 65535, .chip⟩,
    ⟨31, 16, .rw, 0x0, 0, 65535, .chip⟩]⟩,
  ⟨"ANT_ROUTE_ACTION", 0x00D01004, 1, 0x0, 64, 0x8, [⟨2, 0, .rw, 0x0, 0, 7, .chip⟩,
    ⟨5, 3, .rw, 0x0, 0, 7, .chip⟩,
    ⟨6, 6, .rw, 0x0, 0, 1, .chip⟩,
    ⟨10, 7, .rw, 0x0, 0, 15, .chip⟩,
    ⟨11, 11, .rw, 0x0, 0, 1, .chip⟩,
    ⟨12, 12, .rw, 0x0, 0, 1, .chip⟩,
    ⟨13, 13, .rw, 0x0, 0, 1, .chip⟩]⟩,
  ⟨"HDR_ERRORS", 0x00D02000, 1, 0x0, 1, 0x0, [⟨31, 0, .ro, 0x0, 0, 4294967295, .chip⟩]⟩,
  ⟨"FOREIGN_SLICE", 0x00D02004, 1, 0x0, 1, 0x0, [⟨31, 0, .ro, 0x0, 0, 4294967295, .chip⟩]⟩,
  ⟨"BAD_TYPE", 0x00D02008, 1, 0x0, 1, 0x0, [⟨31, 0, .ro, 0x0, 0, 4294967295, .chip⟩]⟩,
  ⟨"HOP_EXPIRED", 0x00D0200C, 1, 0x0, 1, 0x0, [⟨31, 0, .ro, 0x0, 0, 4294967295, .chip⟩]⟩,
  ⟨"NO_ROUTE", 0x00D02010, 1, 0x0, 1, 0x0, [⟨31, 0, .ro, 0x0, 0, 4294967295, .chip⟩]⟩]
/-- Registers of block GLD. -/
def regsGld : List RegDesc := [
  ⟨"GLD_PORT_STATUS", 0x00E00000, 4, 0x10000, 1, 0x0, [⟨0, 0, .ro, 0x0, 0, 1, .chip⟩,
    ⟨1, 1, .ro, 0x0, 0, 1, .chip⟩,
    ⟨2, 2, .ro, 0x0, 0, 1, .chip⟩,
    ⟨5, 3, .ro, 0x0, 0, 7, .chip⟩,
    ⟨31, 16, .ro, 0x0, 0, 65535, .chip⟩]⟩,
  ⟨"GLD_CAL_CFG", 0x00E00010, 4, 0x10000, 1, 0x0, [⟨15, 0, .rw, 0x258, 60, 65535, .chip⟩]⟩,
  ⟨"GLD_CAMPUS_PLAN", 0x00E00020, 4, 0x10000, 5, 0x4, [⟨10, 0, .rw, 0x0, 0, 2047, .chip⟩]⟩,
  ⟨"GLD_TX_POWER", 0x00E00034, 4, 0x10000, 1, 0x0, [⟨7, 0, .rw, 0xC4, 156, 216, .chip⟩]⟩,
  ⟨"GLD_CHAN_MAP", 0x00E00100, 4, 0x10000, 16, 0x4, [⟨4, 0, .ro, 0x0, 0, 31, .chip⟩,
    ⟨12, 8, .ro, 0x0, 0, 31, .chip⟩]⟩,
  ⟨"GLD_CHAN_HEALTH", 0x00E00200, 4, 0x10000, 18, 0x4, [⟨2, 0, .ro, 0x0, 0, 7, .chip⟩,
    ⟨15, 8, .ro, 0x0, 0, 255, .chip⟩,
    ⟨31, 16, .ro, 0x0, 0, 65535, .chip⟩]⟩,
  ⟨"FLIT_GAPS", 0x00E00400, 4, 0x10000, 1, 0x0, [⟨31, 0, .ro, 0x0, 0, 4294967295, .chip⟩]⟩,
  ⟨"FLITS_SUBSTITUTED", 0x00E00404, 4, 0x10000, 1, 0x0, [⟨31, 0, .ro, 0x0, 0, 4294967295, .chip⟩]⟩,
  ⟨"FRAMES_DISCARDED", 0x00E00408, 4, 0x10000, 1, 0x0, [⟨31, 0, .ro, 0x0, 0, 4294967295, .chip⟩]⟩,
  ⟨"SWAPS", 0x00E0040C, 4, 0x10000, 1, 0x0, [⟨31, 0, .ro, 0x0, 0, 4294967295, .chip⟩]⟩,
  ⟨"FEC_UNCORRECTED", 0x00E00410, 4, 0x10000, 1, 0x0, [⟨31, 0, .ro, 0x0, 0, 4294967295, .chip⟩]⟩,
  ⟨"GLD_LASER", 0x00E80000, 1, 0x0, 50, 0x4, [⟨2, 0, .ro, 0x0, 0, 7, .chip⟩,
    ⟨15, 8, .ro, 0x0, 0, 255, .chip⟩,
    ⟨31, 16, .ro, 0x0, 0, 65535, .chip⟩]⟩]
/-- Registers of block CLK. -/
def regsClk : List RegDesc := [
  ⟨"CLK_STATUS", 0x00F00000, 1, 0x0, 1, 0x0, [⟨0, 0, .ro, 0x0, 0, 1, .chip⟩,
    ⟨1, 1, .ro, 0x0, 0, 1, .chip⟩,
    ⟨2, 2, .ro, 0x0, 0, 1, .chip⟩,
    ⟨3, 3, .ro, 0x0, 0, 1, .chip⟩,
    ⟨4, 4, .ro, 0x0, 0, 1, .chip⟩,
    ⟨5, 5, .ro, 0x0, 0, 1, .chip⟩]⟩,
  ⟨"CLK_ACLK", 0x00F00004, 1, 0x0, 1, 0x0, [⟨5, 0, .ro, 0x30, 0, 63, .chip⟩,
    ⟨6, 6, .ro, 0x0, 0, 1, .chip⟩]⟩,
  ⟨"CLK_ANVIL_ACLK", 0x00F00010, 1, 0x0, 8, 0x4, [⟨5, 0, .ro, 0x30, 0, 63, .chip⟩]⟩,
  ⟨"CLK_RT_LO", 0x00F00040, 1, 0x0, 1, 0x0, [⟨31, 0, .ro, 0x0, 0, 4294967295, .chip⟩]⟩,
  ⟨"CLK_RT_HI", 0x00F00044, 1, 0x0, 1, 0x0, [⟨31, 0, .ro, 0x0, 0, 4294967295, .chip⟩]⟩,
  ⟨"CLK_MT_LO", 0x00F00048, 1, 0x0, 1, 0x0, [⟨31, 0, .ro, 0x0, 0, 4294967295, .chip⟩]⟩,
  ⟨"CLK_MT_HI", 0x00F0004C, 1, 0x0, 1, 0x0, [⟨31, 0, .ro, 0x0, 0, 4294967295, .chip⟩]⟩,
  ⟨"CLK_RT_LOAD_LO", 0x00F00050, 1, 0x0, 1, 0x0, [⟨31, 0, .rw, 0x0, 0, 4294967295, .chip⟩]⟩,
  ⟨"CLK_RT_LOAD_HI", 0x00F00054, 1, 0x0, 1, 0x0, [⟨11, 0, .rw, 0x0, 0, 4095, .chip⟩,
    ⟨31, 31, .w1s, 0x0, 0, 1, .chip⟩]⟩,
  ⟨"CLK_MT_OFFSET_LO", 0x00F00058, 1, 0x0, 1, 0x0, [⟨31, 0, .rw, 0x0, 0, 4294967295, .chip⟩]⟩,
  ⟨"CLK_MT_OFFSET_HI", 0x00F0005C, 1, 0x0, 1, 0x0, [⟨31, 0, .rw, 0x0, 0, 4294967295, .chip⟩]⟩,
  ⟨"CLK_MT_ARM", 0x00F00060, 1, 0x0, 1, 0x0, [⟨0, 0, .w1s, 0x0, 0, 1, .chip⟩]⟩,
  ⟨"CLK_SYNC", 0x00F00070, 1, 0x0, 1, 0x0, [⟨19, 0, .ro, 0x0, 0, 1048575, .chip⟩]⟩,
  ⟨"CLK_TIME_CFG", 0x00F00080, 1, 0x0, 1, 0x0, [⟨15, 0, .rw, 0x3E8, 10, 60000, .chip⟩,
    ⟨31, 16, .rw, 0x3E8, 50, 65535, .chip⟩]⟩,
  ⟨"CLK_PORT_OFFSET", 0x00F00100, 1, 0x0, 8, 0x8, [⟨31, 0, .ro, 0x0, 0, 4294967295, .chip⟩]⟩,
  ⟨"CLK_PORT_DELAY", 0x00F00104, 1, 0x0, 8, 0x8, [⟨30, 0, .ro, 0x0, 0, 2147483647, .chip⟩,
    ⟨31, 31, .ro, 0x0, 0, 1, .chip⟩]⟩,
  ⟨"RTSYNC_MISSED", 0x00F00200, 1, 0x0, 1, 0x0, [⟨31, 0, .ro, 0x0, 0, 4294967295, .chip⟩]⟩,
  ⟨"RTSYNC_CORRECTED", 0x00F00204, 1, 0x0, 1, 0x0, [⟨31, 0, .ro, 0x0, 0, 4294967295, .chip⟩]⟩,
  ⟨"RTSYNC_IGNORED", 0x00F00208, 1, 0x0, 1, 0x0, [⟨31, 0, .ro, 0x0, 0, 4294967295, .chip⟩]⟩,
  ⟨"TCLK_LOSSES", 0x00F0020C, 1, 0x0, 1, 0x0, [⟨31, 0, .ro, 0x0, 0, 4294967295, .chip⟩]⟩]
/-- Registers of block BEL. -/
def regsBel : List RegDesc := [
  ⟨"BEL_STATUS", 0x01000000, 1, 0x0, 1, 0x0, [⟨2, 0, .ro, 0x0, 0, 7, .aux⟩,
    ⟨3, 3, .ro, 0x0, 0, 1, .chip⟩,
    ⟨4, 4, .ro, 0x0, 0, 1, .chip⟩,
    ⟨5, 5, .ro, 0x0, 0, 1, .chip⟩,
    ⟨6, 6, .ro, 0x0, 0, 1, .chip⟩,
    ⟨7, 7, .ro, 0x0, 0, 1, .chip⟩,
    ⟨8, 8, .ro, 0x0, 0, 1, .chip⟩]⟩,
  ⟨"BEL_VOLTS", 0x01000004, 1, 0x0, 1, 0x0, [⟨9, 0, .ro, 0x0, 0, 1023, .chip⟩,
    ⟨19, 10, .ro, 0x0, 0, 1023, .chip⟩,
    ⟨29, 20, .ro, 0x0, 0, 1023, .chip⟩]⟩,
  ⟨"BEL_CFG", 0x01000010, 1, 0x0, 1, 0x0, [⟨10, 0, .rw, 0xFA, 50, 2000, .aux⟩]⟩,
  ⟨"BEL_CAP", 0x01000014, 1, 0x0, 1, 0x0, [⟨10, 0, .rw, 0x47E, 400, 1250, .chip⟩]⟩,
  ⟨"BEL_ACLK", 0x01000018, 1, 0x0, 1, 0x0, [⟨5, 0, .rw, 0x30, 24, 56, .chip⟩]⟩,
  ⟨"BEL_CHIP_POWER", 0x01000020, 1, 0x0, 1, 0x0, [⟨10, 0, .ro, 0x0, 0, 2047, .chip⟩]⟩,
  ⟨"BEL_PART_POWER", 0x01000100, 1, 0x0, 8, 0x10, [⟨10, 0, .ro, 0x0, 0, 2047, .chip⟩,
    ⟨16, 12, .ro, 0x10, 0, 31, .chip⟩,
    ⟨22, 17, .ro, 0x30, 0, 63, .chip⟩]⟩,
  ⟨"BEL_RAIL", 0x01000200, 1, 0x0, 8, 0x4, [⟨11, 0, .ro, 0x0, 0, 4095, .chip⟩,
    ⟨14, 12, .ro, 0x0, 0, 7, .chip⟩,
    ⟨31, 16, .ro, 0x0, 0, 65535, .chip⟩]⟩,
  ⟨"CHANGEOVERS", 0x01000400, 1, 0x0, 1, 0x0, [⟨31, 0, .ro, 0x0, 0, 4294967295, .aux⟩]⟩,
  ⟨"PARKS", 0x01000404, 1, 0x0, 1, 0x0, [⟨31, 0, .ro, 0x0, 0, 4294967295, .aux⟩]⟩,
  ⟨"SHED_EVENTS", 0x01000408, 1, 0x0, 1, 0x0, [⟨31, 0, .ro, 0x0, 0, 4294967295, .aux⟩]⟩,
  ⟨"THROTTLED_PERIODS", 0x0100040C, 1, 0x0, 1, 0x0, [⟨31, 0, .ro, 0x0, 0, 4294967295, .aux⟩]⟩]
/-- Registers of block QCH. -/
def regsQch : List RegDesc := [
  ⟨"QCH_CFG", 0x01100000, 1, 0x0, 1, 0x0, [⟨1, 0, .rw, 0x0, 0, 2, .aux⟩]⟩,
  ⟨"QCH_CTRL", 0x01100004, 1, 0x0, 1, 0x0, [⟨0, 0, .w1s, 0x0, 0, 1, .chip⟩]⟩,
  ⟨"QCH_SECTION_STATUS", 0x01100100, 1, 0x0, 8, 0x10, [⟨15, 0, .ro, 0x0, 0, 65535, .chip⟩,
    ⟨17, 16, .ro, 0x0, 0, 3, .chip⟩,
    ⟨20, 18, .ro, 0x0, 0, 7, .chip⟩,
    ⟨27, 21, .ro, 0x64, 0, 127, .chip⟩]⟩,
  ⟨"QCH_SECTION_LIMITS", 0x01100104, 1, 0x0, 8, 0x10, [⟨7, 0, .rw, 0x0, 0, 255, .aux⟩,
    ⟨15, 8, .rw, 0x0, 0, 255, .aux⟩,
    ⟨23, 16, .rw, 0x0, 0, 255, .aux⟩,
    ⟨31, 24, .rw, 0x0, 0, 255, .aux⟩]⟩,
  ⟨"QCH_SECTION_FLOW", 0x01100108, 1, 0x0, 8, 0x10, [⟨6, 0, .rw, 0x14, 0, 100, .chip⟩,
    ⟨17, 7, .rw, 0x0, 1, 1250, .chip⟩,
    ⟨23, 18, .rw, 0x4, 0, 63, .chip⟩]⟩,
  ⟨"QCH_VALVE_CFG", 0x01100400, 1, 0x0, 8, 0x10, [⟨5, 0, .rw, 0x14, 5, 50, .chip⟩,
    ⟨12, 6, .rw, 0x78, 50, 120, .chip⟩,
    ⟨19, 13, .rw, 0x23, 20, 60, .chip⟩,
    ⟨20, 20, .rw, 0x0, 0, 1, .chip⟩,
    ⟨27, 21, .rw, 0x64, 0, 100, .chip⟩,
    ⟨28, 28, .w1s, 0x0, 0, 1, .chip⟩]⟩,
  ⟨"QCH_VALVE_STATUS", 0x01100404, 1, 0x0, 8, 0x10, [⟨2, 0, .ro, 0x0, 0, 7, .chip⟩,
    ⟨14, 3, .ro, 0x0, 0, 4095, .chip⟩,
    ⟨27, 15, .ro, 0x0, 0, 8191, .chip⟩]⟩,
  ⟨"QCH_VALVE_CAL", 0x01100408, 1, 0x0, 8, 0x10, [⟨6, 0, .ro, 0x0, 0, 127, .chip⟩,
    ⟨13, 7, .ro, 0x0, 0, 127, .chip⟩,
    ⟨14, 14, .ro, 0x0, 0, 1, .chip⟩]⟩,
  ⟨"FORCED_RELEASES", 0x01100800, 1, 0x0, 1, 0x0, [⟨31, 0, .ro, 0x0, 0, 4294967295, .aux⟩]⟩,
  ⟨"REACTIVE_ENTRIES", 0x01100804, 1, 0x0, 1, 0x0, [⟨31, 0, .ro, 0x0, 0, 4294967295, .aux⟩]⟩,
  ⟨"HINTS_REFUSED", 0x01100808, 1, 0x0, 1, 0x0, [⟨31, 0, .ro, 0x0, 0, 4294967295, .aux⟩]⟩,
  ⟨"THERMAL_STOPS", 0x0110080C, 1, 0x0, 1, 0x0, [⟨31, 0, .ro, 0x0, 0, 4294967295, .aux⟩]⟩]
/-- Registers of block NVS. -/
def regsNvs : List RegDesc := [
  ⟨"NVS_STATUS", 0x01200000, 1, 0x0, 1, 0x0, [⟨0, 0, .ro, 0x0, 0, 1, .chip⟩,
    ⟨2, 1, .ro, 0x0, 0, 3, .chip⟩,
    ⟨12, 3, .ro, 0x0, 0, 1023, .chip⟩,
    ⟨22, 13, .ro, 0x0, 0, 1023, .chip⟩]⟩,
  ⟨"ERASES", 0x01200100, 1, 0x0, 1, 0x0, [⟨31, 0, .ro, 0x0, 0, 4294967295, .chip⟩]⟩,
  ⟨"PROGRAMS", 0x01200104, 1, 0x0, 1, 0x0, [⟨31, 0, .ro, 0x0, 0, 4294967295, .chip⟩]⟩,
  ⟨"HALF_ERASED_FOUND", 0x01200108, 1, 0x0, 1, 0x0, [⟨31, 0, .ro, 0x0, 0, 4294967295, .chip⟩]⟩,
  ⟨"FLASH_FAULTS", 0x0120010C, 1, 0x0, 1, 0x0, [⟨31, 0, .ro, 0x0, 0, 4294967295, .chip⟩]⟩]
/-- Registers of block EVR. -/
def regsEvr : List RegDesc := [
  ⟨"EVR_STATUS", 0x01300000, 1, 0x0, 1, 0x0, [⟨12, 0, .ro, 0x0, 0, 8191, .aux⟩,
    ⟨25, 13, .ro, 0x0, 0, 8191, .aux⟩,
    ⟨26, 26, .ro, 0x0, 0, 1, .aux⟩,
    ⟨27, 27, .ro, 0x0, 0, 1, .aux⟩,
    ⟨28, 28, .ro, 0x0, 0, 1, .aux⟩]⟩,
  ⟨"EVR_CFG", 0x01300004, 1, 0x0, 1, 0x0, [⟨9, 0, .rw, 0xA, 0, 1000, .aux⟩,
    ⟨22, 10, .rw, 0xE00, 1, 4096, .aux⟩]⟩,
  ⟨"EVR_CTRL", 0x01300008, 1, 0x0, 1, 0x0, [⟨0, 0, .w1s, 0x0, 0, 1, .aux⟩,
    ⟨1, 1, .w1s, 0x0, 0, 1, .aux⟩,
    ⟨2, 2, .w1s, 0x0, 0, 1, .aux⟩]⟩,
  ⟨"EVR_CURSOR", 0x01300010, 1, 0x0, 1, 0x0, [⟨11, 0, .rw, 0x0, 0, 4095, .aux⟩,
    ⟨12, 12, .ro, 0x0, 0, 1, .aux⟩,
    ⟨13, 13, .w1s, 0x0, 0, 1, .aux⟩,
    ⟨14, 14, .w1s, 0x0, 0, 1, .aux⟩]⟩,
  ⟨"EVR_OVERFLOW", 0x01300020, 1, 0x0, 1, 0x0, [⟨31, 0, .ro, 0x0, 0, 4294967295, .aux⟩]⟩,
  ⟨"EVR_SUPPRESSED", 0x01300024, 1, 0x0, 1, 0x0, [⟨31, 0, .ro, 0x0, 0, 4294967295, .aux⟩]⟩,
  ⟨"EVR_ARCHIVED", 0x01300028, 1, 0x0, 1, 0x0, [⟨31, 0, .ro, 0x0, 0, 4294967295, .aux⟩]⟩,
  ⟨"EVR_PART_OVERFLOW", 0x01300040, 1, 0x0, 8, 0x4, [⟨31, 0, .ro, 0x0, 0, 4294967295, .aux⟩]⟩,
  ⟨"EVR_PART_LIMIT", 0x01300060, 1, 0x0, 8, 0x4, [⟨12, 0, .rw, 0x1C0, 0, 4096, .aux⟩]⟩,
  ⟨"EVR_WINDOW", 0x01301000, 1, 0x0, 64, 0x4, [⟨31, 0, .ro, 0x0, 0, 4294967295, .aux⟩]⟩,
  ⟨"EVR_CODE_CFG", 0x01304000, 1, 0x0, 4096, 0x4, [⟨5, 0, .rw, 0x0, 0, 63, .aux⟩,
    ⟨6, 6, .rw, 0x1, 0, 1, .aux⟩,
    ⟨7, 7, .rw, 0x0, 0, 1, .aux⟩,
    ⟨8, 8, .rw, 0x0, 0, 1, .aux⟩,
    ⟨9, 9, .rw, 0x0, 0, 1, .aux⟩,
    ⟨19, 10, .rw, 0x64, 1, 1000, .aux⟩,
    ⟨25, 20, .rw, 0x10, 1, 63, .aux⟩]⟩,
  ⟨"EVR_SET", 0x01308000, 1, 0x0, 1280, 0x4, [⟨15, 0, .rw, 0xFFFF, 0, 65535, .aux⟩,
    ⟨31, 16, .rw, 0xFFFF, 0, 65535, .aux⟩]⟩]
/-- Registers of block SEC. -/
def regsSec : List RegDesc := [
  ⟨"SEC_STATE", 0x01400000, 1, 0x0, 1, 0x0, [⟨5, 0, .ro, 0x0, 0, 63, .chip⟩,
    ⟨11, 8, .ro, 0x0, 0, 15, .chip⟩,
    ⟨15, 12, .ro, 0x0, 0, 15, .chip⟩,
    ⟨16, 16, .ro, 0x0, 0, 1, .chip⟩]⟩]
/-- The registers of a block. -/
def blkRegs : Blk → List RegDesc
  | .glb => regsGlb
  | .pci => regsPci
  | .prt => regsPrt
  | .cmd => regsCmd
  | .anv => regsAnv
  | .vec => regsVec
  | .hrt => regsHrt
  | .tng => regsTng
  | .sem => regsSem
  | .seq => regsSeq
  | .prc => regsPrc
  | .lbk => regsLbk
  | .lnk => regsLnk
  | .ant => regsAnt
  | .gld => regsGld
  | .clk => regsClk
  | .bel => regsBel
  | .qch => regsQch
  | .nvs => regsNvs
  | .evr => regsEvr
  | .sec => regsSec

/-- The blocks in order. -/
def allBlks : List Blk :=
  [.glb, .pci, .prt, .cmd, .anv, .vec, .hrt, .tng, .sem, .seq, .prc, .lbk, .lnk, .ant, .gld, .clk, .bel, .qch, .nvs, .evr, .sec]

/-- Illegal-write event of each block (R514). -/
def illegalEvent : Blk → Option Nat
  | .glb => some 0x5007
  | .pci => some 0x010A
  | .prt => some 0x0203
  | .cmd => some 0x0301
  | .anv => none
  | .vec => some 0x1003
  | .hrt => some 0x1108
  | .tng => some 0x1108
  | .sem => some 0x1108
  | .seq => some 0x1206
  | .prc => some 0x1309
  | .lbk => some 0x1409
  | .lnk => some 0x200C
  | .ant => some 0x210B
  | .gld => some 0x220C
  | .clk => some 0x300B
  | .bel => some 0x400B
  | .qch => some 0x410C
  | .nvs => some 0x5007
  | .evr => some 0x600D
  | .sec => some 0x5007

end Sys2Proof.Machine
end

