-- ==== Sys2Proof/Machine/State.lean ====
section
/-! DEFINITION. The state of the block: every register, ring, queue, buffer, counter and mode the manual names, as
plain data, and the queue of commands that wait. Tables list only entries that differ from their reset value, so
equal states are equal data. -/
namespace Sys2Proof.Machine

/-! Registers, events, outputs. -/

/-- Why a command stops the machine. No command of this block does (R4: faults are contained in the state). -/
inductive Fault where
  /-- Raised by nothing: the manual gives every command an effect. Kept so that the type has a name; safe. -/
  | none
deriving DecidableEq, Repr

/-- Why a command has no meaning here. -/
inductive Refusal where
  /-- Raised only by a dispatch arm whose command has no meaning yet; safe. -/
  | notModelled (mnemonic : String)
deriving DecidableEq, Repr

/-- What the device has put out, in order. Functions are 0 for the PF and v for VF v. -/
inductive Out where
  /-- A posted write to host memory; `ro` is Relaxed Ordering (R300). -/
  | hostWrite (fn addr : Nat) (data : List Byte) (ro : Bool)
  /-- A read request to host memory with its tag as it is sent (R305, R306). -/
  | hostRead (fn tag addr len : Nat)
  /-- An MSI-X message (R299). -/
  | msix (fn vec : Nat)
  /-- Successful completion of a host read; `poison` marks a poisoned TLP (R134). -/
  | hostData (fn : Nat) (data : List Byte) (poison : Bool)
  /-- Unsupported Request completion of a host read (R295). -/
  | hostUr (fn : Nat)
  /-- Request Retry Status completion of a configuration request (R291). -/
  | hostRrs (fn : Nat)
  /-- AER signal: function, uncorrectable, bit position, message (0 ERR_COR, 1 ERR_NONFATAL, 2 ERR_FATAL) (R316). -/
  | aer (fn : Nat) (uncorr : Bool) (bit msg : Nat)
  /-- A flit on a logical quad of a mesh or rack port (R182, R187). -/
  | flit (port quad : Nat) (data : List Byte)
  /-- An ordered set on a logical quad of a mesh or rack port (R183). -/
  | oset (port quad : Nat) (data : List Byte)
  /-- A line frame on a carrier of a campus port (R243). -/
  | line (port carrier : Nat) (data : List Byte)
  /-- A full-power probe of 2 ms on a Gleed port (R258). -/
  | probe (port : Nat)
  /-- ORing FET enables (R411). -/
  | fet (bus reserve : Bool)
  /-- A rail command: rail, on, voltage step (R403, R405). -/
  | rail (r : Nat) (on : Bool)
  /-- A rail's setpoint by VOUT_COMMAND, in mV (R401, R463). -/
  | vout (r mv : Nat)
  /-- An AVSBus voltage command in mV (R403). -/
  | avs (mv : Nat)
  /-- A coil command: valve, 0 off by fast decay, 1 pull-in, 2 hold, 3 off by slow decay (R425). -/
  | coil (v mode : Nat)
  /-- A sideband answer (R469). -/
  | sideband (data : List Byte)
  /-- The boundary-scan instruction that takes force, and the IDCODE where it selects that register (R538). -/
  | jtag (instr : Nat) (idcode : Option Nat)
deriving DecidableEq, Repr

/-- An event waiting for the recorder (R482): code, source, partition (0xFF for the chip), detail words, instant, machine
time and the FLAGS bits [1:0] of that time (R474). -/
structure Ev where
  code : Nat
  src : Nat
  part : Nat
  det : List Nat
  t : Nat
  mt : Nat
  fl : Nat
deriving DecidableEq, Repr

/-- A record (R474): header fields and the 40 or fewer snapshot entries (REG, VALUE). -/
structure Rec where
  code : Nat
  src : Nat
  part : Nat
  time : Nat
  rep : Nat
  flags : Nat
  snap : List (Nat × Nat)
deriving DecidableEq, Repr

/-- Persistence in progress (R490, R492): starting trigger, trigger bits, records written, packets waiting for the mark. -/
structure Persist where
  first : Nat
  trigs : Nat
  written : Nat
  pkts : List Nat
deriving DecidableEq, Repr

/-- The event recorder (R472 to R491). -/
structure Evr where
  slots : Tbl Rec := []
  next : Nat := 0
  queue : List Ev := []
  /-- Index of the last reserved record and the instant of its latest occurrence (R483). -/
  last : Option (Nat × Nat) := none
  /-- Tokens spent per code index (R484). -/
  spent : Tbl Nat := []
  /-- Code indices with a remembered SUPP (R482). -/
  supp : List Nat := []
  /-- High-water notice sent since the last clear (R486). -/
  hwSent : Bool := false
  /-- Partitions whose limit notice was sent (R486). -/
  limSent : List Nat := []
  persist : Option Persist := none
  /-- Next archive slot 0 to 254 of the open archive sector, and that sector (R491). -/
  arcSlot : Nat := 0
  arcSector : Nat := 0
  arcOpen : Bool := false
deriving DecidableEq, Repr

/-! Semaphores and rings. -/

/-- Who waits on a semaphore (R143, R149, R353, R380). -/
inductive Waiter where
  | pkt (k : Nat)
  | tong (t : Nat)
  | used (p r n : Nat)
  | contrib (p r n : Nat)
  | empty (p r port : Nat)
  | bulk (p b : Nat)
deriving DecidableEq, Repr

/-- A semaphore (R143 to R148): value, OVERFLOW, waiters with their counts, oldest first. -/
structure Sem where
  value : Nat := 0
  ovf : Bool := false
  waiters : List (Waiter × Nat) := []
deriving DecidableEq, Repr

/-- Arrivals and generation of a barrier (R150). -/
structure Barrier where
  arrivals : Nat := 0
  gen : Nat := 0
deriving DecidableEq, Repr

/-- STATE of CMD_SQ_STATUS (R363). -/
inductive RingSt where
  | disabled | running | stopped
deriving DecidableEq, Repr

/-- A fetch burst in progress (R350): first slot, entries, bytes received, bytes still expected, failure status. -/
structure Burst where
  start : Nat
  count : Nat
  data : List Byte
  got : Nat
  fail : Nat
deriving DecidableEq, Repr

/-- A submission ring (R342, R343, R349 to R351). Positions run from 0 to 2S - 1. -/
structure Sq where
  head : Nat := 0
  tail : Nat := 0
  st : RingSt := .disabled
  err : Nat := 0
  stopReq : Bool := false
  deficit : Int := 0
  burst : Option Burst := none
  /-- First half of an extended entry whose second slot is not read yet: slot, bytes, PF right. -/
  half : Option (Nat × List Byte × Bool) := none
  /-- Packets fetched and not yet dispatched, oldest first (R353). -/
  fetched : List Nat := []
  /-- Announced entries not yet fetched, with the PF right of their doorbell (R366), oldest first. -/
  ann : List (Nat × Bool) := []
deriving DecidableEq, Repr

/-- A completion ring (R344, R345, R360). -/
structure Cq where
  head : Nat := 0
  tail : Nat := 0
  reserved : Nat := 0
  /-- Entries counted since the last message (R360). -/
  count : Nat := 0
  timer : Bool := false
deriving DecidableEq, Repr

/-- A receive binding of VC5 (R372, R395): slots, FULL, EMPTY, base, slot size, next slot; EMPTY has been asked for, and
the next slot's EMPTY has been taken (R149). -/
structure Bulk where
  slots : Nat
  full : Nat
  empty : Nat
  base : Nat
  size : Nat
  next : Nat := 0
  asked : Bool := false
  taken : Bool := false
deriving DecidableEq, Repr

/-! Procession. -/

/-- One billet record of a lap plan (R379). -/
structure BRec where
  id : Nat
  home : Nat
  kind : Nat
  format : Nat
  tiles : Nat
  rows : Nat
  cols : Nat
  len : Nat
  homeSrc : Nat
  contrib : Nat
  gradOf : Nat
deriving DecidableEq, Repr

/-- A lap plan (R379). -/
structure Plan where
  members : List Nat
  position : Nat
  hopKind : Nat
  recvSlots : Nat
  vc1 : Nat
  vc3 : Nat
  recvBase : Nat
  retainBase : Nat
  retainBytes : Nat
  holdBase : Nat
  holdBytes : Nat
  keepBase : Nat
  keepBytes : Nat
  semFull : Nat
  semEmpty : Nat
  semUsed : Nat
  semContrib : Nat
  backupS : Nat
  backupR : Nat
  billets : List BRec
deriving DecidableEq, Repr

/-- An accepted lap-start or rehome packet (R377, R383). Hyperparameters are FP32 codes. -/
structure LapJob where
  pkt : Nat
  plan : Plan
  replay : Bool
  sr : Bool
  opt : Nat
  start : Nat
  leader : Nat
  lr : Nat
  beta1 : Nat
  beta2 : Nat
  eps : Nat
  wd : Nat
  optStep : Nat
  rehome : Bool
deriving DecidableEq, Repr

/-- Custody states (R32); `fresh` is an entry of a billet not yet taken here, `passed` one whose
custody a verdict has passed on. -/
inductive Cust where
  | fresh | home | held | onWire | passed | retired
deriving DecidableEq, Repr

/-- What the departure of a queued frame's last flit sets going. -/
inductive TxNote where
  | none
  /-- A copy of billet `o` of ring `r`, with its RESEND_SEQ: its custody deadline starts (R43) and its receive slot frees (R380). -/
  | billet (p r o epoch seq : Nat)
  /-- A lap token, by its epoch, code, destination and RESEND_SEQ: its custody deadline starts (R48). -/
  | token (p r epoch code dst seq : Nat)
  /-- A proxy request, by its tag: its proxy deadline starts (R321). -/
  | proxy (p tag : Nat)
  /-- A frame that passes through holds its landing slot on VC `v` of campus port `d` until then (R256). -/
  | landing (d v : Nat)
deriving DecidableEq, Repr

/-- A custody entry (R41). -/
structure Entry where
  st : Cust := .fresh
  /-- Local address of the copy held or staged here. -/
  loc : Nat := 0
  /-- Receive slot in use, 1-based; 0 for none. -/
  slot : Nat := 0
  /-- Retain slot in use, 1-based; 0 for none. -/
  retain : Nat := 0
  /-- Receive slot that frees once the last flit of the departing copy has left, 1-based; 0 for none (R380). -/
  frees : Nat := 0
  resendSeq : Nat := 0
  /-- Detour in use: 0 the direct hop, i the i-th detour of R54. -/
  route : Nat := 0
  deadline : Bool := false
  recovery : Bool := false
  notOpen : Bool := false
  /-- A WAITING verdict stopped the deadline (R43). -/
  stopped : Bool := false
  /-- Header checked for an arriving copy, and its segments accepted (R40). -/
  hdr : Bool := false
  segs : List Nat := []
  segFails : Tbl Nat := []
  /-- Complete and waiting for admission (R43). -/
  waiting : Bool := false
  /-- Header-only RETURN hop (R34). -/
  ret : Bool := false
  /-- The copy's sender, its BACK waypoint and its RESEND_SEQ, for the verdict (R35, R233). -/
  from_ : Nat := 0
  back : Nat := 0
  seq : Nat := 0
  /-- SEM_FULL has been signalled for it (R380). -/
  full : Bool := false
  /-- Local address of the copy that arrives. -/
  recv : Nat := 0
  /-- FLAGS[1] of its header (R44). -/
  sr : Bool := false
  /-- The home's gradient billet is back in the gradient hold, whether or not its first hop's verdict has come. -/
  returned : Bool := false
deriving DecidableEq, Repr

/-- A retained lap token (R48): code, epoch, destination address, RESEND_SEQ, the detours of its hop as WAY and BACK words,
the detour in use (0 for the direct hop), deadline (which starts when its frame has left) and recovery window running, NOT_OPEN answered. -/
structure Token where
  code : Nat
  epoch : Nat
  dst : Nat
  resendSeq : Nat := 0
  ways : List (Nat × Nat)
  route : Nat := 0
  deadline : Bool := false
  recovery : Bool := false
  notOpen : Bool := false
deriving DecidableEq, Repr

/-- PHASE of PRC_RING_STATUS (R63). -/
inductive LapPhase where
  | closed | opening | forward | backward | prepared | aborting
deriving DecidableEq, Repr

/-- One ring of one partition (R45 to R52). -/
structure Lap where
  epoch : Nat := 0
  phase : LapPhase := .closed
  decision : Nat := 0
  inDoubt : Bool := false
  leader : Bool := false
  job : Option LapJob := none
  waiting : List LapJob := []
  prepare : Bool := false
  /-- PREPARE was forwarded or sent in this epoch. -/
  prepSent : Bool := false
  window : Bool := false
  entries : Tbl Entry := []
  tokens : List Token := []
  /-- Epoch last aborted with its members and its activation keep area, while a replay of it is legal (R58). -/
  aborted : Option (Nat × List Nat × Nat × Nat) := none
  /-- Epochs that this member aborted and has not opened again: a further ABORT of one is acknowledged (R49). -/
  aborts : List Nat := []
  /-- The lap-start packet of the open epoch has completed (in doubt, R50). -/
  pktDone : Bool := false
  detours : Nat := 0
  dups : Nat := 0
  /-- Next receive slot in round-robin order, and grants of landing slots not used yet on VC1 and VC3 (R149, R256). -/
  slotPtr : Nat := 0
  grant1 : Nat := 0
  grant3 : Nat := 0
  /-- COMMIT reached this prepared member in PARK (R412), and the lap-resolve packet that brought it. -/
  deferred : Bool := false
  resolver : Option Nat := none
deriving DecidableEq, Repr

/-- A relay entry of a reset prepared member (R59), with the commit window that applied to its epoch, in ms. Once the window has
ended the entry is dropped; what stays is that a later token of the epoch is STALE. -/
structure Relay where
  part : Nat
  ring : Nat
  epoch : Nat
  pred : Nat
  succ : Nat
  leader : Bool
  window : Nat
  ended : Bool := false
  tokens : List Token
deriving DecidableEq, Repr

/-! Resident mode. -/

/-- A layer record (R384). -/
structure LayerRec where
  kind : Nat
  recur : Nat
  dacBits : Nat
  wFmt : Nat
  w : Nat
  r : Nat
  kIn : Nat
  gates : Nat
  shadowAnvil : Nat
  inTiles : Nat
  outTiles : Nat
  u : Nat
  tables : List Nat
  anvils : Nat
  bankIn : Nat
  bankRow : Nat
  shadowN : Nat
  divThresh : Nat
  /-- U as supplied at setup, BF16 codes row by row (R158, R170). -/
  uCodes : List Nat := []
deriving DecidableEq, Repr

/-- A line as one member holds it (R65 to R69, R384). -/
structure Line where
  id : Nat
  entry : Bool
  members : List Nat
  position : Nat
  firstLayer : Nat
  total : Nat
  layers : List LayerRec
  actFmt : Nat
  maxChunk : Nat
  maxPayload : Nat
  actBuf : Nat
  broken : Bool
  /-- Bytes of a state image of the line, learned by the entry member from an admission circuit (R82). -/
  imgLen : Nat := 0
  /-- The activation buffer that takes the next frame, in round-robin order (R66, R149). -/
  nextBuf : Nat := 0
deriving DecidableEq, Repr

/-- A line-setup or line-reroute packet waiting at its member (R385). -/
structure Setup where
  pkt : Nat
  line : Line
  reroute : Bool
  /-- The member's own check: 0 when it passed, else its failing status. -/
  result : Nat
  /-- The SETUP frame has passed this member. -/
  passed : Bool
  /-- Entry member: first failing status and position carried back. -/
  tag : Nat
deriving DecidableEq, Repr

/-- One layer of a stream slot (R76): LAST_STEP, the FP32 state, the recurrent term waiting for the next step (R86). -/
structure LayerSt where
  last : Nat
  h : List Nat
  u : Option (List Nat)
  diverged : Bool
  fellBack : Bool
deriving DecidableEq, Repr

/-- Slot states other than FREE (R77). -/
inductive SlotSt where
  | claimed | bound | busy
deriving DecidableEq, Repr

/-- A stream slot in use (R76). -/
structure SSlot where
  st : SlotSt
  stream : Nat
  line : Nat
  layers : List LayerSt
deriving DecidableEq, Repr

/-- A park entry (R83). -/
structure Park where
  stream : Nat
  line : Nat
  layers : List LayerSt
deriving DecidableEq, Repr

/-- Stream states at the entry member (R83). -/
inductive StrmSt where
  | admitting | admitted | parked | torn
deriving DecidableEq, Repr

/-- A stream at its entry member (R74, R75). -/
structure Strm where
  stream : Nat
  line : Nat
  st : StrmSt
  sq : Nat
  next : Nat
deriving DecidableEq, Repr

/-- A step, chunk or lifecycle packet at the entry member (R75, R83): its place in the entry queue or in flight. -/
structure Job where
  pkt : Nat
  op : Nat
  stream : Nat
  line : Nat
  first : Nat
  count : Nat
  inFlight : Bool
  /-- Input bytes gathered for the step, and bytes still expected from the host. -/
  input : List Byte
  need : Nat
  fail : Nat
deriving DecidableEq, Repr

/-- What the evaluation of a layer counts (R111, R118, R122, R92): saturations and NaN-scale outputs by pass, NaN values that the
conversions of its inputs and of its outputs turn into integers, and NaN inputs of its gates. -/
structure Tally where
  passes : Tbl (Nat × Nat) := []
  nanIn : Nat := 0
  nanOut : Nat := 0
  gate : Nat := 0
deriving DecidableEq, Repr

/-- An activation frame at a member, between two of its layers (R70, R73): activations as FP32 rows, one per step. -/
structure Work where
  line : Nat
  hdr : List Byte
  xs : List (List Nat)
  layer : Nat
  /-- Steps of a chunk already applied at this layer. -/
  pos : Nat
  flags : Nat
  /-- The wait for further steps of R95 has ended. -/
  ready : Bool := false
  /-- It came in a frame, which holds one of the line's activation buffers (R66, R149). -/
  buf : Bool := false
  /-- What its layer has counted so far. -/
  tally : Tally := {}
deriving DecidableEq, Repr

/-- A recurrent term being computed (R86, R165, R170): the state it is formed from, the drive of each input (R156), the
analog rows once read, whether it is checked, and whether the banks take part. -/
structure Prod where
  stream : Nat
  line : Nat
  layer : Nat
  h : List Nat
  drive : List Int
  analog : Bool
  check : Bool
  y : Option (List Nat)
deriving DecidableEq, Repr

/-! Partitions and packets. -/

/-- A partition reset that runs (R334): its first cause, whether a release has merged into it, whether the configuration lock is
still set (it clears at step 6), and whether a write of PRT_CTRL.RESET is among its causes. -/
structure Resetting where
  cause : Nat
  release : Bool
  lock : Bool
  asked : Bool
deriving DecidableEq, Repr

/-- Lock and fault state of a partition; UNCONFIGURED and CONFIGURED follow from its carve fields. -/
inductive PartSt where
  | unlocked | locked | resetting (r : Resetting) | faulted (lock : Bool)
deriving DecidableEq, Repr

/-- A hint record (R433), as its 16 bytes name it. -/
structure Hint where
  start : Nat
  dur : Nat
  heat : Nat
  section_ : Nat
deriving DecidableEq, Repr

/-- What issued a host request. -/
inductive Issuer where
  | fetch (p i : Nat)
  | tong (t : Nat)
  | input (p k : Nat)
  | firmware (k : Nat)
  | serve (n : Nat)
  | other
deriving DecidableEq, Repr

/-- A host operation waiting or outstanding (R298, R307): a read with the issuer's destination offset, a write, a message. -/
inductive HostOp where
  | read (addr len : Nat) (iss : Issuer) (dst : Nat)
  | write (addr : Nat) (data : List Byte) (ro : Bool) (iss : Issuer)
  | msg (fn vec : Nat)
  | ack (n : Nat)
deriving DecidableEq, Repr

/-- A completion that waits: packet, status, note, result, event and offset. -/
structure Held where
  pkt : Nat
  status : Nat
  note : Nat
  result : List Byte
  ev : Nat
  off : Nat
deriving DecidableEq, Repr

/-- A proxy request of a source partition (R321); its deadline runs once its last flit has left. -/
structure ProxyReq where
  tag : Nat
  write : Bool
  quarantined : Bool
  iss : Issuer
  dst : Nat
  len : Nat
  sent : Bool := false
deriving DecidableEq, Repr

/-- Everything the device keeps for one partition. -/
structure Part where
  st : PartSt := .unlocked
  procession : Bool := false
  modePend : Option Nat := none
  /-- Doorbells written before the lock (R328): SQ, value, PF right. -/
  kept : List (Nat × Nat × Bool) := []
  sems : Tbl Sem := []
  barriers : Tbl Barrier := []
  sqs : Tbl Sq := []
  cqs : Tbl Cq := []
  ringPtr : Nat := 0
  tables : Tbl (List Byte) := []
  bulk : Tbl Bulk := []
  laps : Tbl Lap := []
  lines : List Line := []
  setups : List Setup := []
  slots : List SSlot := []
  parks : List Park := []
  strms : List Strm := []
  jobs : List Job := []
  works : List Work := []
  prods : List Prod := []
  hints : List Hint := []
  /-- Instants of counted fault events, oldest first (R498). -/
  esc : List Nat := []
  escTotal : Nat := 0
  proxy : Tbl ProxyReq := []
  nextProxy : Nat := 0
  /-- Proxy operations that wait for one of the 256 proxy tags (R321). -/
  proxyQ : List HostOp := []
  /-- Completions that wait for the WRITE_ACKs of their packet's writes (R321). -/
  held : List Held := []
  /-- Vectors of a proxied ring that wait for the WRITE_ACK of their entries (R362). -/
  irqWait : List Nat := []
  /-- Receive bindings of VC5 and lines that a partition reset removed and that are not set again (R336). -/
  goneBulk : List Nat := []
  goneLines : List Nat := []
deriving DecidableEq, Repr

/-- Progress of a packet (R353). -/
inductive PPhase where
  | fetched | dispatched | started
deriving DecidableEq, Repr

/-- A packet fetched and not yet completed. -/
structure Pkt where
  part : Nat
  sq : Nat
  slot : Nat
  bytes : List Byte
  pf : Bool
  phase : PPhase := .fetched
  /-- Order of dispatch (R353). -/
  order : Nat := 0
  /-- The header wait has been put to the semaphore. -/
  waitMade : Bool := false
  /-- It is satisfied. -/
  waitMet : Bool := false
  /-- Passed its timeout after it started and is not stoppable (R358). -/
  late : Bool := false
  fetchT : Nat := 0
  dispT : Nat := 0
deriving DecidableEq, Repr

/-! Hearth and tongs. -/

/-- A request that the host sends (R295, R303): `ecc` holds the errors that its accesses to Hearth find (R133). -/
inductive HostReq where
  /-- A BAR2 read. -/
  | bar2Read (fn addr len : Nat) (ecc : List (Nat × Bool))
  /-- A BAR2 write. -/
  | bar2Write (fn addr : Nat) (data : List Byte) (ecc : List (Nat × Bool))
  /-- A 4-byte write of the register at a PF address. -/
  | regWrite (fn a v : Nat)
  /-- A 4-byte write at a BAR0 offset. -/
  | wordWrite (fn off v : Nat)
  /-- A BAR0 read. -/
  | wordRead (fn addr len : Nat)
  /-- A BAR0 access of a size or alignment that R295 refuses, or to a reserved offset. -/
  | refused (fn addr len : Nat) (write : Bool)
  /-- A write of a Vector Control word that unmasks a vector (R299). -/
  | unmask (fn v : Nat)
  /-- A configuration write. -/
  | config (fn field val : Nat)
  /-- A configuration write of VF Enable and NumVFs. -/
  | vfs (enable : Bool) (num : Nat)
  /-- A configuration write that starts a function-level reset of VF `v`. -/
  | flr (v : Nat)
deriving DecidableEq, Repr

/-- A posted write (R303). -/
def HostReq.posted : HostReq → Bool
  | .bar2Write _ _ _ _ => true
  | .regWrite _ _ _ => true
  | .wordWrite _ _ _ => true
  | .refused _ _ _ w => w
  | .unmask _ _ => true
  | _ => false

/-- Hearth (R129 to R139): bytes by physical address, poisoned 32-byte words, granules being zeroed. -/
structure Hrt where
  mem : List Host.Cell := []
  poison : List Nat := []
  /-- Granules whose zeroing for a new owner is under way (R139). -/
  zeroing : List Nat := []
  scrubPos : Nat := 0
  /-- Host requests that wait: for zeroing (R139, R336), or behind a posted write that does (R303); oldest first. -/
  hostWait : List HostReq := []
deriving DecidableEq, Repr

/-- STATE of TNG_STATUS (R154). -/
inductive TongSt where
  | idle | running | waiting | failed
deriving DecidableEq, Repr

/-- A tong (R140 to R142): the packet it runs, the descriptor, its address, its progress, the packets behind it. -/
structure Tong where
  st : TongSt := .idle
  cur : Nat := 0xFFFFFFFF
  pkt : Option Nat := none
  desc : List Byte := []
  /-- The wait of the descriptor has been put to its semaphore. -/
  waitMade : Bool := false
  copying : Bool := false
  /-- Host reads of the descriptor not yet ended, and the failure status met. -/
  reads : Nat := 0
  fail : Nat := 0
  /-- Bytes read from the host for an EGRESS descriptor, by offset. -/
  buf : List Byte := []
  done : Nat := 0
  moved : Nat := 0
  /-- A FILL is running instead of a list (R371). -/
  fill : Bool := false
  /-- Every byte of the descriptor has been handed over; some host write is still to be issued (R298), or some WRITE_ACK to come
(R321). -/
  acking : Bool := false
deriving DecidableEq, Repr

/-! Anvils. -/

/-- A weight region (R102, R373). -/
structure Region where
  id : Nat
  fmt : Nat
  paired : Bool
  rowBase : Nat
  rows : Nat
  colBase : Nat
  cols : Nat
  tile : List Byte
  tile2 : List Byte
deriving DecidableEq, Repr

/-- A weight buffer (R102, R105). -/
structure WBuf where
  regions : List Region := []
  invalid : Bool := false
deriving DecidableEq, Repr

/-- An anvil with its accumulator file and vector unit (R100 to R126). -/
structure Anvil where
  active : Nat := 0
  buf0 : WBuf := {}
  buf1 : WBuf := {}
  /-- WEIGHT_LOAD running. -/
  load : Option Nat := none
  /-- Passes running, in pass order (R152). -/
  passes : List Nat := []
  /-- Epilogue or vector operation running. -/
  vec : Option Nat := none
  /-- Accumulator lanes by row × 512 + lane (R104). -/
  acc : Tbl Nat := []
  /-- Uncorrectable accumulator lanes (R105). -/
  unc : List Nat := []
  /-- Vector registers by register × 512 + lane (R126). -/
  vregs : Tbl Nat := []
  /-- VEC_SR_SEED last taken, generator states that have drawn since, and a seed that waits for the end of the running instruction
  (R124). -/
  seed : Nat := 1
  lfsr : Tbl Nat := []
  seedNext : Option Nat := none
  /-- Regions of both weight buffers that hold the recurrent matrices of layers whose shadow this anvil is (R170): line, layer. -/
  shadow : List (Nat × Nat × Region) := []
  /-- Clearing before an ownership change (R548): the new PRT_ANVILS owner, 8 for free. -/
  clearing : Option Nat := none
deriving DecidableEq, Repr

/-! Host port. -/

/-- A tag not free (R304): requester, function, the value it was sent as (R306), read, bytes received, Completion Timeout
Value, quarantined. -/
structure TagUse where
  req : Nat
  fn : Nat
  sent : Nat
  addr : Nat
  len : Nat
  iss : Issuer
  dst : Nat
  got : Nat
  cto : Nat
  quarantined : Bool
  lateSeen : Bool
deriving DecidableEq, Repr

/-- Configuration space of one function, as far as the manual gives it an effect (R287, R297 to R308, R316, R549). -/
structure FnCfg where
  bme : Bool := false
  mps : Nat := 128
  mrrs : Nat := 512
  relaxed : Bool := true
  extTag : Bool := true
  tag10 : Bool := false
  cto : Nat := 0
  msixEn : Bool := false
  fmask : Bool := false
  /-- Vectors unmasked, and vectors pending (R299). -/
  unmasked : List Nat := []
  pending : List Nat := []
  /-- MSI-X table words other than Vector Control, by 4-byte word number (R299). -/
  table : Tbl Word := []
  /-- AER Uncorrectable and Correctable Error Status, masks and severity (R316). -/
  aerUnc : Nat := 0
  aerCor : Nat := 0
  aerMask : Nat := 0
  aerCorMask : Nat := 0
  aerSev : Nat := 0x00462030
  /-- First Error Pointer, and the header log of the error it names (R316). -/
  aerFirst : Nat := 0
  aerLog : List Nat := []
  /-- ECRC generation and checking enabled, and ACS Control (R287). -/
  ecrcGen : Bool := false
  ecrcCheck : Bool := false
  acs : Nat := 0
  /-- Addresses that the host gave BAR0/1 and BAR2/3, and in the PF the VF BARs of SR-IOV (R293). -/
  bar0 : Nat := 0
  bar2 : Nat := 0
  vfBar0 : Nat := 0
  vfBar2 : Nat := 0
deriving DecidableEq, Repr

/-- A proxy request being served for another chip (R320): serving partition, source address, tag, write, bytes gathered. -/
structure Serve where
  part : Nat
  src : Nat
  tag : Nat
  addr : Nat
  write : Bool
  len : Nat
  data : List Byte
  got : Nat
deriving DecidableEq, Repr

/-- The host port (R287 to R321). -/
structure HostPort where
  refclk : Bool := false
  perst : Bool := true
  training : Bool := false
  rate : Nat := 0
  width : Nat := 0
  flit : Bool := false
  degraded : Bool := false
  fns : Tbl FnCfg := []
  vfEnable : Bool := false
  numVfs : Nat := 0
  vfTag10 : Bool := false
  reqQ : Tbl (List HostOp) := []
  /-- Requesters whose oldest request waits for a tag, the one that has waited longest first (R307). -/
  tagWait : List Nat := []
  tags : Tbl TagUse := []
  serves : Tbl Serve := []
  nextServe : Nat := 0
  /-- Per-partition share of each PCI counter, by counter × 8 + partition (R322). -/
  share : Tbl Nat := []
deriving DecidableEq, Repr

/-! Links and fabric. -/

/-- STATE of LNK_STATUS (R211). -/
inductive LinkSt where
  | disabled | down | training | active | paused | fenced
deriving DecidableEq, Repr

/-- A frame queued at egress (R189, R231): VC, remaining bytes, first flit still to go, ends with an abort, CLASS 1, and what its
departure sets going. A frame that passes through is queued as far as it has come (R229): `src` is the port it came in on (8 for a frame
of this chip), `hold` the flits of it that still take up that port's receive buffer, and `whole` is false while more is to come. -/
structure TxFrame where
  vc : Nat
  bytes : List Byte
  first : Bool
  abort : Bool
  cls : Bool
  note : TxNote := .none
  src : Nat := 8
  hold : Nat := 0
  whole : Bool := true
deriving DecidableEq, Repr

/-- What becomes of a frame whose last flit has not come in yet (R229): it waits to be routed, passes through to a port, drains into
Hearth for a partition of this chip, or is dropped. -/
inductive RxWay where
  | wait | port (e : Nat) | here | gone
deriving DecidableEq, Repr

/-- A frame in progress on a VC of a port (R189): the bytes kept, the bytes received, the flits that take up its receive buffer. -/
structure RxFrame where
  bytes : List Byte := []
  got : Nat := 0
  flits : Nat := 0
  way : RxWay := .wait
deriving DecidableEq, Repr

/-- A time ordered set that waits for its slot (R280): a TIME_REQ, or a TIME_RSP with the instant at which its request arrived. -/
inductive TimeOs where
  | req (tag : Nat)
  | rsp (tag t2 : Nat)
deriving DecidableEq, Repr

/-- A DATA flit kept for replay (R200). -/
structure TxFlit where
  seq : Nat
  vc : Nat
  pos : Nat
  abort : Bool
  payload : List Byte
deriving DecidableEq, Repr

/-- A request of the retrain and width handshake (R203): KIND, request number, and the DESIRED and SUSTAIN sent with it. -/
structure LinkReq where
  kind : Nat
  num : Nat
  desired : Nat
  sustain : Nat
deriving DecidableEq, Repr

/-- A handshake in its pause (R204): DESIRED and SUSTAIN of the peer and of this end, as the handshake exchanged them; the peer's
PAUSE has come, so that the new set is fixed; the quads are ready. -/
structure Pause where
  kind : Nat
  lead : Bool
  desired : Nat
  sustain : Nat
  ownDesired : Nat
  ownSustain : Nat
  recv : Bool
  ready : Bool
  /-- ACK_SEQ of the peer's RESUME, once it has arrived. -/
  resumed : Option Nat
  newMask : Nat
deriving DecidableEq, Repr

/-- One link with its transmitter and receiver (R180 to R210). -/
structure Link where
  st : LinkSt := .disabled
  allot : Nat := 0
  active : Nat := 0
  sustain : Nat := 0
  fails : Tbl Nat := []
  failed : Nat := 0
  peer : Nat := 0
  gen : Nat := 0
  /-- Training step of R184, 0 when none runs. -/
  step : Nat := 0
  heldDown : Bool := false
  /-- A CONFIG flit of the peer has come, one with SEEN 1 has come, and one with SEEN 1 has been sent (R184, R194). -/
  seen : Bool := false
  peerSeen : Bool := false
  seenSent : Bool := false
  /-- ACTIVE, and no flit but CONFIG has come yet: a CONFIG flit of the peer is answered; such an answer is owed. -/
  watch : Bool := false
  config : Bool := false
  req : Option LinkReq := none
  reqNum : Nat := 0
  /-- KINDs of the requests still needed after the handshake in progress (R206). -/
  need : List Nat := []
  pause : Option Pause := none
  /-- The peer's PAUSE has come before its LINK_ACK (R204). -/
  early : Bool := false
  /-- First quad to be tried for the next flit (R182). -/
  turn : Nat := 0
  /-- Time ordered sets that wait for a slot (R280). -/
  timeQ : List TimeOs := []
  seq : Nat := 0
  /-- Gleed ports: SEQ per VC sent and expected, and VCs that discard up to the next first flit (R253, R254). -/
  vseq : Tbl Nat := []
  vexp : Tbl Nat := []
  skip : List Nat := []
  ackd : Nat := 0xFFF
  last : Nat := 0xFFF
  retry : List TxFlit := []
  replay : List TxFlit := []
  replays : Nat := 0
  escal : Nat := 0
  gap : Bool := false
  nak : Bool := false
  /-- A report is due now, and flits accepted since the last one (R198). -/
  owed : Bool := false
  due : Bool := false
  unacked : Nat := 0
  creditPtr : Nat := 0
  /-- HELLO_SEQ of the next HELLO on the port (R217). -/
  hello : Nat := 0
  /-- Failed quads that train in the background (R208). -/
  trying : Nat := 0
  sent : Tbl Nat := []
  freed : Tbl Nat := []
  peerBuf : Tbl Nat := []
  peerTot : Tbl Nat := []
  held : Tbl Nat := []
  txq : List TxFrame := []
  deficit : Tbl Nat := []
  rrPtr : Nat := 1
  share : Nat := 0
  /-- The frame in progress on each VC. -/
  part : Tbl RxFrame := []
  /-- Whole frames waiting for FRAME_INGRESS: VC, bytes, flits. -/
  frames : List (Nat × List Byte × Nat) := []
deriving DecidableEq, Repr

/-- A frame delivered to a partition and not yet consumed: port (8 for a frame of this chip), VC, partition, bytes, flits. -/
structure Deliv where
  port : Nat
  vc : Nat
  part : Nat
  bytes : List Byte
  flits : Nat
deriving DecidableEq, Repr

/-! Lightbanks. -/

/-- A block of a bank (R69, R158, R170 to R173): the layer it carries, the part of its inputs and rows it holds, the
encoded weights and row scales, its product count, its run of diverging checks, and why it is in fallback (0 temperature,
1 laser, 2 divergence, 3 forced, 4 input stage, 5 settling, 6 stale tables, 7 no spare for a row, 8 no tables in the store, 9 its rails off,
10 section S5 at level 2 or 3). -/
structure LBlock where
  part : Nat
  line : Nat
  layer : Nat
  inOff : Nat
  inCnt : Nat
  rowOff : Nat
  rowCnt : Nat
  q : List (List Int)
  sRow : List Nat
  count : Nat := 0
  divs : Nat := 0
  /-- The next product is checked whatever its count (R173). -/
  check : Bool := false
  why : List Nat := []
  /-- Reasons that the full sweep now running would lift. -/
  mark : List Nat := []
  /-- A FORCE 0 waits for the end of a full sweep (R389). -/
  released : Bool := false
  /-- Checks that diverged and products computed in fallback (R389). -/
  nDiv : Nat := 0
  nFall : Nat := 0
deriving DecidableEq, Repr

/-- Phase of a row rotation (R166). -/
inductive RotPhase where
  | settling | comparing (n : Nat) | fitting
deriving DecidableEq, Repr

/-- A row rotation (R166): the row visited, the spare used (the row itself when a spare is refitted), the phase, and
whether the fit in progress is that of a spare that failed its comparison. -/
structure Rot where
  row : Nat
  spare : Nat
  phase : RotPhase
  retry : Bool
deriving DecidableEq, Repr

/-- A lightbank (R156 to R173). -/
structure Bank where
  blocks : Tbl LBlock := []
  rot : Option Rot := none
  /-- Next physical row of the sweep in progress; 68 when it has visited every row. -/
  sweep : Option Nat := none
  /-- Packets that wait for the end of the sweep (R389). -/
  sweepPkts : List Nat := []
  /-- Rows to recalibrate ahead of sweep order (R172). -/
  prio : List Nat := []
  /-- Rows settling after a stage power loss (R169). -/
  settling : List Nat := []
  /-- No more sweeps: no healthy spare is left (R168). -/
  stopped : Bool := false
  /-- The tables are older than SWEEP_PERIOD, with sweeps stopped (R168). -/
  stale : Bool := false
  /-- Inputs whose stage has failed (R169). -/
  badInputs : List Nat := []
  /-- A sweep has ended on this bank. -/
  swept : Bool := false
  /-- Bank temperature the applied heater codes were computed for, in 0.01 °C (R161). -/
  codeTemp : Nat := 0
  hot : Bool := false
  /-- Temperature tables and crosstalk coefficients as the boot read them from the calibration store (R159, R160, R463). -/
  tables : List Byte := []
  xtalk : List Byte := []
  /-- Refits since: 8 × row + temperature point, or 8 × row + 7 for the crosstalk coefficients, with the place in the stream of free
  values where what the refit measured begins (R166). -/
  refits : Tbl Nat := []
  /-- The weights programmed into each physical row's resonators, and the corrected drives applied to them, in 2^-15 of a code (R158,
  R160). -/
  prog : Tbl (List Int) := []
  drive : Tbl (List Int) := []
  /-- Reasons 0 and 1 of fallback that a full sweep has still to lift (R162, R246). -/
  owes : List Nat := []
  /-- The laser in use has failed and its change is under way or impossible (R169). -/
  laserLost : Bool := false
  /-- The calibration store held no tables: the bank stands FAILED (R464). -/
  dead : Bool := false
deriving DecidableEq, Repr

/-! Links: Gleed and time. -/

/-- A channel swap in progress on a Gleed port (R249 to R251): logical lane or quad, FROM, TO, MODE, the step of R250
reached (1 SWAP_REQ sent, 2 both channels sent or awaiting TO), whether this end initiated it, and whether it frees a
channel for calibration. -/
structure Swap where
  lane : Nat
  frm : Nat
  dest : Nat
  mode : Nat
  mine : Bool
  cal : Bool
deriving DecidableEq, Repr

/-- Line-frame alignment of a carrier (R243). -/
structure Align where
  good : Nat := 0
  bad : Nat := 0
  locked : Bool := false
deriving DecidableEq, Repr

/-- What a Gleed port keeps beyond its link (R239 to R258). -/
structure Gleed where
  /-- The swap that this end leads or transmits, and the swap that it receives. -/
  tx : Option Swap := none
  rx : Option Swap := none
  /-- Channel out for calibration, and the last channel visited. -/
  cal : Option Nat := none
  visited : Nat := 0
  /-- No receive signal: total transmit power is limited (R258). -/
  apr : Bool := false
  aligns : Tbl Align := []
  /-- Channels whose laser is worn (R245). -/
  worn : List Nat := []
  /-- Lanes whose channel has failed and whose repair swap has not begun (R251). -/
  lost : List Nat := []
  /-- The lane of an own request that gave way to the peer's (R249). -/
  again : Option Nat := none
  /-- Campus ports, by logical quad: slots of the line frame being built, each with its OS_MAP bit; FRAME_COUNT of the next one; and
  the line frames received that wait for those of the other quads (R182, R243). -/
  slots : Tbl (List (Bool × List Byte)) := []
  count : Tbl Nat := []
  lines : Tbl (List (List Byte)) := []
  /-- Rack ports, by channel, as its last calibration set them: PAM4 codes (R240), mean heater drive and crosstalk coefficients of its
  ring (R247), and the drive applied to each ring (R160). -/
  dac : Tbl (List Nat) := []
  heat : Tbl Nat := []
  coef : Tbl (List Nat) := []
  drive : Tbl Int := []
  /-- Lanes whose receive channel, given with it, is suspected for want of light: a low reading of the spare then fails the local ring
(R257). -/
  dim : Tbl Nat := []
deriving DecidableEq, Repr

/-- A time measurement of a link (R281): departures by tag, and returned pairs (tag, round trip, twice the offset). -/
structure Measure where
  t1 : Tbl Nat := []
  next : Nat := 0
  pairs : List (Nat × Int × Int) := []
  /-- The packets that asked for it (R390). -/
  pkts : List Nat := []
deriving DecidableEq, Repr

/-! Time. -/

/-- Rack time and machine time (R272 to R278). -/
structure Clk where
  rack : Nat := 0
  offset : Nat := 0
  running : Bool := false
  /-- CLK_STATUS.TCLK_PRESENT, RT_SYNCED and HOLDOVER (R271, R274). -/
  tclk : Bool := false
  synced : Bool := false
  holdover : Bool := false
  /-- TCLK cycles for which rack time still holds (R274). -/
  hold : Nat := 0
  /-- TCLK cycles since rack time started, which nothing adjusts: the count that RTSYNC periods are measured in. -/
  cycles : Nat := 0
  /-- Count at the last pulse sampled and not ignored, and at the last pulse ignored (R274). -/
  pulse : Option Nat := none
  ignored : Option Nat := none
  /-- A pulse has been sampled since the last miss decision, and the run of misses. -/
  sampled : Bool := false
  misses : Nat := 0
  /-- The ACLK PLL has lost lock and the domain runs at OSC × 12 (R267). -/
  aclkLost : Bool := false
deriving DecidableEq, Repr

/-! Bellows. -/

/-- Changeover states (R407). -/
inductive BelSt where
  | dark | sourceBus | toReserve | sourceReserve | toBus | park
deriving DecidableEq, Repr

/-- Bellows (R397 to R418): its state and the voltages of the last sample in 0.1 V. Steps and duties are in
BEL_PART_POWER. -/
structure Bel where
  st : BelSt := .dark
  bus : Nat := 0
  res : Nat := 0
  node : Nat := 0
  /-- What each rail does (R405, R406): 0 off, 1 ramping, 2 good, 3 fault. BEL_RAIL reports it. -/
  rails : Tbl Nat := []
  busEn : Bool := false
  resEn : Bool := false
  /-- The input whose enable goes high when the 10 µs dead time ends: true for the bus (R411). -/
  dead : Option Bool := none
  /-- A power-up sequence: the source chosen (true for the bus) and the rail it waits for (R405). -/
  up : Option (Bool × Nat) := none
  /-- The failed power-up may be retried: its source. -/
  retry : Option Bool := none
  tries : Nat := 0
  /-- Rails that wait for their restart, and rails restarted already (R406). -/
  restart : List Nat := []
  restarted : List Nat := []
  /-- The chip ACLK step that waits for VCORE to settle (R403), and the N of a change in progress (R267). -/
  rise : Option Nat := none
  changing : Option Nat := none
  /-- The chip has not left DARK since AUX rise. -/
  fresh : Bool := true
  /-- VCORE droop: every step is halved (R418). -/
  droop : Bool := false
  /-- The cap in force (R417). -/
  cap : Nat := 1150
  /-- VCORE in mV for N = 24 to 56 as the calibration store gave it, clamped (R403); empty for 900 mV at every step. -/
  vf : List Nat := []
  /-- Setpoints of the rails in mV that the configuration's RAILS section gave (R448, R463); empty, or 0, for those of R400. -/
  sets : List Nat := []
deriving DecidableEq, Repr

/-! Quench. -/

/-- Phases of a coil (R425). -/
inductive Phase where
  | off | pullIn | hold | releaseWait | forcedOff | failed
deriving DecidableEq, Repr

/-- A valve (R424 to R427, R434): phase, profile end, start of the pull-in, PENDING, all on the valve clock in ms; the last
closing delays measured (latest first, at most 8), and the opening delay; coil currents measured are in QCH_VALVE_STATUS. -/
structure Valve where
  phase : Phase := .off
  endAt : Nat := 0
  startAt : Nat := 0
  pend : Option Nat := none
  closing : List Nat := []
  opening : Option Nat := none
deriving DecidableEq, Repr

/-- A cooling section (R422 to R439): its temperature in 0.01 °C, run mode (0 predictive, 1 reactive, 2 manual), level
(0 normal, 1 THROTTLE, 2 STOP, 3 TRIP, 4 sensor fault), OPEN_MS, its forecast bins and idle heat in mW, the counts of
consecutive bins under-forecast and in tolerance (R431), the counts of samples 2 °C below THROTTLE, STOP and TRIP (R436),
and its step cap's distance below N (R437). -/
structure Section where
  temp : Nat := 0
  run : Nat := 0
  level : Nat := 0
  openMs : Nat := 100
  bins : List Nat := []
  idle : Nat := 0
  high : Nat := 0
  calm : Nat := 0
  cool : List Nat := []
  drop : Nat := 0
deriving DecidableEq, Repr

/-- Quench (R422 to R439).  -/
structure Qch where
  valves : Tbl Valve := []
  sections : Tbl Section := []
  /-- No forecast has come for 20 ms (R431). -/
  silent : Bool := false
  /-- Section whose calibration visit runs (R435). -/
  cal : Option Nat := none
  /-- Valve-clock millisecond of the latest forecast, and the OPEN_MS that S5's heater duty asks for (R428, R430). -/
  forecastAt : Nat := 0
  lasers : Nat := 50
deriving DecidableEq, Repr

/-! Bring-up and the flash store. -/

/-- How far the boot has come (R448). -/
inductive Boot where
  | off | rom | recovery | firmware | stage | calibrating | ready
deriving DecidableEq, Repr

/-- An operation of the flash sequencer (R459, R460, R462, R466). -/
inductive NvOp where
  /-- Program a page. -/
  | prog (off : Nat) (data : List Byte)
  /-- INTENT record of an erase, with its PURPOSE (R460). -/
  | intent (sector purpose : Nat)
  /-- The erase itself, with the repeats left. -/
  | erase (sector tries purpose : Nat)
  /-- DONE record of an erase. -/
  | doneRec (sector purpose : Nat)
  /-- Append a descriptor record that changes these fields, as (offset, length, value) (R462). -/
  | desc (changes : List (Nat × Nat × Nat))
  /-- A sector boundary (R468). -/
  | boundary
deriving DecidableEq, Repr

/-- A run of flash operations: what asked for it (0 FW_STAGE or CONFIG_WRITE, 1 a PLDM update, 2 a calibration save, 3
repairs, 4 FW_ACTIVATE, 5 the confirmation of a trial image), its packet, the slot written, whether it is a configuration,
its SEQ, its content, what is left, and whether the content has been read back and verified. -/
structure NvJob where
  kind : Nat
  pkt : Nat
  slot : Nat
  config : Bool
  seq : Nat
  data : List Byte
  ops : List NvOp
  checked : Bool
deriving DecidableEq, Repr

/-- A PLDM firmware update in progress (R469): component, slot, image bytes received, and its length. -/
structure Pldm where
  /-- 0 idle, 1 learn components, 2 ready, 3 download, 4 verify, 5 apply, 6 activate. -/
  st : Nat := 0
  comp : Nat := 0
  size : Nat := 0
  data : List Byte := []
deriving DecidableEq, Repr

/-- The flash store and what runs on it (R443, R456 to R468). -/
structure Nvs where
  /-- Bytes of the flash that are not 0xFF, by offset. -/
  flash : List Host.Cell := []
  /-- Host or sideband work, and the device's own writes. -/
  host : Option NvJob := none
  own : Option NvJob := none
  /-- Kinds of own work that wait their turn, oldest first. -/
  waiting : List Nat := []
  /-- The operation in progress belongs to host work (true) or to an own write. -/
  running : Option Bool := none
  /-- Half-erased sectors that wait for repair (R461). -/
  half : List Nat := []
  failed : List Nat := []
  /-- A CONFIG_WRITE defers calibration saves until the next chip reset (R465). -/
  deferred : Bool := false
  /-- Bytes of an image or configuration that a packet gathers from the host: packet, bytes, reads left, failure status. -/
  stage : Option (Nat × List Byte × Nat × Nat) := none
  pldm : Pldm := {}
  /-- SVN floor raised and key slots revoked since manufacture (R454). -/
  svn : Nat := 0
  revoked : Nat := 0
  /-- The header of the running image (R469 measurement 2). -/
  header : List Byte := []
  /-- An image received over the sideband waits in the staging area to be run (R455). -/
  sideImage : Option (List Byte) := none
deriving DecidableEq, Repr

/-- The sideband (R469, R538): endpoint identity, SPDM connection state, the JTAG instruction in force. -/
structure Side where
  eid : Nat := 0
  /-- 0 none, 1 version, 2 capabilities, 3 algorithms negotiated. -/
  spdm : Nat := 0
  jtag : Nat := 1
deriving DecidableEq, Repr


/-! The whole machine. -/

/-- The state of the block. -/
structure State where
  /-- Commands that wait, first in, first out. -/
  pending : List Instr := []
  /-- Cycles of 20 ns since the model's start (OSC, R264). The model's own clock. -/
  osc : Nat := 0
  /-- Position in the stream of free values (Config.freeWord). The model's own field. -/
  freeCtr : Nat := 0
  /-- What the device has put out, in order. The model's own field. -/
  out : List Out := []
  /-- Register words that differ from their reset value, by PF BAR0 address (R514). -/
  regs : Tbl Word := []
  /-- High-word latches by function × 2^32 + address of the low word (R269, R519). -/
  latches : Tbl Word := []
  hrt : Hrt := {}
  parts : Tbl Part := []
  pkts : Tbl Pkt := []
  nextPkt : Nat := 0
  /-- Order number of the next dispatch (R353). -/
  nextOrder : Nat := 0
  /-- Semaphore waits satisfied and not yet acted on (R144). -/
  grants : List Waiter := []
  /-- Partition the fetch engine visited last (R350). -/
  fetchRR : Nat := 0
  tongs : Tbl Tong := []
  /-- Port × 8 + VC held by a tong (R142). -/
  egress : Tbl Nat := []
  anvils : Tbl Anvil := []
  relays : List Relay := []
  banks : Tbl Bank := []
  host : HostPort := {}
  links : Tbl Link := []
  delivered : List Deliv := []
  evr : Evr := {}
  /-- Cause of a chip-fatal fault that runs (R502). -/
  fatal : Option Nat := none
  /-- Step 5 of R502 is due: the mark is written or 2.0 s have passed, and a source state is awaited (R503). -/
  fatalDue : Bool := false
  /-- Partitions that became FAULTED, with the instant, latest first (R501 cause 5). -/
  faultTimes : List (Nat × Nat) := []
  clk : Clk := {}
  /-- Time measurements by port (R281), and what Gleed port f (fabric port 4 + f) keeps. -/
  measures : Tbl Measure := []
  gleeds : Tbl Gleed := []
  /-- ORIGIN_ID of the assignment held (R217, R221). -/
  origin : Nat := 0
  bel : Bel := {}
  qch : Qch := {}
  boot : Boot := .off
  nvs : Nvs := {}
  side : Side := {}
  /-- AUX power is up (R399), and the cycle at which it rose: the origin of the valve clock (R424). -/
  aux : Bool := true
  auxAt : Nat := 0
  /-- The strap pins: STRAP_SLOT [3:0], STRAP_ROLE [5:4], STRAP_BOOT [7:6] (R447). -/
  straps : Nat := 0
deriving DecidableEq, Repr

/-- The machine right after reset: every register at its Reset column (an unlisted register), every ring, queue and
buffer empty. Values the manual does not give are those of the assumption log. -/
def State.reset : State := {}

end Sys2Proof.Machine
end

