-- ==== Sys2Proof/Machine/RegFile.lean ====
section
/-! DEFINITION. The register file: where an address lies in the map, the reset value of each register, and the one
pair of operations that reads and writes a stored register word (R514, R524). -/
namespace Sys2Proof.Machine

/-- The block region an address lies in (R514). -/
def blkOf (a : Nat) : Option Blk := allBlks[a / 0x100000]?

/-- Where an address lies in one register's array: instance and index. -/
def RegDesc.find (d : RegDesc) (a : Nat) : Option (Nat × Nat) :=
  if a < d.base then none else
  let o := a - d.base
  let i := if d.insts > 1 then o / d.istride else 0
  let r := if d.insts > 1 then o % d.istride else o
  let j := if d.n > 1 then r / d.stride else 0
  let q := if d.n > 1 then r % d.stride else r
  if i < d.insts && j < d.n && q == 0 then some (i, j) else none

/-- The first register of a list that holds an address. -/
def findReg : List RegDesc → Nat → Option (RegDesc × Nat × Nat)
  | [], _ => none
  | d :: ds, a =>
    match d.find a with
    | some (i, j) => some (d, i, j)
    | none => findReg ds a

/-- A place in a register's array that holds no register: the words beyond a gate table of 272 bytes (R91), and what only
the other kind of Gleed port has (R241, R262). -/
def noSuch (d : RegDesc) (i j : Nat) : Bool :=
  (d.name == "SEQ_TABLE_WORD" && decide (68 ≤ j % 128))
    || (decide (i < 2) && (d.name == "GLD_CAMPUS_PLAN" || d.name == "GLD_TX_POWER"))
    || (decide (2 ≤ i) && ((d.name == "GLD_CHAN_MAP" && decide (4 ≤ j)) || (d.name == "GLD_CHAN_HEALTH" && decide (5 ≤ j))))

/-- The register at an address of PF BAR0, with its instance and index. -/
def locate (a : Nat) : Option (RegDesc × Nat × Nat) :=
  match blkOf a with
  | none => none
  | some b =>
    match findReg (blkRegs b) a with
    | some (d, i, j) => if noSuch d i j then none else some (d, i, j)
    | none => none

/-- The Reset column of a register's fields. -/
def fieldReset : List Fld → Nat
  | [] => 0
  | f :: fs => f.rst * 2 ^ f.lo + fieldReset fs

/-- Default receive buffers in units of 32 flits on mesh ports (R193). -/
def meshVcUnits : List Nat := [4, 64, 48, 64, 32, 32, 12, 0]

/-- Default receive buffers of Gleed rack ports in units of 512 flits (R253). -/
def rackVcUnits : List Nat := [2, 32, 24, 32, 16, 16, 6, 0]
/-- As `rackVcUnits`, for campus ports, in units of 128 flits. -/
def campusVcUnits : List Nat := [16, 0, 32, 0, 16, 32, 32, 0]

/-- Default limits of section `i` as QCH_SECTION_LIMITS holds them: TARGET, THROTTLE, STOP, TRIP (R436). -/
def sectionLimits (i : Nat) : Nat :=
  let l := if i < 4 then (80, 95, 101, 105) else if i == 4 then (75, 90, 95, 100) else if i == 5 then (55, 62, 68, 72)
    else if i == 6 then (80, 95, 100, 105) else (90, 105, 110, 120)
  l.1 + 2 ^ 8 * l.2.1 + 2 ^ 16 * l.2.2.1 + 2 ^ 24 * l.2.2.2

/-- Default H_FULL of section `i` (R436); the table gives S5 none, and the field then reads 0 (log entry 26). -/
def sectionFull (i : Nat) : Nat :=
  if i < 4 then 240 else if i == 4 then 160 else if i == 5 then 0 else if i == 6 then 90 else 120

/-- EVR_CODE_CFG of a code index at AUX rise (R481): SET is 1 + row; COALESCE for the codes recorded with repeat
coalescing; PERSIST and NOTIFY for 0x600E, 0x4006, 0x4007, 0x4008, 0x4109, 0x6008 and 0x600F. -/
def highBytes : List Nat := [1, 2, 3, 0x10, 0x11, 0x12, 0x13, 0x14, 0x20, 0x21, 0x22, 0x30, 0x40, 0x41, 0x50, 0x60]

/-- Codes recorded with repeat coalescing by the chapters that own them. -/
def coalesceCodes : List Nat :=
  [0x0103, 0x0106, 0x0206, 0x0307, 0x1001, 0x1101, 0x1205, 0x1406, 0x2006, 0x2107, 0x2108, 0x2109, 0x2209, 0x4004,
    0x3003, 0x4009, 0x400A, 0x4101, 0x410D]

/-- Codes whose PERSIST and NOTIFY default to 1 (R481). -/
def persistCodes : List Nat := [0x600E, 0x4006, 0x4007, 0x4008, 0x4109, 0x6008, 0x600F]

/-- Index of a code's configuration word (R494): its high byte's row × 256 + its low byte. -/
def codeIndex (code : Nat) : Option Nat :=
  (highBytes.idxOf? (code / 256)).map (· * 256 + code % 256)

/-- The code that a code index names. -/
def indexCode (i : Nat) : Nat := (highBytes.getD (i / 256) 0) * 256 + i % 256

/-- Reset value of the configuration word of code index `i` (R481). -/
def codeCfgReset (i : Nat) : Nat :=
  let c := indexCode i
  let p := b2n (persistCodes.contains c)
  (1 + i / 256) + 64 + b2n (coalesceCodes.contains c) * 128 + p * 256 + p * 512 + 100 * 1024 + 16 * 2 ^ 20

/-- A snapshot set entry of a register: BLOCK, INST, WORD (R477). -/
def regIdx (blk inst off : Nat) : Nat := blk * 2048 + inst * 1024 + off / 4

/-- `n` consecutive registers of a set, `step` bytes apart. -/
def regRun (blk inst off step n : Nat) : List Nat := (List.range n).map fun i => regIdx blk inst (off + step * i)

/-- The entries of snapshot sets 1 to 16 at AUX rise (R480). INST 1 names the instance of PARTITION. -/
def setEntries : Nat → List Nat
  | 1 => [regIdx 1 0 0, regIdx 1 0 0x14] ++ regRun 1 0 0x400 4 7
  | 2 => [regIdx 2 1 0, regIdx 2 1 0x20] ++ regRun 2 1 0x100 4 2 ++ [regIdx 21 0 0]
  | 3 => regRun 3 1 0x40 4 5
  | 4 => [regIdx 4 0 0] ++ regRun 4 0 0x100 4 4 ++ [regIdx 5 1 0x10, regIdx 5 1 0x100]
  | 5 => regRun 6 0 0x500 4 3 ++ [regIdx 7 0 0, regIdx 7 0 8]
  | 6 => [regIdx 9 1 0x100] ++ regRun 9 1 0x200 4 5 ++ [regIdx 22 0 0]
  | 7 => regRun 10 1 0x100 4 2 ++ regRun 10 1 0x200 4 5
  | 8 => [regIdx 11 0 0] ++ regRun 11 0 0x800 4 6
  | 9 => [regIdx 12 0 0] ++ regRun 12 0 0x100 4 10
  | 10 => [regIdx 13 0 0] ++ regRun 13 0 0x104 0x10 8 ++ regRun 25 0 0 4 5
  | 11 => [regIdx 14 0 0] ++ regRun 14 0 0x400 4 5
  | 12 => [regIdx 15 0 0, regIdx 15 0 4, regIdx 15 0 0x70] ++ regRun 15 0 0x200 4 4
  | 13 => [regIdx 16 0 0, regIdx 16 0 4, regIdx 16 0 0x20] ++ regRun 16 0 0x200 4 8
  | 14 => regRun 17 0 0x100 0x10 8 ++ regRun 17 0 0x404 0x10 8 ++ regRun 17 0 0x800 4 4
  | 15 => [regIdx 18 0 0] ++ regRun 18 0 0x100 4 4
  | 16 => [regIdx 0 0 0, regIdx 0 0 4, regIdx 0 0 0x14, regIdx 20 0 0]
  | _ => []

/-- Reset value of word `w` of the snapshot sets, 20 words a set: entry 2w in the low half. -/
def setWordReset (j : Nat) : Nat :=
  let e := setEntries (j / 20)
  let w := j % 20
  e.getD (2 * w) 0xFFFF + 0x10000 * e.getD (2 * w + 1) 0xFFFF

/-- Reset value of a register word, the values that its table gives by index or by port included. -/
def descReset (d : RegDesc) (i j : Nat) : Nat :=
  if d.name == "EVR_CODE_CFG" then codeCfgReset j
  else if d.name == "EVR_SET" then setWordReset j
  else if d.name == "LNK_VC_BUF" then
    (if i < 4 then meshVcUnits else if i < 6 then rackVcUnits else campusVcUnits).getD j 0
  else if d.name == "LBK_ROW_MAP" then j
  else if d.name == "LBK_ROW_HEALTH" then (if j ≥ 64 then 1 else 0)
  else if d.name == "GLD_CHAN_MAP" then j + 256 * j
  else if d.name == "GLD_CAL_CFG" then (if i < 2 then 0x258 else 0xE10)
  else if d.name == "GLD_PORT_STATUS" then (if i < 2 then 2 * 8 else 1 + 1 * 8)
  else if d.name == "GLD_CAMPUS_PLAN" then (if i < 2 then 0 else 12 * j)
  else if d.name == "GLD_CHAN_HEALTH" then (if j ≥ (if i < 2 then 16 else 4) then 1 else 0)
  else if d.name == "QCH_SECTION_LIMITS" then sectionLimits j
  else if d.name == "QCH_SECTION_FLOW" then 20 + sectionFull j * 128 + 4 * 2 ^ 18
  else fieldReset d.flds

/-- Reset value of the register at an address; 0 where the map has none. -/
def resetWord (a : Nat) : Word :=
  match locate a with
  | none => 0
  | some (d, i, j) => BitVec.ofNat 32 (descReset d i j)

/-- The stored word of a register. -/
def State.reg (s : State) (a : Nat) : Word := tget (resetWord a) s.regs a

/-- Store a register word; a word at its reset value is kept unlisted. -/
def State.setReg (s : State) (a : Nat) (w : Word) : State := { s with regs := tset (resetWord a) s.regs a w }

/-- Field [hi:lo] of a stored register. -/
def State.rf (s : State) (a hi lo : Nat) : Nat := fld (s.reg a) hi lo

/-- Set field [hi:lo] of a stored register. -/
def State.setRf (s : State) (a hi lo v : Nat) : State := s.setReg a (setFld (s.reg a) hi lo v)

/-- Add to a counter register; every counter saturates at 0xFFFF_FFFF. -/
def State.bumpBy (s : State) (a n : Nat) : State := s.setReg a (satAdd (s.reg a) n)

/-- Add 1 to a counter register. -/
def State.bump (s : State) (a : Nat) : State := s.bumpBy a 1

/-- The word `w` with the fields of a reset domain at their reset values. -/
def resetFields (dom : Dom) (rst : Nat) : List Fld → Nat → Nat
  | [], w => w
  | f :: fs, w =>
    resetFields dom rst fs (if f.dom == dom then putBits w f.hi f.lo (bits rst f.hi f.lo) else w)

/-- One listed register after a reset of domain `dom`, limited to the addresses that `sel` selects (R524). -/
def resetEntry (dom : Dom) (sel : RegDesc → Nat → Nat → Bool) (a : Nat) (w : Word) : Word :=
  match locate a with
  | none => w
  | some (d, i, j) =>
    if sel d i j then BitVec.ofNat 32 (resetFields dom (descReset d i j) d.flds w.toNat) else w

/-- Reset of the fields of a domain over a list of stored registers. -/
def resetRegs (dom : Dom) (sel : RegDesc → Nat → Nat → Bool) (t : Tbl Word) : Tbl Word :=
  (t.map fun (a, w) => (a, resetEntry dom sel a w)).filter fun (a, w) => w != resetWord a

/-- Reset the fields of a domain in every register that `sel` selects (R524). -/
def State.resetDom (s : State) (dom : Dom) (sel : RegDesc → Nat → Nat → Bool) : State :=
  { s with regs := resetRegs dom sel s.regs }

end Sys2Proof.Machine
end

