-- ==== Sys2Proof/Machine/Ops.lean ====
section
/-! DEFINITION. The named operations every family shares: free values, events, the partition's carve, Hearth by local
address, semaphores and barriers, and the host port's request queues. -/
namespace Sys2Proof.Machine

/-- What a meaning answers. -/
abbrev Res := Host.Outcome State Fault Refusal

/-- Append to the output trace. -/
def State.emit (s : State) (o : Out) : State := { s with out := s.out ++ [o] }

/-- The free value at the head of the stream, and the state past it. -/
def State.free (s : State) : Nat × State := ((Config.freeWord s.freeCtr).toNat, { s with freeCtr := s.freeCtr + 1 })

/-- Milliseconds as cycles of the model's clock (20 ns each). -/
def msCycles (ms : Nat) : Nat := ms * 50000

/-- A step applied to every element of a list, left to right. -/
def State.each {α : Type} (s : State) (l : List α) (f : State → α → State) : State := l.foldl f s

/-! Events (R482, first step). -/

/-- Insertion into the recorder's queue: events of one instant in increasing CODE, then SOURCE, order. -/
def insEv (e : Ev) : List Ev → List Ev
  | [] => [e]
  | x :: xs =>
    if x.t == e.t && (decide (e.code < x.code) || (e.code == x.code && decide (e.src < x.src))) then e :: x :: xs
    else x :: insEv e xs

/-- Raise an event: it joins the recorder's queue of 256, or is lost and counted in OVERFLOW (R482). -/
def State.eventD (s : State) (code src part : Nat) (det : List Nat) : State :=
  if s.evr.queue.length ≥ 256 then s.bump adrEvrOverflow
  else
    let mt := (s.clk.rack + s.clk.offset) % 2 ^ 64
    let e : Ev := ⟨code, src, part, det, s.osc, mt, b2n s.clk.synced + 2 * b2n s.clk.holdover⟩
    { s with evr := { s.evr with queue := insEv e s.evr.queue } }

/-- Raise an event without detail words. -/
def State.event (s : State) (code src part : Nat) : State := s.eventD code src part []

/-! Partitions and their carve (R324, R325). -/

/-- What the device keeps for partition `p`. -/
def State.part (s : State) (p : Nat) : Part := tget {} s.parts p

/-- Replace what the device keeps for partition `p`. -/
def State.setPart (s : State) (p : Nat) (x : Part) : State := { s with parts := tset {} s.parts p x }

/-- Change what the device keeps for partition `p`. -/
def State.modPart (s : State) (p : Nat) (f : Part → Part) : State := s.setPart p (f (s.part p))

/-- The configuration lock is set and the partition runs (state LOCKED). -/
def State.locked (s : State) (p : Nat) : Bool := (s.part p).st == .locked

/-- The configuration lock is set: LOCKED, or FAULTED from LOCKED, which keeps it (R338), or RESETTING from either, until step 6
of R334 clears it. -/
def State.hasLock (s : State) (p : Nat) : Bool :=
  match (s.part p).st with
  | .locked => true
  | .faulted l => l
  | .resetting x => x.lock
  | .unlocked => false

/-- The partition is RESETTING. -/
def State.inReset (s : State) (p : Nat) : Bool :=
  match (s.part p).st with
  | .resetting _ => true
  | _ => false

/-- Partition numbers. -/
def allParts : List Nat := List.range 8

/-- Owner of anvil `a`. -/
def State.anvilOwner (s : State) (a : Nat) : Option Nat :=
  allParts.find? fun p => bitAt (s.reg (adrPrtAnvils p)).toNat a

/-- Owner of tong `t`. -/
def State.tongOwner (s : State) (t : Nat) : Option Nat :=
  allParts.find? fun p => bitAt (s.reg (adrPrtTongs p)).toNat t

/-- Owner of lightbank `b`. -/
def State.bankOwner (s : State) (b : Nat) : Option Nat :=
  allParts.find? fun p => bitAt (s.reg (adrPrtBanks p)).toNat b

/-- Owner of fabric port `d` (R226). -/
def State.portOwner (s : State) (d : Nat) : Option Nat :=
  if s.rf (adrAntPortCfg d) 3 3 == 1 then some (s.rf (adrAntPortCfg d) 2 0) else none

/-- Owner of granule `g` (R136). -/
def State.granOwner (s : State) (g : Nat) : Option Nat :=
  if s.rf (adrHrtGranuleOwner g) 3 3 == 1 then some (s.rf (adrHrtGranuleOwner g) 2 0) else none

/-- Granules of partition `p` in increasing physical order (R137). -/
def State.granules (s : State) (p : Nat) : List Nat := (List.range 128).filter fun g => s.granOwner g == some p

/-- Fabric ports of partition `p`. -/
def State.portsOf (s : State) (p : Nat) : List Nat := (List.range 8).filter fun d => s.portOwner d == some p

/-- Slice of partition `p` (R225). -/
def State.sliceOf (s : State) (p : Nat) : Nat := s.rf (adrAntPartSlice p) 11 0

/-- Slice of a port: its owner's, or the infrastructure slice 0 (R226). -/
def State.portSlice (s : State) (d : Nat) : Nat :=
  match s.portOwner d with
  | some p => s.sliceOf p
  | none => 0

/-- At least one carve field differs from its reset value (the state CONFIGURED's condition). -/
def State.configured (s : State) (p : Nat) : Bool :=
  !(s.granules p).isEmpty || (s.reg (adrPrtAnvils p)).toNat != 0 || (s.reg (adrPrtTongs p)).toNat != 0
    || (s.reg (adrPrtBanks p)).toNat != 0 || !(s.portsOf p).isEmpty || (s.reg (adrPrtPowerShare p)).toNat != 0
    || s.rf (adrSeqSlotCfg p) 7 0 != 0 || s.rf (adrSeqSlotCfg p) 21 16 != 0 || s.sliceOf p != 0
    || (s.reg (adrPciProxyCfg p)).toNat != 0

/-- VF p + 1 exists (R296). -/
def State.vfExists (s : State) (p : Nat) : Bool := s.host.vfEnable && decide (p < s.host.numVfs)

/-- Function whose Requester ID a request of requester `r` carries (R297). -/
def State.fnOf (s : State) (r : Nat) : Nat := if r < 8 && s.vfExists r then r + 1 else 0

/-- Machine time in TCLK cycles (R277), 64 bits: rack time plus MT_OFFSET. -/
def State.machineTime (s : State) : Nat := (s.clk.rack + s.clk.offset) % 2 ^ 64

/-! Hearth (R129 to R139). -/

/-- 16 MiB. -/
def granBytes : Nat := 0x1000000

/-- Physical address of a local address of partition `p`, when it lies in its granules (R137, R138). -/
def State.phys (s : State) (p a : Nat) : Option Nat :=
  ((s.granules p)[a / granBytes]?).map fun g => g * granBytes + a % granBytes

/-- A whole range of local addresses is backed (R138). -/
def State.inHearth (s : State) (p a n : Nat) : Bool := decide (a + n ≤ (s.granules p).length * granBytes)

/-- One byte of Hearth by physical address; an unlisted byte reads 0. -/
def State.byteAt (s : State) (a : Nat) : Byte := tget 0#8 s.hrt.mem a

/-- Write consecutive bytes by physical address. -/
def memWrite : List Host.Cell → Nat → List Byte → List Host.Cell
  | m, _, [] => m
  | m, a, b :: bs => memWrite (tset 0#8 m a b) (a + 1) bs

/-- A write of `n` bytes at physical address `a` covers the whole 32-byte word `w`. -/
def coversWord (a n w : Nat) : Bool := decide (a ≤ 32 * w) && decide (32 * w + 32 ≤ a + n)

/-- Write by physical address; poison leaves every word written whole (R133). -/
def State.writePhys (s : State) (a : Nat) (bs : List Byte) : State :=
  { s with hrt := { s.hrt with
      mem := memWrite s.hrt.mem a bs
      poison := s.hrt.poison.filter fun w => !coversWord a bs.length w } }

/-- Cut a byte list at granule boundaries, starting at local address `a`. -/
def granPieces : Nat → Nat → List Byte → List (Nat × List Byte)
  | 0, _, _ => []
  | fuel + 1, a, bs =>
    if bs.isEmpty then [] else
    let n := granBytes - a % granBytes
    (a, bs.take n) :: granPieces fuel (a + n) (bs.drop n)

/-- Write to Hearth by local address of partition `p`; bytes beyond the partition's granules reach nothing (R138). -/
def State.writeHearth (s : State) (p a : Nat) (bs : List Byte) : State :=
  s.each (granPieces (bs.length / granBytes + 2) a bs) fun s (x, d) =>
    match s.phys p x with
    | some y => s.writePhys y d
    | none => s

/-- `n` bytes of Hearth from a local address of partition `p`, without regard to poison. -/
def State.readHearth (s : State) (p a n : Nat) : List Byte :=
  let gs := s.granules p
  (List.range n).map fun i =>
    match gs[(a + i) / granBytes]? with
    | some g => s.byteAt (g * granBytes + (a + i) % granBytes)
    | none => 0

/-- Physical 32-byte words that `n` bytes at local address `a` touch. -/
def State.wordsOf (s : State) (p a n : Nat) : List Nat :=
  if n == 0 then [] else
  (List.range ((a + n - 1) / 32 - a / 32 + 1)).filterMap fun i =>
    (s.phys p ((a / 32 + i) * 32)).map (· / 32)

/-- Poisoned words that a read of local addresses meets (R134). -/
def State.poisonHits (s : State) (p a n : Nat) : List Nat :=
  (s.wordsOf p a n).filter fun w => s.hrt.poison.contains w

/-- Die that holds a physical address, 0 to 3 (R129). -/
def lineDie (a : Nat) : Nat := bits a 7 6
/-- Bank of a physical address within its die, 0 to 1,023 (R129). -/
def lineBank (a : Nat) : Nat := Nat.xor (bits a 17 8) (bits a 27 18)
/-- Row of a physical address within its bank, 0 to 8,191 (R129). -/
def lineRow (a : Nat) : Nat := bits a 30 18

/-- Record the reads of poisoned words (R134): event 0x1103 with the die as SOURCE, and the counter. -/
def State.notePoison (s : State) (part : Nat) (ws : List Nat) : State :=
  s.each ws fun s w => (s.event 0x1103 (lineDie (32 * w)) part).bump adrHrtPoisonReads

/-- A reader's access to Hearth (R134): the bytes, or none when a poisoned word was met, with its events. -/
def State.load (s : State) (p a n : Nat) : Option (List Byte) × State :=
  let h := s.poisonHits p a n
  if h.isEmpty then (some (s.readHearth p a n), s) else (none, s.notePoison p h)

/-! Semaphores and barriers (R143 to R150). -/

/-- Semaphore `i` of partition `p`. -/
def State.sem (s : State) (p i : Nat) : Sem := tget {} (s.part p).sems i

/-- Replace semaphore `i` of partition `p`. -/
def State.setSem (s : State) (p i : Nat) (x : Sem) : State :=
  s.modPart p fun q => { q with sems := tset {} q.sems i x }

/-- Waiters served strictly in arrival order (R145): those satisfied, those left, the value left. -/
def serveWaiters : List (Waiter × Nat) → Nat → List Waiter × List (Waiter × Nat) × Nat
  | [], v => ([], [], v)
  | (w, c) :: ws, v =>
    if c ≤ v then
      let (g, r, v') := serveWaiters ws (v - c)
      (w :: g, r, v')
    else ([], (w, c) :: ws, v)

/-- Serve the waiters of a semaphore (R143, R144). -/
def State.semServe (s : State) (p i : Nat) : State :=
  let x := s.sem p i
  let (g, r, v) := serveWaiters x.waiters x.value
  { s.setSem p i { x with value := v, waiters := r } with grants := s.grants ++ g }

/-- A signal by `c` (R143, R146): above 0xFFFF_FFFF the value stays there, OVERFLOW is set and 0x1105 is recorded. -/
def State.semSignal (s : State) (p i c : Nat) : State :=
  let x := s.sem p i
  let s :=
    if x.value + c > 0xFFFFFFFF then
      (s.setSem p i { x with value := 0xFFFFFFFF, ovf := true }).event 0x1105 i p
    else s.setSem p i { x with value := x.value + c }
  s.semServe p i

/-- A wait for `c` joins the waiters of the semaphore and is served in its turn (R143, R145). -/
def State.semWait (s : State) (p i c : Nat) (w : Waiter) : State :=
  let x := s.sem p i
  (s.setSem p i { x with waiters := x.waiters ++ [(w, c)] }).semServe p i

/-- Withdraw a waiter that is not yet served; the waiters behind it are then served in their turn. -/
def State.semDrop (s : State) (p i : Nat) (w : Waiter) : State :=
  let x := s.sem p i
  (s.setSem p i { x with waiters := x.waiters.filter fun e => e.1 != w }).semServe p i

/-- The wait of `w` is satisfied and not yet acted on. -/
def State.granted (s : State) (w : Waiter) : Bool := s.grants.contains w

/-- Act on a satisfied wait. -/
def State.takeGrant (s : State) (w : Waiter) : State := { s with grants := s.grants.filter (· != w) }

/-- Write a semaphore value (R143, R148, R391); the balance of R143 starts again from it. -/
def State.semWrite (s : State) (p i v : Nat) : State :=
  (s.setSem p i { s.sem p i with value := v % 2 ^ 32 }).semServe p i

/-- Barrier `j` of partition `p`. -/
def State.barrier (s : State) (p j : Nat) : Barrier := tget {} (s.part p).barriers j

/-- Replace the arrivals and generation of barrier `j`. -/
def State.setBarrier (s : State) (p j : Nat) (x : Barrier) : State :=
  s.modPart p fun q => { q with barriers := tset {} q.barriers j x }

/-- `c` arrivals in one cycle (R150): k whole generations fire with one signal of k × SIGNAL_COUNT. -/
def State.arrive (s : State) (p j c : Nat) : State :=
  let w := s.reg (adrSemBarrier p j)
  let x := s.barrier p j
  let e := fld w 10 0
  let k := if e == 0 then 0 else (x.arrivals + c) / e
  let s := s.setBarrier p j { arrivals := if e == 0 then x.arrivals else (x.arrivals + c) % e, gen := (x.gen + k) % 65536 }
  if k == 0 then s else s.semSignal p (fld w 18 11) (k * fld w 26 19)

/-! Host requests (R297 to R308). -/

/-- Configuration space of function `f`. -/
def State.fn (s : State) (f : Nat) : FnCfg := tget {} s.host.fns f

/-- Replace the configuration space of function `f`. -/
def State.setFn (s : State) (f : Nat) (c : FnCfg) : State := { s with host := { s.host with fns := tset {} s.host.fns f c } }

/-- Replace the host port's own state. -/
def State.setHost (s : State) (f : HostPort → HostPort) : State := { s with host := f s.host }

/-- Send an MSI-X message, or set its Pending Bit while the vector or function is masked (R299). -/
def State.msg (s : State) (f v : Nat) : State :=
  let c := s.fn f
  if c.msixEn && !c.fmask && c.unmasked.contains v then s.emit (.msix f v)
  else s.setFn f { c with pending := insNat c.pending v }

/-- Uncorrectable errors that come with the header of a TLP: poisoned TLP, unexpected completion, malformed TLP, ECRC error and
Unsupported Request (R316). PRESUMED: the base specification's list. -/
def aerHasHeader (bit : Nat) : Bool := [12, 16, 18, 19, 20].contains bit

/-- The first uncorrectable error of a function that has none pending leaves its pointer and the header of its TLP (R316). The
commands carry no TLP headers: the four words are free values. -/
def State.aerFirst (s : State) (f bit : Nat) : State :=
  let c := s.fn f
  if c.aerUnc != 0 then s
  else if aerHasHeader bit then
    let (a, s) := s.free
    let (b, s) := s.free
    s.setFn f { c with aerFirst := bit, aerLog := [a % 2 ^ 32, a / 2 ^ 32, b % 2 ^ 32, b / 2 ^ 32] }
  else s.setFn f { c with aerFirst := bit }

/-- Log an error in a function's AER registers and signal it unless it is masked (R316): `bit` of the Uncorrectable or
Correctable Error Status register; `kind` 0 correctable, 1 advisory non-fatal, 2 as the severity register says, 3 ERR_NONFATAL. Event
0x010B carries the type and the function. -/
def State.aer (s : State) (f : Nat) (uncorr : Bool) (bit kind : Nat) : State :=
  let s := if uncorr then s.aerFirst f bit else s
  let c := s.fn f
  let c := if uncorr then { c with aerUnc := maskOf (onesOf 32 c.aerUnc ++ [bit]) }
           else { c with aerCor := maskOf (onesOf 32 c.aerCor ++ [bit]) }
  let c := if kind == 1 then { c with aerCor := maskOf (onesOf 32 c.aerCor ++ [13]) } else c
  let masked := if uncorr then bitAt c.aerMask bit || (kind == 1 && bitAt c.aerCorMask 13) else bitAt c.aerCorMask bit
  let s := s.setFn f c
  if masked then s
  else
    let m := if kind == 2 then (if bitAt c.aerSev bit then 2 else 1) else if kind == 3 then 1 else 0
    (s.emit (.aer f uncorr bit m)).eventD 0x010B (if f == 0 then 8 else f - 1) (if f == 0 then 0xFF else f - 1)
      [b2n uncorr * 2 ^ 31 + bit, f]

/-- Tags that a request of function `f` may draw: first tag and number of tags (R306). -/
def State.tagRange (s : State) (f : Nat) : Nat × Nat :=
  let ten := if f == 0 then (s.fn 0).tag10 else s.host.vfTag10
  if ten then (0x100, 768) else if (s.fn 0).extTag then (0x100, 256) else (0x100, 32)

/-- Tags in use in a range. -/
def State.tagsUsed (s : State) (lo n : Nat) : Nat :=
  (s.host.tags.filter fun (t, _) => decide (lo ≤ t) && decide (t < lo + n)).length

/-- Tags held by requester `r`: outstanding and quarantined (R307). -/
def State.heldTags (s : State) (r : Nat) : Nat := (s.host.tags.filter fun (_, u) => u.req == r).length

/-- Shortfall of requester `r` (R307). -/
def State.shortfall (s : State) (r : Nat) : Nat := s.rf adrPciTagCfg 6 0 - s.heldTags r

/-- Requester `r` may draw tag `t` now: the tag is free and in its range, and the floor and cap rules hold (R306, R307). -/
def State.mayDraw (s : State) (r t : Nat) : Bool :=
  let (lo, n) := s.tagRange (s.fnOf r)
  let others := (List.range 9).filter (· != r)
  let free := 768 - s.host.tags.length - 1
  let need := (others.map s.shortfall).foldl (· + ·) 0
  let each := others.all fun o =>
    let (lo', n') := s.tagRange (s.fnOf o)
    let taken := if lo' ≤ t && t < lo' + n' then 1 else 0
    decide (s.shortfall o ≤ n' - s.tagsUsed lo' n' - taken)
  decide (lo ≤ t) && decide (t < lo + n) && (tfind s.host.tags t).isNone && decide (s.heldTags r < s.rf adrPciTagCfg 25 16)
    && decide (need ≤ free) && each

/-- The oldest request of requester `r` may be issued but for a tag (R298, R307). -/
def State.wantsTag (s : State) (r : Nat) : Bool :=
  match tget [] s.host.reqQ r with
  | .read _ _ _ _ :: _ => (s.fn (s.fnOf r)).bme
  | _ => false

/-- Requesters that have waited for a tag for longer than requester `r` (R307). -/
def State.waitAhead (s : State) (r : Nat) : List Nat := (s.host.tagWait.takeWhile (· != r)).filter s.wantsTag

/-- The tag that requester `r` draws now, if it may draw one (R307): the lowest that none of those ahead of it could take (log
entry 19). -/
def State.drawTag (s : State) (r : Nat) : Option Nat :=
  let (lo, n) := s.tagRange (s.fnOf r)
  ((List.range n).map (lo + ·)).find? fun t => s.mayDraw r t && !(s.waitAhead r).any fun o => s.mayDraw o t

/-- The value that a request of function `f` carries for tag `t` (R306). -/
def State.sentTag (s : State) (f t : Nat) : Nat :=
  let ten := if f == 0 then (s.fn 0).tag10 else s.host.vfTag10
  if ten then t else if (s.fn 0).extTag then t % 256 else t % 32

/-- Requests of requester `r` that wait, oldest first. -/
def State.reqs (s : State) (r : Nat) : List HostOp := tget [] s.host.reqQ r

/-- Replace the waiting requests of requester `r`. -/
def State.setReqs (s : State) (r : Nat) (l : List HostOp) : State :=
  s.setHost fun h => { h with reqQ := tset [] h.reqQ r l }

/-- Issue the oldest waiting request of requester `r`, when Bus Master Enable and the tag rules allow it (R298, R307). The
WRITE_ACK of a write served for another chip is left to `State.issueNext`. -/
def State.issueOne (s : State) (r : Nat) : Option State :=
  let f := s.fnOf r
  match s.reqs r with
  | [] => none
  | op :: rest =>
    if !(s.fn f).bme then none else
    match op with
    | .write a d ro _ => some ((s.setReqs r rest).emit (.hostWrite f a d ro))
    | .msg g v => some ((s.setReqs r rest).msg g v)
    | .ack _ => none
    | .read a n iss dst =>
      match s.drawTag r with
      | none => none
      | some t =>
        let u : TagUse := ⟨r, f, s.sentTag f t, a, n, iss, dst, 0, (s.fn 0).cto, false, false⟩
        some (((s.setReqs r rest).setHost fun h => { h with tags := tput h.tags t u, tagWait := h.tagWait.filter (· != r) }).emit
          (.hostRead f u.sent a n))

/-- Requester `r` takes its place among those that wait for a tag, or leaves it (R307). -/
def State.noteWait (s : State) (r : Nat) : State :=
  let waits := s.wantsTag r
  s.setHost fun h => { h with tagWait :=
    if !waits then h.tagWait.filter (· != r) else if h.tagWait.contains r then h.tagWait else h.tagWait ++ [r] }

/-- Issue waiting requests of requester `r` in order for as long as the rules allow. -/
def State.pump : Nat → State → Nat → State
  | 0, s, _ => s
  | n + 1, s, r =>
    match s.issueOne r with
    | none => s
    | some s' => State.pump n s' r

/-- Put requests behind those that wait; where none waits, issue what may be issued (R307: strictly in order). -/
def State.enq (s : State) (r : Nat) (ops : List HostOp) : State :=
  let idle := (s.reqs r).isEmpty
  let s := s.setReqs r (s.reqs r ++ ops)
  if idle then (State.pump ops.length s r).noteWait r else s

/-- Length of the first piece of a transfer: within `m` bytes, and not across a 4 KiB boundary. PRESUMED: the base
specification's rule on 4 KiB boundaries. -/
def pieceLen (a n m : Nat) : Nat := min n (min m (4096 - a % 4096))

/-- Pieces of a transfer of `n` bytes at `a`: address, offset, length (R549). -/
def pieces : Nat → Nat → Nat → Nat → Nat → List (Nat × Nat × Nat)
  | 0, _, _, _, _ => []
  | fuel + 1, m, a, off, n =>
    if n == 0 then [] else
    let l := pieceLen a n m
    (a, off, l) :: pieces fuel m (a + l) (off + l) (n - l)

/-- Max Read Request Size that applies to requester `r` (R549). -/
def State.mrrsOf (s : State) (r : Nat) : Nat := (s.fn (s.fnOf r)).mrrs

/-- Reads of `n` bytes at host address `a` for requester `r`, split under R549. -/
def State.readOps (s : State) (r a n : Nat) (iss : Issuer) (dst : Nat) : List HostOp :=
  let m := max 1 (s.mrrsOf r)
  (pieces (n / m + n / 4096 + 2) m a 0 n).map fun (x, off, l) => .read x l iss (dst + off)

/-- Writes at host address `a`, split under R549. -/
def State.writeOps (s : State) (a : Nat) (d : List Byte) (ro : Bool) (iss : Issuer) : List HostOp :=
  let m := max 1 (s.fn 0).mps
  (pieces (d.length / m + d.length / 4096 + 2) m a 0 d.length).map fun (x, off, l) => .write x ((d.drop off).take l) ro iss

/-- Bump a PCI counter chip-wide and the share of a partition in it (R322). -/
def State.pciCount (s : State) (n r : Nat) : State :=
  let s := s.bump (adrPciCplTimeouts + 4 * n)
  if r < 8 then
    s.setHost fun h => { h with share := tset 0 h.share (n * 8 + r) (min (tget 0 h.share (n * 8 + r) + 1) 0xFFFFFFFF) }
  else s

end Sys2Proof.Machine
end

