-- ==== Sys2Proof/Machine/Frames.lean ====
section
/-! DEFINITION. The fabric frame header, routing, delivery and egress (R213 to R233), and the credits that a consumed
frame frees (R195). -/
namespace Sys2Proof.Machine

/-- Link of fabric port `d`. -/
def State.link (s : State) (d : Nat) : Link := tget {} s.links d

/-- Replace the link of port `d`. -/
def State.setLink (s : State) (d : Nat) (l : Link) : State := { s with links := tset {} s.links d l }

/-- Change the link of port `d`. -/
def State.modLink (s : State) (d : Nat) (f : Link → Link) : State := s.setLink d (f (s.link d))

/-- Fields of a fabric frame header (R215). -/
structure FHdr where
  dst : Nat
  typ : Nat
  src : Nat
  hop : Nat
  slice : Nat
  vc : Nat
  len : Nat
  way : Nat
  back : Nat
deriving DecidableEq, Repr

/-- Read a fabric frame header. -/
def parseHdr (b : List Byte) : FHdr :=
  { dst := u32 b 0 % 2 ^ 24, typ := u8 b 3, src := u32 b 4 % 2 ^ 24, hop := u8 b 7, slice := bits (u16 b 8) 11 0,
    vc := bits (u16 b 8) 14 12, len := u32 b 0xC, way := u32 b 0x10, back := u32 b 0x14 }

/-- Bytes 0x00 to 0x1B of a fabric frame header. -/
def hdrBody (h : FHdr) : List Byte :=
  leBytes 3 h.dst ++ leBytes 1 h.typ ++ leBytes 3 h.src ++ leBytes 1 h.hop ++ leBytes 2 (h.slice % 4096 + h.vc % 8 * 4096)
    ++ leBytes 2 0 ++ leBytes 4 h.len ++ leBytes 4 h.way ++ leBytes 4 h.back ++ leBytes 4 0

/-- A body closed by the CRC-32C of itself. -/
def withCrc (b : List Byte) : List Byte := b ++ leBytes 4 (crc32c b)

/-- The 32 bytes of a fabric frame header with its HEADER_CRC. -/
def hdrBytes (h : FHdr) : List Byte := withCrc (hdrBody h)

/-- A frame with a new HOP_LIMIT and WAY and its HEADER_CRC recomputed, and nothing else changed (R228). -/
def passHdr (b : List Byte) (hop way : Nat) : List Byte :=
  withCrc (slice b 0 7 ++ leBytes 1 hop ++ slice b 8 8 ++ leBytes 4 way ++ slice b 0x14 8) ++ b.drop 32

/-- HEADER_CRC is good. -/
def hdrGood (b : List Byte) : Bool := u32 b 0x1C == crc32c (slice b 0 0x1C)

/-- VC that R216 gives a TYPE: none for an illegal TYPE; billets take VC1 or VC3. -/
def typeVcs : Nat → List Nat
  | 1 => [1, 3]
  | 2 => [0]
  | 3 => [2]
  | 4 => [4]
  | 5 => [6]
  | 6 => [5]
  | 7 => [5]
  | 8 => [6]
  | 9 => [6]
  | _ => []

/-- WAY word fields (R215). -/
def wayValid (w : Nat) : Bool := bitAt w 27
/-- Chip address of a waypoint. -/
def wayAddr (w : Nat) : Nat := w % 2 ^ 24
/-- Port of a waypoint. -/
def wayPort (w : Nat) : Nat := bits w 26 24
/-- A valid waypoint word. -/
def mkWay (addr port : Nat) : Nat := addr % 2 ^ 24 + port % 8 * 2 ^ 24 + 2 ^ 27

/-- The chip's address, ANT_ADDR.ADDR, and whether it is valid (R221). -/
def State.chipAddr (s : State) : Nat := s.rf adrAntAddr 23 0
/-- ANT_ADDR.VALID. -/
def State.addrValid (s : State) : Bool := s.rf adrAntAddr 24 24 == 1
/-- Fabric address of partition `p` of this chip: the partition number in [3:1]. -/
def State.partAddr (s : State) (p : Nat) : Nat := s.chipAddr + 2 * p

/-- A port may carry a frame of a slice that did not arrive on it (R229). DEDUCED (log entry 70): a paused link counts as ACTIVE here,
since a pause never discards a frame (R205). -/
def State.usable (s : State) (d slice ingress : Nat) : Bool :=
  ((s.link d).st == .active || (s.link d).st == .paused)
    && (s.rf (adrAntPortState d) 1 0 == 1 || s.rf (adrAntPortState d) 1 0 == 2)
    && s.rf (adrAntPortState d) 2 2 == 0 && s.portSlice d == slice && d != ingress

/-- Port `d` carries only antennation frames (R218, R219). -/
def State.antOnly (s : State) (d : Nat) : Bool := s.rf (adrAntPortState d) 1 0 == 3 || s.rf (adrAntPortState d) 2 2 == 1

/-- Step along x from slot `a` toward slot `b`: E (1) or W (3). -/
def stepX (a b : Nat) : Option Nat := if a / 4 < b / 4 then some 1 else if b / 4 < a / 4 then some 3 else none
/-- Step along y: N (0) or S (2). -/
def stepY (a b : Nat) : Option Nat := if a % 4 < b % 4 then some 0 else if b % 4 < a % 4 then some 2 else none

/-- Mesh order toward a slot (R230): x then y, else the first port of y-then-x order when it differs. -/
def State.meshPort (s : State) (own slot slice ingress : Nat) : Option Nat :=
  let p := (stepX own slot).orElse fun _ => stepY own slot
  let q := (stepY own slot).orElse fun _ => stepX own slot
  match p with
  | none => none
  | some d =>
    if s.usable d slice ingress then some d else
    match q with
    | some e => if e != d && s.usable e slice ingress then some e else none
    | none => none

/-- Where a frame goes (R229). -/
inductive Route where
  | deliver (p : Nat)
  | port (d : Nat) (clearWay cls : Bool)
  | drop
  | refuse
deriving DecidableEq, Repr

/-- The lowest-numbered valid route entry that matches a target (R229). -/
def State.routeEntry (s : State) (target : Nat) : Option Nat :=
  (List.range 64).find? fun i =>
    let m := s.reg (adrAntRouteMatch i)
    s.rf (adrAntRouteAction i) 13 13 == 1
      && decide (Nat.land (bits target 23 8) (fld m 31 16) = Nat.land (fld m 15 0) (fld m 31 16))

/-- Route a frame once (R229 to R231). -/
def State.route (s : State) (h : FHdr) (ingress : Nat) : Route :=
  let target := if wayValid h.way then wayAddr h.way else h.dst
  let own := s.chipAddr
  if target / 16 == own / 16 then
    if wayValid h.way then
      if s.usable (wayPort h.way) h.slice ingress then .port (wayPort h.way) true false else .drop
    else .deliver (h.dst / 2 % 8)
  else if target / 256 == own / 256 then
    match s.meshPort (own / 16 % 16) (target / 16 % 16) h.slice ingress with
    | some d => .port d false false
    | none => .drop
  else
    match s.routeEntry target with
    | none => .drop
    | some i =>
      let a := s.reg (adrAntRouteAction i)
      let cls := fld a 12 12 == 1
      if cls && (h.vc == 1 || h.vc == 3) then .refuse
      else if fld a 11 11 == 1 && own / 16 % 16 != fld a 10 7 then
        match s.meshPort (own / 16 % 16) (fld a 10 7) h.slice ingress with
        | some d => .port d false cls
        | none => .drop
      else if s.usable (fld a 2 0) h.slice ingress then .port (fld a 2 0) false cls
      else if fld a 6 6 == 1 && s.usable (fld a 5 3) h.slice ingress then .port (fld a 5 3) false cls
      else .drop

/-- Port toward an address by wiring alone, whatever its link's state: mesh order for the sled, else the route entry, with mesh
order toward its gateway slot from another slot (R229). -/
def State.wiredPort (s : State) (dst : Nat) : Option Nat :=
  let own := s.chipAddr / 16 % 16
  let mesh := fun slot => (stepX own slot).orElse fun _ => stepY own slot
  if dst / 16 == s.chipAddr / 16 then none
  else if dst / 256 == s.chipAddr / 256 then mesh (dst / 16 % 16)
  else (s.routeEntry dst).bind fun i =>
    let a := s.reg (adrAntRouteAction i)
    if fld a 11 11 == 1 && own != fld a 10 7 then mesh (fld a 10 7) else some (fld a 2 0)

/-! Laps and their custody entries. -/

/-- Ring `r` of partition `p`. -/
def State.lap (s : State) (p r : Nat) : Lap := tget {} (s.part p).laps r
/-- Replace ring `r` of partition `p`. -/
def State.setLap (s : State) (p r : Nat) (l : Lap) : State := s.modPart p fun q => { q with laps := tset {} q.laps r l }
/-- Change ring `r` of partition `p`. -/
def State.modLap (s : State) (p r : Nat) (f : Lap → Lap) : State := s.setLap p r (f (s.lap p r))

/-- The epoch of ring `r` is open. -/
def Lap.isOpen (l : Lap) : Bool := l.phase != .closed && l.phase != .opening

/-- Custody entry of the `n`-th billet in PLAN_ORDER. -/
def Lap.entry (l : Lap) (n : Nat) : Entry := tget {} l.entries n
/-- Replace a custody entry. -/
def Lap.setEntry (l : Lap) (n : Nat) (e : Entry) : Lap := { l with entries := tset {} l.entries n e }

/-- The plan of the open or opening lap. -/
def Lap.plan? (l : Lap) : Option Plan := l.job.map (·.plan)

/-- Successor of a member on the ring. -/
def Plan.succ (p : Plan) : Nat := p.members.getD ((p.position + 1) % p.members.length) 0
/-- Predecessor of a member on the ring. -/
def Plan.pred (p : Plan) : Nat := p.members.getD ((p.position + p.members.length - 1) % p.members.length) 0
/-- This member's address. -/
def Plan.self (p : Plan) : Nat := p.members.getD p.position 0

/-! Landing slots (R256). -/

/-- VC `v` of port `d` is counted in landing slots: VC1 and VC3 of a campus port (R256). -/
def slotVc (d v : Nat) : Bool := decide (6 ≤ d) && decide (d < 8) && (v == 1 || v == 3)

/-- The lap whose landing ring campus port `d` fills (R256). -/
def State.landing (s : State) (d : Nat) : Option (Nat × Nat × Plan) :=
  (allParts.flatMap fun p => [(p, 0), (p, 1)]).findSome? fun (p, r) =>
    (s.lap p r).job.bind fun j => if (s.lap p r).isOpen && s.wiredPort j.plan.pred == some d then some (p, r, j.plan) else none

/-- The landing slot of a frame that does not stay here is freed, with EMPTY signalled (R256). -/
def State.releaseLanding (s : State) (d v : Nat) : State :=
  if !slotVc d v then s
  else match s.landing d with
    | none => s
    | some (p, r, pl) =>
      let l := s.lap p r
      if (if v == 3 then l.grant3 else l.grant1) == 0 then s
      else (s.setLap p r (if v == 3 then { l with grant3 := l.grant3 - 1 } else { l with grant1 := l.grant1 - 1 })).semSignal p pl.semEmpty 1

/-! What a frame's departure sets going (R43, R48, R256, R321, R380). -/

/-- The token's deadline starts when the token that a note names has left. -/
def Token.left (epoch code dst seq : Nat) (t : Token) : Token :=
  if t.epoch == epoch && t.code == code && t.dst == dst && t.resendSeq == seq && !t.notOpen then { t with deadline := true } else t

/-- A copy of a billet has left: its receive slot frees (R380), and the custody deadline of the copy last sent starts (R43). -/
def State.billetLeft (s : State) (p r o epoch seq : Nat) : State :=
  let l := s.lap p r
  let e := l.entry o
  if l.epoch != epoch then s
  else
    let runs := e.st == .onWire && e.resendSeq == seq && !e.stopped && !e.notOpen
    let s := s.setLap p r (l.setEntry o { e with frees := 0, deadline := e.deadline || runs })
    if e.frees == 0 then s else s.semSignal p (l.plan?.elim 0 fun x => x.semEmpty) 1

/-- The last flit of a queued frame has left egress, or the frame has left the queue in another way: delivered on this chip,
dropped for want of a route, or discarded with its link (log entry 64). -/
def State.left (s : State) : TxNote → State
  | .none => s
  | .billet p r o epoch seq => s.billetLeft p r o epoch seq
  | .token p r epoch code dst seq =>
    let s := s.modLap p r fun l => { l with tokens := l.tokens.map (Token.left epoch code dst seq) }
    { s with relays := s.relays.map fun x =>
        if x.part == p && x.ring == r then { x with tokens := x.tokens.map (Token.left epoch code dst seq) } else x }
  | .proxy p tag => s.modPart p fun q => { q with proxy := q.proxy.map fun (t, x) => (t, if t == tag then { x with sent := true } else x) }
  | .landing d v => s.releaseLanding d v

/-- Return the receive-buffer space of `n` flits of VC `v` on port `d` (R195): they count as freed. On a campus port VC1
and VC3 have landing slots in place of a buffer (R256). -/
def State.freeFlits (s : State) (d v n : Nat) : State :=
  if d < 8 && n > 0 && !(d ≥ 6 && (v == 1 || v == 3)) then
    s.modLink d fun l =>
      { l with freed := tset 0 l.freed v (tget 0 l.freed v + n), held := tset 0 l.held v (tget 0 l.held v - n), owed := true }
  else s

/-- The custody engine still answers a frame for partition `p` that is RESETTING or FAULTED (R59): a billet or token where it keeps
a relay entry, and the verdict frame of a token that it retains. -/
def State.relayed (s : State) (p : Nat) (b : List Byte) : Bool :=
  ((s.relays.any fun x => x.part == p) && ((parseHdr b).typ == 1 || (parseHdr b).typ == 2))
    || (s.inReset p && (parseHdr b).typ == 2 && (s.part p).laps.any fun (_, l) => !l.tokens.isEmpty)

/-- A frame for a RESETTING or FAULTED partition is dropped, counted and recorded, and its credits are freed (R336, R500). -/
def State.dropFrame (s : State) (port vc p n : Nat) : State := ((s.bump (adrPrtResetDrops p)).event 0x0206 p p).freeFlits port vc n

/-- A RESETTING or FAULTED partition drops a frame (R336, R500), but for those that the custody engine still answers (R59). -/
def State.refuses (s : State) (p : Nat) (b : List Byte) : Bool :=
  (match (s.part p).st with
    | .resetting _ => true
    | .faulted _ => true
    | _ => false) && !s.relayed p b

/-- Deliver a frame to a partition (R227, R336, R500), or drop it. -/
def State.deliver (s : State) (port vc p : Nat) (b : List Byte) (n : Nat) : State :=
  if s.refuses p b then s.dropFrame port vc p n
  else { s with delivered := s.delivered ++ [⟨port, vc, p, b, n⟩] }

/-- A frame for a receive binding that a partition reset has removed is counted as one dropped during the reset (R336). -/
def State.dropGone (s : State) (p : Nat) (gone : Bool) : State :=
  if gone then (s.bump (adrPrtResetDrops p)).event 0x0206 p p else s

/-- Queue a frame at egress of port `d` (R142: whole frames of one VC, in order). -/
def State.egressPut (s : State) (d : Nat) (f : TxFrame) : State := s.modLink d fun l => { l with txq := l.txq ++ [f] }

/-- SOURCE and PARTITION of an event about fabric port `d` (R476); 0xFF where there is none. -/
def State.portEvent (s : State) (code d : Nat) (det : List Nat) : State :=
  if d < 8 then s.eventD code d ((s.portOwner d).getD 0xFF) det else s.eventD code 0xFF 0xFF det

/-- Send a frame that this chip originates or forwards; `ingress` is 8 for a frame of this chip, whose receive buffer the frame's `flits`
take up until they leave, and `note` is what its departure sets going. A chip without an address sends none (R223), and a frame stays within its slice on its own chip too (R227, R228). -/
def State.forward (s : State) (b : List Byte) (ingress flits : Nat) (note : TxNote) : State :=
  let h := parseHdr b
  if !s.addrValid then (s.freeFlits ingress h.vc flits).left note else
  match s.route h ingress with
  | .deliver p =>
    if s.sliceOf p == h.slice then (s.deliver ingress h.vc p b flits).left note
    else (((s.bump adrForeignSlice).portEvent 0x2107 ingress []).freeFlits ingress h.vc flits).left note
  | .port d clear cls =>
    let f := passHdr b (if ingress < 8 then h.hop - 1 else h.hop) (if clear then putBits h.way 27 27 0 else h.way)
    s.egressPut d { vc := h.vc, bytes := f, first := true, abort := false, cls := cls, note := note, src := ingress, hold := flits }
  | .drop => (((s.bump adrNoRoute).portEvent 0x2108 ingress []).freeFlits ingress h.vc flits).left note
  | .refuse => ((s.portEvent 0x210A ingress []).freeFlits ingress h.vc flits).left note

/-- Originate a frame of partition `p` (R216): the chip fills SRC_ADDR, SLICE, HOP_LIMIT and LENGTH. -/
def State.sendNoted (s : State) (p typ vc dst way back : Nat) (body : List Byte) (note : TxNote) : State :=
  let h : FHdr := ⟨dst, typ, s.partAddr p, s.rf adrAntCfg 17 10, s.sliceOf p, vc, 32 + body.length, way, back⟩
  s.forward (hdrBytes h ++ body) 8 0 note

/-- Originate a frame whose departure sets nothing going. -/
def State.sendFrame (s : State) (p typ vc dst way back : Nat) (body : List Byte) : State :=
  s.sendNoted p typ vc dst way back body .none

/-- Remove a delivered frame and free its buffer space; a frame that was not delivered changes nothing. -/
def State.consume (s : State) (p : Nat) (b : List Byte) : State :=
  match s.delivered.find? fun d => d.part == p && d.bytes == b with
  | none => s
  | some d => ({ s with delivered := s.delivered.erase d }).freeFlits d.port d.vc d.flits

/-- Remove a delivered frame that keeps nothing here: its landing slot, if it fills one, is freed too (R256). -/
def State.discard (s : State) (p : Nat) (b : List Byte) : State :=
  match s.delivered.find? fun d => d.part == p && d.bytes == b with
  | none => s
  | some d => (s.consume p b).releaseLanding d.port d.vc

/-- A frame of a TYPE waits at a partition. -/
def State.arrived (s : State) (typ p : Nat) (b : List Byte) : Bool :=
  (s.delivered.any fun d => d.part == p && d.bytes == b) && (parseHdr b).typ == typ

/-- What a delivered frame of a TYPE does once it is taken; a frame that was not delivered changes nothing (log entry
16). -/
def onFrame (typ p : Nat) (b : List Byte) (f : State → State) (s : State) : Res :=
  .next (if s.arrived typ p b then f (s.consume p b) else s)

end Sys2Proof.Machine
end

