-- ==== Sys2Proof/Machine/Operands.lean ====
section
/-! DEFINITION. The operand forms of Derord packets (R346, R347, R365 to R394): header and parameter fields, the
opcode summary, the unit each opcode runs at, the bytes of vectors and tiles in Hearth (R113, R114), and check 4 of
R352, which names the first failing field. -/
namespace Sys2Proof.Machine

/-! Sizes of operand formats (R30, R107). -/

/-- FORMAT codes with block scales: FP6 E3M2, FP4 E2M1, INT4 (R110). -/
def isMx (f : Nat) : Bool := f == 4 || f == 5 || f == 7

/-- Bits of one element of a format code. -/
def fmtBits : Nat → Nat
  | 0 => 16
  | 1 => 16
  | 2 => 8
  | 3 => 8
  | 4 => 6
  | 5 => 4
  | 6 => 8
  | 7 => 4
  | 8 => 32
  | _ => 0

/-- Blocks of 32 that `n` elements fill (R110). -/
def blocksOf (n : Nat) : Nat := (n + 31) / 32

/-- Bytes of `n` packed elements, MX formats padded to whole blocks (R113). -/
def elemBytes (f n : Nat) : Nat := if isMx f then blocksOf n * 4 * fmtBits f else n * fmtBits f / 8

/-- Bytes of one activation vector of `n` elements (R114). -/
def vecBytes (f n : Nat) : Nat := roundUp (elemBytes f n + if isMx f then blocksOf n else 0) 64

/-- Bytes of one tile column of `r` rows (R113): an odd byte length is followed by one zero byte. -/
def colBytes (f r : Nat) : Nat := if isMx f then elemBytes f r else roundUp (elemBytes f r) 2

/-- Bytes of a weight tile of `r` rows and `c` columns (R113). -/
def tileBytes (f r c : Nat) : Nat := c * colBytes f r + if isMx f then c * blocksOf r else 0

/-! The submission entry (R346). -/

/-- OPCODE. -/
def Pkt.opcode (k : Pkt) : Nat := u8 k.bytes 0
/-- FLAGS. -/
def Pkt.flags (k : Pkt) : Nat := u8 k.bytes 1
/-- TIMEOUT in ms. -/
def Pkt.timeout (k : Pkt) : Nat := u16 k.bytes 2
/-- WAIT_SEM. -/
def Pkt.waitSem (k : Pkt) : Nat := u16 k.bytes 8
/-- WAIT_COUNT. -/
def Pkt.waitCount (k : Pkt) : Nat := u8 k.bytes 0xA
/-- SIGNAL_COUNT. -/
def Pkt.signalCount (k : Pkt) : Nat := u8 k.bytes 0xB
/-- SIGNAL_SEM. -/
def Pkt.signalSem (k : Pkt) : Nat := u16 k.bytes 0xC
/-- BARRIER. -/
def Pkt.barrier (k : Pkt) : Nat := u16 k.bytes 0xE
/-- FENCE. -/
def Pkt.fence (k : Pkt) : Bool := bitAt k.flags 1
/-- PFENCE. -/
def Pkt.pfence (k : Pkt) : Bool := bitAt k.flags 2
/-- NO_IRQ. -/
def Pkt.noIrq (k : Pkt) : Bool := bitAt k.flags 3
/-- QUIET. -/
def Pkt.quiet (k : Pkt) : Bool := bitAt k.flags 4

/-- A row of the opcode summary (R368): extended form, PF right, mode (0 any, 1 procession, 2 resident), stoppable. -/
structure OpRow where
  ext : Bool
  pf : Bool
  mode : Nat
  stop : Bool
deriving DecidableEq, Repr

/-- The opcode summary (R368). -/
def opRow : Nat → Option OpRow
  | 0x00 => some ⟨false, false, 0, false⟩
  | 0x01 => some ⟨false, false, 0, false⟩
  | 0x02 => some ⟨false, false, 0, false⟩
  | 0x10 => some ⟨true, false, 0, true⟩
  | 0x11 => some ⟨false, false, 0, true⟩
  | 0x12 => some ⟨false, false, 0, true⟩
  | 0x13 => some ⟨false, false, 0, false⟩
  | 0x14 => some ⟨false, false, 0, false⟩
  | 0x20 => some ⟨false, false, 0, true⟩
  | 0x21 => some ⟨false, false, 0, true⟩
  | 0x22 => some ⟨false, false, 0, true⟩
  | 0x23 => some ⟨false, false, 0, true⟩
  | 0x30 => some ⟨true, false, 1, false⟩
  | 0x31 => some ⟨false, false, 1, false⟩
  | 0x32 => some ⟨true, false, 1, false⟩
  | 0x40 => some ⟨false, false, 2, false⟩
  | 0x41 => some ⟨false, false, 2, false⟩
  | 0x42 => some ⟨false, false, 0, false⟩
  | 0x43 => some ⟨false, false, 2, false⟩
  | 0x44 => some ⟨false, false, 2, false⟩
  | 0x45 => some ⟨false, false, 2, false⟩
  | 0x46 => some ⟨false, false, 0, false⟩
  | 0x47 => some ⟨false, false, 2, false⟩
  | 0x48 => some ⟨false, false, 2, false⟩
  | 0x49 => some ⟨false, false, 0, false⟩
  | 0x50 => some ⟨false, false, 0, false⟩
  | 0x51 => some ⟨false, false, 0, false⟩
  | 0x52 => some ⟨false, false, 0, false⟩
  | 0x60 => some ⟨false, false, 0, false⟩
  | 0x61 => some ⟨false, true, 0, false⟩
  | 0x62 => some ⟨false, true, 0, false⟩
  | 0x70 => some ⟨false, false, 0, false⟩
  | 0x71 => some ⟨false, false, 0, false⟩
  | 0x72 => some ⟨false, false, 0, false⟩
  | 0x73 => some ⟨false, false, 0, false⟩
  | 0x80 => some ⟨false, true, 0, false⟩
  | 0x81 => some ⟨false, false, 0, false⟩
  | 0x82 => some ⟨false, false, 0, false⟩
  | 0x90 => some ⟨false, false, 0, true⟩
  | 0x91 => some ⟨false, true, 0, false⟩
  | 0x92 => some ⟨false, true, 0, false⟩
  | 0xA0 => some ⟨false, true, 0, false⟩
  | 0xA1 => some ⟨false, true, 0, false⟩
  | 0xA2 => some ⟨false, true, 0, false⟩
  | 0xA3 => some ⟨false, true, 0, true⟩
  | _ => none

/-- The unit an opcode runs at (R353, R367), as class × 256 + number. -/
def Pkt.unit (k : Pkt) : Nat :=
  let b := k.bytes
  match k.opcode / 16 with
  | 0x1 =>
    if k.opcode == 0x10 then 0x100 + u8 b 0x40 else if k.opcode ≤ 0x12 then 0x100 + u8 b 0x10 else 0x900 + k.part
  | 0x2 => 0x200 + (if k.opcode == 0x23 then u8 b 0x13 else u8 b 0x10)
  | 0x3 => 0x300 + 2 * k.part + u8 b 0x10 % 2
  | 0x4 => if k.opcode == 0x49 then 0xA00 + k.part else 0x400 + k.part
  | 0x5 => 0x500 + u8 b 0x10
  | 0x6 => if k.opcode == 0x61 then 0x700 else 0x600 + u8 b 0x10
  | 0x7 => 0x800 + k.part
  | 0x8 => 0xB00 + k.opcode
  | 0x9 => 0xC00
  | 0xA => 0xD00
  | _ => k.part

/-! Parameter fields and check 4 of R352. -/

/-- A condition on a field at an offset. -/
abbrev FieldOk := Nat × Bool

/-- Offsets of the conditions that fail. -/
def failing (l : List FieldOk) : List Nat := (l.filter fun c => !c.2).map (·.1)

/-- Header fields in range (R346). -/
def headerOk (b : List Byte) : List FieldOk :=
  let ws := u16 b 8
  let ss := u16 b 0xC
  let br := u16 b 0xE
  [(8, decide (ws ≤ 255) || ws == 0xFFFF), (0xA, ws == 0xFFFF || u8 b 0xA != 0), (0xB, ss == 0xFFFF || u8 b 0xB != 0),
   (0xC, decide (ss ≤ 255) || ss == 0xFFFF), (0xE, decide (br ≤ 63) || br == 0xFFFF)]

/-- Named parameter bytes of an opcode, as offset and size (R365); every other parameter byte is reserved. -/
def namedBytes : Nat → List (Nat × Nat)
  | 0x01 => [(0x10, 1)]
  | 0x10 => [(0x10, 48), (0x40, 1)]
  | 0x11 => [(0x10, 1), (0x14, 4)]
  | 0x12 => [(0x10, 1), (0x14, 12)]
  | 0x13 => [(0x10, 4), (0x14, 8)]
  | 0x14 => [(0x10, 1)]
  | 0x20 => [(0x10, 20)]
  | 0x21 => [(0x10, 9), (0x1C, 4)]
  | 0x22 => [(0x10, 16)]
  | 0x23 => [(0x10, 25)]
  | 0x30 => [(0x10, 3), (0x14, 44)]
  | 0x31 => [(0x10, 4)]
  | 0x32 => [(0x10, 3), (0x14, 44)]
  | 0x40 => [(0x10, 14), (0x20, 8)]
  | 0x41 => [(0x10, 14), (0x20, 8)]
  | 0x42 => [(0x10, 2)]
  | 0x43 => [(0x10, 7), (0x18, 12)]
  | 0x44 => [(0x10, 7), (0x18, 12)]
  | 0x45 => [(0x10, 7), (0x18, 12)]
  | 0x46 => [(0x10, 6)]
  | 0x47 => [(0x10, 7), (0x18, 26)]
  | 0x48 => [(0x10, 7), (0x18, 26)]
  | 0x49 => [(0x10, 2), (0x18, 8)]
  | 0x50 => [(0x10, 1)]
  | 0x51 => [(0x10, 2)]
  | 0x52 => [(0x10, 3)]
  | 0x60 => [(0x10, 1), (0x14, 4)]
  | 0x61 => [(0x10, 6)]
  | 0x62 => [(0x10, 1)]
  | 0x70 => [(0x10, 2), (0x14, 4)]
  | 0x71 => [(0x10, 4)]
  | 0x72 => [(0x10, 6)]
  | 0x73 => [(0x10, 4)]
  | 0x80 => [(0x10, 2)]
  | 0x81 => [(0x10, 6)]
  | 0x90 => [(0x10, 5), (0x18, 8)]
  | 0xA0 => [(0x10, 1), (0x18, 12)]
  | 0xA1 => [(0x10, 1)]
  | 0xA2 => [(0x10, 1), (0x18, 12)]
  | 0xA3 => [(0x10, 8), (0x18, 8)]
  | _ => []

/-- Reserved parameter bytes of an entry that are not zero (R365). -/
def reservedBad (b : List Byte) : List Nat :=
  let nm := namedBytes (u8 b 0)
  (List.range (b.length - 0x10)).filterMap fun i =>
    let o := 0x10 + i
    if nm.any (fun (p, n) => p ≤ o && o < p + n) then none else if u8 b o == 0 then none else some o

/-- A semaphore field of a descriptor or packet: a local number or 0xFFFF. -/
def semOk (v : Nat) : Bool := decide (v ≤ 255) || v == 0xFFFF

/-- Weight and activation formats that may be paired (R106). -/
def pairOk (w a : Nat) : Bool :=
  match w with
  | 0 => a == 0
  | 1 => a == 1
  | 2 => a == 2 || a == 3
  | 3 => a == 2 || a == 3
  | 4 => a == 2 || a == 3 || a == 4
  | 5 => a == 2 || a == 3 || a == 4 || a == 5
  | 6 => a == 6
  | 7 => a == 6 || a == 7
  | _ => false

/-- Formats of 16 bits, whose columns take two cells (R100). -/
def wide (f : Nat) : Bool := f == 0 || f == 1

/-- A fixed power-of-two alignment. -/
def aligned (n a : Nat) : Bool := a % n == 0

/-- Operation codes of VEC_OP (R376). -/
def vecOpOk (o : Nat) : Bool :=
  (1 ≤ o && o ≤ 0xC) || (0x10 ≤ o && o ≤ 0x12) || (0x18 ≤ o && o ≤ 0x1A)

/-- Which of the sources A, B, C an operation reads. -/
def vecOpUses (o : Nat) : Bool × Bool × Bool :=
  match o with
  | 4 => (true, true, true)
  | 7 => (true, false, false)
  | 8 => (true, false, false)
  | 9 => (true, true, true)
  | 0x10 => (true, false, false)
  | 0x11 => (true, false, false)
  | 0x12 => (true, false, false)
  | 0x18 => (true, false, false)
  | 0x19 => (true, false, false)
  | 0x1A => (true, true, true)
  | _ => (true, true, false)

/-- Bytes of the destination of a vector operation (R376). -/
def vecOpDst (o fmt rows lanes : Nat) : Nat :=
  if 0x10 ≤ o && o ≤ 0x12 then roundUp (4 * rows) 64
  else if o == 0x18 then rows * vecBytes fmt lanes
  else rows * roundUp (4 * lanes) 64

/-- Conditions on the parameter fields of a packet of partition `p` (R369 to R394). Addresses must lie in the
partition's granules (R138). -/
def State.paramOk (s : State) (p : Nat) (b : List Byte) : List FieldOk :=
  let hr := fun a n => s.inHearth p a n
  match u8 b 0 with
  | 0x01 => [(0x10, decide (u8 b 0x10 ≤ 1))]
  | 0x10 => [(0x40, decide (u8 b 0x40 ≤ 31))]
  | 0x11 => [(0x10, decide (u8 b 0x10 ≤ 31)), (0x14, aligned 64 (u32 b 0x14) && hr (u32 b 0x14) 48)]
  | 0x12 =>
    let n := u32 b 0x18
    [(0x10, decide (u8 b 0x10 ≤ 31)), (0x14, aligned 64 (u32 b 0x14) && hr (u32 b 0x14) n),
     (0x18, aligned 64 n && decide (64 ≤ n) && decide (n ≤ 2147483584))]
  | 0x13 =>
    let n := u32 b 0x18
    [(0x10, decide (u8 b 0x10 ≤ 7)), (0x11, decide (2 ≤ u8 b 0x11) && decide (u8 b 0x11 ≤ 64)),
     (0x14, aligned 64 (u32 b 0x14) && hr (u32 b 0x14) (u8 b 0x11 * n)),
     (0x18, aligned 64 n && decide (64 ≤ n) && decide (n ≤ 0x1000000))]
  | 0x14 => [(0x10, decide (u8 b 0x10 ≤ 7))]
  | 0x20 =>
    let f := u8 b 0x12
    let fl := u8 b 0x13
    let rows := u16 b 0x16
    let cols := u16 b 0x1A
    let n := tileBytes f rows cols
    [(0x10, decide (u8 b 0x10 ≤ 7)), (0x11, decide (u8 b 0x11 ≤ 15)), (0x12, decide (f ≤ 7)),
     (0x13, decide (fl ≤ 3) && (!bitAt fl 0 || f == 5 || f == 7)),
     (0x16, decide (1 ≤ rows) && decide (rows ≤ 512) && decide (u16 b 0x14 + rows ≤ 512)),
     (0x1A, decide (1 ≤ cols) && decide (u16 b 0x18 + cols ≤ if wide f then 256 else 512)),
     (0x1C, aligned 64 (u32 b 0x1C) && hr (u32 b 0x1C) n),
     (0x20, if bitAt fl 0 then aligned 64 (u32 b 0x20) && hr (u32 b 0x20) n else u32 b 0x20 == 0)]
  | 0x21 =>
    let n := u16 b 0x14
    [(0x10, decide (u8 b 0x10 ≤ 7)), (0x11, decide (u8 b 0x11 ≤ 15)), (0x12, decide (u8 b 0x12 ≤ 7)),
     (0x13, pairOk (u8 b 0x12) (u8 b 0x13)), (0x14, decide (1 ≤ n) && decide (n ≤ 1024)),
     (0x16, decide (u16 b 0x16 + n ≤ 1024)), (0x18, decide (u8 b 0x18 ≤ 3)), (0x1C, aligned 64 (u32 b 0x1C) && hr (u32 b 0x1C) 1)]
  | 0x22 =>
    let rows := u16 b 0x16
    let lanes := u16 b 0x1A
    [(0x10, decide (u8 b 0x10 ≤ 7)), (0x11, decide (u8 b 0x11 ≤ 8)), (0x12, decide (u8 b 0x12 ≤ 7) || u8 b 0x12 == 0xFF),
     (0x13, decide (u8 b 0x13 ≤ 7)), (0x16, decide (1 ≤ rows) && decide (rows ≤ 1024) && decide (u16 b 0x14 + rows ≤ 1024)),
     (0x1A, decide (1 ≤ lanes) && decide (u16 b 0x18 + lanes ≤ 512)),
     (0x1C, aligned 64 (u32 b 0x1C) && hr (u32 b 0x1C) (rows * vecBytes (u8 b 0x11) lanes))]
  | 0x23 =>
    let o := u8 b 0x10
    let rows := u16 b 0x24
    let lanes := u16 b 0x26
    let n := rows * roundUp (4 * lanes) 64
    let (ua, ub, uc) := vecOpUses o
    let src := fun used a => if used then aligned 64 a && hr a n else a == 0
    let c := u32 b 0x1C
    [(0x10, vecOpOk o), (0x11, u8 b 0x11 == 8 || (o == 0x18 && decide (u8 b 0x11 ≤ 8))), (0x12, decide (u8 b 0x12 ≤ 7)),
     (0x13, decide (u8 b 0x13 ≤ 7)), (0x14, src ua (u32 b 0x14)), (0x18, src ub (u32 b 0x18)),
     (0x1C, if o == 0x1A then aligned 64 c && hr c (roundUp (4 * lanes) 64) else src uc c),
     (0x20, aligned 64 (u32 b 0x20) && hr (u32 b 0x20) (vecOpDst o (u8 b 0x11) rows lanes)),
     (0x24, decide (1 ≤ rows) && decide (rows ≤ 1024)), (0x26, decide (1 ≤ lanes) && decide (lanes ≤ 512)),
     (0x28, o != 0x19 || decide (u8 b 0x28 ≤ 7))]
  | 0x30 =>
    [(0x10, decide (u8 b 0x10 ≤ 1)), (0x11, decide (u8 b 0x11 ≤ 3)), (0x12, u8 b 0x12 == 1 || u8 b 0x12 == 2),
     (0x14, aligned 64 (u32 b 0x14) && hr (u32 b 0x14) (u32 b 0x18)), (0x18, decide (64 ≤ u32 b 0x18)),
     (0x24, decide (u32 b 0x24 < 2 ^ 24)), (0x3C, decide (1 ≤ u32 b 0x3C))]
  | 0x31 => [(0x10, decide (u8 b 0x10 ≤ 1)), (0x11, u8 b 0x11 == 1 || u8 b 0x11 == 2)]
  | 0x32 =>
    [(0x10, decide (u8 b 0x10 ≤ 1)), (0x11, decide (u8 b 0x11 ≤ 3)), (0x12, u8 b 0x12 == 0),
     (0x14, aligned 64 (u32 b 0x14) && hr (u32 b 0x14) (u32 b 0x18)), (0x18, decide (64 ≤ u32 b 0x18)),
     (0x24, decide (u32 b 0x24 < 2 ^ 24))]
  | 0x40 => lineFields b hr
  | 0x41 => lineFields b hr
  | 0x43 => [(0x16, decide (u8 b 0x16 ≤ 2))]
  | 0x44 => [(0x16, decide (u8 b 0x16 ≤ 1))]
  | 0x45 => [(0x16, decide (u8 b 0x16 ≤ 1))]
  | 0x47 => stepFields b hr ++ [(0x30, u16 b 0x30 == 0)]
  | 0x48 => stepFields b hr ++ [(0x30, decide (1 ≤ u16 b 0x30) && decide (u16 b 0x30 ≤ 1024))]
  | 0x49 =>
    [(0x10, decide (u8 b 0x10 ≤ 7)), (0x11, decide (u8 b 0x11 ≤ 1)), (0x18, u8 b 0x11 == 0 || hr (u64 b 0x18) 272)]
  | 0x50 => [(0x10, decide (u8 b 0x10 ≤ 1))]
  | 0x51 => [(0x10, decide (u8 b 0x10 ≤ 1)), (0x11, decide (u8 b 0x11 ≤ 15))]
  | 0x52 => [(0x10, decide (u8 b 0x10 ≤ 1)), (0x11, decide (u8 b 0x11 ≤ 15)), (0x12, decide (u8 b 0x12 ≤ 1))]
  | 0x60 => [(0x10, decide (u8 b 0x10 ≤ 7)), (0x14, decide (u32 b 0x14 < 2 ^ 20))]
  | 0x61 => [(0x10, decide (u32 b 0x10 < 2 ^ 24) && aligned 256 (u32 b 0x10))]
  | 0x62 => [(0x10, decide (u8 b 0x10 ≤ 7))]
  | 0x70 => [(0x10, decide (u16 b 0x10 ≤ 255))]
  | 0x71 => [(0x10, decide (u16 b 0x10 ≤ 255)), (0x12, decide (1 ≤ u16 b 0x12) && decide (u16 b 0x12 ≤ 255))]
  | 0x72 =>
    [(0x10, decide (u16 b 0x10 ≤ 63)), (0x12, decide (1 ≤ u16 b 0x12) && decide (u16 b 0x12 ≤ 1024)),
     (0x15, decide (1 ≤ u8 b 0x15))]
  | 0x73 => [(0x10, decide (u16 b 0x10 ≤ 63)), (0x12, decide (1 ≤ u16 b 0x12) && decide (u16 b 0x12 ≤ 1024))]
  | 0x81 =>
    [(0x10, hr (u32 b 0x10) (16 * u16 b 0x14)), (0x14, decide (1 ≤ u16 b 0x14) && decide (u16 b 0x14 ≤ 4096))]
  | 0x90 =>
    [(0x10, decide (u16 b 0x10 ≤ 4095)), (0x12, decide (1 ≤ u16 b 0x12) && decide (u16 b 0x12 ≤ 4096)),
     (0x14, decide (u8 b 0x14 ≤ 1)), (0x18, u8 b 0x14 == 0 || hr (u64 b 0x18) (256 * u16 b 0x12))]
  | 0xA0 => [(0x10, decide (u8 b 0x10 ≤ 1))]
  | 0xA1 => [(0x10, decide (u8 b 0x10 ≤ 1))]
  | 0xA2 => [(0x10, decide (u8 b 0x10 ≤ 1))]
  | 0xA3 =>
    [(0x10, decide (u32 b 0x10 + u32 b 0x14 ≤ 0x4000000)), (0x14, decide (1 ≤ u32 b 0x14) && decide (u32 b 0x14 ≤ 0x4000000))]
  | _ => []
where
  /-- Fields of LINE_SETUP and LINE_REROUTE (R384). -/
  lineFields (b : List Byte) (hr : Nat → Nat → Bool) : List FieldOk :=
    [(0x12, decide (u8 b 0x12 ≤ 1)), (0x13, decide (u8 b 0x13 ≤ 8)), (0x14, hr (u32 b 0x14) (u32 b 0x18)),
     (0x18, decide (32 ≤ u32 b 0x18)), (0x1C, decide (1 ≤ u16 b 0x1C) && decide (u16 b 0x1C ≤ 1024)),
     (0x24, hr (u32 b 0x24) (4 * u16 b 0x1C * u32 b 0x20))]
  /-- Fields of STEP and CHUNK (R387). -/
  stepFields (b : List Byte) (hr : Nat → Nat → Bool) : List FieldOk :=
    [(0x16, decide (u8 b 0x16 ≤ 3)), (0x18, !bitAt (u8 b 0x16) 0 || hr (u64 b 0x18) (u32 b 0x28)),
     (0x20, !bitAt (u8 b 0x16) 1 || hr (u64 b 0x20) (u32 b 0x2C))]

/-- The lowest of a list of offsets. -/
def minNat? : List Nat → Option Nat
  | [] => none
  | x :: xs => match minNat? xs with
    | none => some x
    | some y => some (min x y)

/-- Byte offset of the first field that fails check 4 of R352. -/
def State.firstBad (s : State) (p : Nat) (b : List Byte) : Option Nat :=
  minNat? (failing (headerOk b) ++ failing (s.paramOk p b) ++ reservedBad b)

/-- Check 5 of R352: every unit the packet names is owned by its partition (R327); the PF right opens LINK_CONFIG of another port (R390).
DEDUCED (log entry 87). -/
def State.ownsUnits (s : State) (p : Nat) (pf : Bool) (b : List Byte) : Bool :=
  match u8 b 0 with
  | 0x10 => s.tongOwner (u8 b 0x40) == some p
  | 0x11 => s.tongOwner (u8 b 0x10) == some p
  | 0x12 => s.tongOwner (u8 b 0x10) == some p
  | 0x20 => s.anvilOwner (u8 b 0x10) == some p
  | 0x21 => s.anvilOwner (u8 b 0x10) == some p
  | 0x22 => s.anvilOwner (u8 b 0x10) == some p
  | 0x23 => s.anvilOwner (u8 b 0x13) == some p
  | 0x50 => s.bankOwner (u8 b 0x10) == some p
  | 0x51 => s.bankOwner (u8 b 0x10) == some p
  | 0x52 => s.bankOwner (u8 b 0x10) == some p
  | 0x60 => pf || s.portOwner (u8 b 0x10) == some p
  | 0x62 => s.portOwner (u8 b 0x10) == some p
  | _ => true

/-- The checks of R352 in order, before resources: a failing status with the offset of the first failing field. -/
def State.checkPacket (s : State) (k : Pkt) : Option (Nat × Nat) :=
  let b := k.bytes
  let x := bitAt k.flags 0
  let row := opRow k.opcode
  let badForm := k.flags / 32 != 0 || (x && b.length < 128) ||
    match row with
    | some r => r.ext != x
    | none => false
  if badForm then some (0x11, 1) else
  match row with
  | none => some (0x10, 0xFFFF)
  | some r =>
    let proc := (s.part k.part).procession
    if (r.pf && !k.pf) || (r.mode == 1 && !proc) || (r.mode == 2 && proc) then some (0x14, 0xFFFF) else
    match s.firstBad k.part b with
    | some o => some (0x11, o)
    | none => if s.ownsUnits k.part k.pf b then none else some (0x14, 0xFFFF)

end Sys2Proof.Machine
end

