-- ==== Sys2Proof/Machine/Float.lean ====
section
/-! DEFINITION. Number formats, FP32 arithmetic, conversions, MX blocks and the stochastic rounding generators, bit for
bit (R107 to R126, R547). Values are computed exactly and rounded once where the manual rounds. An FP32 value is its
32-bit code as a natural number. -/
namespace Sys2Proof.Machine

/-- An exact value: NaN, infinity, or (-1)^neg × m × 2^e. -/
inductive FVal where
  | nan
  | inf (neg : Bool)
  | fin (neg : Bool) (m : Nat) (e : Int)
deriving DecidableEq, Repr

/-- A float format: mantissa bits, exponent bits, bias, largest finite magnitude code, has infinity. -/
structure FFmt where
  man : Nat
  exp : Nat
  bias : Nat
  maxMag : Nat
  hasInf : Bool
deriving DecidableEq, Repr

/-- Float formats by format code (R30, R107). -/
def ffmt : Nat → FFmt
  | 0 => ⟨7, 8, 127, 0x7F7F, true⟩
  | 1 => ⟨10, 5, 15, 0x7BFF, true⟩
  | 2 => ⟨3, 4, 7, 0x7E, false⟩
  | 3 => ⟨2, 5, 15, 0x7B, true⟩
  | 4 => ⟨2, 3, 3, 0x1F, false⟩
  | 5 => ⟨1, 2, 1, 7, false⟩
  | _ => ⟨23, 8, 127, 0x7F7FFFFF, true⟩

/-- Exponent of one unit in the last place of the subnormals. -/
def FFmt.qmin (f : FFmt) : Int := 1 - (f.bias : Int) - (f.man : Int)

/-- Sign bit position. -/
def FFmt.signBit (f : FFmt) : Nat := f.man + f.exp

/-- Canonical NaN (R109). -/
def canonNan : Nat → Nat
  | 0 => 0x7FC0
  | 1 => 0x7E00
  | 2 => 0x7F
  | 3 => 0x7E
  | _ => 0x7FC00000

/-- Decode a magnitude of a format. -/
def decMag (f : FFmt) (neg : Bool) (mag : Nat) : FVal :=
  let e := mag / 2 ^ f.man
  let m := mag % 2 ^ f.man
  if mag > f.maxMag then
    if f.hasInf && m == 0 && e == 2 ^ f.exp - 1 then .inf neg else .nan
  else if e == 0 then .fin neg m f.qmin
  else .fin neg (2 ^ f.man + m) (f.qmin + (e : Int) - 1)

/-- Value of a float code (R107). -/
def decFloat (fmt code : Nat) : FVal :=
  let f := ffmt fmt
  decMag f (bitAt code f.signBit) (code % 2 ^ f.signBit)

/-- Value of an element code of an operand format, before block scaling (R107, R108). -/
def decElem (fmt code : Nat) : FVal :=
  match fmt with
  | 6 => let v := sext 8 (code % 256); .fin (decide (v < 0)) v.natAbs 0
  | 7 => let v := sext 4 (code % 16); .fin (decide (v < 0)) v.natAbs 0
  | _ => decFloat fmt code

/-- m × 2^e as an integer multiple of 2^q, rounded to nearest, ties to even. -/
def roundQ (m : Nat) (e q : Int) : Nat :=
  if q ≤ e then m * 2 ^ (e - q).toNat
  else
    let sh := (q - e).toNat
    let k := m / 2 ^ sh
    let r := m % 2 ^ sh
    let h := 2 ^ (sh - 1)
    if r > h || (r == h && k % 2 == 1) then k + 1 else k

/-- m × 2^e as a multiple of 2^q, rounded stochastically with draw `r` (R123): up when r ≤ f. -/
def roundSr (m : Nat) (e q : Int) (r : Nat) : Nat :=
  if q ≤ e then m * 2 ^ (e - q).toNat
  else
    let sh := (q - e).toNat
    let k := m / 2 ^ sh
    let f := m % 2 ^ sh * 65536 / 2 ^ sh
    if r ≤ f then k + 1 else k

/-- Bits of a positive number. -/
def bitLen (m : Nat) : Nat := if m == 0 then 0 else Nat.log2 m + 1

/-- Magnitude code of m × 2^e in a format after rounding (`sr` draws stochastically); may exceed the largest finite. -/
def roundMag (f : FFmt) (m : Nat) (e : Int) (sr : Option Nat) : Nat :=
  if m == 0 then 0 else
  let q := max (e + (bitLen m : Int) - 1 - (f.man : Int)) f.qmin
  let k := match sr with
    | none => roundQ m e q
    | some r => roundSr m e q r
  (q - f.qmin).toNat * 2 ^ f.man + k

/-- Round to FP32 (R120): overflow gives infinity, NaN is canonical. -/
def rnd32 : FVal → Nat
  | .nan => 0x7FC00000
  | .inf n => b2n n * 2 ^ 31 + 0x7F800000
  | .fin n m e => b2n n * 2 ^ 31 + min (roundMag (ffmt 8) m e none) 0x7F800000

/-- Value of an FP32 code. -/
def val32 (c : Nat) : FVal := decFloat 8 c

/-- Sign of a value. -/
def FVal.neg : FVal → Bool
  | .nan => false
  | .inf n => n
  | .fin n _ _ => n

/-- Signed integer with a sign for zero. -/
def sgn (n : Bool) (m : Nat) : Int := if n then -(m : Int) else m

/-- Exact sum (R120). An exact zero is +0 unless both terms are negative. -/
def addX : FVal → FVal → FVal
  | .nan, _ => .nan
  | _, .nan => .nan
  | .inf a, .inf b => if a == b then .inf a else .nan
  | .inf a, _ => .inf a
  | _, .inf b => .inf b
  | .fin a m e, .fin b n g =>
    let q := min e g
    let v := sgn a (m * 2 ^ (e - q).toNat) + sgn b (n * 2 ^ (g - q).toNat)
    if v == 0 then .fin (a && b) 0 0 else .fin (decide (v < 0)) v.natAbs q

/-- Exact product (R120). -/
def mulX : FVal → FVal → FVal
  | .nan, _ => .nan
  | _, .nan => .nan
  | .inf a, .inf b => .inf (a != b)
  | .inf a, .fin b n _ => if n == 0 then .nan else .inf (a != b)
  | .fin a m _, .inf b => if m == 0 then .nan else .inf (a != b)
  | .fin a m e, .fin b n g => .fin (a != b) (m * n) (e + g)

/-- Change the sign. -/
def negX : FVal → FVal
  | .nan => .nan
  | .inf a => .inf !a
  | .fin a m e => .fin (!a) m e

/-- FP32 operations, one rounding each. -/
def fAdd (a b : Nat) : Nat := rnd32 (addX (val32 a) (val32 b))
/-- FP32 subtraction. -/
def fSub (a b : Nat) : Nat := rnd32 (addX (val32 a) (negX (val32 b)))
/-- FP32 product. -/
def fMul (a b : Nat) : Nat := rnd32 (mulX (val32 a) (val32 b))
/-- a × b + c with one rounding. -/
def fFma (a b c : Nat) : Nat := rnd32 (addX (mulX (val32 a) (val32 b)) (val32 c))

/-- FP32 quotient, correctly rounded. -/
def fDiv (a b : Nat) : Nat :=
  match val32 a, val32 b with
  | .nan, _ => 0x7FC00000
  | _, .nan => 0x7FC00000
  | .inf _, .inf _ => 0x7FC00000
  | .inf x, y => rnd32 (.inf (x != y.neg))
  | .fin x _ _, .inf y => rnd32 (.fin (x != y) 0 0)
  | .fin x m e, .fin y n g =>
    if n == 0 then (if m == 0 then 0x7FC00000 else rnd32 (.inf (x != y)))
    else
      let t := m * 2 ^ 64
      rnd32 (.fin (x != y) (t / n * 2 + b2n (t % n != 0)) (e - g - 65))

/-- Integer square root, `n` result bits from the top. -/
def isqrtGo : Nat → Nat → Nat → Nat
  | 0, _, r => r
  | n + 1, m, r => let t := r + 2 ^ n; isqrtGo n m (if t * t ≤ m then t else r)

/-- FP32 square root, correctly rounded; a negative number gives NaN and -0 gives -0. -/
def fSqrt (a : Nat) : Nat :=
  match val32 a with
  | .nan => 0x7FC00000
  | .inf n => if n then 0x7FC00000 else 0x7F800000
  | .fin n m e =>
    if m == 0 then a else if n then 0x7FC00000 else
    let s : Nat := if e % 2 == 0 then 80 else 81
    let t := m * 2 ^ s
    let r := isqrtGo 60 t 0
    rnd32 (.fin false (r * 2 + b2n (r * r != t)) ((e - s) / 2 - 1))

/-- Order of two values; NaN is unordered. -/
def ltX : FVal → FVal → Bool
  | .nan, _ => false
  | _, .nan => false
  | .inf a, .inf b => a && !b
  | .inf a, _ => a
  | _, .inf b => !b
  | .fin a m e, .fin b n g =>
    let q := min e g
    decide (sgn a (m * 2 ^ (e - q).toNat) < sgn b (n * 2 ^ (g - q).toNat))

/-- Equality of values; -0 equals +0 and NaN equals nothing. -/
def eqX (a b : FVal) : Bool := a != .nan && b != .nan && !ltX a b && !ltX b a

/-- NaN code. -/
def isNan (c : Nat) : Bool := val32 c == .nan

/-- `a` below `b` with -0 below +0, for min and max (R126). -/
def below (a b : Nat) : Bool :=
  ltX (val32 a) (val32 b) || (eqX (val32 a) (val32 b) && (val32 a).neg && !(val32 b).neg)

/-- min (R126): the non-NaN operand when exactly one is NaN. -/
def fMin (a b : Nat) : Nat :=
  if isNan a && isNan b then 0x7FC00000 else if isNan a then b else if isNan b then a else if below b a then b else a

/-- max (R126). -/
def fMax (a b : Nat) : Nat :=
  if isNan a && isNan b then 0x7FC00000 else if isNan a then b else if isNan b then a else if below a b then b else a

/-- abs (R126): NaN stays canonical NaN. -/
def fAbs (a : Nat) : Nat := if isNan a then 0x7FC00000 else a % 2 ^ 31

/-- neg (R126). -/
def fNeg (a : Nat) : Nat := if isNan a then 0x7FC00000 else (a + 2 ^ 31) % 2 ^ 32

/-- 1.0 or 0.0. -/
def fBool (b : Bool) : Nat := if b then 0x3F800000 else 0

/-- 1.0 in FP32. -/
def fOne : Nat := 0x3F800000

/-- One level of a binary tree over a list. -/
def pairUp (f : Nat → Nat → Nat) : List Nat → List Nat
  | a :: b :: t => f a b :: pairUp f t
  | l => l

/-- A lane reduction as a binary tree in lane order (R126). -/
def reduce (f : Nat → Nat → Nat) : Nat → List Nat → List Nat
  | 0, l => l
  | n + 1, l => reduce f n (pairUp f l)

/-! Conversion (R122, R123). -/

/-- Code of a value in a float format other than FP32 (R122). -/
def encFloat (fmt : Nat) (sat : Bool) (sr : Option Nat) (v : FVal) : Nat :=
  let f := ffmt fmt
  let s := fun n => b2n n * 2 ^ f.signBit
  let inf := 2 ^ f.man * (2 ^ f.exp - 1)
  match v with
  | .nan => canonNan fmt
  | .inf n => s n + if f.hasInf && !sat then inf else f.maxMag
  | .fin n m e =>
    let c := roundMag f m e sr
    s n + if c > f.maxMag then (if f.hasInf && !sat then inf else f.maxMag) else c

/-- Integer of `n` bits nearest a value, saturated (R122); NaN gives 0. -/
def encInt (n : Nat) (sr : Option Nat) (v : FVal) : Nat :=
  let lim := 2 ^ (n - 1)
  match v with
  | .nan => 0
  | .inf neg => if neg then lim else lim - 1
  | .fin neg m e =>
    let k := match sr with
      | none => roundQ m e 0
      | some r => roundSr m e 0 r
    twos n (if neg then -(min k lim : Nat) else (min k (lim - 1) : Nat))

/-- Code of a value in an operand format, without block scaling (R122). -/
def encElem (fmt : Nat) (sat : Bool) (sr : Option Nat) (v : FVal) : Nat :=
  if fmt == 6 then encInt 8 sr v else if fmt == 7 then encInt 4 sr v
  else if fmt == 8 then rnd32 v else encFloat fmt sat sr v

/-- emax of the MX formats (R112). -/
def mxEmax (fmt : Nat) : Int := if fmt == 4 then 4 else 2

/-- Magnitude order of a finite non-zero value: floor(log2). -/
def flog2 (m : Nat) (e : Int) : Int := e + (bitLen m : Int) - 1

/-- Largest floor(log2) of the finite non-zero values of a block, or none. -/
def maxLog : List FVal → Option Int
  | [] => none
  | .fin _ m e :: t =>
    if m == 0 then maxLog t else match maxLog t with
      | none => some (flog2 m e)
      | some x => some (max x (flog2 m e))
  | _ :: t => maxLog t

/-- Value divided by 2^x, exactly. -/
def scaleX (v : FVal) (x : Int) : FVal :=
  match v with
  | .fin n m e => .fin n m (e - x)
  | w => w

/-- Convert one block to an MX format (R112): the scale byte and the element codes; `draws` gives each element's draw.
A padding element draws nothing and is exactly zero (R110): it takes 65536, which rounds nothing up. -/
def mxBlock (fmt : Nat) (sat : Bool) (vs : List FVal) (draws : Option (List Nat)) : Nat × List Nat :=
  if vs.contains .nan then (0xFF, vs.map fun _ => 0)
  else
    let anyInf := vs.any fun v => match v with
      | .inf _ => true
      | _ => false
    match (if anyInf then some (127 : Int) else (maxLog vs).map fun l => max (-127) (min 127 (l - mxEmax fmt))) with
    | none => (0, vs.map fun _ => 0)
    | some x =>
      ((x + 127).toNat, vs.zipIdx.map fun (v, i) => encElem fmt sat (draws.map fun d => d.getD i 65536) (scaleX v x))

/-! Stochastic rounding generators (R124, R125). -/

/-- One step of the Fibonacci register. -/
def lfsrStep (s : Nat) : Nat :=
  s / 2 + ((s + s / 4 + s / 8 + s / 32) % 2) * 2 ^ 15

/-- A draw: 16 steps. -/
def lfsrDraw (s : Nat) : Nat := (List.range 16).foldl (fun x _ => lfsrStep x) s

/-- Seed from CRC-32C: the low 16 bits, 0xACE1 for zero. -/
def seedOf (bytes : List Byte) : Nat := let c := crc32c bytes % 65536; if c == 0 then 0xACE1 else c

/-- Seed of lane `l` of anvil `a` under VEC_SR_SEED `v` (R124). -/
def laneSeed (v a l : Nat) : Nat := seedOf (leBytes 4 v ++ leBytes 2 a ++ leBytes 2 l)

/-- Seed of lane `l` for a segment of a gradient billet (R125). -/
def segSeed (billet epoch seg l : Nat) : Nat := seedOf (leBytes 4 billet ++ leBytes 2 epoch ++ leBytes 2 seg ++ leBytes 2 l)

/-! Packing (R113, R114). -/

/-- Element `i` of a packed column of `fmt` at the start of `b`. -/
def elemAt (fmt : Nat) (b : List Byte) (i : Nat) : Nat :=
  match fmtBits fmt with
  | 16 => u16 b (2 * i)
  | 32 => u32 b (4 * i)
  | 8 => u8 b i
  | 6 => leVal (slice b (i / 4 * 3) 3) / 2 ^ (6 * (i % 4)) % 64
  | _ => u8 b (i / 2) / 16 ^ (i % 2) % 16

/-- Pack element codes (R113); `codes` fill whole groups for MX formats. -/
def packElems (fmt : Nat) (codes : List Nat) : List Byte :=
  let n := elemBytes fmt codes.length
  match fmtBits fmt with
  | 16 => codes.flatMap (leBytes 2)
  | 32 => codes.flatMap (leBytes 4)
  | 8 => codes.flatMap (leBytes 1)
  | 6 => (List.range (n / 3)).flatMap fun g =>
      leBytes 3 ((List.range 4).foldl (fun v j => v + codes.getD (4 * g + j) 0 * 2 ^ (6 * j)) 0)
  | _ => (List.range n).flatMap fun g => leBytes 1 (codes.getD (2 * g) 0 + 16 * codes.getD (2 * g + 1) 0)

/-- An E8M0 scale (R110): none for NaN. -/
def e8m0 (x : Nat) : Option Int := if x == 0xFF then none else some ((x : Int) - 127)

/-- The `n` values of an activation vector at the start of `b`, scaled (R110, R114). -/
def vecVals (fmt n : Nat) (b : List Byte) : List FVal :=
  (List.range n).map fun i =>
    let v := decElem fmt (elemAt fmt b i)
    if isMx fmt then
      match e8m0 (u8 b (elemBytes fmt n + i / 32)) with
      | none => .nan
      | some x => scaleX v (-x)
    else v

/-- Split a list into blocks of 32, the last padded with zeros (R110). -/
def blocks32 (l : List FVal) : List (List FVal) :=
  (List.range (blocksOf l.length)).map fun j => (List.range 32).map fun i => l.getD (32 * j + i) (.fin false 0 0)

/-- The bytes of an activation vector (R114) of values converted to `fmt`; `draws` gives each element's draw. -/
def vecEncode (fmt : Nat) (sat : Bool) (vs : List FVal) (draws : Option (List Nat)) : List Byte :=
  let body :=
    if isMx fmt then
      let bs := (blocks32 vs).zipIdx.map fun (b, j) => mxBlock fmt sat b (draws.map fun (d : List Nat) => d.drop (32 * j))
      packElems fmt (bs.flatMap (·.2)) ++ (bs.map fun b => BitVec.ofNat 8 b.1)
    else
      packElems fmt (vs.zipIdx.map fun (v, i) => encElem fmt sat (draws.map fun d => d.getD i 0) v)
  slice body 0 (roundUp body.length 64)

/-- NaN elements counted in VEC_NAN_TO_INT by a conversion to an integer format (R122). -/
def nanToInt (fmt : Nat) (vs : List FVal) : Nat :=
  if fmt == 6 || fmt == 7 then (vs.filter (· == .nan)).length else 0

end Sys2Proof.Machine
end

