-- ==== Sys2Proof/Machine/Datapath.lean ====
section
/-! DEFINITION. Sums of the anvil datapath, bit for bit (R110 to R120): one output of a pass from a weight column and
an activation vector. -/
namespace Sys2Proof.Machine

/-- A column of weights or a vector of activations: element values before scaling, and the block scales, which are
exponents or none for NaN (R110). -/
structure OpVec where
  vals : List FVal
  scales : List (Option Int)
deriving DecidableEq, Repr

/-- The `n` elements of a packed column or vector with its scale bytes. -/
def readElems (fmt n : Nat) (b sc : List Byte) : OpVec :=
  { vals := (List.range n).map fun i => decElem fmt (elemAt fmt b i),
    scales := if isMx fmt then (List.range (blocksOf n)).map fun j => e8m0 (u8 sc j)
              else List.replicate (blocksOf n) (some 0) }

/-- An activation vector (R114). -/
def readVec (fmt n : Nat) (b : List Byte) : OpVec := readElems fmt n b (b.drop (elemBytes fmt n))

/-- Column `c` of a tile of `rows` rows and `cols` columns (R113). -/
def readCol (fmt rows cols c : Nat) (t : List Byte) : OpVec :=
  readElems fmt rows (t.drop (c * colBytes fmt rows)) (t.drop (cols * colBytes fmt rows + c * blocksOf rows))

/-- Exact sum of products. -/
def sumProducts : List FVal → List FVal → FVal → FVal
  | w :: ws, x :: xs, a => sumProducts ws xs (addX a (mulX w x))
  | _, _, a => a

/-- Exact sum of a non-empty list of products, the first standing alone. -/
def exactSum (ws xs : List FVal) : FVal :=
  match ws, xs with
  | w :: ws, x :: xs => sumProducts ws xs (mulX w x)
  | _, _ => .fin false 0 0

/-- Stages of `n` rows added to the FP32 partial sum, one rounding each (R115, R116); `sc` scales each stage's sum. -/
def stages (n : Nat) : Nat → List FVal → List FVal → List (Option Int) → Nat → Nat
  | 0, _, _, _, acc => acc
  | fuel + 1, ws, xs, sc, acc =>
    if ws.isEmpty then acc else
    let v := match sc.headD (some 0) with
      | none => FVal.nan
      | some e => scaleX (exactSum (ws.take n) (xs.take n)) (-e)
    stages n fuel (ws.drop n) (xs.drop n) (sc.drop 1) (rnd32 (addX (val32 acc) v))

/-- Product of two block scales, as exponents. -/
def scaleSum (a b : Option Int) : Option Int :=
  match a, b with
  | some x, some y => some (x + y)
  | _, _ => none

/-- Saturate an integer at the INT32 limits: the value and whether it saturated. -/
def satInt (v : Int) : Int × Bool :=
  if v > 2147483647 then (2147483647, true) else if v < -2147483648 then (-2147483648, true) else (v, false)

/-- Integer value of an integer element. -/
def intOf : FVal → Int
  | .fin n m _ => sgn n m
  | _ => 0

/-- Exact integer sum of products. -/
def intSum (ws xs : List FVal) : Int := (ws.zip xs).foldl (fun a (w, x) => a + intOf w * intOf x) 0

/-- S × 2^e rounded to an integer, ties to even (R117). -/
def placeInt (v : Int) (e : Int) : Int :=
  let k := roundQ v.natAbs e 0
  if v < 0 then -(k : Int) else k

/-- One INT4 output (R117): blocks placed, rounded and summed with saturation. -/
def int4Blocks (frac : Nat) : Nat → List FVal → List FVal → List (Option Int) → Int × Nat → Option (Int × Nat)
  | 0, _, _, _, a => some a
  | fuel + 1, ws, xs, sc, (acc, n) =>
    if ws.isEmpty then some (acc, n) else
    match sc.headD (some 0) with
    | none => none
    | some e =>
      let (p, b1) := satInt (placeInt (intSum (ws.take 32) (xs.take 32)) (e + frac))
      let (t, b2) := satInt (acc + p)
      int4Blocks frac fuel (ws.drop 32) (xs.drop 32) (sc.drop 1) (t, n + b2n b1 + b2n b2)

/-- Cells of a region's columns: first cell and count (R100). -/
def cellSpan (fmt base n : Nat) : Nat × Nat := if wide fmt then (2 * base, 2 * n) else (base, n)

/-- Two rectangles of cells overlap. -/
def Region.overlaps (r q : Region) : Bool :=
  let (a, n) := cellSpan r.fmt r.colBase r.cols
  let (b, m) := cellSpan q.fmt q.colBase q.cols
  decide (r.rowBase < q.rowBase + q.rows) && decide (q.rowBase < r.rowBase + r.rows) && decide (a < b + m) && decide (b < a + n)

/-- What one output of a pass is: its 32-bit code, the saturations met, and a NaN block scale in an INT4 pass. -/
structure OutLane where
  code : Nat
  sats : Nat
  nanScale : Bool
deriving DecidableEq, Repr

/-- One output of a pass (R115 to R117). An INT4 output that a NaN block scale forces to 0x8000_0000 counts no saturation of its other
blocks. DESIGN CHOICE (log entry 75): R118 does not say whether those count. -/
def passLane (wf frac : Nat) (w x : OpVec) : OutLane :=
  let n := w.vals.length
  if wf == 6 then ⟨twos 32 (intSum w.vals x.vals), 0, false⟩
  else
    let sc := (w.scales.zip x.scales).map fun (a, b) => scaleSum a b
    if wf == 7 then
      match int4Blocks frac (n + 1) w.vals x.vals sc (0, 0) with
      | none => ⟨0x80000000, 0, true⟩
      | some (v, k) => ⟨twos 32 v, k, false⟩
    else if isMx wf then ⟨stages 32 (n + 1) w.vals x.vals sc 0, 0, false⟩
    else ⟨stages 4 (n + 1) w.vals x.vals [] 0, 0, false⟩

/-- Outputs of a pass of one vector against a tile (R104). -/
def passTile (wf af frac rows cols : Nat) (tile vec : List Byte) : List OutLane :=
  let x := readVec af rows vec
  (List.range cols).map fun c => passLane wf frac (readCol wf rows cols c tile) x

/-- The mode-dependent write of one output over an old lane (R118): the new code and the saturations. -/
def accLane (int accumulate : Bool) (old : Nat) (o : OutLane) : Nat × Nat :=
  if !accumulate || o.nanScale then (o.code, o.sats)
  else if int then
    let (v, b) := satInt (sext 32 old + sext 32 o.code)
    (twos 32 v, o.sats + b2n b)
  else (fAdd old o.code, o.sats)

/-- An INT32 lane in FP32 as value × 2^(−frac), one rounding (R375). -/
def intToF32 (frac code : Nat) : Nat :=
  let v := sext 32 code
  rnd32 (.fin (decide (v < 0)) v.natAbs (-(frac : Int)))

/-- Cycles of one pass of one vector: P(K) (R85). -/
def passLatency (k : Nat) : Nat := 48 + (k + 3) / 4

/-- Rows 512i to 512i + 511 of a column or vector. -/
def OpVec.range (x : OpVec) (i : Nat) : OpVec := ⟨(x.vals.drop (512 * i)).take 512, (x.scales.drop (16 * i)).take 16⟩

/-- The passes of one output of a projection: the partial results of successive ranges of 512 rows (R119). -/
def projParts (wf frac : Nat) (w x : OpVec) : List OutLane :=
  (List.range ((w.vals.length - 1) / 512 + 1)).map fun i => passLane wf frac (w.range i) (x.range i)

/-- A partial result placed in FP32 (R68, R375). -/
def partF32 (wf frac : Nat) (o : OutLane) : Nat :=
  if wf == 6 then intToF32 0 o.code else if wf == 7 then intToF32 frac o.code else o.code

/-- One output of a projection (R119): its partial results, placed in FP32 and added in the order of their row ranges. -/
def projMerge (wf frac : Nat) : List OutLane → Nat
  | [] => 0
  | o :: t => t.foldl (fun a o => fAdd a (partF32 wf frac o)) (partF32 wf frac o)

/-- Format in which activations enter a pass: the line's format when R106 pairs it with the weight format, otherwise the
weight format itself. DEDUCED (log entry 24): the manual converts activations for each hop only, and its headline line
pairs BF16 activations with FP8 weights. -/
def passFmt (wf act : Nat) : Nat := if pairOk wf act then act else wf

/-- The passes of a projection of `rows` inputs and `cols` outputs over FP32 values (R68), by output: one tile in the layout of
R113; `sat` is SAT of the conversion to the pass's activation format (R122). -/
def projection (wf act frac rows cols : Nat) (sat : Bool) (tile : List Byte) (xs : List Nat) : List (List OutLane) :=
  let af := passFmt wf act
  let x := readVec af rows (vecEncode af sat (xs.map val32) none)
  (List.range cols).map fun c => projParts wf frac (readCol wf rows cols c tile) x

/-- Column groups of a projection: the outputs that one pass gives (R100). -/
def colGroup (wf : Nat) : Nat := if wide wf then 256 else 512

/-- Passes of a projection: its row ranges by its column groups. -/
def passCount (wf rows cols : Nat) : Nat := ((rows + 511) / 512) * ((cols + colGroup wf - 1) / colGroup wf)

/-- Saturations and NaN-scale outputs by pass, counted on from `t`; passes are numbered from `base` (R118, R111). -/
def countPasses (wf cols base : Nat) (outs : List (List OutLane)) (t : Tbl (Nat × Nat)) : Tbl (Nat × Nat) :=
  let groups := (cols + colGroup wf - 1) / colGroup wf
  outs.zipIdx.foldl (fun t (ps, c) => ps.zipIdx.foldl (fun t (o, i) =>
    let k := base + i * groups + c / colGroup wf
    let (a, b) := tget (0, 0) t k
    tset (0, 0) t k (a + o.sats, b + b2n o.nanScale)) t) t

end Sys2Proof.Machine
end

