-- ==== Sys2Proof/Machine/Holds.lean ====
section
/-! DEFINITION. What holds back new work: PARK (R412), shed (R408), the STOP level (R437), and the effective step of each
anvil (R266, R408, R416, R418, R437). -/
namespace Sys2Proof.Machine

/-- Bellows is in PARK (R412). -/
def State.parked (s : State) : Bool := s.bel.st == .park

/-- Bellows is in a changeover (R411). -/
def State.switching (s : State) : Bool := s.bel.st == .toReserve || s.bel.st == .toBus

/-- Bellows is in a source state (R409). -/
def State.sourced (s : State) : Bool := s.bel.st == .sourceBus || s.bel.st == .sourceReserve

/-- Rail `r` is good (R405). -/
def State.railGood (s : State) (r : Nat) : Bool := tget 0 s.bel.rails r == 2

/-- Section `x`. -/
def State.section (s : State) (x : Nat) : Section := tget {} s.qch.sections x

/-- Level of a section (R436): 0 normal, 1 THROTTLE, 2 STOP, 3 TRIP, 4 sensor fault. -/
def State.level (s : State) (x : Nat) : Nat := (s.section x).level

/-- Section numbers. -/
def allSections : List Nat := List.range 8

/-- Some section is at TRIP (R437). -/
def State.tripped (s : State) : Bool := allSections.any fun x => s.level x == 3

/-- Shed is on (R408): a changeover, PARK, TRIP or a chip-fatal fault asks for it. -/
def State.shedOn (s : State) : Bool := s.switching || s.parked || s.tripped || s.fatal.isSome

/-- New passes, vector instructions and tong descriptors of partition `p` may start now: no shed holds them back (R408), and of every
16 intervals of 1 µs this is one of the first d_p (R416). DESIGN CHOICE (log entry 89): the intervals are counted from the start of OSC. -/
def State.issueOn (s : State) (p : Nat) : Bool := !s.shedOn && decide (s.osc / 50 % 16 < s.rf (adrBelPartPower p) 16 12)

/-- Throttling of section `x` affects anvil `a` (R422). -/
def affects (x a : Nat) : Bool := if x < 4 then a / 2 == x else x != 5

/-- A section at STOP or TRIP holds anvil `a` (R437). -/
def State.stopOn (s : State) (a : Nat) : Bool :=
  allSections.any fun x => affects x a && (s.level x == 2 || s.level x == 3)

/-- The chip ACLK step N (R266). -/
def State.chipSteps (s : State) : Nat := s.rf adrClkAclk 5 0

/-- Quench's step cap q for anvil `a` (R437): the lowest over the sections that affect it. -/
def State.quenchCap (s : State) (a : Nat) : Nat :=
  allSections.foldl (fun n x => if affects x a then min n (max 24 (s.chipSteps - (s.section x).drop)) else n) s.chipSteps

/-- n_a, the effective step of anvil `a` (R266, R267, R408, R416, R418, R437). -/
def State.anvilSteps (s : State) (a : Nat) : Nat :=
  let n := match s.anvilOwner a with
    | some p => s.rf (adrBelPartPower p) 22 17
    | none => s.chipSteps
  let n := min n (s.quenchCap a)
  let n := if s.bel.droop then max 24 (n / 2) else n
  if s.shedOn || s.clk.aclkLost then 24 else n

/-- The valve clock in milliseconds since AUX rise (R424). -/
def State.valveMs (s : State) : Nat := (s.osc - s.auxAt) / 50000

end Sys2Proof.Machine
end

