-- ==== Sys2Proof/Machine/Packets.lean ====
section
/-! DEFINITION. The life of a Derord packet (R346 to R362): host accesses of a partition, directly or through a proxy;
completion with its signal, arrival, entry and interrupt; fetch and checks; dispatch and the header wait at the unit. -/
namespace Sys2Proof.Machine

/-! Host accesses of a partition (R297, R319 to R321). -/

/-- Partition `p` reaches host memory through a proxy (R320). -/
def State.proxied (s : State) (p : Nat) : Bool := s.rf (adrPciProxyCfg p) 24 24 == 1

/-- The 32-byte body of a host proxy frame (R319). -/
def proxyBody (op status tag addr n : Nat) : List Byte :=
  withCrc (leBytes 1 op ++ leBytes 1 status ++ leBytes 2 0 ++ leBytes 4 tag ++ leBytes 8 addr ++ leBytes 4 n ++ leBytes 8 0)

/-- Send the proxy frame of one operation under a fresh proxy tag (R320, R321). -/
def State.proxyOne (s : State) (p : Nat) (op : HostOp) : State :=
  let q := s.part p
  let t := q.nextProxy
  let dst := s.rf (adrPciProxyCfg p) 23 0
  match op with
  | .read a n iss d =>
    (s.setPart p { q with proxy := tput q.proxy t ⟨t, false, false, iss, d, n, false⟩, nextProxy := (t + 1) % 2 ^ 32 }).sendNoted p 7 5 dst 0 0
      (proxyBody 1 0 t a n) (.proxy p t)
  | .write a bs _ iss =>
    (s.setPart p { q with proxy := tput q.proxy t ⟨t, true, false, iss, 0, bs.length, false⟩, nextProxy := (t + 1) % 2 ^ 32 }).sendNoted p 7
      5 dst 0 0 (proxyBody 2 0 t a bs.length ++ withCrc bs) (.proxy p t)
  | _ => s

/-- Send waiting proxy operations while fewer than 256 proxy tags are held (R321). -/
def State.proxyPump : Nat → State → Nat → State
  | 0, s, _ => s
  | n + 1, s, p =>
    match (s.part p).proxyQ with
    | [] => s
    | op :: rest =>
      if (s.part p).proxy.length < 256 then
        State.proxyPump n ((s.modPart p fun q => { q with proxyQ := rest }).proxyOne p op) p
      else s

/-- Proxy operations of partition `p`, split at 4,096 bytes (R319). -/
def State.proxyEnq (s : State) (p : Nat) (ops : List HostOp) : State :=
  let s := s.modPart p fun q => { q with proxyQ := q.proxyQ ++ ops }
  State.proxyPump (s.part p).proxyQ.length s p

/-- A read of host memory for partition `p`: `viaProxy` sends READ_REQ frames, otherwise the local host port is used. -/
def State.hostRead (s : State) (p : Nat) (viaProxy : Bool) (a n : Nat) (iss : Issuer) (dst : Nat) : State :=
  if viaProxy then
    s.proxyEnq p ((pieces (n / 2048 + 2) 4096 a 0 n).map fun (x, off, l) => .read x l iss (dst + off))
  else s.enq p (s.readOps p a n iss dst)

/-- How many requests a host read of partition `p` is split into. -/
def State.readCount (s : State) (p : Nat) (viaProxy : Bool) (a n : Nat) : Nat :=
  if viaProxy then (pieces (n / 2048 + 2) 4096 a 0 n).length else (s.readOps p a n .other 0).length

/-- A write to host memory for partition `p` (R300); over a proxy its WRITE_ACKs answer `iss` (R321). -/
def State.hostWrite (s : State) (p : Nat) (viaProxy : Bool) (a : Nat) (d : List Byte) (ro : Bool) (iss : Issuer) : State :=
  if viaProxy then
    s.proxyEnq p ((pieces (d.length / 2048 + 2) 4096 a 0 d.length).map fun (x, off, l) =>
      .write x ((d.drop off).take l) ro iss)
  else s.enq p (s.writeOps a d ro iss)

/-- A host operation writes for `iss`. -/
def HostOp.writesFor (iss : Issuer) (op : HostOp) : Bool :=
  match op with
  | .write _ _ _ i => i == iss
  | _ => false

/-- Host writes of `iss` are not all done: one still waits to be issued (R298, R301, R307), or a proxied one for its WRITE_ACK
(R321). -/
def State.writesOut (s : State) (p : Nat) (iss : Issuer) : Bool :=
  (s.part p).proxy.any (fun (_, x) => x.write && x.iss == iss) || (s.part p).proxyQ.any (HostOp.writesFor iss)
    || (s.reqs p).any (HostOp.writesFor iss)

/-- A proxied write of partition `p` is not yet acknowledged, or not yet sent (R321, R362). -/
def State.proxyWrites (s : State) (p : Nat) : Bool :=
  (s.part p).proxy.any (fun (_, r) => r.write && !r.quarantined) || (s.part p).proxyQ.any fun op => match op with
    | .write _ _ _ _ => true
    | _ => false

/-! Rings (R341 to R345). -/

/-- Submission ring `i` of partition `p`. -/
def State.sq (s : State) (p i : Nat) : Sq := tget {} (s.part p).sqs i
/-- Replace submission ring `i`. -/
def State.setSq (s : State) (p i : Nat) (x : Sq) : State := s.modPart p fun q => { q with sqs := tset {} q.sqs i x }
/-- Completion ring `j` of partition `p`. -/
def State.cq (s : State) (p j : Nat) : Cq := tget {} (s.part p).cqs j
/-- Replace completion ring `j`. -/
def State.setCq (s : State) (p j : Nat) (x : Cq) : State := s.modPart p fun q => { q with cqs := tset {} q.cqs j x }

/-- Entries of submission ring `i` (R341). -/
def State.sqSize (s : State) (p i : Nat) : Nat := 2 ^ s.rf (adrCmdSqCfg p i) 4 0
/-- Entries of completion ring `j` (R341). -/
def State.cqSize (s : State) (p j : Nat) : Nat := 2 ^ s.rf (adrCmdCqCfg p j) 4 0
/-- CQ bound to submission ring `i`. -/
def State.boundCq (s : State) (p i : Nat) : Nat := s.rf (adrCmdSqCfg p i) 11 8

/-- Position of an INDEX and WRAP pair in a ring of `n` entries (R342). -/
def posOf (n v : Nat) : Nat := bits v 15 0 % n + (if bitAt v 16 then n else 0)
/-- The INDEX and WRAP pair of a position, as registers and doorbells carry it. -/
def ptrOf (n pos : Nat) : Nat := pos % n + (if pos ≥ n then 0x10000 else 0)
/-- Entries from position `a` to position `b` (R342). -/
def spanOf (n a b : Nat) : Nat := (b + 2 * n - a) % (2 * n)

/-- Free slots of completion ring `j` (R345). -/
def State.cqFree (s : State) (p j : Nat) : Nat :=
  let c := s.cq p j
  s.cqSize p j - c.reserved - spanOf (s.cqSize p j) c.head c.tail

/-! Units and the header wait (R353). -/

/-- The packet with handle `k`. -/
def State.pkt (s : State) (k : Nat) : Option Pkt := tfind s.pkts k
/-- Replace packet `k`. -/
def State.setPkt (s : State) (k : Nat) (x : Pkt) : State := { s with pkts := tput s.pkts k x }

/-- The packet that its unit starts next: dispatched, not started, first in dispatch order (R353). -/
def nextAt (u : Nat) : Tbl Pkt → Option (Nat × Pkt)
  | [] => none
  | (k, x) :: t =>
    if x.phase == .dispatched && x.unit == u then
      match nextAt u t with
      | some (j, y) => if y.order < x.order then some (j, y) else some (k, x)
      | none => some (k, x)
    else nextAt u t

/-- Put the header wait of the packet at the head of a unit to its semaphore (R353). -/
def State.unitAdvance (s : State) (u : Nat) : State :=
  match nextAt u s.pkts with
  | none => s
  | some (k, x) =>
    if x.waitMade || x.waitSem > 255 then s
    else (s.setPkt k { x with waitMade := true }).semWait x.part x.waitSem x.waitCount (.pkt k)

/-- Packet `k` may start: it is at the head of its unit and its header wait is satisfied. -/
def State.startable (s : State) (k op : Nat) : Option Pkt :=
  match s.pkt k with
  | none => none
  | some x =>
    if x.phase == .dispatched && x.opcode == op && ((nextAt x.unit s.pkts).map (·.1)) == some k
        && (x.waitSem > 255 || s.granted (.pkt k)) then some x else none

/-- Start packet `k`: its unit turns to the next packet dispatched to it. -/
def State.startPkt (s : State) (k : Nat) (x : Pkt) : State :=
  ((s.setPkt k { x with phase := .started, waitMet := true }).takeGrant (.pkt k)).unitAdvance x.unit

/-- What a packet of opcode `op` does when its unit starts it; a packet that may not start yet changes nothing (log entry
16). -/
def runOp (op k : Nat) (f : Pkt → State → State) (s : State) : Res :=
  .next (match s.startable k op with
    | none => s
    | some x => f x (s.startPkt k x))

/-- A unit starts packet `k` of opcode `op` once `ready` holds; until then nothing changes (log entry 16). -/
def runWhen (op k : Nat) (ready : Pkt → Bool) (f : Pkt → State → State) (s : State) : Res :=
  match s.startable k op with
  | none => .next s
  | some x => if ready x then runOp op k f s else .next s

/-! Completion (R354, R356, R360). -/

/-- A management frame body (R396). -/
def mgmtBody (kind ring ptr vec : Nat) : List Byte :=
  withCrc (leBytes 1 kind ++ leBytes 1 ring ++ leBytes 2 0 ++ leBytes 4 ptr ++ leBytes 1 vec ++ leBytes 3 0)

/-- Send the message of a completion ring (R360, R362): the count and the timer start again. -/
def State.cqMessage (s : State) (p j : Nat) : State :=
  let v := s.rf (adrCmdCqIrq p j) 5 0
  let s := s.setCq p j { s.cq p j with count := 0, timer := false }
  if s.rf (adrCmdCqCfg p j) 6 5 == 2 then
    if s.proxyWrites p then s.modPart p fun q => { q with irqWait := q.irqWait ++ [v] }
    else s.sendFrame p 8 6 (s.rf (adrPciProxyCfg p) 23 0) 0 0 (mgmtBody 2 0 0 v)
  else s.enq p [.msg (s.fnOf p) v]

/-- The interrupt effect of a completion entry (R360): `covered` marks an entry that neither counts nor starts the
timer; `urgent` one that causes a message at once. -/
def State.cqNotify (s : State) (p j : Nat) (covered urgent : Bool) : State :=
  if s.rf (adrCmdCqIrq p j) 6 6 == 0 || s.fatal.isSome then s
  else if urgent then s.cqMessage p j
  else if covered then s
  else
    let c := s.cq p j
    let s := s.setCq p j { c with count := c.count + 1, timer := true }
    if c.count + 1 ≥ s.rf (adrCmdCqIrq p j) 15 8 then s.cqMessage p j else s

/-- Write a completion entry at the tail of a CQ; it consumes one reservation (R344, R348, R349); a chip-fatal
fault writes none (R502). `body` is the entry's
first 31 bytes. -/
def State.cqWrite (s : State) (p j : Nat) (body : List Byte) : State :=
  let c := s.cq p j
  let n := s.cqSize p j
  let turn := if c.tail < n then 1 else 0
  let e := slice body 0 31 ++ leBytes 1 turn
  if s.fatal.isSome then s else
  let base := (s.reg (adrCmdCqBaseLo p j)).toNat + (s.reg (adrCmdCqBaseHi p j)).toNat * 2 ^ 32
  let a := base + 32 * (c.tail % n)
  let s := s.setCq p j { c with tail := (c.tail + 1) % (2 * n), reserved := c.reserved - 1 }
  match s.rf (adrCmdCqCfg p j) 6 5 with
  | 0 => s.hostWrite p false a e false .other
  | 1 => s.writeHearth p a e
  | _ => s.hostWrite p true a e false .other

/-- The completion entry of a packet (R348), without TURN. -/
def entryBytes (tag slot head op status sq note : Nat) (result : List Byte) (ev off elapsed : Nat) : List Byte :=
  leBytes 4 tag ++ leBytes 2 slot ++ leBytes 2 head ++ leBytes 1 op ++ leBytes 1 status ++ leBytes 1 sq ++ leBytes 1 note
    ++ slice result 0 12 ++ leBytes 2 ev ++ leBytes 2 off ++ leBytes 2 elapsed ++ leBytes 1 0

/-- A status that lets the packet signal and arrive (R354): DONE, DONE_NOTE, SHADOW_DIVERGED. -/
def goodStatus (st : Nat) : Bool := st == 0 || st == 1 || st == 0x32

/-- Complete packet `k` now (R354, R356, R358): signal, arrival, entry, interrupt, and the unit's next packet. `ev` is the
event recorded for its failure, `off` the offset of the first failing field. A step or chunk that ends with TIMEOUT counts in
STEP_TIMEOUTS (R97). -/
def State.completeNow (s : State) (k status note : Nat) (result : List Byte) (ev off : Nat) : State :=
  match s.pkt k with
  | none => s
  | some x =>
    let (status, note) := if status == 0 && x.late then (1, 2) else (status, note)
    let p := x.part
    let s := { s with pkts := tdel s.pkts k }
    let s := if x.waitMade && !x.waitMet then (s.semDrop p x.waitSem (.pkt k)).takeGrant (.pkt k) else s
    let s := if goodStatus status && x.signalSem ≤ 255 then s.semSignal p x.signalSem x.signalCount else s
    let s := if goodStatus status && x.barrier ≤ 63 then s.arrive p x.barrier 1 else s
    let s := s.bump (adrCompleted p)
    let s := if status ≥ 0x10 then s.bump (adrFailed p) else s
    let s := if status == 0x20 && (x.opcode == 0x47 || x.opcode == 0x48) then s.bump (adrStepTimeouts p) else s
    let bad := status == 0x10 || status == 0x11
    let s := if bad then s.event 0x0305 x.sq p else s
    let ev := if bad then 0x0305 else ev
    let j := s.boundCq p x.sq
    let s :=
      if x.quiet && status == 0 then s.setCq p j { s.cq p j with reserved := (s.cq p j).reserved - 1 }
      else
        let us := min 0xFFFF ((s.osc - x.dispT) * 20 / 1000)
        let e := entryBytes (u32 x.bytes 4) x.slot ((s.sq p x.sq).head % s.sqSize p x.sq) x.opcode status x.sq note result ev
          (if status == 0x11 then off else 0xFFFF) us
        (s.cqWrite p j e).cqNotify p j (x.noIrq && decide (status ≤ 1)) (decide (status > 1))
    s.unitAdvance x.unit

/-- Remember a completion that waits; a failing status replaces a good one. -/
def holdLater (h : Held) : List Held → List Held
  | [] => [h]
  | x :: xs => if x.pkt == h.pkt then (if goodStatus x.status then h :: xs else x :: xs) else x :: holdLater h xs

/-- Complete packet `k`; while a host write of it is not issued, or waits for its WRITE_ACK, the completion waits too (R301, R321,
R354 step 1). -/
def State.completeX (s : State) (k status note : Nat) (result : List Byte) (ev off : Nat) : State :=
  match s.pkt k with
  | none => s
  | some x =>
    if s.writesOut x.part (.input x.part k) then
      s.modPart x.part fun q => { q with held := holdLater ⟨k, status, note, result, ev, off⟩ q.held }
    else s.completeNow k status note result ev off

/-- Complete a packet with a status, a note and a result. -/
def State.complete (s : State) (k status note : Nat) (result : List Byte) : State :=
  s.completeX k status note result 0 0xFFFF

/-- Complete a packet with DONE. -/
def State.done (s : State) (k : Nat) (result : List Byte) : State := s.complete k 0 0 result

/-- Complete a packet with a failing status. -/
def State.failPkt (s : State) (k status : Nat) : State := s.complete k status 0 []

/-- Complete a packet with a failing status and the event recorded for its failure (R348). -/
def State.failEv (s : State) (k status ev : Nat) : State := s.completeX k status 0 [] ev 0xFFFF

/-- The event of a host read that failed with a status (R309, R313, R314). -/
def readEv (st : Nat) : Nat := if st == 0x21 then 0x0101 else if st == 0x14 then 0x0104 else 0x0105

/-- Complete a packet with BAD_PARAM for the field at `off`. -/
def State.badParam (s : State) (k off : Nat) : State := s.completeX k 0x11 0 [] 0 off

/-! Fetch (R349 to R352). -/

/-- A granule of partition `p` is being zeroed for it (R139). -/
def State.zeroingOf (s : State) (p : Nat) : Bool := (s.granules p).any s.hrt.zeroing.contains

/-- The entry queue of a partition is full (R75). -/
def State.queueFull (s : State) (p : Nat) : Bool := decide (4096 ≤ ((s.part p).jobs.filter fun j => !j.inFlight).length)

/-- Ring `i` has fetched a packet that will ask for a place in the entry queue: its fetching stops while the queue is full (R75). -/
def State.wantsQueue (s : State) (p i : Nat) : Bool :=
  s.pkts.any fun (_, x) => x.part == p && x.sq == i && x.phase != .started && decide (0x43 ≤ x.opcode) && decide (x.opcode ≤ 0x48)

/-- Ring `i` of partition `p` may be fetched from (R349); a full entry queue that a packet of the ring waits for stops it (R75), and so
does PARK (R412). While a granule of the partition is being zeroed its packets, and with them every access of its tongs, anvils and
links, wait (R139, log entry 62). -/
def State.eligible (s : State) (p i : Nat) : Bool :=
  let q := s.sq p i
  s.fatal.isNone && !s.parked && s.locked p && s.rf (adrCmdSqCfg p i) 31 31 == 1 && q.st == .running && !q.stopReq && q.burst.isNone
    && q.head != q.tail && !s.zeroingOf p && decide (0 < s.cqFree p (s.boundCq p i))
    && !(s.queueFull p && s.wantsQueue p i)
    && (s.rf (adrCmdSqCfg p i) 6 5 != 0 || (s.fn (s.fnOf p)).bme)

/-- Resume a ring's announced right for its next entry (R366): the right of the oldest announcement. -/
def takeAnn : List (Nat × Bool) → Bool × List (Nat × Bool)
  | [] => (false, [])
  | (n, f) :: t => if n ≤ 1 then (f, t) else (f, (n - 1, f) :: t)

/-- A fetched packet joins the machine, is checked by `check` (R352), and fails at once or waits for dispatch. -/
def State.addPacket (check : State → Pkt → Option (Nat × Nat)) (s : State) (p i slot : Nat) (b : List Byte) (pf : Bool) : State :=
  let k := s.nextPkt
  let x : Pkt := { part := p, sq := i, slot := slot, bytes := b, pf := pf, fetchT := s.osc, dispT := s.osc }
  let s := ({ s with nextPkt := k + 1 }.setPkt k x).bump (adrFetched p)
  match check s x with
  | some (st, off) => s.completeX k st 0 [] 0 off
  | none => let q := s.sq p i; s.setSq p i { q with fetched := q.fetched ++ [k] }

/-- Take the 64-byte entry of slot `slot` of an arrived burst (R347): a standard entry is a packet; the two slots of an extended
entry are one packet and hold one reservation; an extended entry in slot S - 1 fails alone. -/
def State.takeEntry (check : State → Pkt → Option (Nat × Nat)) (s : State) (p i slot : Nat) (e : List Byte) : State :=
  let q := s.sq p i
  let n := s.sqSize p i
  let (pf, ann) := takeAnn q.ann
  let q := { q with ann := ann }
  match q.half with
  | some (sl, b, f) =>
    let j := s.boundCq p i
    let s := (s.setSq p i { q with half := none }).setCq p j { s.cq p j with reserved := (s.cq p j).reserved - 1 }
    State.addPacket check s p i sl (b ++ e) f
  | none =>
    if bitAt (u8 e 1) 0 && slot + 1 < n then s.setSq p i { q with half := some (slot, e, pf) }
    else State.addPacket check (s.setSq p i q) p i slot e pf

/-- A failed burst (R351): the ring stops and its stopped-ring entry is written. -/
def State.stopRing (s : State) (p i status : Nat) : State :=
  let q := s.sq p i
  let j := s.boundCq p i
  match q.burst with
  | none => s
  | some b =>
    let s := s.setSq p i { q with st := .stopped, err := status, burst := none, stopReq := false }
    let s := s.setCq p j { s.cq p j with reserved := (s.cq p j).reserved - (b.count - 1) }
    let h := q.head % s.sqSize p i
    let s := s.event 0x0304 i p
    (s.cqWrite p j (entryBytes 0 h h 0xFF status i 0 [] 0x0304 0xFFFF 0)).cqNotify p j false true

/-- Cut a byte list into 64-byte entries. -/
def entriesOf : Nat → List Byte → List (List Byte)
  | 0, _ => []
  | n + 1, b => slice b 0 64 :: entriesOf n (b.drop 64)

/-- Every byte of a burst has arrived: the head advances over it and each packet is checked (R350, R352). -/
def State.burstArrived (check : State → Pkt → Option (Nat × Nat)) (s : State) (p i : Nat) : State :=
  match (s.sq p i).burst with
  | none => s
  | some b =>
    if b.fail != 0 then s.stopRing p i b.fail
    else if b.got < 64 * b.count then s
    else
      let n := s.sqSize p i
      let s := s.setSq p i { s.sq p i with burst := none, head := ((s.sq p i).head + b.count) % (2 * n) }
      let s := s.each (entriesOf b.count b.data).zipIdx fun s (e, j) => State.takeEntry check s p i ((b.start + j) % n) e
      let q := s.sq p i
      if q.stopReq then s.setSq p i { q with st := .stopped, stopReq := false, err := 0 } else s

/-- Write data of a fetch into its burst. -/
def State.burstData (s : State) (p i off : Nat) (d : List Byte) : State :=
  let q := s.sq p i
  match q.burst with
  | none => s
  | some b => s.setSq p i { q with burst := some { b with data := splice b.data off d, got := b.got + d.length } }

/-- Mark a burst as failed with a status (R351). -/
def State.burstFail (s : State) (p i status : Nat) : State :=
  let q := s.sq p i
  match q.burst with
  | none => s
  | some b => s.setSq p i { q with burst := some { b with fail := status } }

/-- Issue one burst from ring `i` (R350): at most 16 entries, within the ring, the CQ's free slots and the Max Read
Request Size; the entries are charged to the ring's deficit, which may go below zero. -/
def State.issueBurst (s : State) (p i : Nat) : State :=
  let q := s.sq p i
  let n := s.sqSize p i
  let j := s.boundCq p i
  let c := min (min 16 (spanOf n q.head q.tail)) (min (n - q.head % n) (min (s.cqFree p j) (max 1 (s.mrrsOf p / 64))))
  let loc := s.rf (adrCmdSqCfg p i) 6 5
  let base := (s.reg (adrCmdSqBaseLo p i)).toNat + (s.reg (adrCmdSqBaseHi p i)).toNat * 2 ^ 32
  let a := base + 64 * (q.head % n)
  let s := s.setSq p i { q with deficit := q.deficit - c, burst := some ⟨q.head, c, List.replicate (64 * c) 0, 0, 0⟩ }
  let s := s.setCq p j { s.cq p j with reserved := (s.cq p j).reserved + c }
  if loc == 1 then
    match s.load p a (64 * c) with
    | (some d, s) => s.burstData p i 0 d
    | (none, s) => s.burstFail p i 0x7F
  else s.hostRead p (loc == 2) a (64 * c) (.fetch p i) 0

/-- Ring `i` ends its turn: without work to fetch it keeps no credit; the next ring is credited its WEIGHT (R350). -/
def State.turn (s : State) (p i : Nat) : State :=
  let j := (i + 1) % 16
  let q := s.sq p i
  let s := if s.eligible p i || q.deficit ≤ 0 then s else s.setSq p i { q with deficit := 0 }
  if s.eligible p j then
    let q := s.sq p j
    s.setSq p j { q with deficit := q.deficit + s.rf (adrCmdSqCfg p j) 19 12 }
  else s

/-- Deficit round robin among the rings of a partition (R350): the ring whose turn it is keeps it while it is eligible
and has credit. DEDUCED: the manual names the discipline and not its bookkeeping. -/
def State.pickRing (s : State) (p : Nat) : Nat → Nat → Option (Nat × State)
  | 0, _ => none
  | n + 1, i =>
    if s.eligible p i && decide (0 < (s.sq p i).deficit) then some (i, s.modPart p fun x => { x with ringPtr := i })
    else State.pickRing (s.turn p i) p n ((i + 1) % 16)

/-- A ring of the partition is eligible. -/
def State.anyEligible (s : State) (p : Nat) : Bool := (List.range 16).any (s.eligible p)

/-- The next LOCKED partition with an eligible ring, from `p` on, in round robin (R350). -/
def State.nextPart (s : State) : Nat → Nat → Option Nat
  | 0, _ => none
  | n + 1, p => if s.anyEligible (p % 8) then some (p % 8) else State.nextPart s n (p + 1)

/-- One visit of the fetch engine (R350). -/
def State.fetchIssue (s : State) : State :=
  match s.nextPart 8 (s.fetchRR + 1) with
  | none => s
  | some p =>
    match s.pickRing p 288 ((s.part p).ringPtr) with
    | none => s
    | some (i, s) => { s.issueBurst p i with fetchRR := p }

/-! Dispatch (R353). -/

/-- Every earlier packet of the SQ has completed (FENCE). -/
def State.fenceClear (s : State) (p i k : Nat) : Bool :=
  !(s.pkts.any fun (j, x) => x.part == p && x.sq == i && decide (j < k))

/-- Every packet of the partition that dispatched before has completed (PFENCE). -/
def State.pfenceClear (s : State) (p : Nat) : Bool :=
  !(s.pkts.any fun (_, x) => x.part == p && x.phase != .fetched)

/-- Dispatch the next packet of ring `i`, when its fences allow (R353). -/
def State.dispatchNext (s : State) (p i : Nat) : State :=
  let q := s.sq p i
  match q.fetched with
  | [] => s
  | k :: rest =>
    match s.pkt k with
    | none => s.setSq p i { q with fetched := rest }
    | some x =>
      if (x.fence && !s.fenceClear p i k) || (x.pfence && !s.pfenceClear p) then s
      else
        let s := s.setSq p i { q with fetched := rest }
        let s := { s with nextOrder := s.nextOrder + 1 }.setPkt k
          { x with phase := .dispatched, order := s.nextOrder, dispT := s.osc }
        s.unitAdvance x.unit

end Sys2Proof.Machine
end

