-- ==== Sys2Proof/Machine/Custody.lean ====
section
/-! DEFINITION. Procession below its commands (R25 to R60, R377 to R383): plans, billets and their frames, custody
entries, detours, verdicts, tokens, the gradient add, commit with its optimizer, abort and relay. -/
namespace Sys2Proof.Machine

/-! Laps and plans. -/

/-- Some lap of the partition is open (R21, R275, R278): an accepted lap that has not opened yet, in phase OPENING, is none (R45). -/
def State.anyLap (s : State) (p : Nat) : Bool := (s.part p).laps.any fun (_, l) => l.isOpen

/-- The billet record at PLAN_ORDER `n`. -/
def Lap.rec? (l : Lap) (n : Nat) : Option BRec :=
  match l.job with
  | none => none
  | some j => j.plan.billets[n]?

/-- Epoch `a` is newer than `b` in the serial order of R52. -/
def newer (a b : Nat) : Bool := let d := (a + 65536 - b) % 65536; d != 0 && decide (d < 32768)

/-- Largest payload of the plan. -/
def Plan.largest (p : Plan) : Nat := p.billets.foldl (fun m b => max m b.len) 0
/-- Bytes of a receive or retain slot: the largest billet of the plan (R60). -/
def Plan.slotBytes (p : Plan) : Nat := max 4096 p.largest
/-- Frame length of a billet of `n` payload bytes. -/
def frameLen (n : Nat) : Nat := 96 + n / 4096 * 4112

/-! The lap plan (R379). -/

/-- Member addresses, 4 bytes each. -/
def planMembers (b : List Byte) (n : Nat) : List Nat := (List.range n).map fun i => u32 b (64 + 4 * i) % 2 ^ 24

/-- One billet record. -/
def planBillet (b : List Byte) (o : Nat) : BRec :=
  { id := u32 b o, home := u32 b (o + 4) % 2 ^ 24, kind := u8 b (o + 8), format := u8 b (o + 9), tiles := u16 b (o + 0xA),
    rows := u16 b (o + 0xC), cols := u16 b (o + 0xE), len := u32 b (o + 0x10), homeSrc := u32 b (o + 0x14),
    contrib := u32 b (o + 0x18), gradOf := u32 b (o + 0x1C) }

/-- Read a lap plan from its bytes (R379). -/
def parsePlan (b : List Byte) : Plan :=
  let n := u16 b 0
  let o := 64 + roundUp (4 * n) 64
  { members := planMembers b n, position := u16 b 2, hopKind := u8 b 4, recvSlots := u8 b 5, vc1 := u8 b 6, vc3 := u8 b 7,
    recvBase := u32 b 8, retainBase := u32 b 0xC, retainBytes := u32 b 0x10, holdBase := u32 b 0x14, holdBytes := u32 b 0x18,
    keepBase := u32 b 0x1C, keepBytes := u32 b 0x20, semFull := u8 b 0x24, semEmpty := u8 b 0x25, semUsed := u8 b 0x26,
    semContrib := u8 b 0x27, backupS := u32 b 0x28, backupR := u32 b 0x2C,
    billets := (List.range (u32 b 0x30)).map fun i => planBillet b (o + 32 * i) }

/-- No address twice. -/
def noDup : List Nat → Bool
  | [] => true
  | x :: xs => !xs.contains x && noDup xs

/-- KIND and FORMAT of R30: weights in the eight operand formats, gradients in BF16 or FP32, optimizer in FP32. -/
def kindOk (kind fmt : Nat) : Bool :=
  (kind == 1 && decide (fmt ≤ 7)) || (kind == 2 && (fmt == 0 || fmt == 8)) || (kind == 3 && fmt == 8)

/-- A member that this chip can see breaks no rule of R25: an address of a partition, which on this chip is in procession mode and
holds the ring's slice. Of the members on other chips the chip knows the address alone. -/
def State.memberOk (s : State) (p a : Nat) : Bool :=
  a % 2 == 0 && (a / 16 != s.chipAddr / 16 || ((s.part (a / 2 % 8)).procession && s.sliceOf (a / 2 % 8) == s.sliceOf p))

/-- The plan is well formed for a member of address `self` (R18, R25, R379). -/
def planOk (b : List Byte) (len self : Nat) : Bool :=
  let n := u16 b 0
  let m := u32 b 0x30
  let p := parsePlan b
  u32 b 0x3C == crc32c (slice b 0 0x3C) && decide (2 ≤ n) && decide (n ≤ 4096) && decide (1 ≤ m) && decide (m ≤ 131072)
    && len == 64 + roundUp (4 * n) 64 + 32 * m && decide (p.position < n) && decide (p.hopKind ≤ 2)
    && decide (3 ≤ p.recvSlots) && decide (p.recvSlots ≤ 64) && decide (p.vc1 ≤ 15) && decide (p.vc3 ≤ 15)
    && noDup p.members && p.self == self

/-- Port that the direct hop to an address leaves by, if any. -/
def State.hopPort (s : State) (p dst : Nat) : Option Nat :=
  match s.route ⟨dst, 2, s.partAddr p, 1, s.sliceOf p, 0, 64, 0, 0⟩ 8 with
  | .port d _ _ => some d
  | _ => none

/-- The hop to a member crosses a fenced link (R25, R65). -/
def State.hopFenced (s : State) (dst : Nat) : Bool :=
  match s.wiredPort dst with
  | some d => s.rf (adrAntPortCfg d) 4 4 == 1
  | none => false

/-- Custody entries in use on the chip (R41). -/
def State.entriesUsed (s : State) : Nat :=
  s.parts.foldl (fun n (_, q) => q.laps.foldl (fun n (_, l) =>
    n + (match l.job with | some j => j.plan.billets.length | none => 0)
      + l.waiting.foldl (fun n j => n + j.plan.billets.length) 0) n) 0

/-- Bytes a hop moves in `ns` nanoseconds: the flit payload rate of R180 and R238, in 1/1000 of a byte per ns. -/
def State.hopBytes (s : State) (kind : Nat) (port ns : Nat) : Nat :=
  let q := if kind == 0 then max 1 (popcount 8 (s.link port).active) else 4
  46875 * q * ns / 1000

/-- The areas of a plan are large enough (R60). -/
def State.areasOk (s : State) (p : Nat) (pl : Plan) : Bool :=
  let port := (s.wiredPort pl.succ).getD 0
  let delay := s.rf (adrClkPortDelay port) 30 0
  let need := max (2 * pl.slotBytes) (frameLen pl.largest + s.hopBytes pl.hopKind port (2 * delay + 6000))
  let hold := (pl.billets.filter fun b => b.kind == 2 && b.home == pl.self).foldl (fun n b => n + b.len) 0
  decide (need ≤ pl.retainBytes) && decide (hold ≤ pl.holdBytes) && s.inHearth p pl.recvBase (pl.recvSlots * pl.slotBytes)
    && s.inHearth p pl.retainBase pl.retainBytes && s.inHearth p pl.holdBase pl.holdBytes
    && s.inHearth p pl.keepBase pl.keepBytes

/-! Completion of lap-start packets. -/

/-- RESULT of a lap-start packet (R381). -/
def lapResult (l : Lap) : List Byte := leBytes 2 l.epoch ++ leBytes 2 0 ++ leBytes 4 l.detours ++ leBytes 4 l.dups

/-- Complete the lap-start packet of the open lap, once (R50, R381). -/
def State.lapDone (s : State) (p r status : Nat) : State :=
  let l := s.lap p r
  match l.job with
  | none => s
  | some j =>
    if l.pktDone then s
    else
      let s := s.setLap p r { l with pktDone := true }
      if status == 0 && l.detours > 0 then s.complete j.pkt 1 3 (lapResult l)
      else s.completeX j.pkt status 0 (lapResult l) (if status == 0x30 then 0x1307 else 0) 0xFFFF

/-- A ring without the lap-starts that it has accepted and not opened: the one in phase OPENING, and those behind it. -/
def Lap.unopened (l : Lap) : Lap :=
  if l.phase == .opening then { l with phase := .closed, job := none, waiting := [] } else { l with waiting := [] }

/-- The lap-starts that a ring has accepted and not opened end with a status. -/
def State.dropUnopened (s : State) (p r status : Nat) : State :=
  let l := s.lap p r
  let ks := (if l.phase == .opening then (l.job.map (·.pkt)).toList else []) ++ l.waiting.map (·.pkt)
  (s.setLap p r l.unopened).each ks fun s k => s.failPkt k status

/-- A pending mode change takes effect when no lap of the partition is open any more (R21). -/
def State.modeSettle (s : State) (p : Nat) : State :=
  match (s.part p).modePend with
  | none => s
  | some k =>
    if s.anyLap p then s
    else (s.modPart p fun q => { q with modePend := none, procession := !q.procession }).done k
      (leBytes 1 (if (s.part p).procession then 0 else 1))

/-- Drop the semaphore waits that the custody engine holds for a ring. -/
def State.dropLapWaits (s : State) (p r : Nat) : State :=
  let mine := fun (w : Waiter) => match w with
    | .used a b _ => a == p && b == r
    | .contrib a b _ => a == p && b == r
    | .empty a b _ => a == p && b == r
    | _ => false
  let s := { s with grants := s.grants.filter fun w => !mine w }
  s.each (s.part p).sems fun s (i, x) =>
    if x.waiters.any fun w => mine w.1 then
      (s.setSem p i { s.sem p i with waiters := (s.sem p i).waiters.filter fun w => !mine w.1 }).semServe p i
    else s

/-- Close the open epoch of a ring (R46, R57): entries end, a pending mode change takes effect when it was the last open lap (R21),
and the next waiting lap-start becomes OPENING. -/
def State.closeLap (s : State) (p r : Nat) : State :=
  let s := s.dropLapWaits p r
  let l := s.lap p r
  let s := s.setLap p r
    { l with phase := if l.waiting.isEmpty then .closed else .opening, job := l.waiting.head?, waiting := l.waiting.drop 1,
             entries := [], prepare := false, prepSent := false, window := false, inDoubt := false, pktDone := false,
             detours := 0, dups := 0, slotPtr := 0, grant1 := 0, grant3 := 0, deferred := false, resolver := none }
  s.modeSettle p

/-! Billet frames (R29, R31). -/

/-- Billet header bytes (R29). -/
def billetHdr (b : BRec) (epoch ring resend flags order : Nat) : List Byte :=
  withCrc (leBytes 4 b.id ++ leBytes 2 epoch ++ leBytes 1 b.kind ++ leBytes 1 b.format ++ leBytes 2 b.rows ++ leBytes 2 b.cols
    ++ leBytes 2 b.tiles ++ leBytes 1 ring ++ leBytes 1 resend ++ leBytes 4 b.home ++ leBytes 4 b.len ++ leBytes 2 (b.len / 4096)
    ++ leBytes 2 flags ++ leBytes 4 order ++ List.replicate 28 0)

/-- Segment trailer bytes (R31). -/
def segTrailer (id epoch seg resend : Nat) (pay : List Byte) : List Byte :=
  leBytes 4 id ++ leBytes 2 epoch ++ leBytes 2 seg ++ leBytes 1 resend ++ leBytes 3 0 ++ leBytes 4 (crc32c pay)

/-- The segments of a payload from segment `i` on. -/
def segBytes (id epoch resend : Nat) : Nat → Nat → List Byte → List Byte
  | 0, _, _ => []
  | n + 1, i, b => let p := slice b 0 4096; p ++ segTrailer id epoch i resend p ++ segBytes id epoch resend n (i + 1) (b.drop 4096)

/-- Detours of a hop to another member, in order (R54, R233), as WAY and BACK words. A plan gives the chip addresses of a campus
hop's backup pair and not their campus ports: DESIGN CHOICE (log entry 65): the port is the one by which the hop itself leaves this
site, or 6 where that is a mesh port toward a gateway. -/
def State.detoursTo (s : State) (kind dst backupS backupR : Nat) : List (Nat × Nat) :=
  let own := s.chipAddr / 16 % 16
  let nxt := dst / 16 % 16
  let base := s.chipAddr / 256 * 256
  let at_ := fun (x y : Nat) => base + 16 * (4 * x + y)
  let opp := fun (d : Nat) => (d + 2) % 4
  match kind with
  | 0 =>
    match stepX own nxt with
    | some d =>
      let side := fun y => (mkWay (at_ (own / 4) y) d, mkWay (at_ (nxt / 4) y) (opp d))
      (if own % 4 > 0 then [side (own % 4 - 1)] else []) ++ (if own % 4 < 3 then [side (own % 4 + 1)] else [])
    | none =>
      match stepY own nxt with
      | some d =>
        let side := fun x => (mkWay (at_ x (own % 4)) d, mkWay (at_ x (nxt % 4)) (opp d))
        (if own / 4 > 0 then [side (own / 4 - 1)] else []) ++ (if own / 4 < 3 then [side (own / 4 + 1)] else [])
      | none => []
  | 1 => [(mkWay s.chipAddr (if (s.wiredPort dst).getD 4 == 4 then 5 else 4), 0), (0, 0)]
  | _ =>
    if bitAt backupS 31 && bitAt backupR 31 then
      let d := max 6 ((s.wiredPort dst).getD 6)
      [(mkWay backupS d, mkWay backupR d)]
    else []

/-- Detours of the outgoing hop. -/
def State.detourList (s : State) (pl : Plan) : List (Nat × Nat) := s.detoursTo pl.hopKind pl.succ pl.backupS pl.backupR

/-- Kind of the hop to another address, by its port: 0 mesh, 1 rack, 2 campus (R26). -/
def State.kindTo (s : State) (dst : Nat) : Nat :=
  match s.wiredPort dst with
  | none => 0
  | some d => if d < 4 then 0 else if d < 6 then 1 else 2

/-- Detours of a token to a member: the outgoing hop's list, or that of the hop back to the predecessor (R48, R49). -/
def State.tokenWays (s : State) (pl : Plan) (dst : Nat) : List (Nat × Nat) :=
  if dst == pl.succ then s.detourList pl else s.detoursTo (s.kindTo dst) dst 0 0

/-- WAY and BACK of a hop's route number: 0 the direct hop (R233). -/
def State.wayOf (s : State) (pl : Plan) (route : Nat) : Nat × Nat :=
  if route == 0 then (0, 0) else (s.detourList pl).getD (route - 1) (0, 0)

/-- VC of a billet (R27). -/
def kindVc (kind : Nat) : Nat := if kind == 2 then 3 else 1

/-- Send segments `i` to `i + n - 1` of the retained copy of billet `o` (all of them with the header; R36 for a part). -/
def State.sendBillet (s : State) (p r o i n : Nat) : State :=
  let l := s.lap p r
  match l.job, l.rec? o with
  | some j, some b =>
    let e := l.entry o
    let (way, back) := s.wayOf j.plan e.route
    let h := billetHdr b l.epoch r e.resendSeq (b2n e.ret + 2 * b2n e.sr) o
    let pay := if e.ret then [] else s.readHearth p (e.loc + 4096 * i) (4096 * n)
    s.sendNoted p 1 (kindVc b.kind) j.plan.succ way back (h ++ segBytes b.id l.epoch e.resendSeq (if e.ret then 0 else n) i pay)
      (.billet p r o l.epoch e.resendSeq)
  | _, _ => s

/-! Verdicts and tokens (R35, R48). -/

/-- The 32-byte verdict and token frame body (R35). -/
def verdictBody (id epoch resend code first span self ring : Nat) : List Byte :=
  withCrc (leBytes 4 id ++ leBytes 2 epoch ++ leBytes 1 resend ++ leBytes 1 code ++ leBytes 2 first ++ leBytes 2 span
    ++ leBytes 4 self ++ leBytes 1 ring ++ leBytes 11 0)

/-- Answer a billet or token to the address it came from; WAY is the frame's BACK when valid (R233). -/
def State.answer (s : State) (p dst back id epoch resend code first span ring : Nat) : State :=
  s.sendFrame p 2 0 dst (if wayValid back then back else 0) 0
    (verdictBody id epoch resend code first span (s.partAddr p) ring)

/-- BILLET_ID of a lap token. -/
def tokenId : Nat := 0xFFFFFFFF

/-- Send a token once more over its route. -/
def State.tokenFrame (s : State) (p r : Nat) (t : Token) : State :=
  let (way, back) := if t.route == 0 then (0, 0) else t.ways.getD (t.route - 1) (0, 0)
  s.sendNoted p 2 0 t.dst way back (verdictBody tokenId t.epoch t.resendSeq t.code 0 0 (s.partAddr p) r)
    (.token p r t.epoch t.code t.dst t.resendSeq)

/-- Send a token and keep its retained copy with its custody deadline (R48). -/
def State.sendToken (s : State) (p r : Nat) (pl : Plan) (code dst : Nat) : State :=
  let l := s.lap p r
  let t : Token := { code := code, epoch := l.epoch, dst := dst, ways := s.tokenWays pl dst }
  (s.setLap p r { l with tokens := l.tokens ++ [t] }).tokenFrame p r t

/-! Abort (R49, R57). -/

/-- The lap-resolve packet that brought COMMIT to a lap in PARK completes with it (R382, R412). -/
def State.resolved (s : State) (l : Lap) : State := l.resolver.elim s fun k => s.done k (leBytes 2 l.epoch)

/-- Abort the open epoch of a ring at this member (R57). The activations of an epoch aborted after its forward phase are kept for a
replay (R58). -/
def State.abortLap (s : State) (p r : Nat) : State :=
  let l := s.lap p r
  match l.job with
  | none => s
  | some j =>
    let kept := !j.rehome && (l.phase == .backward || l.phase == .prepared)
    let s := s.setLap p r { l with
      phase := .aborting, decision := 2, entries := [], aborts := insNat l.aborts l.epoch
      aborted := if kept then some (l.epoch, j.plan.members, j.plan.keepBase, j.plan.keepBytes) else none }
    let s := s.bump (adrAborts p)
    ((s.lapDone p r 0x31).closeLap p r).resolved l

/-- Originate ABORT (R49): allowed to a member that is not prepared, and to the leader before it records COMMIT. -/
def State.originateAbort (s : State) (p r : Nat) : State :=
  let l := s.lap p r
  match l.job with
  | none => s
  | some j =>
    if !l.isOpen || (l.phase == .prepared && !(l.leader && l.decision != 1)) || l.decision == 1 then s
    else
      let s := s.sendToken p r j.plan 0x13 j.plan.succ
      let s := if j.plan.pred != j.plan.succ then s.sendToken p r j.plan 0x13 j.plan.pred else s
      s.abortLap p r

/-! Detours and recovery (R54, R56). -/

/-- The retained copy of an entry holds a poisoned word (R134). -/
def State.retainPoisoned (s : State) (p r o : Nat) : Bool :=
  let l := s.lap p r
  match l.rec? o with
  | none => false
  | some b => !(s.poisonHits p (l.entry o).loc (if (l.entry o).ret then 0 else b.len)).isEmpty

/-- The retained copy of an entry was found poisoned: each poisoned word is recorded, and the member originates ABORT (R134). -/
def State.poisonAbort (s : State) (p r o : Nat) : State :=
  let e := (s.lap p r).entry o
  (s.notePoison p (s.poisonHits p e.loc (((s.lap p r).rec? o).elim 0 (·.len)))).originateAbort p r

/-- Resend a billet over the next detour of its list (R54); its deadline starts again when the copy has left (R43). -/
def State.takeDetour (s : State) (p r o : Nat) : State :=
  let l := s.lap p r
  match l.job with
  | none => s
  | some j =>
    let e := l.entry o
    let e := { e with recovery := true, stopped := false }
    let n := (s.detourList j.plan).length
    if s.retainPoisoned p r o then (s.setLap p r (l.setEntry o e)).poisonAbort p r o
    else if n == 0 then s.setLap p r (l.setEntry o { e with deadline := false })
    else
      let e := { e with route := e.route % n + 1, resendSeq := (e.resendSeq + 1) % 256, deadline := false, notOpen := false, segFails := [] }
      let s := s.setLap p r { l.setEntry o e with detours := l.detours + 1 }
      let s := (s.event 0x1302 r p).bump (adrDetours p)
      s.sendBillet p r o 0 ((l.rec? o).elim 0 fun b => b.len / 4096)

/-- A token in trouble goes on to its next detour (R48, R54). -/
def Token.detour (t : Token) : Token :=
  if t.ways.isEmpty then { t with recovery := true, deadline := false }
  else { t with recovery := true, deadline := false, notOpen := false, route := t.route % t.ways.length + 1, resendSeq := (t.resendSeq + 1) % 256 }

/-- The relay entry of a ring while its window runs (R59). -/
def State.relay? (s : State) (p r : Nat) : Option Relay := s.relays.find? fun x => x.part == p && x.ring == r && !x.ended

/-- Epoch `e` of a ring is one whose relay entry has been dropped: a later token or billet of it is STALE (R59). -/
def State.relayEnded (s : State) (p r e : Nat) : Bool := s.relays.any fun x => x.part == p && x.ring == r && x.ended && x.epoch == e

/-- Retained tokens of a ring: the member's own, then those of its relay entry (R48, R59). -/
def State.lapTokens (s : State) (p r : Nat) : List Token := (s.lap p r).tokens ++ (s.relay? p r).elim [] (·.tokens)

/-- Replace the `i`-th retained token of a ring. -/
def State.setToken (s : State) (p r i : Nat) (t : Token) : State :=
  let n := (s.lap p r).tokens.length
  if i < n then s.modLap p r fun l => { l with tokens := l.tokens.set i t }
  else { s with relays := s.relays.map fun x =>
           if x.part == p && x.ring == r && !x.ended then { x with tokens := x.tokens.set (i - n) t } else x }

/-- Resend the `i`-th retained token over the next detour (R48, R54); one of the open epoch counts for the packet (R381). -/
def State.tokenDetour (s : State) (p r i : Nat) : State :=
  match (s.lapTokens p r)[i]? with
  | none => s
  | some t =>
    let s := s.setToken p r i t.detour
    if t.ways.isEmpty then s
    else
      let s := s.modLap p r fun l => if t.epoch == l.epoch then { l with detours := l.detours + 1 } else l
      ((s.event 0x1302 r p).bump (adrDetours p)).tokenFrame p r t.detour

/-- Hops whose direct route leaves by port `d` are in trouble when its link goes down. -/
def State.hopsDown (s : State) (d : Nat) : State :=
  s.each allParts fun s p => s.each [0, 1] fun s r =>
    let s := s.each (s.lapTokens p r).zipIdx fun s (t, i) =>
      if t.route == 0 && s.wiredPort t.dst == some d then s.tokenDetour p r i else s
    match (s.lap p r).job with
    | none => s
    | some j =>
      if s.wiredPort j.plan.succ == some d then
        s.each (s.lap p r).entries fun s (o, e) => if e.st == .onWire && e.route == 0 then s.takeDetour p r o else s
      else s

/-! Gradients (R42 to R44, R125). -/

/-- One segment of a gradient billet from the FP32 codes of its elements, rounded to its format (R44) with the vector units'
overflow rule `sat` (R122) and, with stochastic rounding, the generators of the segment (R125). -/
def gradSeg (fmt : Nat) (sat sr : Bool) (id epoch seg : Nat) (vs : List Nat) : List Byte :=
  let step := fun (st : Tbl Nat × List Nat) (v, e) =>
    let l := e % 512
    let s := lfsrDraw (tget (segSeed id epoch seg l) st.1 l)
    let code := if fmt == 8 then v else encFloat fmt sat (if sr then some s else none) (val32 v)
    (if sr && fmt != 8 then tput st.1 l s else st.1, code :: st.2)
  packElems fmt (vs.zipIdx.foldl step ([], [])).2.reverse

/-- Elements in a segment of a billet. -/
def segElems (fmt : Nat) : Nat := 4096 * 8 / fmtBits fmt

/-- Write the segments of a gradient billet at `loc`, each computed from the FP32 values that `f` gives its elements (R44, R125). -/
def State.gradWrite (s : State) (p : Nat) (b : BRec) (epoch loc : Nat) (sr : Bool) (f : State → Nat → List Nat) : State :=
  let sat := s.rf (adrVecCvtCfg p) 0 0 == 1
  s.each (List.range (b.len / 4096)) fun s seg => s.writeHearth p (loc + 4096 * seg) (gradSeg b.format sat sr b.id epoch seg (f s seg))

/-- FP32 contribution of a member to segment `seg` of a gradient billet. -/
def State.contribSeg (s : State) (p : Nat) (b : BRec) (seg : Nat) : List Nat :=
  let n := segElems b.format
  let c := s.readHearth p (b.contrib + 4 * n * seg) (4 * n)
  (List.range n).map fun e => u32 c (4 * e)

/-- The gradient add of a member's contribution to the billet at `loc`, in FP32 (R44). -/
def State.gradAdd (s : State) (p : Nat) (b : BRec) (epoch loc : Nat) (sr : Bool) : State :=
  s.gradWrite p b epoch loc sr fun s seg =>
    let g := s.readHearth p (loc + 4096 * seg) 4096
    (s.contribSeg p b seg).mapIdx fun e c => fAdd (rnd32 (decFloat b.format (elemAt b.format g e))) c

/-- The home's seed of a gradient billet: its own contribution, rounded to the billet's format (R44). -/
def State.gradSeed (s : State) (p : Nat) (b : BRec) (epoch loc : Nat) (sr : Bool) : State :=
  s.gradWrite p b epoch loc sr fun s seg => s.contribSeg p b seg

/-! Commit (R46, R378). -/

/-- Integer power by the fixed sequence of FP32 products of R378. -/
def fPowGo : Nat → Nat → Nat → Nat → Nat
  | 0, _, _, r => r
  | fuel + 1, p, n, r =>
    if n == 0 then r else
    let r := if n % 2 == 1 then fMul r p else r
    if n / 2 > 0 then fPowGo fuel (fMul p p) (n / 2) r else r

/-- beta^n (R378). -/
def fPow (beta n : Nat) : Nat := fPowGo 33 beta n fOne

/-- One element's update: θ, m, v (R378). -/
def optElem (j : LapJob) (g th m v : Nat) : Nat × Nat × Nat :=
  if j.opt == 1 then
    let m := fAdd (fMul j.beta1 m) (fMul (fSub fOne j.beta1) g)
    let v := fAdd (fMul j.beta2 v) (fMul (fMul (fSub fOne j.beta2) g) g)
    let mh := fDiv m (fSub fOne (fPow j.beta1 j.optStep))
    let vh := fDiv v (fSub fOne (fPow j.beta2 j.optStep))
    (fSub th (fMul j.lr (fAdd (fDiv mh (fAdd (fSqrt vh) j.eps)) (fMul j.wd th))), m, v)
  else (fSub th (fMul j.lr (fAdd g (fMul j.wd th))), m, v)

/-- Elements of a billet. -/
def BRec.elems (b : BRec) : Nat := b.tiles * b.rows * b.cols

/-- Offset of tile `t` of a billet's payload (R113: each tile starts at a 64-byte boundary). -/
def BRec.tileOff (b : BRec) (t : Nat) : Nat := t * roundUp (tileBytes b.format b.rows b.cols) 64

/-- Value of element `e`, column by column within its tile, of a payload of floats or scaled elements. -/
def BRec.elemVal (b : BRec) (pay : List Byte) (e : Nat) : FVal :=
  let t := e / (b.rows * b.cols)
  let c := e % (b.rows * b.cols) / b.rows
  let i := e % b.rows
  decFloat b.format (elemAt b.format (pay.drop (b.tileOff t + c * colBytes b.format b.rows)) i)

/-- Tile bytes of FP32 weights, column by column, converted to the billet's format (R113, R378). -/
def tileEncode (fmt rows cols : Nat) (th : List Nat) : List Byte :=
  let col := fun c => (List.range rows).map fun i => val32 (th.getD (c * rows + i) 0)
  if isMx fmt then
    let bl := (List.range cols).map fun c => (blocks32 (col c)).map fun b => mxBlock fmt true b none
    (bl.flatMap fun c => packElems fmt (c.flatMap (·.2))) ++ (bl.flatMap fun c => c.map fun b => BitVec.ofNat 8 b.1)
  else
    (List.range cols).flatMap fun c =>
      slice (packElems fmt ((col c).map (encElem fmt true none))) 0 (colBytes fmt rows)

/-- Run the optimizer on one home weight billet with its gradient at `gloc` and write fresh circulating weights. -/
def State.optBillet (s : State) (p : Nat) (j : LapJob) (b g : BRec) (gloc : Nat) : State :=
  let n := b.elems
  let o1 := b.homeSrc + roundUp b.len 64
  let part := roundUp (4 * n) 64
  let pay := s.readHearth p gloc g.len
  let rd := fun o e => leVal (s.readHearth p (o + 4 * e) 4)
  let res := (List.range n).map fun e =>
    optElem j (rnd32 (g.elemVal pay e)) (rd o1 e) (rd (o1 + part) e) (rd (o1 + 2 * part) e)
  let th := res.map (·.1)
  let s := s.writeHearth p o1 (th.flatMap (leBytes 4))
  let s := s.writeHearth p (o1 + part) (res.flatMap fun x => leBytes 4 x.2.1)
  let s := s.writeHearth p (o1 + 2 * part) (res.flatMap fun x => leBytes 4 x.2.2)
  s.each (List.range b.tiles) fun s t =>
    s.writeHearth p (b.homeSrc + b.tileOff t) (tileEncode b.format b.rows b.cols (th.drop (t * b.rows * b.cols)))

/-- Address of record `n` in the gradient hold: behind the home's earlier gradient billets (R60). -/
def Plan.holdAddr (p : Plan) (n : Nat) : Nat :=
  p.holdBase + ((p.billets.take n).filter fun b => b.kind == 2 && b.home == p.self).foldl (fun o b => o + b.len) 0

/-- Apply COMMIT at a member (R46 step 7, R383): the optimizer at its homes, once, for every gradient held. -/
def State.applyCommit (s : State) (p r : Nat) : State :=
  let l := s.lap p r
  match l.job with
  | none => s
  | some j =>
    let s := s.modLap p r fun l => { l with decision := 1, aborted := none }
    if j.rehome then s
    else
      s.each (List.range j.plan.billets.length) fun s i =>
        match j.plan.billets[i]? with
        | none => s
        | some g =>
          if g.kind == 2 && g.home == j.plan.self && (l.entry i).st == .held then
            match j.plan.billets.find? fun b => b.id == g.gradOf && b.kind == 1 with
            | some b => s.optBillet p j b g (j.plan.holdAddr i)
            | none => s
          else s

/-- Commit and close the epoch; the lap-start packet completes with DONE (R46). In PARK the decision stands and its window is over, and
the rest is deferred (R412). -/
def State.commitLap (s : State) (p r : Nat) : State :=
  if s.parked then s.modLap p r fun l => { l with deferred := true, decision := 1, window := false, inDoubt := false }
  else
    let l := s.lap p r
    (((s.applyCommit p r).lapDone p r 0).closeLap p r).resolved l

/-- Members that lie on the way of an optimizer billet from its old home to its new one (R383). -/
def Plan.onWay (p : Plan) (b : BRec) : Bool :=
  let n := p.members.length
  let at_ := fun a => (p.members.idxOf? a).getD 0
  let o := at_ b.gradOf
  decide ((p.position + n - o) % n ≤ (at_ b.home + n - o) % n)

/-- A rehome record whose old home is its new one: nothing moves. -/
def BRec.stays (b : BRec) : Bool := b.kind == 3 && b.gradOf == b.home

/-- Every billet homed here is retired, or held at home if it is a gradient or a rehomed optimizer billet, and no retained
copy remains (R46 step 5). -/
def State.preparedNow (s : State) (p r : Nat) : Bool :=
  let l := s.lap p r
  match l.job with
  | none => false
  | some j =>
    (List.range j.plan.billets.length).all fun i =>
      match j.plan.billets[i]? with
      | none => true
      | some b =>
        let st := (l.entry i).st
        st != .onWire && (b.home != j.plan.self || st == .retired || (b.kind != 1 && st == .held) || b.stays)

/-- Phase BACKWARD once every forward billet has been processed here (R46 step 4). -/
def State.phaseSettle (s : State) (p r : Nat) : State :=
  let l := s.lap p r
  match l.job with
  | none => s
  | some j =>
    if l.phase == .forward && (List.range j.plan.billets.length).all fun i =>
        match j.plan.billets[i]? with
        | none => true
        | some b => b.kind == 2 || (l.entry i).st == .onWire || (l.entry i).st == .passed || (l.entry i).st == .retired
          || (b.kind == 3 && ((b.home == j.plan.self && (l.entry i).st == .held) || !j.plan.onWay b)) || b.stays
    then s.setLap p r { l with phase := .backward } else s

/-- Forward PREPARE from a prepared member, or send it from the leader; the commit window starts (R46, R50). -/
def State.sendPrepare (s : State) (p r : Nat) : State :=
  let l := s.lap p r
  match l.job with
  | none => s
  | some j =>
    if l.phase == .prepared && !l.prepSent && (l.leader || l.prepare) then
      (s.setLap p r { l with prepSent := true, window := true, prepare := false }).sendToken p r j.plan 0x11 j.plan.succ
    else s

end Sys2Proof.Machine
end

