-- ==== Sys2Proof/Machine/Recording.lean ====
section
/-! DEFINITION. The event recorder below its commands (R472 to R492): code configuration, buckets, limits, the books of
its slots, notices, persistence and clearing. -/
namespace Sys2Proof.Machine

/-- Replace the recorder. -/
def State.setEvr (s : State) (f : Evr → Evr) : State := { s with evr := f s.evr }

/-- PF notice vector (R299, R508). -/
def State.noticePf (s : State) : State := s.enq 8 [.msg 0 63]

/-- Notice vector of partition `p`'s VF, when the VF exists (R299, R338). -/
def State.noticeVf (s : State) (p : Nat) : State := if s.vfExists p then s.enq p [.msg (p + 1) 31] else s

/-- Configuration word of a code; a code of no row is not recorded. -/
def State.codeCfg (s : State) (code : Nat) : Word :=
  match codeIndex code with
  | some i => s.reg (adrEvrCodeCfg i)
  | none => 0

/-- Reserved slots of partition `p` (R485). -/
def State.partRecs (s : State) (p : Nat) : Nat := (s.evr.slots.filter fun (_, r) => r.part == p).length

/-- ARCHIVED of a record's FLAGS. -/
def Rec.archived (r : Rec) : Bool := bitAt r.flags 4

/-- The lowest VALID record that lacks ARCHIVED (R490). -/
def State.unarchived (s : State) : Option (Nat × Rec) := s.evr.slots.find? fun (_, r) => !r.archived

/-- Start persistence, or join the one running (R490): 0 a PERSIST code, 1 PARK, 2 a request; packets wait for the mark. -/
def State.startPersist (s : State) (trig : Nat) (pkts : List Nat) : State :=
  s.setEvr fun e => { e with persist := some (match e.persist with
    | none => ⟨trig, 2 ^ trig, 0, pkts⟩
    | some x => { x with trigs := Nat.lor x.trigs (2 ^ trig), pkts := x.pkts ++ pkts }) }

/-- REPEAT of a record raised by one (R483). -/
def Rec.again (r : Rec) : Rec :=
  if r.rep ≥ 65535 then { r with flags := putBits r.flags 3 3 1 } else { r with rep := r.rep + 1 }

/-- An event coalesces with the last reserved record (R483). -/
def State.coalesces (s : State) (e : Ev) : Option (Nat × Rec) :=
  match s.evr.last with
  | none => none
  | some (i, t) =>
    match tfind s.evr.slots i with
    | none => none
    | some r =>
      if fld (s.codeCfg e.code) 7 7 == 1 && r.code == e.code && r.src == e.src && r.part == e.part
          && decide (e.t ≤ t + msCycles (s.rf adrEvrCfg 9 0)) then some (i, r) else none

/-- Tokens left in the bucket of a code (R484). -/
def State.tokens (s : State) (code : Nat) : Nat := fld (s.codeCfg code) 25 20 - tget 0 s.evr.spent code

/-- The limit notice of partition `p`, once until a clear or a write of the limit (R486). -/
def State.limitNotice (s : State) (p : Nat) : State :=
  if s.evr.limSent.contains p then s
  else (s.setEvr fun e => { e with limSent := insNat e.limSent p }).noticeVf p

/-- A record is refused: no slot is free, or its partition is at its limit (R485). -/
def State.refused (s : State) (p : Nat) : Bool :=
  decide (s.evr.next ≥ 4096) || (decide (p < 8) && decide (s.partRecs p ≥ s.rf (adrEvrPartLimit p) 12 0))

/-- A refused record is lost and counted (R485); a limit met without a reservation is noticed here (R486). -/
def State.loseRecord (s : State) (p : Nat) : State :=
  let s := s.bump adrEvrOverflow
  if p < 8 then
    let s := s.bump (adrEvrPartOverflow p)
    if s.partRecs p ≥ s.rf (adrEvrPartLimit p) 12 0 then s.limitNotice p else s
  else s

/-- The notices of a reservation (R486): HIGH_WATER, no free slot, and a partition's limit. -/
def State.slotNotices (s : State) (p : Nat) : State :=
  let s :=
    if s.evr.next ≥ s.rf adrEvrCfg 22 10 && !s.evr.hwSent then (s.setEvr fun e => { e with hwSent := true }).noticePf else s
  let s := if s.evr.next == 4096 then s.noticePf else s
  if p < 8 && decide (s.partRecs p ≥ s.rf (adrEvrPartLimit p) 12 0) then s.limitNotice p else s

/-- Store a complete record in the next slot, with its notices and its persistence (R482 steps 5 to 7, R486, R490). -/
def State.storeRecord (s : State) (e : Ev) (snap : List (Nat × Nat)) : State :=
  let cfg := s.codeCfg e.code
  let flags := e.fl + 4 * b2n (s.evr.supp.contains e.code)
  let r : Rec := ⟨e.code, e.src, e.part, e.mt, 1, flags, snap⟩
  let i := s.evr.next
  let s := s.setEvr fun v => { v with
    slots := tput v.slots i r, next := i + 1, last := some (i, e.t), supp := v.supp.filter (· != e.code),
    spent := tset 0 v.spent e.code (tget 0 v.spent e.code + 1) }
  let s := s.slotNotices e.part
  let s := if fld cfg 9 9 == 1 then (if e.part < 8 then s.noticePf.noticeVf e.part else s.noticePf) else s
  if fld cfg 8 8 == 1 then s.startPersist 0 [] else s

/-- Clear the recorder (R489): slots, counters, buckets, no last record; notices may be sent again. -/
def State.clearRecorder (s : State) : State :=
  let s := s.setEvr fun e => { e with
    slots := [], next := 0, last := none, spent := [], hwSent := false, limSent := [] }
  let s := (s.setReg adrEvrOverflow 0).setReg adrEvrSuppressed 0
  s.each allParts fun s p => s.setReg (adrEvrPartOverflow p) 0

/-- A clear is refused while persistence runs or a VALID record lacks ARCHIVED, unless FORCE is set (R489). -/
def State.clearRefused (s : State) (force : Bool) : Bool :=
  !force && (s.evr.persist.isSome || s.unarchived.isSome)

end Sys2Proof.Machine
end

