-- ==== Sys2Proof/Machine/Gates.lean ====
section
/-! DEFINITION. PWL gate tables (R91 to R94): the preset tables, validity and evaluation, and the scan of R90. -/
namespace Sys2Proof.Machine

/-- The 68 words of preset table 0, sigmoid (R93), each coefficient the exact real value of R93's formula rounded once
to FP32. -/
def sigmoidWords : List Nat :=
  [0xC1000000, 0x41000000, 0x00000000, 0x3F800000, 0x39E3FD85, 0x3B798642, 0x3A3BD687, 0x3BC1D8B4,
   0x3A9AB306, 0x3C15FCF9, 0x3AFEA84C, 0x3C6702C2, 0x3B5163B2, 0x3CB0E492, 0x3BABE1D3, 0x3D06825C,
   0x3C0CB574, 0x3D4AC2FA, 0x3C655A1C, 0x3D9713F7, 0x3CB990C6, 0x3DDDB65B, 0x3D146310, 0x3E1F51F0,
   0x3D68EADF, 0x3E5E747F, 0x3DB18A42, 0x3E953E44, 0x3E017ADA, 0x3EBDCDA4, 0x3E312F3F, 0x3EE186CC,
   0x3E5E6948, 0x3EF8488C, 0x3E7ACBF5, 0x3EFFC070, 0x3E7ACBF5, 0x3F001FC8, 0x3E5E6948, 0x3F03DBBA,
   0x3E312F3F, 0x3F0F3C9A, 0x3E017ADA, 0x3F21192E, 0x3DB18A42, 0x3F3560DE, 0x3D68EADF, 0x3F4862E0,
   0x3D146310, 0x3F582B84, 0x3CB990C6, 0x3F644935, 0x3C655A1C, 0x3F6D1D81, 0x3C0CB574, 0x3F7353D0,
   0x3BABE1D3, 0x3F7797DA, 0x3B5163B2, 0x3F7A78DB, 0x3AFEA84C, 0x3F7C63F5, 0x3A9AB306, 0x3F7DA80C,
   0x3A3BD687, 0x3F7E7C4F, 0x39E3FD85, 0x3F7F067A]

/-- The 68 words of preset table 1, tanh (R93). -/
def tanhWords : List Nat :=
  [0xC0800000, 0x40800000, 0xBF800000, 0x3F800000, 0x3AE3FD85, 0xBF7E0CF3, 0x3B3BD687, 0xBF7CF89D,
   0x3B9AB306, 0xBF7B5018, 0x3BFEA84C, 0xBF78C7EA, 0x3C5163B2, 0xBF74F1B7, 0x3CABE1D3, 0xBF6F2FB4,
   0x3D0CB574, 0xBF66A7A1, 0x3D655A1C, 0xBF5A3B02, 0x3DB990C6, 0xBF489269, 0x3E146310, 0xBF305708,
   0x3E68EADF, 0xBF10C5C1, 0x3EB18A42, 0xBED58378, 0x3F017ADA, 0xBE8464B8, 0x3F312F3F, 0xBDF3C9A2,
   0x3F5E6948, 0xBCF6EE79, 0x3F7ACBF5, 0xBA7E3ED2, 0x3F7ACBF5, 0x3A7E3ED2, 0x3F5E6948, 0x3CF6EE79,
   0x3F312F3F, 0x3DF3C9A2, 0x3F017ADA, 0x3E8464B8, 0x3EB18A42, 0x3ED58378, 0x3E68EADF, 0x3F10C5C1,
   0x3E146310, 0x3F305708, 0x3DB990C6, 0x3F489269, 0x3D655A1C, 0x3F5A3B02, 0x3D0CB574, 0x3F66A7A1,
   0x3CABE1D3, 0x3F6F2FB4, 0x3C5163B2, 0x3F74F1B7, 0x3BFEA84C, 0x3F78C7EA, 0x3B9AB306, 0x3F7B5018,
   0x3B3BD687, 0x3F7CF89D, 0x3AE3FD85, 0x3F7E0CF3]

/-- Preset of local table `i` (R93). -/
def presetTable : Nat → List Byte
  | 0 => sigmoidWords.flatMap (leBytes 4)
  | 1 => tanhWords.flatMap (leBytes 4)
  | _ => List.replicate 272 0

/-- Local gate table `i` of partition `p`. -/
def State.table (s : State) (p i : Nat) : List Byte := tget (presetTable i) (s.part p).tables i

/-- Replace local gate table `i` of partition `p`. -/
def State.setTable (s : State) (p i : Nat) (b : List Byte) : State :=
  s.modPart p fun q => { q with tables := tset (presetTable i) q.tables i b }

/-- A FP32 code is finite. -/
def isFinite (c : Nat) : Bool := c / 2 ^ 23 % 256 != 255

/-- 32 / (hi − lo), computed once when the table is loaded (R92). -/
def tableScale (b : List Byte) : Nat := fDiv 0x42000000 (fSub (u32 b 4) (u32 b 0))

/-- A table is valid (R91). -/
def tableValid (b : List Byte) : Bool :=
  isFinite (u32 b 0) && isFinite (u32 b 4) && ltX (val32 (u32 b 0)) (val32 (u32 b 4)) && isFinite (fSub (u32 b 4) (u32 b 0))
    && isFinite (tableScale b)

/-- floor of a non-negative finite FP32 value, at most 31. -/
def floor31 (c : Nat) : Nat :=
  match val32 c with
  | .fin false m e => min 31 (if 0 ≤ e then m * 2 ^ e.toNat else m / 2 ^ (-e).toNat)
  | _ => 0

/-- One PWL evaluation (R92). -/
def pwl (b : List Byte) (x : Nat) : Nat :=
  if isNan x then 0x7FC00000
  else if ltX (val32 x) (val32 (u32 b 0)) then u32 b 8
  else if ltX (val32 (u32 b 4)) (val32 x) then u32 b 0xC
  else
    let i := floor31 (fMul (fSub x (u32 b 0)) (tableScale b))
    fFma (u32 b (0x10 + 8 * i)) x (u32 b (0x14 + 8 * i))

/-- NaN inputs of a gate evaluation. -/
def nanCount (xs : List Nat) : Nat := (xs.filter isNan).length

/-- Count NaN inputs to gate tables in PWL_NAN and record 0x1205 once for the evaluation (R92, R547). -/
def State.notePwlNan (s : State) (p src n : Nat) : State :=
  if n == 0 then s else (s.bumpBy (adrPwlNan p) n).event 0x1205 src p

/-- Raise an operation's event once when its count is not zero (R547). -/
def State.onceEvent (s : State) (code src p n : Nat) : State := if n == 0 then s else s.event code src p

/-! The prefix of R90. -/

/-- One round of the prefix at distance `d` over one lane's pairs (A, B). -/
def scanRound (d : Nat) (ab : List (Nat × Nat)) : List (Nat × Nat) :=
  ab.zipIdx.map fun (x, k) =>
    if k < d then x else
    let y := ab.getD (k - d) (0, 0)
    (fMul x.1 y.1, fFma x.1 y.2 x.2)

/-- All rounds: d = 1, 2, 4, … while d < L. -/
def scanGo : Nat → Nat → List (Nat × Nat) → List (Nat × Nat)
  | 0, _, ab => ab
  | n + 1, d, ab => if d < ab.length then scanGo n (2 * d) (scanRound d ab) else ab

/-- States h[0] to h[L-1] of one lane from its pairs and the state before (R90). -/
def scanLane (h0 : Nat) (ab : List (Nat × Nat)) : List Nat := (scanGo 11 1 ab).map fun x => fFma x.1 h0 x.2

end Sys2Proof.Machine
end

