-- ==== Sys2Proof/Machine/Lightbank.lean ====
section
/-! DEFINITION. The lightbanks below their commands (R156 to R173): weight and input encoding, heater codes, placement
of blocks, fallback, sweeps and row rotation, products and their decoding. -/
namespace Sys2Proof.Machine

/-- Bank `b`. -/
def State.bank (s : State) (b : Nat) : Bank := tget {} s.banks b
/-- Replace bank `b`. -/
def State.setBank (s : State) (b : Nat) (x : Bank) : State := { s with banks := tset {} s.banks b x }
/-- Change bank `b`. -/
def State.modBank (s : State) (b : Nat) (f : Bank → Bank) : State := s.setBank b (f (s.bank b))

/-- Replace block `k` of bank `b`, keeping LBK_BLOCK1.FALLBACK in step with it. -/
def State.setBlock (s : State) (b k : Nat) (x : LBlock) : State :=
  (s.modBank b fun y => { y with blocks := tput y.blocks k x }).setRf (adrLbkBlock1 b k) 27 27 (b2n !x.why.isEmpty)

/-- An event of bank `b`; its PARTITION is the owner's. -/
def State.bankEvent (s : State) (code b : Nat) (det : List Nat) : State :=
  s.eventD code b ((s.bankOwner b).getD 0xFF) det

/-! Encoding (R156, R158). -/

/-- Magnitude of a BF16 code as an FP32 code. -/
def bf16Abs (c : Nat) : Nat := c % 0x8000 * 65536

/-- A BF16 code is finite. -/
def bf16Finite (c : Nat) : Bool := c / 128 % 256 != 255

/-- U / s × 127 rounded to nearest, ties to even (R158). -/
def weightCode (c srow : Nat) : Int :=
  match decFloat 0 c, val32 srow with
  | .fin n m e, .fin _ k g =>
    if k == 0 then 0 else
    let a := 127 * m * 2 ^ (e - g).toNat
    let d := k * 2 ^ (g - e).toNat
    let q := a / d
    let r := a % d
    sgn n (if 2 * r > d || (2 * r == d && q % 2 == 1) then q + 1 else q)
  | _, _ => 0

/-- The row scale s_row of a row of BF16 codes (R158). -/
def rowScale (us : List Nat) : Nat := us.foldl (fun m c => max m (bf16Abs c)) 0

/-- `n` weight codes that the manual does not give, each from a free value of its own within the range -127 to 127. -/
def State.freeCodes : Nat → State → List Int × State
  | 0, s => ([], s)
  | n + 1, s =>
    let (v, s) := s.free
    let (l, s) := State.freeCodes n s
    ((((v % 255 : Nat) : Int) - 127) :: l, s)

/-- The row scale and weight codes of one row (R158). A row with an element that is not finite has no stated encoding: its
codes are free, and so is its scale where an element is a NaN and none is the largest (log entry 21). -/
def State.encodeRow (s : State) (us : List Nat) : (Nat × List Int) × State :=
  if us.all bf16Finite then ((rowScale us, us.map fun c => weightCode c (rowScale us)), s)
  else
    let (v, s) := s.free
    let (q, s) := s.freeCodes us.length
    ((if us.any fun c => decide (0x7F80 < c % 0x8000) then v % 2 ^ 31 else rowScale us, q), s)

/-- Largest magnitude of a state vector, as an FP32 code. -/
def stateMax (h : List Nat) : Nat := h.foldl (fun m c => max m (c % 2 ^ 31)) 0

/-- e = ceil(log2(amax)) (R156). -/
def ceilLog2 (c : Nat) : Int :=
  match val32 c with
  | .fin _ m e => if m == 2 ^ Nat.log2 m then e + (Nat.log2 m : Nat) else e + (Nat.log2 m : Nat) + 1
  | _ => 0

/-- Drive m_k of one input (R156). -/
def driveOf (e : Int) (mmax c : Nat) : Int :=
  match val32 c with
  | .fin n m g => sgn n (roundQ (m * mmax) (g - e) 0)
  | _ => 0

/-- The drives of all inputs at a DAC width (R156). -/
def drives (bits : Nat) (h : List Nat) : List Int := h.map (driveOf (ceilLog2 (stateMax h)) (2 ^ (bits - 1) - 1))

/-! Heater codes (R159, R160). -/

/-- Linear interpolation between two codes at distance `x` of `n`, in units of 1/n. -/
def lerp (a b x n : Nat) : Int := (a : Int) * ((n - x : Nat) : Int) + (b : Int) * (x : Int)

/-- What a refit measured (R166): the `i`-th value from where the stream of free values stood. -/
def refitWord (base i : Nat) : Nat := (Config.freeWord (base + i)).toNat % 65536

/-- Table point of weight point `i` and temperature point `j` for resonator `k` of row `r` (R159): as the last refit left it, else as
the calibration store gave it. DESIGN CHOICE (log entry 83): the store lists a bank's points by row, resonator, weight point and
temperature point. -/
def heaterAt (x : Bank) (r k i j : Nat) : Nat :=
  match tfind x.refits (8 * r + j) with
  | some n => refitWord n (17 * k + i)
  | none => u16 x.tables (2 * (((r * 64 + k) * 17 + i) * 7 + j))

/-- Crosstalk coefficient `m` (0 to 5 for the neighbours at -3, -2, -1, 1, 2 and 3) of resonator `k` of row `r`, Q1.15 (R160). -/
def crosstalkAt (x : Bank) (r k m : Nat) : Nat :=
  match tfind x.refits (8 * r + 7) with
  | some n => refitWord n (6 * k + m)
  | none => u16 x.xtalk (2 * ((r * 64 + k) * 6 + m))

/-- The temperature tables of a bank as they stand, as LBK_TABLES holds them (R159, R463). -/
def tableBytes (x : Bank) : List Byte :=
  (List.range 517888).flatMap fun n => leBytes 2 (heaterAt x (n / 7616) (n / 119 % 64) (n / 7 % 17) (n % 7))

/-- The crosstalk coefficients of a bank as they stand, as LBK_XTALK holds them (R160, R463). -/
def xtalkBytes (x : Bank) : List Byte := (List.range 26112).flatMap fun n => leBytes 2 (crosstalkAt x (n / 384) (n / 6 % 64) (n % 6))

/-- The heater code of weight `q` at temperature `t` (0.01 °C), bilinear, q first and then T (R159), rounded down; outside 40 to 70 °C the
outermost two temperatures are continued (R162). -/
def heaterCode (x : Bank) (r k : Nat) (q : Int) (t : Nat) : Int :=
  let qi := min 15 ((q + 128) / 16).toNat
  let u := ((q + 128) - 16 * (qi : Int)).toNat
  let tj := min 5 ((t - 4000) / 500)
  let y : Int := (t : Int) - 4000 - 500 * (tj : Int)
  let lo := lerp (heaterAt x r k qi tj) (heaterAt x r k (qi + 1) tj) u 16
  let hi := lerp (heaterAt x r k qi (tj + 1)) (heaterAt x r k (qi + 1) (tj + 1)) u 16
  (lo * (500 - y) + hi * y) / 8000

/-- The corrected drives of a row's 64 resonators for weights `q` (R160), in units of 2^-15 of a code. -/
def rowDrives (x : Bank) (r : Nat) (q : List Int) (t : Nat) : List Int :=
  let d := (List.range 64).map fun k => heaterCode x r k (q.getD k 0) t
  (List.range 64).map fun k =>
    ([-3, -2, -1, 1, 2, 3] : List Int).zipIdx.foldl (fun v (j, m) =>
      let n := (k : Int) + j
      if 0 ≤ n && n ≤ 63 then v - sext 16 (crosstalkAt x r k m) * d.getD n.toNat 0 else v) (32768 * d.getD k 0)

/-- Program row `r` with weights (R158, R160): all its drives are applied in one update. -/
def Bank.driveRow (x : Bank) (r : Nat) (q : List Int) : Bank :=
  { x with prog := tput x.prog r q, drive := tput x.drive r (rowDrives x r q x.codeTemp) }

/-- Row `r` is driven with probe weights, which the manual does not give: no programmed weights stand in it (R166 step 4). -/
def Bank.probeRow (x : Bank) (r : Nat) : Bank := { x with prog := tdel x.prog r, drive := tdel x.drive r }

/-- Every heater code of the bank is computed anew for temperature `t`, and all are applied together (R161). -/
def Bank.redrive (x : Bank) (t : Nat) : Bank :=
  { x with codeTemp := t, drive := x.prog.map fun (r, q) => (r, rowDrives x r q t) }

/-- Temperature points that a refit at temperature `t` measures: those that the codes at `t` come from. -/
def refitPoints (t : Nat) : List Nat :=
  let j := min 5 ((t - 4000) / 500)
  let y := t - 4000 - 500 * j
  (if y < 500 then [j] else []) ++ (if 0 < y then [j + 1] else [])

/-- The refit of row `r` (R166 step 4): its table points at the present temperature and its crosstalk coefficients are measured
anew, and are free values. -/
def State.refitRow (s : State) (b r : Nat) : State :=
  let pts := refitPoints (s.rf (adrLbkStatus b) 31 16)
  let n := s.freeCtr
  let m := pts.zipIdx.foldl (fun m (j, i) => tput m (8 * r + j) (n + 1088 * i)) (s.bank b).refits
  { s.modBank b fun x => { x with refits := tput m (8 * r + 7) (n + 1088 * pts.length) } with
    freeCtr := n + 1088 * pts.length + 384 }

/-! Placement (R69). -/

/-- A block of a layer: bank, first input, inputs, offset of its inputs, first row, rows, offset of its rows. -/
abbrev Place := Nat × Nat × Nat × Nat × Nat × Nat × Nat

/-- Blocks that a lightbank layer takes (R69). DEDUCED (log entry 25): a split fills bank 0 up to 64. -/
def placeLayer (l : LayerRec) : Option (List Place) :=
  let ib := l.bankIn
  let rb := l.bankRow
  if l.recur == 1 || l.recur == 2 then
    if l.w ≤ 64 && l.r ≤ 64 then some [(l.recur - 1, ib, l.w, 0, rb, l.r, 0)] else none
  else if l.w ≤ 64 && 64 < l.r && l.r ≤ 128 then
    some [(0, ib, l.w, 0, rb, 64 - rb, 0), (1, ib, l.w, 0, rb, l.r - (64 - rb), 64 - rb)]
  else if l.r ≤ 64 && 64 < l.w && l.w ≤ 128 then
    some [(0, ib, 64 - ib, 0, rb, l.r, 0), (1, ib, l.w - (64 - ib), 64 - ib, rb, l.r, 0)]
  else none

/-- A range lies within 0 to 63. -/
def within64 (base n : Nat) : Bool := decide (1 ≤ n) && decide (base + n ≤ 64)

/-- Two ranges share no number. -/
def disjoint (a n b m : Nat) : Bool := decide (a + n ≤ b) || decide (b + m ≤ a)

/-- Placements of one bank do not overlap in inputs or rows, and each lies within the bank (R69). -/
def placesFit : List Place → Bool
  | [] => true
  | (b, ib, ic, _, rb, rc, _) :: t =>
    within64 ib ic && within64 rb rc
      && t.all (fun (b', ib', ic', _, rb', rc', _) => b != b' || (disjoint ib ic ib' ic' && disjoint rb rc rb' rc'))
      && placesFit t

/-- Placements already on a bank, of blocks of partition `p`. -/
def State.placed (s : State) : List Place :=
  [0, 1].flatMap fun b => (s.bank b).blocks.map fun (k, x) =>
    (b, s.rf (adrLbkBlock0 b k) 5 0, x.inCnt, x.inOff, s.rf (adrLbkBlock0 b k) 19 14, x.rowCnt, x.rowOff)

/-- The blocks of a layer, bank 0 first. -/
def State.layerBlocks (s : State) (p line layer : Nat) : List (Nat × Nat × LBlock) :=
  [0, 1].flatMap fun b => ((s.bank b).blocks.filter fun (_, x) => x.part == p && x.line == line && x.layer == layer).map
    fun (k, x) => (b, k, x)

/-! Fallback (R162, R168, R169, R173). -/

/-- Give block `k` of bank `b` a reason for fallback; its move to fallback records 0x1402. A reason that arises again is not lifted by
a sweep that started before. -/
def State.blockFall (s : State) (b k reason : Nat) : State :=
  match tfind (s.bank b).blocks k with
  | none => s
  | some x =>
    if x.why.contains reason then s.setBlock b k { x with mark := x.mark.filter (· != reason) }
    else
      let s := s.setBlock b k { x with why := x.why ++ [reason] }
      if x.why.isEmpty then s.bankEvent 0x1402 b [k] else s

/-- Lift reasons from block `k` of bank `b`. -/
def State.blockLift (s : State) (b k : Nat) (reasons : List Nat) : State :=
  match tfind (s.bank b).blocks k with
  | none => s
  | some x =>
    let again := (x.why.contains 2 && reasons.contains 2) || (x.why.contains 3 && reasons.contains 3)
    s.setBlock b k { x with why := x.why.filter fun r => !reasons.contains r, check := x.check || again,
                            divs := if reasons.contains 2 then 0 else x.divs,
                            released := x.released && !reasons.contains 3 }

/-- Every block of a bank takes a reason. -/
def State.bankFall (s : State) (b reason : Nat) : State :=
  s.each (s.bank b).blocks fun s (k, _) => s.blockFall b k reason

/-! Rows (R166, R168). -/

/-- Health of physical row `r`: 0 active, 1 spare, 2 under calibration, 3 failed. -/
def State.rowHealth (s : State) (b r : Nat) : Nat := s.rf (adrLbkRowHealth b r) 1 0
/-- Set the health of a physical row. -/
def State.setHealth (s : State) (b r h : Nat) : State := s.setRf (adrLbkRowHealth b r) 1 0 h
/-- Physical row that carries logical row `l`. -/
def State.physRow (s : State) (b l : Nat) : Nat := s.rf (adrLbkRowMap b l) 6 0
/-- Logical row that a physical row carries. -/
def State.logicalRow (s : State) (b r : Nat) : Option Nat := (List.range 64).find? fun l => s.physRow b l == r
/-- Healthy spares. -/
def State.spares (s : State) (b : Nat) : List Nat := (List.range 68).filter fun r => s.rowHealth b r == 1
/-- Failed rows. -/
def State.failedRows (s : State) (b : Nat) : Nat := ((List.range 68).filter fun r => s.rowHealth b r == 3).length

/-- Blocks whose rows hold logical row `l`. -/
def State.blocksOfRow (s : State) (b l : Nat) : List Nat :=
  ((s.bank b).blocks.filter fun (k, x) =>
    decide (s.rf (adrLbkBlock0 b k) 19 14 ≤ l) && decide (l < s.rf (adrLbkBlock0 b k) 19 14 + x.rowCnt)).map (·.1)

/-- Blocks that use input `k` of a bank. -/
def State.blocksOfInput (s : State) (b k : Nat) : List Nat :=
  ((s.bank b).blocks.filter fun (j, x) =>
    decide (s.rf (adrLbkBlock0 b j) 5 0 ≤ k) && decide (k < s.rf (adrLbkBlock0 b j) 5 0 + x.inCnt)).map (·.1)

/-- A logical row of block `k` lies on a failed physical row. -/
def State.blockHasFailed (s : State) (b k : Nat) : Bool :=
  (List.range 64).any fun l => (s.blocksOfRow b l).contains k && s.rowHealth b (s.physRow b l) == 3

/-- LBK_SWEEP packets complete with the failed rows and the fallback of the bank as it is (R389). -/
def State.sweepDone (s : State) (b : Nat) : State :=
  let pk := (s.bank b).sweepPkts
  let s := s.modBank b fun x => { x with sweepPkts := [] }
  let fb := (s.bank b).blocks.any fun (_, x) => !x.why.isEmpty
  s.each pk fun s k => s.complete k (b2n fb) (if fb then 3 else 0) (leBytes 1 (s.failedRows b))

/-- A row failed: with no healthy spare left, 0x1404 and no more sweeps (R168); a sweep in progress ends here and lifts
nothing, and only a fit that runs comes to its end. -/
def State.spareCheck (s : State) (b : Nat) : State :=
  if (s.spares b).isEmpty then
    let s := s.bankEvent 0x1404 b []
    if (s.bank b).stopped then s
    else
      (s.modBank b fun x => { x with
        stopped := true, sweep := none, rot := x.rot.filter fun (r : Rot) => decide (r.phase = RotPhase.fitting),
        blocks := x.blocks.map fun (k, y) => (k, { y with mark := [] }) }).sweepDone b
  else s

/-- A rotation stops with its bank's owner reset (the chapter's Edges): a row that was being fitted is a spare as before. -/
def State.stopRotation (s : State) (b : Nat) : State :=
  let s := match (s.bank b).rot with
    | some r => if r.phase == RotPhase.fitting then s.setHealth b r.spare 1 else s
    | none => s
  s.modBank b fun x => { x with rot := none, sweep := none, sweepPkts := [], prio := [] }

/-- Reasons that a sweep starting now would lift at its end. -/
def State.liftable (s : State) (b : Nat) (x : LBlock) : List Nat :=
  x.why.filter fun r => (r == 0 && !(s.bank b).hot) || (r == 1 && !(s.bank b).laserLost) || r == 2 || (r == 3 && x.released)
    || r == 6 || r == 7 || (r == 9 && s.railGood 5 && s.railGood 6)

/-- End of a sweep (R166, R173, R389): blocks whose reasons it lifts return to analog, and LBK_SWEEP packets complete. -/
def State.sweepEnd (s : State) (b : Nat) : State :=
  let s := s.each (s.bank b).blocks fun s (k, x) =>
    let bad := s.blockHasFailed b k
    s.blockLift b k (x.mark.filter fun r => !(bad && (r == 2 || r == 7)))
  (s.modBank b fun x => { x with
    sweep := none, rot := none, swept := true, owes := x.owes.filter fun r => (r == 0 && x.hot) || (r == 1 && x.laserLost) }).sweepDone b

/-- The 64 weights of logical row `l` of a bank: those of its block at the block's inputs, and zero elsewhere. -/
def State.rowWeights (s : State) (b l : Nat) : List Int :=
  match (s.blocksOfRow b l).head?.bind fun k => (tfind (s.bank b).blocks k).map fun x => (k, x) with
  | none => List.replicate 64 0
  | some (k, x) =>
    let ib := s.rf (adrLbkBlock0 b k) 5 0
    let q := x.q.getD (l - s.rf (adrLbkBlock0 b k) 19 14) []
    (List.range 64).map fun j => if ib ≤ j then q.getD (j - ib) 0 else 0

/-- Program physical row `r` with the weights of logical row `l` (R159, R160). -/
def State.programRow (s : State) (b r l : Nat) : State :=
  let q := s.rowWeights b l
  s.modBank b fun x => x.driveRow r q

/-- A rotation of active row `r` begins (R166 step 1): spare `sp` is programmed with its logical row's weights. -/
def State.rotate (s : State) (b r sp : Nat) : State :=
  let s := match s.logicalRow b r with
    | some l => s.programRow b sp l
    | none => s
  s.modBank b fun x => { x with rot := some ⟨r, sp, .settling, false⟩ }

/-- Begin the visit of physical row `r` (R166): a rotation for an active row, a refit alone for a spare. -/
def State.visitRow (s : State) (b r : Nat) : State :=
  if s.rowHealth b r == 0 then
    match s.spares b with
    | [] => s
    | sp :: _ => s.rotate b r sp
  else (s.setHealth b r 2).modBank b fun x => { x.probeRow r with rot := some ⟨r, r, .fitting, false⟩ }

/-- The next visit of the sweep (R166, R172): a row to recalibrate first, else the next row that has not failed. -/
def State.nextVisit : Nat → State → Nat → State
  | 0, s, _ => s
  | n + 1, s, b =>
    let x := s.bank b
    if x.rot.isSome then s else
    match x.prio with
    | r :: rest =>
      let s := s.setBank b { x with prio := rest }
      State.nextVisit n (if s.rowHealth b r == 0 || s.rowHealth b r == 1 then s.visitRow b r else s) b
    | [] =>
      match x.sweep with
      | none => s
      | some r =>
        if r ≥ 68 then s.sweepEnd b
        else
          let s := s.setBank b { x with sweep := some (r + 1) }
          State.nextVisit n (if s.rowHealth b r == 0 || s.rowHealth b r == 1 then s.visitRow b r else s) b

/-- Start a sweep of bank `b`, unless sweeps have stopped (R166, R168). -/
def State.startSweep (s : State) (b : Nat) : State :=
  if (s.bank b).stopped then s
  else
    let s := s.modBank b fun x => { x with sweep := some 0, blocks := x.blocks.map fun (k, y) => (k, { y with mark := s.liftable b y }) }
    s.nextVisit 80 b

/-! Programming a layer (R158, R166) and clearing. -/

/-- Lowest block number not in use on a bank. -/
def State.freeBlock (s : State) (b : Nat) : Nat :=
  ((List.range 16).find? fun k => (tfind (s.bank b).blocks k).isNone).getD 15

/-- The reasons for fallback that a block with these inputs and rows meets when it is programmed (R162, R168, R169, R246). -/
def State.bankWhy (s : State) (b ib ic rb rc : Nat) : List Nat :=
  let x := s.bank b
  let phys := (List.range rc).map fun i => s.physRow b (rb + i)
  ([(0, x.hot || x.owes.contains 0), (1, x.laserLost || x.owes.contains 1), (4, x.badInputs.any fun i => decide (ib ≤ i) && decide (i < ib + ic)),
    (5, phys.any x.settling.contains), (6, x.stale), (7, phys.any fun r => s.rowHealth b r == 3), (8, x.dead),
    (9, !(s.railGood 5 && s.railGood 6)), (10, s.level 5 == 2 || s.level 5 == 3)].filter (·.2)).map (·.1)

/-- Program one block of a layer, and the physical rows that carry it (R158, R160). -/
def State.programBlock (s : State) (p line li : Nat) (l : LayerRec) : Place → State
  | (b, ib, ic, io, rb, rc, ro) =>
    let k := s.freeBlock b
    let rows := (List.range rc).map fun r => ((l.uCodes.drop ((ro + r) * l.w)).drop io).take ic
    let (enc, s) := rows.foldl (fun (a : List (Nat × List Int) × State) us => let (x, s) := a.2.encodeRow us; (a.1 ++ [x], s)) ([], s)
    let x := s.bank b
    let why := s.bankWhy b ib ic rb rc
    let s := s.setBlock b k { part := p, line := line, layer := li, inOff := io, inCnt := ic, rowOff := ro, rowCnt := rc,
                              q := enc.map (·.2), sRow := enc.map (·.1), why := why }
    let s := s.setReg (adrLbkBlock0 b k) (BitVec.ofNat 32 (ib + ic * 128 + rb * 16384 + rc * 2 ^ 21 + l.dacBits * 2 ^ 28))
    let s := s.setReg (adrLbkBlock1 b k) (BitVec.ofNat 32 (l.shadowN % 2 ^ 17 + l.divThresh % 1024 * 2 ^ 17 + 2 ^ 28))
    s.each (List.range rc) fun s i => s.programRow b (s.physRow b (rb + i)) (rb + i)

/-- Program the lightbank blocks of a layer and start a sweep of its banks (R166). -/
def State.programLayer (s : State) (p line li : Nat) (l : LayerRec) : State :=
  match placeLayer l with
  | none => s
  | some pl => (s.each pl fun s x => s.programBlock p line li l x).each (pl.map (·.1)) fun s b => s.startSweep b

/-- Remove the blocks that `sel` selects from both banks. -/
def State.clearBlocks (s : State) (sel : LBlock → Bool) : State :=
  s.each [0, 1] fun s b => s.each (s.bank b).blocks fun s (k, x) =>
    if sel x then
      ((s.modBank b fun y => { y with blocks := tdel y.blocks k }).setReg (adrLbkBlock0 b k)
        (resetWord (adrLbkBlock0 b k))).setReg (adrLbkBlock1 b k) (resetWord (adrLbkBlock1 b k))
    else s

/-! Products (R156, R157, R163, R170, R171). -/

/-- The digital value of a recurrent term (R170): a BF16 by BF16 pass of U and the state, in ranges of 512 inputs (R119); `sat` is
SAT of the state's conversion (R122). -/
def digitalTerm (l : LayerRec) (sat : Bool) (h : List Nat) : List Nat :=
  let x : OpVec := ⟨h.map fun c => decFloat 0 (encFloat 0 sat none (val32 c)), []⟩
  (List.range l.r).map fun r =>
    projMerge 0 0 (projParts 0 0 ⟨((l.uCodes.drop (r * l.w)).take l.w).map (decFloat 0), []⟩ x)

/-! The shadow's regions (R170). -/

/-- The region that holds U of a layer: it has no REGION number of a packet. -/
def shadowRegion (l : LayerRec) (rb cb : Nat) : Region :=
  { id := 16, fmt := 0, paired := false, rowBase := rb, rows := l.w, colBase := cb, cols := l.r,
    tile := l.uCodes.flatMap (leBytes 2), tile2 := [] }

/-- A place for U of a layer that is free in both weight buffers of its shadow anvil, beside 15 other regions at most. DESIGN CHOICE (log
entry 84): the manual gives neither the place nor the number of these regions. -/
def Anvil.shadowPlace (v : Anvil) (l : LayerRec) : Option Region :=
  let rs := v.buf0.regions ++ v.buf1.regions ++ v.shadow.map fun x => x.2.2
  let ys := 0 :: rs.map fun r => r.rowBase + r.rows
  let xs := 0 :: rs.map fun r => let (a, n) := cellSpan r.fmt r.colBase r.cols; (a + n + 1) / 2
  if max v.buf0.regions.length v.buf1.regions.length + v.shadow.length ≥ 16 then none
  else ((ys.flatMap fun y => xs.map fun x => shadowRegion l y x).find? fun r =>
    decide (r.rowBase + r.rows ≤ 512) && decide (r.colBase + r.cols ≤ 256) && !rs.any r.overlaps)

/-- Room on the anvils for U of every layer of a list that runs on the lightbanks. -/
def shadowsFit (an : Nat → Anvil) : List LayerRec → Bool
  | [] => true
  | l :: t =>
    match (an l.shadowAnvil).shadowPlace l with
    | none => false
    | some r => shadowsFit (fun a => if a == l.shadowAnvil then { an a with shadow := (an a).shadow ++ [(0, 0, r)] } else an a) t

/-- m × 2^e / 127² rounded once to FP32. -/
def div16129 (n : Bool) (m : Nat) (e : Int) : Nat :=
  let t := m * 2 ^ 64
  rnd32 (.fin n (t / 16129 * 2 + b2n (t % 16129 != 0)) (e - 65))

/-- y_r of one row from its clamped code (R163), rounded once; a row of zero weights gives +0 (R158). -/
def rowValue (c : Int) (q : List Int) (srow : Nat) (e : Int) : Nat :=
  match val32 srow with
  | .fin _ m g => if m == 0 then 0 else div16129 (decide (c < 0)) (c.natAbs * (q.foldl (fun n x => n + x.natAbs) 0) * m) (g + e)
  | _ => 0

/-- Clamp an ADC result to ±127 (R163). -/
def clampAdc (c : Int) : Int := if c > 127 then 127 else if c < -127 then -127 else c

/-- The rows of one block from its ADC codes. -/
def blockRows (x : LBlock) (e : Int) (codes : List Int) : List Nat :=
  (List.range x.rowCnt).map fun r => rowValue (clampAdc (codes.getD r 0)) (x.q.getD r []) (x.sRow.getD r 0) e

/-- The recurrent term from the blocks' rows (R69, R163): rows concatenated, or partial rows added, bank 0 first. -/
def joinRows (bs : List LBlock) (e : Int) (c0 c1 : List Int) : List Nat :=
  match bs with
  | [x] => blockRows x e (if c0.isEmpty then c1 else c0)
  | [x, y] =>
    let a := blockRows x e c0
    let b := blockRows y e c1
    if y.rowOff > 0 then a ++ b else (a.zip b).map fun (u, v) => fAdd u v
  | _ => []

/-- Row scales of a layer's rows; with split inputs the larger of the two (log entry 25). -/
def joinScales (bs : List LBlock) : List Nat :=
  match bs with
  | [x] => x.sRow
  | [x, y] => if y.rowOff > 0 then x.sRow ++ y.sRow else (x.sRow.zip y.sRow).map fun (a, b) => max a b
  | _ => []

/-- ε_b of R164 for a DAC width, in units of 1/10,000. -/
def epsBound : Nat → Nat
  | 4 => 950
  | 5 => 569
  | 6 => 397
  | 7 => 315
  | _ => 275

/-- What R164 says of a row of a healthy bank: its analog value lies within ε_b × S_r of the exact product of its weights and the
state. The command takes every ADC code, since the shadow check is there for the banks of which this is not true (log entry 30). -/
def rowWithin (bits : Nat) (us h : List Nat) (srow y : Nat) : Bool :=
  match addX (val32 y) (negX (exactSum (us.map (decFloat 0)) (h.map val32))), val32 srow with
  | .fin _ m g, .fin _ k f => !ltX (.fin false (epsBound bits * h.length * k) (f + ceilLog2 (stateMax h))) (.fin false (10000 * m) g)
  | _, _ => false

/-- A row's check diverges (R171): |analog − digital| > DIV_THRESH / 1024 × w × s_in × s_row. A digital value that is not
finite diverges (DEDUCED, log entry 25). -/
def rowDiverges (l : LayerRec) (e : Int) (srow a d : Nat) : Bool :=
  if !isFinite d then true else
  match addX (val32 a) (negX (val32 d)), val32 srow with
  | .fin _ m g, .fin _ k f => ltX (.fin false (l.divThresh * l.w * k) (f + e - 10)) (.fin false m g)
  | _, _ => true

end Sys2Proof.Machine
end

