-- ==== Sys2Proof/Machine/Sequence.lean ====
section
/-! DEFINITION. The sequence engine below its commands (R65 to R98, R384 to R388): lines and their setup checks, stream
slots, the frames of a line, the computation of a layer, and the entry member's queue. -/
namespace Sys2Proof.Machine

/-! Lines (R65 to R69, R384). -/

/-- Read one layer record (R384). -/
def parseLayer (b : List Byte) : LayerRec :=
  { kind := u8 b 0, recur := u8 b 1, dacBits := u8 b 2, wFmt := u8 b 3, w := u16 b 4, r := u16 b 6, kIn := u16 b 8,
    gates := u8 b 0xA, shadowAnvil := u8 b 0xB, inTiles := u32 b 0xC, outTiles := u32 b 0x10, u := u32 b 0x14,
    tables := (slice b 0x18 4).map (·.toNat), anvils := u8 b 0x1C, bankIn := u8 b 0x1D, bankRow := u8 b 0x1E,
    shadowN := u32 b 0x20, divThresh := u16 b 0x24 }

/-- Read a line from a packet and its descriptor (R384). -/
def parseLine (pk d : List Byte) : Line :=
  let n := u16 d 0
  let o := 32 + roundUp (4 * n) 64
  { id := u16 pk 0x10, entry := bitAt (u8 pk 0x12) 0, members := (List.range n).map fun i => u32 d (32 + 4 * i),
    position := u16 d 2, firstLayer := u16 d 4, total := u16 d 8,
    layers := (List.range (u16 d 6)).map fun i => parseLayer (d.drop (o + 64 * i)),
    actFmt := u8 pk 0x13, maxChunk := u16 pk 0x1C, maxPayload := u32 pk 0x20, actBuf := u32 pk 0x24, broken := false }

/-- The next member of a line (R65). -/
def Line.succ (l : Line) : Nat := l.members.getD ((l.position + 1) % l.members.length) 0
/-- The entry member. -/
def Line.entryAddr (l : Line) : Nat := l.members.getD 0 0
/-- Inputs of the line's layers. -/
def Line.width (l : Line) : Nat := (l.layers.head?.map (·.kIn)).getD 0
/-- Bytes of one activation vector of the line. -/
def Line.vec (l : Line) : Nat := vecBytes l.actFmt l.width
/-- Bytes of this member's part of a state image (R82). -/
def Line.partLen (l : Line) : Nat := roundUp (l.layers.foldl (fun n x => n + 16 + 4 * x.w) 0) 64

/-- The line `id` at partition `p`. -/
def State.line? (s : State) (p id : Nat) : Option Line := (s.part p).lines.find? fun l => l.id == id

/-- Stream slots of a partition (R77). -/
def State.quota (s : State) (p : Nat) : Nat := s.rf (adrSeqSlotCfg p) 7 0 * 128
/-- Slot size in bytes (R77). -/
def State.slotSize (s : State) (p : Nat) : Nat := 1024 * 2 ^ s.rf (adrSeqSlotCfg p) 9 8
/-- Granules that back a partition's slots (R77). -/
def State.slotGranules (s : State) (p : Nat) : Nat := (s.quota p * s.slotSize p + granBytes - 1) / granBytes
/-- Park entries of a partition. -/
def State.parkEntries (s : State) (p : Nat) : Nat := s.rf (adrSeqSlotCfg p) 21 16 * granBytes / s.slotSize p

/-- Legal lowest DIV_THRESH of a DAC width (R164). -/
def lowestThresh : Nat → Nat
  | 4 => 100
  | 5 => 61
  | 6 => 43
  | 7 => 35
  | _ => 31

/-- A layer record is legal (R68, R94, R164, R170, R171, R384). -/
def State.layerOk (s : State) (p : Nat) (l : LayerRec) : Bool :=
  decide (l.kind ≤ 1) && decide (l.wFmt ≤ 7) && decide (1 ≤ l.w) && decide (1 ≤ l.kIn)
    && (if l.kind == 1 then decide (1 ≤ l.gates) && decide (l.gates ≤ 4) && decide (l.recur ≤ 3) && (l.r == l.w || l.r == l.gates * l.w)
        else decide (2 ≤ l.gates) && decide (l.gates ≤ 4))
    && ((l.tables.take l.gates).all fun t => t == 0xFF || (decide (t ≤ 7) && tableValid (s.table p t)))
    && l.anvils != 0
    && (l.kind == 0 || l.recur == 0 || (decide (4 ≤ l.dacBits) && decide (l.dacBits ≤ 8) && decide (1 ≤ l.shadowN)
        && decide (l.shadowN ≤ 65536) && decide (l.divThresh ≤ 1023) && decide (lowestThresh l.dacBits ≤ l.divThresh)))

/-- Units that a layer names are owned by the partition (R69, R327). A partition without an anvil, which the projections of every layer
ask for (R68), owns none of them. -/
def State.layerOwned (s : State) (p : Nat) (l : LayerRec) : Bool :=
  (List.range 8).any (fun a => s.anvilOwner a == some p) && (onesOf 8 l.anvils).all (fun a => s.anvilOwner a == some p)
    && (l.kind == 0 || l.recur == 0 || s.anvilOwner l.shadowAnvil == some p)
    && (l.kind == 0 || l.recur == 0 || [0, 1].all fun b => l.recur == 2 - b || s.bankOwner b == some p)

/-- Bytes of weights of a layer. -/
def LayerRec.inBytes (l : LayerRec) : Nat := tileBytes l.wFmt l.kIn (l.gates * l.w)
/-- Bytes of the output projection. -/
def LayerRec.outBytes (l : LayerRec) : Nat := tileBytes l.wFmt l.w l.kIn
/-- Bytes of U (R384). -/
def LayerRec.uBytes (l : LayerRec) : Nat := if l.kind == 1 then 2 * l.r * l.w else 0

/-- Bytes of one activation buffer of a line (R66, R384). -/
def Line.bufBytes (l : Line) : Nat := l.maxChunk * l.maxPayload

/-- Bytes of a line's weights and of its 4 activation buffers at a member (R66). -/
def Line.carveBytes (l : Line) : Nat := l.layers.foldl (fun n x => n + x.inBytes + x.outBytes + x.uBytes) (4 * l.bufBytes)

/-- Lines that a partition holds, and those whose setup it has passed and which COMMIT may add (R65, R385). -/
def State.linesHeld (s : State) (p : Nat) : List Line :=
  (s.part p).lines ++ (s.part p).setups.filterMap fun x =>
    if !x.reroute && x.result == 0 && (x.passed || x.line.entry) then some x.line else none

/-- Room in the carve (R66): weights and activation buffers of every line and the slots' backing; and the slot size. -/
def State.lineRoom (s : State) (p : Nat) (l : Line) : Bool :=
  (l.layers.all fun x => s.inHearth p x.inTiles x.inBytes && s.inHearth p x.outTiles x.outBytes && s.inHearth p x.u x.uBytes)
    && s.inHearth p l.actBuf (4 * l.bufBytes)
    && decide ((s.linesHeld p).foldl (fun n x => n + x.carveBytes) l.carveBytes + s.slotGranules p * granBytes
        ≤ (s.granules p).length * granBytes)
    && decide (l.layers.foldl (fun n x => n + 16 + 4 * x.w) 32 ≤ s.slotSize p)

/-- Lightbank layers of a line. -/
def Line.lbk (l : Line) : List LayerRec := l.layers.filter fun x => x.kind == 1 && x.recur != 0

/-- Blocks of a list of placements on bank `b`. -/
def blocksOn (b : Nat) (pl : List Place) : Nat := (pl.filter fun x => x.1 == b).length

/-- The lightbank layers fit beside those of the partition's other lines (R69): a layer that uses both banks stands alone, and a bank has
16 blocks. U of each layer fits its shadow anvil (R170). -/
def State.banksFit (s : State) (p : Nat) (l : Line) : Bool :=
  let all := ((s.linesHeld p).filter fun x => x.id != l.id).flatMap Line.lbk ++ l.lbk
  let pl := (all.map placeLayer).filterMap id
  l.lbk.isEmpty
    || ((l.lbk.all fun x => (placeLayer x).isSome) && placesFit (pl.flatMap id)
      && (!(all.any fun x => x.recur == 3) || all.length == 1)
      && decide (blocksOn 0 (pl.flatMap id) ≤ 16) && decide (blocksOn 1 (pl.flatMap id) ≤ 16)
      && shadowsFit (fun a => tget {} s.anvils a) l.lbk)

/-- Two slots of a sled are neighbours (R26). -/
def slotsMeet (a b : Nat) : Bool :=
  decide ((a / 4 - b / 4) + (b / 4 - a / 4) + (a % 4 - b % 4) + (b % 4 - a % 4) = 1)

/-- The hop to the next member is one that R26 knows: to a neighbour on the sled, or by a route to another sled. DEDUCED (log entry 74): a
hop within the chip, which a line of one member has, crosses no link and is legal. -/
def State.hopLegal (s : State) (l : Line) : Bool :=
  let a := l.succ
  if a / 16 == s.chipAddr / 16 then true
  else if a / 256 == s.chipAddr / 256 then slotsMeet (s.chipAddr / 16 % 16) (a / 16 % 16)
  else (s.wiredPort a).isSome

/-- The hop to the next member is legal and has credits for VC2, VC4 and VC6 (R65). -/
def State.hopCredits (s : State) (l : Line) : Bool :=
  s.hopLegal l && match s.wiredPort l.succ with
  | some d => [2, 4, 6].all fun v => s.rf (adrLnkVcBuf d v) 15 0 != 0
  | none => true

/-- The descriptor of a line packet can be used: its CRC, counts and lengths agree, and this member stands at POSITION
(R65, R384). -/
def State.lineShape (s : State) (p : Nat) (pk : List Byte) : Bool :=
  let len := u32 pk 0x18
  let d := s.readHearth p (u32 pk 0x14) len
  let l := parseLine pk d
  let n := l.members.length
  decide (32 ≤ len) && u32 d 0x1C == crc32c (slice d 0 0x1C) && decide (1 ≤ n) && decide (n ≤ 256)
    && decide (1 ≤ l.total) && decide (l.total ≤ 4096) && decide (1 ≤ l.layers.length) && decide (l.layers.length ≤ 64)
    && len == 32 + roundUp (4 * n) 64 + 64 * l.layers.length && decide (l.position < n)
    && decide (l.firstLayer + l.layers.length ≤ l.total) && noDup l.members && l.members.getD l.position 0 == s.partAddr p
    && l.entry == (l.position == 0)

/-- The line that a line packet and its descriptor name. -/
def State.lineOf (s : State) (p : Nat) (pk : List Byte) : Line := parseLine pk (s.readHearth p (u32 pk 0x14) (u32 pk 0x18))

/-- A line-reroute names the line as it stands, hop routing apart (R385). -/
def sameLine (o l : Line) : Bool :=
  o.members == l.members && o.position == l.position && o.firstLayer == l.firstLayer && o.total == l.total
    && o.actFmt == l.actFmt && (o.layers.map fun x => { x with uCodes := [] }) == l.layers

/-- Ranges of Hearth that a line packet's check reads: its descriptor and, for a line to be set up, U of its layers. -/
def State.lineReads (s : State) (p : Nat) (pk : List Byte) (reroute : Bool) : List Nat :=
  s.poisonHits p (u32 pk 0x14) (u32 pk 0x18)
    ++ if reroute || !s.lineShape p pk then [] else (s.lineOf p pk).layers.flatMap fun r => s.poisonHits p r.u r.uBytes

/-- The member's own check of a line-setup or line-reroute packet (R65, R66, R69, R94, R171, R223, R327, R385): 0 when it
passes, else the failing status. -/
def State.lineCheck (s : State) (p : Nat) (pk : List Byte) (reroute : Bool) : Nat :=
  let l := s.lineOf p pk
  if !s.addrValid then 0x14
  else if !(s.lineReads p pk reroute).isEmpty then 0x7F
  else if !s.lineShape p pk || !(l.layers.all (s.layerOk p)) || !s.hopCredits l then 0x11
  else if reroute then
    match s.line? p l.id with
    | none => 0x11
    | some o => if !sameLine o l then 0x11 else if s.hopFenced l.succ then 0x13 else 0
  else if (s.linesHeld p).any (fun x => x.id == l.id) || decide (8 ≤ (s.linesHeld p).length) then 0x11
  else if !(l.layers.all (s.layerOwned p)) then 0x14
  else if s.hopFenced l.succ then 0x13
  else if !s.lineRoom p l || !s.banksFit p l then 0x12 else 0

/-- PARAM_OFFSET of a line packet whose own check gave BAD_PARAM: LINE_ID where its line exists already, or does not, and
else DESC, which names what the check read (R348, R384). -/
def State.lineOff (s : State) (p : Nat) (pk : List Byte) (reroute : Bool) : Nat :=
  let l := s.lineOf p pk
  if s.lineShape p pk && (l.layers.all (s.layerOk p)) && s.hopCredits l && (!reroute || (s.line? p l.id).isNone) then 0x10
  else 0x14

/-- A member's check of its packet meets poison (R134). -/
def State.noteDesc (s : State) (p : Nat) (pk : List Byte) (reroute : Bool) : State := s.notePoison p (s.lineReads p pk reroute)

/-! Frames of a line (R385, and log entry 22 for the bodies that the manual does not lay out). -/

/-- The 16-byte body of R385. -/
def lineBody (op st pos line tag : Nat) : List Byte :=
  withCrc (leBytes 1 op ++ leBytes 1 st ++ leBytes 2 pos ++ leBytes 2 line ++ leBytes 2 0 ++ leBytes 4 tag)

/-- A stream frame: R385's body with a phase for FAIL_POS, then STREAM_ID, the length gathered so far, data and a CRC.
DESIGN CHOICE (log entry 22): the manual gives these frames no layout. -/
def streamBody (op st phase line tag stream len : Nat) (data : List Byte) : List Byte :=
  lineBody op st phase line tag ++ withCrc (leBytes 4 stream ++ leBytes 4 len ++ data)

/-- The CRCs of a sequence-state frame are good. -/
def lineFrameGood (b : List Byte) : Bool :=
  u32 b (32 + 0xC) == crc32c (slice b 32 0xC)
    && (b.length ≤ 48 || u32 b (b.length - 4) == crc32c (slice b 48 (b.length - 52)))

/-- Send a sequence-state frame to the next member of a line. -/
def State.sendLine (s : State) (p : Nat) (l : Line) (body : List Byte) : State := s.sendFrame p 4 4 l.succ 0 0 body

/-- A notice about a line: KIND 0 broken, 1 dissolved. DESIGN CHOICE (log entry 22). -/
def noticeBody (line kind : Nat) : List Byte := withCrc (leBytes 2 line ++ leBytes 1 kind ++ leBytes 1 0)

/-- An event of a line. -/
def State.seqEvent (s : State) (code p line : Nat) : State := s.event code (line % 256) p

/-- The sender of a broken hop notifies the entry member and records 0x1203 (R98 and the chapter's Edges). -/
def State.noticeBroken (s : State) (p : Nat) (l : Line) : State :=
  (s.sendFrame p 5 6 l.entryAddr 0 0 (noticeBody l.id 0)).seqEvent 0x1203 p l.id

/-- Every line of a partition sends its line-broken notice (R500, R502). -/
def State.noticeAll (s : State) (p : Nat) : State := s.each (s.part p).lines fun s l => s.noticeBroken p l

/-- Lines whose outgoing hop leaves by port `d` are broken when its link goes down. -/
def State.linesDown (s : State) (d : Nat) : State :=
  s.each allParts fun s p => s.each (s.part p).lines fun s l =>
    if s.wiredPort l.succ == some d then s.noticeBroken p l else s

/-! Slots (R76 to R83). -/

/-- The slot of a stream. -/
def State.slot? (s : State) (p line stream : Nat) : Option SSlot :=
  (s.part p).slots.find? fun x => x.line == line && x.stream == stream

/-- Replace a stream's slot, or add it. -/
def State.putSlot (s : State) (p : Nat) (x : SSlot) : State :=
  s.modPart p fun q =>
    if q.slots.any fun y => y.line == x.line && y.stream == x.stream then
      { q with slots := q.slots.map fun y => if y.line == x.line && y.stream == x.stream then x else y }
    else { q with slots := q.slots ++ [x] }

/-- Free a stream's slot, with its recurrent terms in progress. -/
def State.freeSlot (s : State) (p line stream : Nat) : State :=
  s.modPart p fun q => { q with slots := q.slots.filter fun y => !(y.line == line && y.stream == stream),
                                prods := q.prods.filter fun y => !(y.line == line && y.stream == stream) }

/-- A FREE slot exists (R77, R78). -/
def State.hasFreeSlot (s : State) (p : Nat) : Bool := decide ((s.part p).slots.length < s.quota p)
/-- A free park entry exists. -/
def State.hasFreePark (s : State) (p : Nat) : Bool := decide ((s.part p).parks.length < s.parkEntries p)

/-- The park entry of a stream. -/
def State.park? (s : State) (p line stream : Nat) : Option Park :=
  (s.part p).parks.find? fun x => x.line == line && x.stream == stream
/-- Free the park entry of a stream. -/
def State.freePark (s : State) (p line stream : Nat) : State :=
  s.modPart p fun q => { q with parks := q.parks.filter fun y => !(y.line == line && y.stream == stream) }

/-- The zero state of a layer (R80). -/
def zeroLayer (l : LayerRec) : LayerSt := ⟨0xFFFFFFFF, List.replicate l.w 0, none, false, false⟩

/-- A member's part of a state image (R76, R82). -/
def imageOf (l : Line) (ls : List LayerSt) : List Byte :=
  let b := (ls.zipIdx.map fun (x, i) =>
    leBytes 4 x.last ++ leBytes 2 (l.firstLayer + i) ++ List.replicate 10 0 ++ x.h.flatMap (leBytes 4)).flatMap id
  slice b 0 (roundUp b.length 64)

/-- The layers of a member's part of an image; `fresh` sets LAST_STEP to 0xFFFF_FFFF (R80). -/
def readImage (fresh : Bool) : List LayerRec → List Byte → List LayerSt
  | [], _ => []
  | l :: t, b =>
    ⟨if fresh then 0xFFFFFFFF else u32 b 0, (List.range l.w).map fun i => u32 b (16 + 4 * i), none, false, false⟩
      :: readImage fresh t (b.drop (16 + 4 * l.w))

/-! Recurrent terms (R86, R156, R157, R165, R170). -/

/-- Change layer `li` of a stream's slot. -/
def State.modLayer (s : State) (p line stream li : Nat) (f : LayerSt → LayerSt) : State :=
  match s.slot? p line stream with
  | none => s
  | some x => s.putSlot p { x with layers := x.layers.zipIdx.map fun (y, i) => if i == li then f y else y }

/-- The recurrent term of a layer is ready (R86). -/
def State.setTerm (s : State) (p line stream li : Nat) (u : List Nat) (div fb : Bool) : State :=
  s.modLayer p line stream li fun y => { y with u := some u, diverged := div, fellBack := fb }

/-- Count a product of a block computed in fallback (R173, R389). -/
def State.countFall (s : State) (b k : Nat) : State :=
  match tfind (s.bank b).blocks k with
  | none => s
  | some x => s.setBlock b k { x with nFall := x.nFall + 1 }

/-- Default SAT of a partition's conversions (R122). -/
def State.vecSat (s : State) (p : Nat) : Bool := s.rf (adrVecCvtCfg p) 0 0 == 1

/-- Form the recurrent term of a MATRIX layer from the state just written (R86): on an anvil at once, on the lightbanks
as a product; a state that is zero takes no product, one that is not finite or a block in fallback goes to the shadow. A check that is due
whatever the count waits for a product that the banks compute (R173). -/
def State.startTerm (s : State) (p line stream li : Nat) (l : LayerRec) (h : List Nat) : State :=
  if l.kind == 0 then s
  else if l.recur == 0 then
    (s.bump (adrPasses ((onesOf 8 l.anvils).headD 0))).setTerm p line stream li (digitalTerm l (s.vecSat p) h) false false
  else
    match s.layerBlocks p line li with
    | [] => s
    | (b0, k0, x0) :: rest =>
      let bad := !(h.all isFinite)
      let fb := ((b0, k0, x0) :: rest).any fun (_, _, x) => !x.why.isEmpty
      let due := x0.count % l.shadowN == 0 || ((b0, k0, x0) :: rest).any fun (_, _, x) => x.check
      let s := s.each ((b0, k0, x0) :: rest) fun s (b, k, x) =>
        s.setBlock b k { x with count := x.count + 1, check := x.check && (bad || fb) }
      let add := fun (s : State) (r : Prod) => s.modPart p fun q => { q with prods := q.prods ++ [r] }
      let s := if bad then
          s.each ((b0, k0, x0) :: rest) fun s (b, _, _) => (s.bump (adrProductsNonfinite b)).bankEvent 0x1406 b []
        else s
      let s := if fb then s.each ((b0, k0, x0) :: rest) fun s (b, k, _) => (s.bump (adrFallbackProducts b)).countFall b k else s
      if bad || fb then add s ⟨stream, line, li, h, [], false, false, none⟩
      else if stateMax h == 0 then
        if due then add s ⟨stream, line, li, h, [], true, true, some (List.replicate l.r 0)⟩
        else s.setTerm p line stream li (List.replicate l.r 0) false false
      else add s ⟨stream, line, li, h, drives l.dacBits h, true, due, none⟩

/-- Fill a stream's slot (R80, R83) and form the recurrent terms that its next step needs. -/
def State.fillSlot (s : State) (p : Nat) (l : Line) (stream : Nat) (st : SlotSt) (ls : List LayerSt) : State :=
  let s := s.putSlot p ⟨st, stream, l.id, ls⟩
  s.each (l.layers.zip ls).zipIdx fun s ((r, y), i) => s.startTerm p l.id stream i r y.h

/-! One layer, one step (R68). -/

/-- Elementwise operation on rows. -/
def zipF (f : Nat → Nat → Nat) (a b : List Nat) : List Nat := (a.zip b).map fun (x, y) => f x y

/-- Gate pre-activations z_k with the recurrent term added (R68). -/
def preGates (l : LayerRec) (z u : List Nat) : List (List Nat) :=
  let zk := (List.range l.gates).map fun k => (z.drop (k * l.w)).take l.w
  if l.kind == 0 then zk
  else if l.r == l.gates * l.w then zk.zipIdx.map fun (x, k) => zipF fAdd x ((u.drop (k * l.w)).take l.w)
  else zk.zipIdx.map fun (x, k) => if k + 1 == l.gates then zipF fAdd x u else x

/-- Gate `k`: its table, or the identity (R68). -/
def gateOf (tabs : List (Option (List Byte))) (zs : List (List Nat)) (k : Nat) : List Nat :=
  let z := zs.getD k []
  match (tabs[k]?).join with
  | some t => z.map (pwl t)
  | none => z

/-- The candidate pair (a, b) of a DIAG_LINEAR layer (R68). -/
def diagPair (tabs : List (Option (List Byte))) (l : LayerRec) (zs : List (List Nat)) : List Nat × List Nat :=
  let g := gateOf tabs zs
  (g 0, if l.gates == 2 then g 1 else zipF fMul (g 1) (g 2))

/-- The new state of a layer (R68). -/
def newState (tabs : List (Option (List Byte))) (l : LayerRec) (zs : List (List Nat)) (h : List Nat) : List Nat :=
  let g := gateOf tabs zs
  if l.kind == 0 then let (a, b) := diagPair tabs l zs; zipF fAdd (zipF fMul a h) b
  else if l.gates == 1 then g 0
  else if l.gates == 2 then zipF fAdd (zipF fMul (g 0) h) (zipF fMul ((g 0).map (fSub fOne)) (g 1))
  else zipF fAdd (zipF fMul (g 0) h) (zipF fMul (g 1) (g 2))

/-- The layer output y (R68). -/
def layerOut (tabs : List (Option (List Byte))) (l : LayerRec) (zs : List (List Nat)) (h : List Nat) : List Nat :=
  if l.gates == 4 then zipF fMul (gateOf tabs zs 3) h else h

/-- NaN inputs that the gate tables of one step meet (R92). -/
def gateNans (tabs : List (Option (List Byte))) (zs : List (List Nat)) : Nat :=
  zs.zipIdx.foldl (fun n (z, k) => n + if ((tabs[k]?).join).isSome then nanCount z else 0) 0

/-- What a layer's step needs from the machine: gate tables by gate, the tiles, ACC_FRAC, the activation format and SAT. -/
structure LayerEnv where
  tabs : List (Option (List Byte))
  inT : List Byte
  outT : List Byte
  frac : Nat
  act : Nat
  sat : Bool
deriving DecidableEq, Repr

/-- Read a layer's tables and weights (R92, R134). -/
def State.layerEnv (s : State) (p : Nat) (ln : Line) (l : LayerRec) : Except Nat LayerEnv × State :=
  let ts := (List.range l.gates).map fun k => l.tables.getD k 0xFF
  if ts.any fun t => t != 0xFF && !tableValid (s.table p t) then (.error 0x11, s)
  else
    match s.load p l.inTiles l.inBytes with
    | (none, s) => (.error 0x7F, s)
    | (some a, s) =>
      match s.load p l.outTiles l.outBytes with
      | (none, s) => (.error 0x7F, s)
      | (some b, s) =>
        (.ok ⟨ts.map fun t => if t == 0xFF then none else some (s.table p t), a, b, s.rf (adrVecCvtCfg p) 12 8, ln.actFmt, s.vecSat p⟩, s)

/-- The passes of the input projection of one input (R68). -/
def LayerEnv.inPasses (e : LayerEnv) (l : LayerRec) (x : List Nat) : List (List OutLane) :=
  projection l.wFmt e.act e.frac l.kIn (l.gates * l.w) e.sat e.inT x

/-- The passes of the output projection of one layer output (R68). -/
def LayerEnv.outPasses (e : LayerEnv) (l : LayerRec) (y : List Nat) : List (List OutLane) :=
  projection l.wFmt e.act e.frac l.w l.kIn e.sat e.outT y

/-- z of one input (R68). -/
def LayerEnv.z (e : LayerEnv) (l : LayerRec) (x : List Nat) : List Nat := (e.inPasses l x).map (projMerge l.wFmt e.frac)

/-- x + out_tiles applied to y (R68). -/
def LayerEnv.out (e : LayerEnv) (l : LayerRec) (x y : List Nat) : List Nat :=
  zipF fAdd x ((e.outPasses l y).map (projMerge l.wFmt e.frac))

/-- What one step at a layer with input `x`, gate inputs `zs` and layer output `y` counts, beside what was counted before. -/
def LayerEnv.count (e : LayerEnv) (l : LayerRec) (x y : List Nat) (zs : List (List Nat)) (t : Tally) : Tally :=
  let af := passFmt l.wFmt e.act
  { passes := countPasses l.wFmt l.kIn (passCount l.wFmt l.kIn (l.gates * l.w)) (e.outPasses l y)
      (countPasses l.wFmt (l.gates * l.w) 0 (e.inPasses l x) t.passes)
    nanIn := t.nanIn + nanToInt af (x.map val32), nanOut := t.nanOut + nanToInt af (y.map val32), gate := t.gate + gateNans e.tabs zs }

/-- What two works of one batch count together (R95, R547). -/
def Tally.add (a b : Tally) : Tally :=
  { passes := b.passes.foldl (fun t (k, x, y) => let (u, v) := tget (0, 0) t k; tset (0, 0) t k (u + x, v + y)) a.passes
    nanIn := a.nanIn + b.nanIn, nanOut := a.nanOut + b.nanOut, gate := a.gate + b.gate }

/-- Rows from lanes. -/
def transpose (n : Nat) (ls : List (List Nat)) : List (List Nat) := (List.range n).map fun k => ls.map fun l => l.getD k 0

/-- A DIAG_LINEAR layer over a chunk (R68, R89, R90): outputs, states after each step, and what it counts. -/
def diagChunk (e : LayerEnv) (l : LayerRec) (xs : List (List Nat)) (h : List Nat) : List (List Nat) × List (List Nat) × Tally :=
  let zs := xs.map fun x => preGates l (e.z l x) []
  let ab := zs.map (diagPair e.tabs l)
  let lanes := (List.range l.w).map fun i => scanLane (h.getD i 0) (ab.map fun (a, b) => (a.getD i 0, b.getD i 0))
  let hs := transpose xs.length lanes
  let outs := (xs.zip (zs.zip hs)).map fun (x, z, h) => e.out l x (layerOut e.tabs l z h)
  (outs, hs, (xs.zip (zs.zip hs)).foldl (fun t (x, z, h) => e.count l x (layerOut e.tabs l z h) z t) {})

/-! Activation frames (R70 to R73). -/

/-- An activation frame header (R70). -/
def actHdr (stream step line layer count sub st len flags fmt tag : Nat) : List Byte :=
  withCrc (leBytes 4 stream ++ leBytes 4 step ++ leBytes 2 line ++ leBytes 2 layer ++ leBytes 2 count ++ leBytes 1 sub
    ++ leBytes 1 st ++ leBytes 4 len ++ leBytes 2 flags ++ leBytes 1 fmt ++ leBytes 1 0 ++ leBytes 4 tag)

/-- A header's LAYER, STATUS, PAYLOAD_LEN and FLAGS replaced. -/
def reAct (h : List Byte) (layer st len flags : Nat) : List Byte :=
  actHdr (u32 h 0) (u32 h 4) (u16 h 8) layer (u16 h 0xC) (u8 h 0xE) st len flags (u8 h 0x16) (u32 h 0x18)

/-- Send a FAIL frame on (R72): the first failure status stays, FLAGS[0] is dropped. -/
def State.sendFail (s : State) (p : Nat) (l : Line) (h : List Byte) (st : Nat) : State :=
  s.sendFrame p 3 2 l.succ 0 0 (reAct h (u16 h 0xA) (if u8 h 0xF == 0 then st else u8 h 0xF) 0 2 ++ withCrc [])

/-- Send a frame whose CRC failed on as a FAIL frame with STATUS 0x7F, whatever its own header says (R71). -/
def State.sendBroken (s : State) (p : Nat) (l : Line) (h : List Byte) : State :=
  s.sendFrame p 3 2 l.succ 0 0 (reAct h (u16 h 0xA) 0x7F 0 2 ++ withCrc [])

/-- The payload of FP32 rows in the line's format (R68, R114). -/
def State.actPayload (s : State) (p : Nat) (l : Line) (xs : List (List Nat)) : List Byte :=
  xs.flatMap fun x => vecEncode l.actFmt (s.rf (adrVecCvtCfg p) 0 0 == 1) (x.map val32) none

/-- NaN values that a hand-off converts to an integer format (R122). -/
def State.noteNanToInt (s : State) (p src n : Nat) : State :=
  if n == 0 then s else (s.bumpBy (adrVecNanToInt p) n).event 0x1006 src p

/-- Hand the activations of a work to the next member (R68, R70). -/
def State.handOff (s : State) (p : Nat) (l : Line) (w : Work) : State :=
  let pay := s.actPayload p l w.xs
  let s := s.noteNanToInt p 0xFF (w.xs.foldl (fun n x => n + nanToInt l.actFmt (x.map val32)) 0)
  s.sendFrame p 3 2 l.succ 0 0 (reAct w.hdr (l.firstLayer + w.layer) 0 pay.length w.flags ++ withCrc pay)

/-- Rows of a payload (R70, R114). -/
def payloadRows (l : Line) (n : Nat) (b : List Byte) : List (List Nat) :=
  (List.range n).map fun i => (vecVals l.actFmt l.width (b.drop (i * l.vec))).map rnd32

/-- What a layer of line `line` counted is noted once it has been evaluated (R97, R111, R118, R122, R127, R547): its passes run on the
anvils of the layer's mask in turn. DESIGN CHOICE (log entry 76): the manual does not say which anvil runs which pass. -/
def State.noteTally (s : State) (p line : Nat) (r : LayerRec) (t : Tally) : State :=
  let as := onesOf 8 r.anvils
  let n := passCount r.wFmt r.kIn (r.gates * r.w) + passCount r.wFmt r.w r.kIn
  let s := s.each (List.range n) fun s i =>
    let a := as.getD (i % as.length) 0
    let (x, y) := tget (0, 0) t.passes i
    let s := ((s.bump (adrPasses a)).bumpBy (adrAnvIntSat a) x).bumpBy (adrAnvNanScale a) y
    (s.onceEvent 0x1001 a p x).onceEvent 0x1002 a p y
  ((s.noteNanToInt p 0xFF t.nanIn).noteNanToInt p 0xFF t.nanOut).notePwlNan p (line % 256) t.gate

/-- A work joins a member (R73, R95): its slot is BUSY. -/
def State.addWork (s : State) (p : Nat) (l : Line) (hdr : List Byte) (xs : List (List Nat)) (flags : Nat) (buf : Bool) : State :=
  let s := match s.slot? p l.id (u32 hdr 0) with
    | some x => s.putSlot p { x with st := .busy }
    | none => s
  s.modPart p fun q => { q with works := q.works ++ [{ line := l.id, hdr := hdr, xs := xs, layer := 0, pos := 0, flags := flags, buf := buf }] }

/-- A work has left a member; its stream's slot is BOUND when no other work of the stream is here (R77). -/
def State.leaveWork (s : State) (p : Nat) (w : Work) : State :=
  if (s.part p).works.any fun v => v.line == w.line && u32 v.hdr 0 == u32 w.hdr 0 then s
  else
    match s.slot? p w.line (u32 w.hdr 0) with
    | some x => if x.st == .busy then s.putSlot p { x with st := .bound } else s
    | none => s

/-- A step or chunk of the stream is at one of this member's layers (R77). -/
def State.slotBusy (s : State) (p line stream : Nat) : Bool := ((s.slot? p line stream).map fun x => x.st == .busy).getD false

/-! The entry member (R74, R75, R80 to R88). -/

/-- A stream at its entry member. -/
def State.strm? (s : State) (p line stream : Nat) : Option Strm :=
  (s.part p).strms.find? fun x => x.line == line && x.stream == stream
/-- Replace or add a stream. -/
def State.putStrm (s : State) (p : Nat) (x : Strm) : State :=
  s.modPart p fun q => { q with strms := (q.strms.filter fun y => !(y.line == x.line && y.stream == x.stream)) ++ [x] }
/-- Forget a stream. -/
def State.dropStrm (s : State) (p line stream : Nat) : State :=
  s.modPart p fun q => { q with strms := q.strms.filter fun y => !(y.line == line && y.stream == stream) }

/-- Make a stream TORN (R88): counted, with 0x1207. -/
def State.tear (s : State) (p line stream : Nat) : State :=
  match s.strm? p line stream with
  | none => s
  | some x => ((s.putStrm p { x with st := .torn }).bump (adrTorn p)).seqEvent 0x1207 p line

/-- The job of packet `k`. -/
def State.job? (s : State) (p k : Nat) : Option Job := (s.part p).jobs.find? fun j => j.pkt == k
/-- The job whose ENTRY_TAG a frame carries. -/
def State.jobTag? (s : State) (p tag : Nat) : Option Job := (s.part p).jobs.find? fun j => j.pkt % 2 ^ 32 == tag
/-- Change the job of packet `k`. -/
def State.modJob (s : State) (p k : Nat) (f : Job → Job) : State :=
  s.modPart p fun q => { q with jobs := q.jobs.map fun j => if j.pkt == k then f j else j }
/-- Remove the job of packet `k`. -/
def State.dropJob (s : State) (p k : Nat) : State := s.modPart p fun q => { q with jobs := q.jobs.filter fun j => j.pkt != k }

/-- Steps of a stream in flight (R75). -/
def State.inFlight (s : State) (p line stream : Nat) : Nat :=
  (s.part p).jobs.foldl (fun n j => n + if j.inFlight && j.line == line && j.stream == stream then j.count else 0) 0

/-- RESULT of a stream packet that has one (R387). -/
def jobResult (j : Job) (img out : Nat) : List Byte :=
  if j.op == 0x44 then leBytes 4 img else if j.op == 0x47 || j.op == 0x48 then leBytes 4 j.first ++ leBytes 4 out else []

/-- Complete the packet of a job with the event of its failure and the offset of its failing field, and remove the job. -/
def State.endJobX (s : State) (p : Nat) (j : Job) (st note out ev off : Nat) : State :=
  let img := ((s.line? p j.line).map (·.imgLen)).getD 0
  (s.dropJob p j.pkt).completeX j.pkt st note (jobResult j img out) ev off

/-- Complete the packet of a job and remove the job. A lifecycle packet that fails with BAD_PARAM here gives a LEN too
small for its image (R387). -/
def State.endJob (s : State) (p : Nat) (j : Job) (st note out : Nat) : State :=
  s.endJobX p j st note out 0 (if j.op < 0x47 then 0x20 else 0xFFFF)

/-- The event recorded when the data of a job could not be read (R134, R309, R313, R314); a proxied read records none
here. -/
def State.readEvent (s : State) (p : Nat) (j : Job) : Nat :=
  let b := ((s.pkt j.pkt).map (·.bytes)).getD []
  if bitAt (u8 b (if j.op == 0x49 then 0x11 else 0x16)) 0 && j.op ≥ 0x47 then 0x1103
  else if s.proxied p then 0
  else readEv j.fail

/-- An address range of a packet: host or Hearth data of a job gathered, with the failing status. -/
def State.gather (s : State) (p : Nat) (j : Job) (hearth : Bool) (a n : Nat) : State :=
  if hearth then
    match s.load p a n with
    | (some d, s) => s.modJob p j.pkt fun j => { j with input := d, need := 0 }
    | (none, s) => s.modJob p j.pkt fun j => { j with need := 0, fail := 0x7F }
  else (s.modJob p j.pkt fun j => { j with input := List.replicate n 0, need := n }).hostRead p (s.proxied p) a n (.input p j.pkt) 0

/-- A member's part of a lifecycle circuit (R80, R83): the status, the data that travels on, and the state. Phases: PARK 0
reserves a park entry, 1 frees the slot, 2 gives the entry back, 3 is a park to the host; RESUME 0 and 4 claim a slot, 1
fills it from the park entry, 5 from the data, 2 gives it back. A TORN stream that still holds its slot at a member resumes in that slot,
and asks for no FREE one there. DEDUCED (log entry 80): R83 names a FREE slot at every member. -/
def State.memberPart (s : State) (p : Nat) (l : Line) (op phase stream : Nat) (data : List Byte) : Nat × List Byte × State :=
  let slot := s.slot? p l.id stream
  let park := s.park? p l.id stream
  match op, phase with
  | 0x20, ph =>
    if !s.hasFreeSlot p then (0x12, data, s)
    else if ph == 1 && data.length < l.partLen then (0x11, data, s)
    else
      let ls := if ph == 1 then readImage true l.layers data else l.layers.map zeroLayer
      (0, if ph == 1 then data.drop l.partLen else data, s.fillSlot p l stream .claimed ls)
  | 0x21, _ =>
    (0, data, match slot with
      | some x => if x.st == .claimed then s.freeSlot p l.id stream else s
      | none => s)
  | 0x22, 0 =>
    match slot with
    | some x =>
      if s.hasFreePark p then (0, data, s.modPart p fun q => { q with parks := q.parks ++ [⟨stream, l.id, x.layers⟩] })
      else (0x12, data, s)
    | none => (0x14, data, s)
  | 0x22, 1 => (0, data, s.freeSlot p l.id stream)
  | 0x22, 2 => (0, data, s.freePark p l.id stream)
  | 0x22, _ =>
    match slot with
    | some x => (0, data ++ imageOf l x.layers, s.freeSlot p l.id stream)
    | none => (0x14, data, s)
  | 0x23, 1 =>
    match park with
    | some k => (0, data, (s.fillSlot p l stream .bound k.layers).freePark p l.id stream)
    | none => (0x14, data, s)
  | 0x23, 5 => (0, data.drop l.partLen, (s.fillSlot p l stream .bound (readImage false l.layers data)).freePark p l.id stream)
  | 0x23, 2 =>
    (0, data, match slot with
      | some x => if x.st == .claimed then s.freeSlot p l.id stream else s
      | none => s)
  | 0x23, ph =>
    if ph == 0 && park.isNone then (0x14, data, s)
    else if slot.isSome then (0, data, s)
    else if s.hasFreeSlot p then (0, data, s.putSlot p ⟨.claimed, stream, l.id, l.layers.map zeroLayer⟩)
    else (0x12, data, s)
  | 0x24, _ => (0, data, (s.freeSlot p l.id stream).freePark p l.id stream)
  | 0x26, _ =>
    (0, data, match slot with
      | some x => if x.st == .claimed then s.putSlot p { x with st := .bound } else s
      | none => s)
  | _, _ => (0, data, s)

/-- U of the layers of a line leaves the anvils of partition `p` (R170). -/
def State.dropShadows (s : State) (p id : Nat) : State :=
  s.each ((List.range 8).filter fun a => s.anvilOwner a == some p) fun s a =>
    { s with anvils := tset {} s.anvils a { tget {} s.anvils a with shadow := (tget {} s.anvils a).shadow.filter fun x => x.1 != id } }

/-- Release everything a member holds for a line. -/
def State.releaseLine (s : State) (p id : Nat) : State :=
  ((s.modPart p fun q => { q with
      lines := q.lines.filter fun l => l.id != id, slots := q.slots.filter fun x => x.line != id,
      parks := q.parks.filter fun x => x.line != id, works := q.works.filter fun x => x.line != id,
      prods := q.prods.filter fun x => x.line != id, strms := q.strms.filter fun x => x.line != id }).clearBlocks
    fun x => x.part == p && x.line == id).dropShadows p id

/-- A stream-admit packet that completes with NO_RESOURCE records 0x1204 (R80). -/
def State.noteNoSlot (s : State) (p line st : Nat) : State := if st == 0x12 then s.seqEvent 0x1204 p line else s

/-- Run the entry member's own part of a circuit and send the frame on, or end the packet on a failure here. -/
def State.launch (s : State) (p : Nat) (l : Line) (j : Job) (op phase : Nat) (data : List Byte) : State :=
  let (st, d, s) := s.memberPart p l op phase j.stream data
  if st != 0 then
    let s := if op == 0x20 then (s.dropStrm p l.id j.stream).noteNoSlot p l.id st else s
    s.endJob p j st 0 0
  else s.sendLine p l (streamBody op 0 phase l.id (j.pkt % 2 ^ 32) j.stream l.partLen d)

/-- Start a lifecycle packet whose turn has come (R23, R80, R81, R83, R387). STREAM_ADMIT of a stream that is PARKED or TORN gives
BAD_PARAM as for an admitted one. DEDUCED (log entry 81): R81 names admitted streams only. -/
def State.startLife (s : State) (p : Nat) (j : Job) : State :=
  match s.line? p j.line, s.pkt j.pkt with
  | some l, some x =>
    let b := x.bytes
    let sel := u8 b 0x16
    let len := u32 b 0x20
    let s := s.modJob p j.pkt fun j => { j with inFlight := true }
    if (s.part p).procession && j.op != 0x46 then s.endJob p j 0x14 0 0
    else match j.op, s.strm? p j.line j.stream with
    | 0x43, some _ => s.endJobX p j 0x11 0 0 0 0x10
    | 0x43, none =>
      let s := s.putStrm p ⟨j.stream, j.line, .admitting, x.sq, 0⟩
      if sel == 0 then s.launch p l j 0x20 0 []
      else if sel == 1 && len == 0 then s.launch p l j 0x20 1 []
      else if sel == 1 then s.gather p j false (u64 b 0x18) len
      else
        match s.load p (u64 b 0x18 % 2 ^ 32) len with
        | (some d, s) => s.launch p l j 0x20 1 d
        | (none, s) => (s.dropStrm p j.line j.stream).endJobX p j 0x7F 0 0 0x1103 0xFFFF
    | 0x44, some t =>
      if t.st != .admitted then s.endJob p j 0x14 0 0
      else if sel == 1 && len < l.imgLen then s.endJob p j 0x11 0 0
      else s.launch p l j 0x22 (if sel == 1 then 3 else 0) []
    | 0x45, some t =>
      if t.st != .parked && t.st != .torn then s.endJob p j 0x14 0 0
      else if sel == 1 && len < l.imgLen then s.endJob p j 0x11 0 0
      else if sel == 1 then s.gather p j false (u64 b 0x18) len else s.launch p l j 0x23 0 []
    | 0x46, some _ => s.launch p l j 0x24 0 []
    | 0x46, none => s.endJob p j 0 0 0
    | _, none => s.endJob p j 0x14 0 0
    | _, _ => s
  | _, _ => s

/-- Lifecycle packets run once no step of their stream is in flight and no earlier packet of it waits (R83), and no late step of a TORN
stream is still at a layer here (R79). -/
def State.seqSettle : Nat → State → Nat → State
  | 0, s, _ => s
  | n + 1, s, p =>
    let js := (s.part p).jobs
    match js.zipIdx.find? fun (j, i) => j.op < 0x47 && !j.inFlight && !s.slotBusy p j.line j.stream
        && !((js.take i).any fun e => e.line == j.line && e.stream == j.stream) with
    | none => s
    | some (j, _) => State.seqSettle n (s.startLife p j) p

/-- Settle the entry queue of a partition. -/
def State.settle (s : State) (p : Nat) : State := State.seqSettle ((s.part p).jobs.length + 1) s p

/-- Take works out of a member's list. -/
def State.takeWorks (s : State) (p : Nat) (is : List Nat) : State :=
  s.modPart p fun q => { q with works := (q.works.zipIdx.filter fun (_, i) => !is.contains i).map (·.1) }

/-- Works that fail at a layer leave as FAIL frames (R72). -/
def State.failWorks (s : State) (p : Nat) (l : Line) (st : Nat) (ws : List (Nat × Work)) : State :=
  s.each ws fun s (_, w) => (s.leaveWork p w).sendFail p l (reAct w.hdr (l.firstLayer + w.layer) 0 0 w.flags) st

/-- Every step and chunk at a layer of the chip ends with a status, as running work does at PARK and at TRIP (R412, R437). DEDUCED (log
entry 47). -/
def State.haltWorks (s : State) (st : Nat) : State :=
  s.each allParts fun s p =>
    let ws := (s.part p).works
    let s := s.modPart p fun q => { q with works := [] }
    (s.each ws fun s w => match s.line? p w.line with
      | some l => s.failWorks p l st [(0, w)]
      | none => s).settle p

/-- Activation buffers of line `id` that frames hold (R66, R149): works at the member, and frames that drain or have drained, but for one
on port `d`. -/
def State.bufFree (s : State) (p id d : Nat) : Bool :=
  let mine := fun (b : List Byte) => (parseHdr b).typ == 3 && (parseHdr b).dst / 2 % 8 == p && u16 b 40 == id
  let works := ((s.part p).works.filter fun w => w.line == id && w.buf).length
  let whole := (s.delivered.filter fun x => x.part == p && x.port != 8 && x.flits == 0 && mine x.bytes).length
  let part := (s.links.filter fun (i, l) => i != d && l.part.any fun (v, x) => v == 2 && x.way == .here && mine x.bytes).length
  decide (works + whole + part < 4)

/-- An activation frame whose first flit has come on port `d` starts to drain into a buffer of its line while one is free (R149, R229). -/
def State.actDrains (s : State) (p d : Nat) (b : List Byte) : Bool :=
  match s.line? p (u16 b 40) with
  | none => true
  | some l => l.entry || s.bufFree p l.id d

/-- The gathered input of a step starts at the entry member's first layer (R70, R85, R89). -/
def State.startStep (s : State) (p : Nat) (l : Line) (j : Job) : State :=
  let hdr := actHdr j.stream j.first l.id 0 j.count (b2n (j.op == 0x48)) 0 0 0 l.actFmt (j.pkt % 2 ^ 32)
  s.addWork p l hdr (payloadRows l j.count j.input) 0 false

/-- A gate table is bound to a layer of a line with an admitted stream (R94): at the entry member by the streams it knows, at another
member by the slots they hold (log entry 55). -/
def State.tableBusy (s : State) (p t : Nat) : Bool :=
  (s.part p).lines.any fun l =>
    (l.layers.any fun r => (r.tables.take r.gates).contains t)
      && if l.entry then (s.part p).strms.any fun x => x.line == l.id && x.st == .admitted
         else (s.part p).slots.any fun x => x.line == l.id && x.st != .claimed

/-- A job has all its data, or has failed to get it. A table that came to be bound while it was read stays as it is (R94). -/
def State.jobReady (s : State) (p k : Nat) : State :=
  match s.job? p k with
  | none => s
  | some j =>
    if j.need != 0 && j.fail == 0 then s
    else if j.op == 0x49 then
      if j.fail == 0 && s.tableBusy p (j.stream % 8) then s.endJob p j 0x14 0 0
      else if j.fail == 0 then (s.setTable p (j.stream % 8) (slice j.input 0 272)).endJob p j 0 0 0
      else s.endJobX p j j.fail 0 0 (s.readEvent p j) 0xFFFF
    else
      match s.line? p j.line with
      | none => s
      | some l =>
        if j.fail != 0 then
          let s := if j.op == 0x43 then s.dropStrm p j.line j.stream else s
          (s.endJobX p j j.fail 0 0 (s.readEvent p j) 0xFFFF).settle p
        else if j.op == 0x43 then (s.launch p l j 0x20 1 j.input).settle p
        else if j.op == 0x45 then (s.launch p l j 0x23 4 []).settle p
        else s.startStep p l j

/-- Bytes of a job's data arrive from the host. -/
def State.jobData (s : State) (p k off : Nat) (d : List Byte) : State :=
  (s.modJob p k fun j => { j with input := splice j.input off d, need := j.need - d.length }).jobReady p k

/-- A read of a job's data failed. -/
def State.jobFail (s : State) (p k st : Nat) : State := (s.modJob p k fun j => { j with fail := st }).jobReady p k

/-- In-flight packets of a line complete with a status and tear their streams (the chapter's Edges). -/
def State.lineLost (s : State) (p id st : Nat) : State :=
  let js := (s.part p).jobs.filter fun j => j.line == id && j.inFlight
  s.each js fun s j => (if j.op ≥ 0x47 then s.tear p id j.stream else s).endJob p j st 0 0

/-- Complete every packet of a line, in flight or queued, and dissolve the line at this member. -/
def State.dissolveHere (s : State) (p id : Nat) : State :=
  let js := (s.part p).jobs.filter fun j => j.line == id
  let su := (s.part p).setups.filter fun x => x.line.id == id
  let s := s.each js fun s j => s.endJob p j 0x40 0 0
  let s := s.each su fun s x => s.complete x.pkt 0x40 0 []
  (s.modPart p fun q => { q with setups := q.setups.filter fun x => x.line.id != id }).releaseLine p id

/-- A member that is reset tells the other members of its lines that they dissolve. DESIGN CHOICE (log entry 22): the
notice goes to each of them. -/
def State.noticeDissolve (s : State) (p : Nat) : State :=
  s.each (s.part p).lines fun s l =>
    s.each (l.members.filter (· != s.partAddr p)) fun s a => s.sendFrame p 5 6 a 0 0 (noticeBody l.id 1)

end Sys2Proof.Machine
end

