-- ==== Sys2Proof/Machine/TongOps.lean ====
section
/-! DEFINITION. Tongs below their commands (R140 to R142, R370, R371): the descriptor, its check, its copy, its failure,
and host reads that lose their issuer. -/
namespace Sys2Proof.Machine

/-- Tong `t`. -/
def State.tong (s : State) (t : Nat) : Tong := tget {} s.tongs t
/-- Replace tong `t`. -/
def State.setTong (s : State) (t : Nat) (x : Tong) : State := { s with tongs := tset {} s.tongs t x }

/-! Descriptor fields (R140). -/

/-- Source kind: 0 HEARTH, 1 HOST. -/
def dSrcKind (d : List Byte) : Nat := u8 d 0x16 % 16
/-- Destination kind: 0 HEARTH, 1 HOST, 2 EGRESS. -/
def dDstKind (d : List Byte) : Nat := u8 d 0x16 / 16
/-- SRC_ADDR. -/
def dSrc (d : List Byte) : Nat := u64 d 0
/-- DST_ADDR. -/
def dDst (d : List Byte) : Nat := u64 d 8
/-- LENGTH. -/
def dLen (d : List Byte) : Nat := u32 d 0x10
/-- ROWS. -/
def dRows (d : List Byte) : Nat := u16 d 0x14
/-- Address of source row `i`. -/
def dSrcRow (d : List Byte) (i : Nat) : Nat := dSrc d + i * u32 d 0x18
/-- Address of destination row `i`. -/
def dDstRow (d : List Byte) (i : Nat) : Nat := dDst d + i * u32 d 0x1C
/-- Port and VC of an EGRESS descriptor, as port × 8 + VC. -/
def dEgress (d : List Byte) : Nat := bits (dDst d) 2 0 * 8 + bits (dDst d) 6 4
/-- WAIT_SEM. -/
def dWaitSem (d : List Byte) : Nat := u16 d 0x20
/-- SIGNAL_SEM. -/
def dSignalSem (d : List Byte) : Nat := u16 d 0x22
/-- BARRIER. -/
def dBarrier (d : List Byte) : Nat := u16 d 0x26
/-- NEXT. -/
def dNext (d : List Byte) : Nat := u32 d 0x2C
/-- The descriptor ends its list. -/
def dLast (d : List Byte) : Bool := bitAt (u8 d 0x17) 1 || dNext d == 0xFFFFFFFF

/-- The VC that an EGRESS descriptor names is one that frames can take on its port: not VC7, and with receive buffer there,
or carried by the landing ring of a campus port (R140, R193, R253). -/
def State.egressVcOk (s : State) (d : List Byte) : Bool :=
  let port := bits (dDst d) 2 0
  let vc := bits (dDst d) 6 4
  vc != 7 && (s.rf (adrLnkVcBuf port vc) 6 0 != 0 || (decide (6 ≤ port) && (vc == 1 || vc == 3)))

/-- Conditions on the fields of a descriptor, by offset (R138, R140). DESIGN CHOICE (log entry 61): NEXT is checked whatever LAST
says, and bits of DST_ADDR that an EGRESS descriptor does not name are ignored. -/
def State.descFields (s : State) (p : Nat) (d : List Byte) : List FieldOk :=
  let span := fun stride => (dRows d - 1) * stride + dLen d
  [(0, dSrcKind d != 0 || s.inHearth p (dSrc d) (span (u32 d 0x18))),
   (8, (dDstKind d != 0 || s.inHearth p (dDst d) (span (u32 d 0x1C))) && (dDstKind d != 2 || s.egressVcOk d)),
   (0x10, decide (1 ≤ dLen d) && decide (dLen d ≤ 16777216)), (0x14, decide (1 ≤ dRows d)),
   (0x16, decide (dSrcKind d ≤ 1) && decide (dDstKind d ≤ 2)), (0x17, decide (u8 d 0x17 < 4)),
   (0x18, decide (dLen d ≤ u32 d 0x18)), (0x1C, dDstKind d == 2 || decide (dLen d ≤ u32 d 0x1C)),
   (0x20, semOk (dWaitSem d)), (0x22, semOk (dSignalSem d)), (0x24, dWaitSem d == 0xFFFF || u8 d 0x24 != 0),
   (0x25, dSignalSem d == 0xFFFF || u8 d 0x25 != 0), (0x26, decide (dBarrier d ≤ 63) || dBarrier d == 0xFFFF),
   (0x28, decide (u32 d 0x28 ≤ 1000000)),
   (0x2C, dNext d == 0xFFFFFFFF || (aligned 64 (dNext d) && s.inHearth p (dNext d) 48))]

/-- The check of a descriptor (R141 step 1): 0, or the status it fails with. A fabric port that the partition does not own
is NOT_PERMITTED (R327). -/
def State.descBad (s : State) (p : Nat) (d : List Byte) : Nat :=
  if !(failing (s.descFields p d)).isEmpty then 0x11
  else if dDstKind d == 2 && s.portOwner (bits (dDst d) 2 0) != some p then 0x14
  else 0

/-! Host reads that lose their issuer. -/

/-- Reads of an issuer that ended or failed: waiting ones are withdrawn, outstanding ones run on and their data is
discarded. -/
def State.orphan (s : State) (mine : Issuer → Bool) : State :=
  let keep := fun (op : HostOp) => match op with
    | .read _ _ i _ => !mine i
    | _ => true
  let s := s.setHost fun h => { h with
    tags := h.tags.map fun (t, u) => (t, if mine u.iss then { u with iss := .other } else u)
    reqQ := (h.reqQ.map fun (r, l) => (r, l.filter keep)).filter fun (_, l) => !l.isEmpty }
  { s with parts := s.parts.map fun (p, q) => (p, { q with
      proxy := q.proxy.map fun (t, x) => (t, if mine x.iss then { x with iss := .other } else x)
      proxyQ := (q.proxyQ.filter keep).map fun op => match op with
        | .write a d ro i => .write a d ro (if mine i then .other else i)
        | o => o }) }

/-- What a host operation that issuer `i` wrote for becomes when issuer `j` waits for it. -/
def HostOp.passTo (i j : Issuer) (op : HostOp) : HostOp :=
  match op with
  | .write a d ro x => .write a d ro (if x == i then j else x)
  | op => op

/-- The host writes of an issuer that are not done are waited for by another (R321): its tong stops, and its packet's entry
follows them. -/
def State.passWrites (s : State) (p : Nat) (i j : Issuer) : State :=
  (s.setReqs p ((s.reqs p).map (HostOp.passTo i j))).modPart p fun q => { q with
    proxy := q.proxy.map fun (t, x) => (t, if x.write && x.iss == i then { x with iss := j } else x)
    proxyQ := q.proxyQ.map (HostOp.passTo i j) }

/-! Copying (R141 to R142). -/

/-- Bytes that row `i` of a descriptor writes, from the source bytes `b` that stood there: a row is copied in increasing byte order
(R141), so that a Hearth destination that starts `k` bytes inside its source repeats the first `k` bytes. -/
def rowBytes (d : List Byte) (i : Nat) (b : List Byte) : List Byte :=
  let k := dDstRow d i - dSrcRow d i
  if dDstKind d == 0 && 0 < k && k < b.length then (List.range b.length).map fun j => b.getD (j % k) 0 else b

/-- Relaxed Ordering of a tong's data writes (R300). -/
def State.relaxed (s : State) (p : Nat) : Bool := (s.fn (s.fnOf p)).relaxed

/-- Write one row to the destination of tong `t`'s descriptor, Hearth or host. -/
def State.writeRow (s : State) (p t : Nat) (d : List Byte) (i : Nat) (b : List Byte) : State :=
  if dDstKind d == 0 then s.writeHearth p (dDstRow d i) b
  else s.hostWrite p (s.proxied p) (dDstRow d i) b (s.relaxed p) (.tong t)

/-- Copy the listed rows of a descriptor from Hearth, each before the next is read (R141), until one meets poison: the state
reached, and the poisoned words that the copy met (R134). -/
def State.copyRows (p t : Nat) (d : List Byte) : List Nat → State → State × List Nat
  | [], s => (s, [])
  | i :: is, s =>
    let h := s.poisonHits p (dSrcRow d i) (dLen d)
    if h.isEmpty then State.copyRows p t d is (s.writeRow p t d i (rowBytes d i (s.readHearth p (dSrcRow d i) (dLen d)))) else (s, h)

/-- Bytes of a row before its first poisoned word. -/
def State.cleanPart (s : State) (p a : Nat) : Nat → List Byte → List Byte
  | 0, _ => []
  | n + 1, b =>
    let k := 32 - a % 32
    if b.isEmpty || !(s.poisonHits p a (min k b.length)).isEmpty then []
    else b.take k ++ State.cleanPart s p (a + k) n (b.drop k)

/-- Source bytes of the listed rows of a descriptor for EGRESS, up to the first poisoned word, and the poisoned words of the row in
which it lies (R134). -/
def State.gatherRows (s : State) (p : Nat) (d : List Byte) : List Nat → List Byte × List Nat
  | [] => ([], [])
  | i :: is =>
    let b := s.readHearth p (dSrcRow d i) (dLen d)
    let h := s.poisonHits p (dSrcRow d i) (dLen d)
    if h.isEmpty then
      let (r, k) := s.gatherRows p d is
      (b ++ r, k)
    else (s.cleanPart p (dSrcRow d i) (dLen d / 32 + 2) b, h)

/-- Cut a frame stream at the LENGTH of each header; the remainder of a stream without a whole frame goes as it is, marked. -/
def cutFrames : Nat → List Byte → List (List Byte × Bool)
  | 0, _ => []
  | n + 1, b =>
    let l := u32 b 0xC
    if b.isEmpty then []
    else if l < 32 || l > b.length then [(b, true)]
    else (b.take l, false) :: cutFrames n (b.drop l)

/-- What the sending chip fills in a frame that a tong sends (R216, R395). -/
def State.fillHdr (s : State) (p vc : Nat) (b : List Byte) : List Byte :=
  if b.length < 32 then b
  else withCrc (slice b 0 4 ++ leBytes 3 (s.partAddr p) ++ leBytes 1 (s.rf adrAntCfg 17 10) ++ leBytes 2 (s.sliceOf p + vc % 8 * 4096)
    ++ slice b 0xA 18) ++ b.drop 32

/-- Send the bytes of an EGRESS descriptor on its port and VC; `abort` ends the frame that they leave begun with the abort marker
(R134). -/
def State.sendEgress (s : State) (p : Nat) (d : List Byte) (b : List Byte) (abort : Bool) : State :=
  let port := bits (dDst d) 2 0
  let vc := bits (dDst d) 6 4
  s.each (cutFrames (b.length / 32 + 1) b) fun s (f, rest) =>
    if s.antOnly port && (parseHdr f).typ != 9 then s else s.egressPut port { vc := vc, bytes := s.fillHdr p vc f, first := true, abort := abort && rest, cls := false }

/-- 32-byte pieces of a row: offset and bytes, cut at the destination's word boundaries. -/
def wordPieces : Nat → Nat → Nat → List Byte → List (Nat × List Byte)
  | 0, _, _, _ => []
  | n + 1, a, off, b =>
    if b.isEmpty then [] else
    let k := 32 - a % 32
    (off, b.take k) :: wordPieces n (a + k) (off + k) (b.drop k)

/-- A descriptor that stops leaves any mix of old and new whole words at its destination (R141): a free value decides each
word (log entry 3). Poisoned source words give nothing new. -/
def State.mixRow (s : State) (p : Nat) (d : List Byte) (iss : Issuer) (i : Nat) : State :=
  s.each (wordPieces (dLen d / 32 + 2) (dDstRow d i) 0 (s.readHearth p (dSrcRow d i) (dLen d))) fun s (off, b) =>
    let (v, s) := s.free
    if v % 2 == 1 && (s.poisonHits p (dSrcRow d i + off) b.length).isEmpty then
      if dDstKind d == 0 then s.writeHearth p (dDstRow d i + off) b
      else s.hostWrite p (s.proxied p) (dDstRow d i + off) b (s.relaxed p) iss
    else s

/-- Pattern bytes of a FILL. -/
def fillBytes (pat n : Nat) : List Byte := (List.range (n / 4)).flatMap fun _ => leBytes 4 pat

/-- The copy in progress at tong `t` stops (R141, R358). -/
def State.mixTong (s : State) (p t : Nat) : State :=
  let x := s.tong t
  if x.fill then
    match x.pkt.bind s.pkt with
    | none => s
    | some k =>
      s.each (List.range (u32 k.bytes 0x18 / 32)) fun s i =>
        let (v, s) := s.free
        if v % 2 == 1 then s.writeHearth p (u32 k.bytes 0x14 + 32 * i) (fillBytes (u32 k.bytes 0x1C) 32) else s
  else if x.copying && !x.acking && dSrcKind x.desc == 0 && dDstKind x.desc != 2 then
    s.each (List.range (dRows x.desc)) fun s i => s.mixRow p x.desc (.tong t) i
  else s

/-- Release the ports and VCs that tong `t` holds (R142). -/
def State.dropEgress (s : State) (t : Nat) : State := { s with egress := s.egress.filter fun (_, h) => h != t }

/-- The wait of tong `t`'s descriptor ends unmet or unused. -/
def State.dropTongWait (s : State) (p t : Nat) : State :=
  let x := s.tong t
  if x.waitMade then (s.semDrop p (dWaitSem x.desc) (.tong t)).takeGrant (.tong t) else s

/-- Stop tong `t` with STATE `st` and no descriptor completed. -/
def State.stopTong (s : State) (p t : Nat) (st : TongSt) : State :=
  let c := (s.tong t).cur
  let s := ((s.mixTong p t).dropTongWait p t).dropEgress t
  let s := (s.tong t).pkt.elim s fun k => s.passWrites p (.tong t) (.input p k)
  (s.orphan (· == .tong t)).setTong t { st := st, cur := if st == .idle then 0xFFFFFFFF else c }

/-! Lists (R141, R370). -/

/-- RESULT of a tong packet. -/
def tongResult (x : Tong) : List Byte := leBytes 4 x.done ++ leBytes 8 x.moved

/-- The descriptor of tong `t` fails (R141): the list stops, 0x1104 is recorded, and the packet completes; `off` is its
PARAM_OFFSET (R348). -/
def State.failTongX (s : State) (p t status off : Nat) : State :=
  let x := s.tong t
  match x.pkt with
  | none => s
  | some k => ((s.stopTong p t .failed).event 0x1104 t p).completeX k status 0 (tongResult x) 0x1104 off

/-- The descriptor of tong `t` fails with a status. -/
def State.failTong (s : State) (p t status : Nat) : State := s.failTongX p t status 0xFFFF

/-- The descriptor of tong `t` fails its check; the first failing field of a descriptor that the packet carries has an offset
in the entry (R348, R370). -/
def State.failDesc (s : State) (p t op : Nat) : State :=
  let x := s.tong t
  s.failTongX p t (s.descBad p x.desc)
    (if op == 0x10 && x.done == 0 then 0x10 + (minNat? (failing (s.descFields p x.desc))).getD 0xFFEF else 0xFFFF)

/-- Load the descriptor at a local address into tong `t`. -/
def State.loadDesc (s : State) (p t a : Nat) : State :=
  let x := s.tong t
  let (d, s) := s.load p a 48
  let x := { x with cur := a, waitMade := false, copying := false, reads := 0, buf := [], st := .running, acking := false }
  match d with
  | some d => s.setTong t { x with desc := d }
  | none => (s.setTong t { x with desc := [] }).failTong p t 0x7F

/-- Progress interrupt of a descriptor (R141 step 5). -/
def State.progressIrq (s : State) (p k : Nat) : State :=
  match s.pkt k with
  | none => s
  | some x =>
    let j := s.boundCq p x.sq
    if s.rf (adrCmdCqIrq p j) 6 6 == 0 then s
    else if s.rf (adrCmdCqCfg p j) 6 5 == 2 then
      s.sendFrame p 8 6 (s.rf (adrPciProxyCfg p) 23 0) 0 0 (mgmtBody 2 0 0 (s.rf (adrCmdCqIrq p j) 5 0))
    else s.enq p [.msg (s.fnOf p) (s.rf (adrCmdCqIrq p j) 5 0)]

/-- The descriptor's last byte is visible (R141 steps 4 to 6): signal, arrival, progress interrupt, next descriptor or the
end of the list. DESIGN CHOICE (log entry 61): TNG_CURRENT reads 0xFFFF_FFFF after a list that ended in success, and while a
descriptor carried by its packet or a FILL runs. -/
def State.descDone (s : State) (p t k : Nat) : State :=
  let x := s.tong t
  let d := x.desc
  let s := s.dropEgress t
  let s := if dSignalSem d ≤ 255 then s.semSignal p (dSignalSem d) (u8 d 0x25) else s
  let s := if dBarrier d ≤ 63 then s.arrive p (dBarrier d) 1 else s
  let x := { x with done := x.done + 1, moved := x.moved + dRows d * dLen d }
  if dLast d then (s.setTong t {}).done k (tongResult x)
  else
    let s := if bitAt (u8 d 0x17) 0 then s.progressIrq p k else s
    (s.setTong t x).loadDesc p t (dNext d)

/-- Every byte of a descriptor is on its way: the descriptor is done, or waits until its host writes are issued (R151, R298) and
its proxied writes acknowledged (R321). -/
def State.descSent (s : State) (p t k : Nat) : State :=
  if s.writesOut p (.tong t) then s.setTong t { s.tong t with acking := true } else s.descDone p t k

end Sys2Proof.Machine
end

