-- ==== Sys2Proof/Machine/Faults.lean ====
section
/-! DEFINITION. Faults and their containment (R133, R338, R496 to R513): stopping work, FAULTED partitions, escalation,
ECC findings in Hearth, and chip-fatal faults. -/
namespace Sys2Proof.Machine

/-! Tongs and anvils that stop. -/

/-- Anvil `a`. -/
def State.anvil (s : State) (a : Nat) : Anvil := tget {} s.anvils a
/-- Replace anvil `a`. -/
def State.setAnvil (s : State) (a : Nat) (x : Anvil) : State := { s with anvils := tset {} s.anvils a x }

/-- A buffer without one region (R373). -/
def WBuf.drop (b : WBuf) (i : Nat) : WBuf := { b with regions := b.regions.filter fun r => r.id != i }

/-- The loading buffer. -/
def Anvil.loading (a : Anvil) : WBuf := if a.active == 0 then a.buf1 else a.buf0
/-- Replace the loading buffer. -/
def Anvil.setLoading (a : Anvil) (b : WBuf) : Anvil := if a.active == 0 then { a with buf1 := b } else { a with buf0 := b }
/-- The active buffer. -/
def Anvil.activeBuf (a : Anvil) : WBuf := if a.active == 0 then a.buf0 else a.buf1
/-- Regions of the active buffer (R127), those that hold recurrent matrices among them (R170). -/
def Anvil.regionCount (a : Anvil) : Nat := if a.activeBuf.invalid then 0 else a.activeBuf.regions.length + a.shadow.length
/-- Replace the active buffer. -/
def Anvil.setActive (a : Anvil) (b : WBuf) : Anvil := if a.active == 0 then { a with buf0 := b } else { a with buf1 := b }

/-- Seed the lane generators (R124): once the instruction that the vector unit runs has ended. -/
def Anvil.seedWith (v : Anvil) (seed : Nat) : Anvil :=
  if v.vec.isSome then { v with seedNext := some seed } else { v with seed := seed, lfsr := [], seedNext := none }

/-- The vector unit's instruction ends; a seed that waited for it is taken (R124). -/
def Anvil.leaveVec (v : Anvil) : Anvil :=
  match v.seedNext with
  | some n => { v with vec := none, seed := n, lfsr := [], seedNext := none }
  | none => { v with vec := none }

/-- Work of an anvil whose packet satisfies `mine` ends with nothing written; a stopped load leaves its REGION absent
(R373). -/
def Anvil.stop (a : Anvil) (mine : Nat → Bool) (region : Nat → Nat) : Anvil :=
  let a := match a.load with
    | some k => if mine k then { a.setLoading (a.loading.drop (region k)) with load := none } else a
    | none => a
  let a := match a.vec with
    | some k => if mine k then a.leaveVec else a
    | none => a
  { a with passes := a.passes.filter fun k => !mine k }

/-- Stop the work of the packets that `mine` selects, at every tong and anvil (R338, R358). -/
def State.stopWork (s : State) (p : Nat) (mine : Nat → Bool) (st : TongSt) : State :=
  let s := s.each (List.range 32) fun s t =>
    match (s.tong t).pkt with
    | some k => if mine k then s.stopTong p t st else s
    | none => s
  let reg := fun k => (s.pkt k).elim 16 fun x => u8 x.bytes 0x11
  s.each (List.range 8) fun s a => s.setAnvil a ((s.anvil a).stop mine reg)

/-- Packets of partition `p` fetched and not yet completed, in fetch order. -/
def State.pktsOf (s : State) (p : Nat) : List Nat := (s.pkts.filter fun (_, x) => x.part == p).map (·.1)

/-- Complete every packet of partition `p` with a status (R334, R338). -/
def State.failAll (s : State) (p st : Nat) : State := s.each (s.pktsOf p) fun s k => s.failPkt k st

/-! Partition faults (R338, R498 to R500). -/

/-- Whether partition `p` is FAULTED or RESETTING, where a further fault changes nothing. -/
def State.down (s : State) (p : Nat) : Bool :=
  match (s.part p).st with
  | .faulted _ => true
  | .resetting _ => true
  | _ => false

/-- Fetching from the rings of partition `p` stops (R334 step 1, R338): a burst in flight is given up with the reservations of its
entries, its reads lose their issuer, and no fetched packet is dispatched any more. -/
def State.stopFetch (s : State) (p : Nat) : State :=
  let s := s.each (List.range 16) fun s i =>
    let q := s.sq p i
    let j := s.boundCq p i
    let c := s.cq p j
    let n := q.burst.elim 0 (·.count) + b2n q.half.isSome
    (s.setCq p j { c with reserved := c.reserved - n }).setSq p i
      { q with burst := none, half := none, fetched := [], stopReq := false, st := if q.stopReq then .stopped else q.st }
  s.orphan fun i => match i with
    | .fetch q _ => q == p
    | _ => false

/-- Frames that wait at a partition as it becomes RESETTING or FAULTED are dropped as those that arrive later (R336, R500). -/
def State.dropDelivered (s : State) (p : Nat) : State :=
  s.each (s.delivered.filter fun d => d.part == p && !s.relayed p d.bytes) fun s d =>
    { s with delivered := s.delivered.erase d }.dropFrame d.port d.vc p d.flits

/-- ABORT of every open lap of partition `p` that may still originate it (R49, R500). -/
def State.abortAll (s : State) (p : Nat) : State := s.each [0, 1] fun s r => s.originateAbort p r

/-- A chip-fatal fault (R501, R502 steps 1 to 4); a further one while one runs is recorded only. -/
def State.chipFatal (s : State) (cause book : Nat) : State :=
  let s := s.eventD 0x600E 0 0xFF (if cause == 4 then [cause, book] else [cause])
  if s.fatal.isSome then s
  else
    let s := if s.shedOn then s else s.bump adrShedEvents
    let s := { s.setRf adrGlbFaultStatus 15 8 cause with fatal := some cause }
    let s := s.each allParts fun s p => (s.abortAll p).noticeAll p
    let s := if cause == 1 then s.aer 0 true 22 2 else s.noticePf
    s.startPersist 0 []

/-- Cycles in 60 s. -/
def minuteCycles : Nat := msCycles 60000

/-- Partitions FAULTED with cause 1 or 2 within the last 60 s. -/
def State.recentFaults (s : State) : List Nat :=
  (s.faultTimes.filter fun (_, t) => decide (s.osc ≤ t + minuteCycles)).map (·.1)

/-- Partition `p` becomes FAULTED with a cause (R338, R500): its packets complete with INTERNAL, laps abort, lines break,
the notice vectors are sent; three distinct partitions within 60 s are chip-fatal (R501). -/
def State.faultPartition (s : State) (p cause : Nat) : State :=
  let s := s.eventD 0x0204 p p [cause]
  if s.down p then s
  else
    let lock := s.hasLock p
    let s := (s.modPart p fun q => { q with st := .faulted lock }).stopFetch p
    let s := s.stopWork p (fun k => (s.pktsOf p).contains k) .failed
    let s := s.failAll p 0x7F
    let s := (s.modPart p fun q => { q with jobs := [], setups := [], modePend := none }).each [0, 1] fun s r => s.modLap p r Lap.unopened
    let s := (((s.abortAll p).noticeAll p).dropDelivered p).noticePf.noticeVf p
    let s := { s with faultTimes := (p, s.osc) :: (s.faultTimes.filter fun (_, t) => decide (s.osc ≤ t + minuteCycles)) }
    if s.recentFaults.eraseDups.length ≥ 3 then s.chipFatal 5 0 else s

/-- Counted fault events of partition `p` still inside ESC_WINDOW (R498). -/
def State.escWindow (s : State) (p : Nat) : List Nat :=
  (s.part p).esc.filter fun t => decide (s.osc ≤ t + msCycles (s.rf adrGlbFaultCfg 19 8))

/-- Count a fault event against partition `p`; ESC_COUNT of them within ESC_WINDOW fault it (R498). -/
def State.countFault (s : State) (p : Nat) : State :=
  let l := s.escWindow p ++ [s.osc]
  let s := s.modPart p fun q => { q with esc := l, escTotal := min (q.escTotal + 1) 0xFFFFFF }
  if l.length ≥ s.rf adrGlbFaultCfg 7 0 && !s.down p then s.faultPartition p 1 else s

/-- Count a fault event of a unit with its owner, if it has one. -/
def State.countOwner (s : State) (o : Option Nat) : State :=
  match o with
  | some p => s.countFault p
  | none => s

/-! ECC findings in Hearth (R133, R134). -/

/-- A read finds an error in physical 32-byte word `w` (R133). -/
def State.eccHearth (s : State) (w : Nat) (uncorr : Bool) : State :=
  let o := s.granOwner (w * 32 / granBytes)
  let p := o.getD 0xFF
  let die := lineDie (32 * w)
  if w ≥ 0x4000000 then s
  else if uncorr then
    let s := { s with hrt := { s.hrt with poison := insNat s.hrt.poison w } }
    ((s.event 0x1102 die p).bump adrHrtEccPoisoned).countOwner o
  else (s.event 0x1101 die p).bump adrHrtEccCorrected

/-- The errors that the reads of a command find. -/
def State.eccFinds (s : State) (l : List (Nat × Bool)) : State := s.each l fun s (w, u) => s.eccHearth w u

end Sys2Proof.Machine
end

