-- ==== Sys2Proof/Machine/AnvilOps.lean ====
section
/-! DEFINITION. Anvils and vector units below their commands (R100 to R126, R373 to R376). -/
namespace Sys2Proof.Machine

/-! Accumulators (R104, R105). -/

/-- Accumulator lane `l` of row `r`, as code + 2^32 × tag: tag 0 for FP32, 1 + ACC_FRAC for INT32. -/
def Anvil.lane (a : Anvil) (r l : Nat) : Nat := tget 0 a.acc (r * 512 + l)

/-- Write consecutive lanes of a row; a lane written whole is correctable again when `clear` is set (R105). -/
def Anvil.putLanes (a : Anvil) (r l : Nat) (vs : List Nat) (clear : Bool) : Anvil :=
  { a with
    acc := vs.zipIdx.foldl (fun t (v, i) => tset 0 t (r * 512 + l + i) v) a.acc
    unc := if clear then a.unc.filter (fun w => !(decide (r * 512 + l ≤ w) && decide (w < r * 512 + l + vs.length))) else a.unc }

/-- A lane of rows `r` to `r + n - 1`, lanes `l` to `l + k - 1`, is uncorrectable. -/
def Anvil.uncIn (a : Anvil) (r n l k : Nat) : Bool :=
  a.unc.any fun w => decide (r ≤ w / 512) && decide (w / 512 < r + n) && decide (l ≤ w % 512) && decide (w % 512 < l + k)

/-- Findings of the accumulator's SEC-DED (R105): corrected errors count, uncorrectable lanes stay so. -/
def State.accFinds (s : State) (a : Nat) (l : List (Nat × Bool)) : State :=
  s.each l fun s (w, u) =>
    if u then (let x := s.anvil a; s.setAnvil a { x with unc := insNat x.unc w }) else s.bump (adrAnvEccCorrected a)

/-- Accumulator lane as FP32 (R375). -/
def laneF32 (v : Nat) : Nat := if v < 2 ^ 32 then v else intToF32 (v / 2 ^ 32 - 1) (v % 2 ^ 32)

/-! Weight loads (R103, R105, R373). -/

/-- The region that a WEIGHT_LOAD describes, without its tiles. -/
def loadRegion (b : List Byte) : Region :=
  { id := u8 b 0x11, fmt := u8 b 0x12, paired := bitAt (u8 b 0x13) 0, rowBase := u16 b 0x14, rows := u16 b 0x16,
    colBase := u16 b 0x18, cols := u16 b 0x1A, tile := [], tile2 := [] }

/-- NEW of a WEIGHT_LOAD. -/
def loadNew (b : List Byte) : Bool := bitAt (u8 b 0x13) 1

/-- Bytes of one tile of a WEIGHT_LOAD. -/
def loadLen (b : List Byte) : Nat := tileBytes (u8 b 0x12) (u16 b 0x16) (u16 b 0x1A)

/-- Start a weight load (R373): NEW discards every region, a region of the same number is discarded, and overlap, a 17th region or an
invalid buffer without NEW completes with BAD_PARAM. The regions in which the anvil holds recurrent matrices (R170) stay. -/
def State.startLoad (s : State) (k : Nat) (x : Pkt) : State :=
  let a := u8 x.bytes 0x10
  let v := s.anvil a
  let r := loadRegion x.bytes
  let buf := if loadNew x.bytes then { v.loading with regions := [] } else v.loading.drop r.id
  if v.loading.invalid && !loadNew x.bytes then s.badParam k 0x13
  else if buf.regions.any r.overlaps || v.shadow.any (fun (_, _, q) => q.overlaps r) then s.badParam k 0x14
  else if buf.regions.length + v.shadow.length ≥ 16 then s.badParam k 0x11
  else s.setAnvil a { v.setLoading buf with load := some k }

/-- Record a weight buffer parity error (R105) and count it against the owner (R498). -/
def State.parityError (s : State) (a p : Nat) : State := (s.event 0x1004 a p).countFault p

/-- A weight load completes (R103, R105): the region joins the loading buffer, or a poisoned tile invalidates it. -/
def State.endLoad (s : State) (a k : Nat) (x : Pkt) : State :=
  let b := x.bytes
  let n := loadLen b
  let r := loadRegion b
  let (t1, s) := s.load x.part (u32 b 0x1C) n
  let (t2, s) := if r.paired then s.load x.part (u32 b 0x20) n else (some [], s)
  let v := { s.anvil a with load := none }
  match t1, t2 with
  | some t1, some t2 =>
    let full : Region := { r with tile := t1, tile2 := t2 }
    let buf : WBuf := ⟨v.loading.regions ++ [full], v.loading.invalid && !loadNew b⟩
    (s.setAnvil a (v.setLoading buf)).done k (leBytes 4 (if r.paired then 2 * n else n))
  | _, _ => ((s.setAnvil a (v.setLoading { regions := [], invalid := true })).failEv k 0x7F 0x1004).parityError a x.part

/-! Passes (R101 to R106, R115 to R120, R374). -/

/-- Region `i` of a buffer, unless the buffer is invalid. -/
def WBuf.region? (b : WBuf) (i : Nat) : Option Region := if b.invalid then none else b.regions.find? fun r => r.id == i

/-- SWAP of a PASS. -/
def passSwap (b : List Byte) : Bool := bitAt (u8 b 0x18) 1

/-- Offset of the first field of a PASS that its region forbids (R374). -/
def State.passBad (s : State) (p : Nat) (b : List Byte) (buf : WBuf) : Option Nat :=
  match buf.region? (u8 b 0x11) with
  | none => some 0x11
  | some r =>
    let n := u16 b 0x14 * (if r.paired then 2 else 1)
    if r.fmt != u8 b 0x12 then some 0x12
    else if u16 b 0x16 + n > 1024 then some 0x16
    else if !s.inHearth p (u32 b 0x1C) (u16 b 0x14 * vecBytes (u8 b 0x13) r.rows) then some 0x1C
    else none

/-- Start a pass: SWAP makes the loaded buffer active first (R103, R374). -/
def State.startPass (s : State) (k : Nat) (x : Pkt) : State :=
  let a := u8 x.bytes 0x10
  let v := s.anvil a
  match s.passBad x.part x.bytes (if passSwap x.bytes then v.loading else v.activeBuf) with
  | some o => s.badParam k o
  | none =>
    let v := if passSwap x.bytes then { v with active := 1 - v.active % 2 } else v
    s.setAnvil a { v with passes := v.passes ++ [k] }

/-- Write one accumulator row of a pass over its old lanes (R104, R118): the anvil, saturations, NaN-scale outputs. An ACCUMULATE pass
takes the 32 bits of the lane as its own kind reads them, whatever pass wrote them last, and the lane is then of its kind. DESIGN CHOICE
(log entry 75): the manual does not say what such a mixture gives. -/
def passRow (int : Bool) (frac : Nat) (accum : Bool) (r col : Nat) (outs : List OutLane) (st : Anvil × Nat × Nat) :
    Anvil × Nat × Nat :=
  let (a, sat, nan) := st
  let old := outs.zipIdx.map fun (o, i) => accLane int accum (a.lane r (col + i) % 2 ^ 32) o
  let tag := if int then (1 + frac) * 2 ^ 32 else 0
  (a.putLanes r col (old.map fun c => c.1 + tag) (!accum), old.foldl (fun n c => n + c.2) sat,
    outs.foldl (fun n o => n + b2n o.nanScale) nan)

/-- All rows of a pass. -/
def passRows (v : Anvil) (r : Region) (af frac nv row : Nat) (accum : Bool) (vecs : List Byte) : Anvil × Nat × Nat :=
  let int := r.fmt == 6 || r.fmt == 7
  let fr := if r.fmt == 7 then frac else 0
  let step := vecBytes af r.rows
  (List.range nv).foldl (fun st i =>
    let vec := slice vecs (step * i) step
    let o1 := passTile r.fmt af fr r.rows r.cols r.tile vec
    if r.paired then
      passRow int fr accum (row + 2 * i + 1) r.colBase (passTile r.fmt af fr r.rows r.cols r.tile2 vec)
        (passRow int fr accum (row + 2 * i) r.colBase o1 st)
    else passRow int fr accum (row + i) r.colBase o1 st) (v, 0, 0)

/-- The oldest pass of an anvil ends (R104, R105, R118, R152): a parity error or an uncorrectable lane leaves every row
unwritten. -/
def State.endPass (s : State) (a k : Nat) (x : Pkt) (parity : Bool) : State :=
  let b := x.bytes
  let p := x.part
  let v := { s.anvil a with passes := (s.anvil a).passes.filter (· != k) }
  match v.activeBuf.region? (u8 b 0x11) with
  | none => (s.setAnvil a v).badParam k 0x11
  | some r =>
    let nv := u16 b 0x14
    let (vecs, s) := s.load p (u32 b 0x1C) (nv * vecBytes (u8 b 0x13) r.rows)
    let accum := bitAt (u8 b 0x18) 0
    let rows := nv * (if r.paired then 2 else 1)
    match (if parity then none else vecs) with
    | none => ((s.setAnvil a (v.setActive { regions := [], invalid := true })).failEv k 0x7F 0x1004).parityError a p
    | some d =>
      if accum && v.uncIn (u16 b 0x16) rows r.colBase r.cols then
        (((s.setAnvil a v).failEv k 0x7F 0x1005).event 0x1005 a p).countFault p
      else
        let (v, sat, nan) := passRows v r (u8 b 0x13) (s.rf (adrVecCvtCfg p) 12 8) nv (u16 b 0x16) accum d
        let s := ((s.setAnvil a v).bumpBy (adrAnvIntSat a) sat).bumpBy (adrAnvNanScale a) nan
        let s := ((s.onceEvent 0x1001 a p sat).onceEvent 0x1002 a p nan).bump (adrPasses a)
        s.done k (leBytes 4 (passLatency r.rows + nv - 1))

/-! Conversions with stochastic rounding (R122 to R124). -/

/-- Generator state of lane `l` of anvil `n` (R124). -/
def Anvil.gen (v : Anvil) (n l : Nat) : Nat := tget (laneSeed v.seed n l) v.lfsr l

/-- Draws of consecutive lanes, one each. -/
def Anvil.draws (v : Anvil) (n l count : Nat) : List Nat × Anvil :=
  let ds := (List.range count).map fun i => lfsrDraw (v.gen n (l + i))
  (ds, { v with lfsr := ds.zipIdx.foldl (fun t (d, i) => tput t (l + i) d) v.lfsr })

/-- SAT of an instruction (R122): its override, or VEC_CVT_CFG.SAT. -/
def State.satOf (s : State) (p flags : Nat) : Bool :=
  if bitAt flags 1 then bitAt flags 2 else s.rf (adrVecCvtCfg p) 0 0 == 1

/-- Convert rows of FP32 lanes to vectors of a format, drawing lane by lane for stochastic rounding. -/
def convertRows (fmt : Nat) (sat sr : Bool) (n l : Nat) : List (List Nat) → Anvil → List Byte × Anvil
  | [], v => ([], v)
  | xs :: t, v =>
    let (ds, v) := if sr && fmt != 8 then (let (d, v) := v.draws n l xs.length; (some d, v)) else (none, v)
    let (rest, v) := convertRows fmt sat sr n l t v
    (vecEncode fmt sat (xs.map val32) ds ++ rest, v)

/-- Count NaN values converted to an integer format (R122, R547). -/
def State.noteNan (s : State) (a p fmt : Nat) (rows : List (List Nat)) : State :=
  let n := rows.foldl (fun n xs => n + nanToInt fmt (xs.map val32)) 0
  (s.bumpBy (adrVecNanToInt p) n).onceEvent 0x1006 a p n

/-! Epilogues (R375). -/


/-- Rows of an epilogue as FP32 lanes. -/
def Anvil.rowsF32 (v : Anvil) (r n l k : Nat) : List (List Nat) :=
  (List.range n).map fun i => (List.range k).map fun j => laneF32 (v.lane (r + i) (l + j))

/-- Start an epilogue: an invalid TABLE completes with BAD_PARAM (R91, R375). -/
def State.startEpilogue (s : State) (k : Nat) (x : Pkt) : State :=
  let t := u8 x.bytes 0x12
  if t != 0xFF && !tableValid (s.table x.part t) then s.badParam k 0x12
  else let a := u8 x.bytes 0x10; s.setAnvil a { s.anvil a with vec := some k }

/-- An epilogue ends (R375): its vectors are written, unless it met an uncorrectable lane (R105). -/
def State.endEpilogue (s : State) (a k : Nat) (x : Pkt) : State :=
  let b := x.bytes
  let p := x.part
  let v := (s.anvil a).leaveVec
  let (r, n, l, c) := (u16 b 0x14, u16 b 0x16, u16 b 0x18, u16 b 0x1A)
  if v.uncIn r n l c then (((s.setAnvil a v).failEv k 0x7F 0x1005).event 0x1005 a p).countFault p
  else
    let rows := v.rowsF32 r n l c
    let t := u8 b 0x12
    let nans := if t == 0xFF then 0 else rows.foldl (fun m xs => m + nanCount xs) 0
    let rows := if t == 0xFF then rows else rows.map fun xs => xs.map (pwl (s.table p t))
    let (d, v) := convertRows (u8 b 0x11) (s.satOf p (u8 b 0x13)) (bitAt (u8 b 0x13) 0) a l rows (s.anvil a)
    let s := ((s.setAnvil a v.leaveVec).notePwlNan p 0xFF nans).noteNan a p (u8 b 0x11) rows
    (s.writeHearth p (u32 b 0x1C) d).done k []

/-! Vector operations (R126, R376). -/

/-- One lane of an elementwise operation of R376. -/
def vecLane (op a b c : Nat) : Nat :=
  match op with
  | 0x1 => fAdd a b
  | 0x2 => fSub a b
  | 0x3 => fMul a b
  | 0x4 => fFma a b c
  | 0x5 => fMin a b
  | 0x6 => fMax a b
  | 0x7 => fAbs a
  | 0x8 => fNeg a
  | 0x9 => if c % 2 ^ 31 != 0 then a else b
  | 0xA => fBool (eqX (val32 a) (val32 b))
  | 0xB => fBool (ltX (val32 a) (val32 b))
  | 0xC => fBool (ltX (val32 a) (val32 b) || eqX (val32 a) (val32 b))
  | _ => a

/-- A row reduction (R126, R376): +0 takes the place of missing leaves for a sum; max and min skip them. -/
def rowReduce (op : Nat) (xs : List Nat) : Nat :=
  match op with
  | 0x10 => (reduce fAdd 9 (xs ++ List.replicate (512 - xs.length) 0)).headD 0
  | 0x11 => (reduce fMax 9 xs).headD 0
  | _ => (reduce fMin 9 xs).headD 0

/-- `lanes` FP32 values of row `i` of a block of operand rows. -/
def rowAt (lanes : Nat) (d : List Byte) (i : Nat) : List Nat :=
  let r := d.drop (i * roundUp (4 * lanes) 64)
  (List.range lanes).map fun j => u32 r (4 * j)

/-- FP32 values padded to 64 bytes; every NaN is written canonical (R109). -/
def padRow (xs : List Nat) : List Byte :=
  let b := xs.flatMap fun c => leBytes 4 (if isNan c then 0x7FC00000 else c)
  slice b 0 (roundUp b.length 64)

/-- Result rows of an elementwise, gate or scan operation. -/
def vecRows (op rows lanes : Nat) (tab a b c : List Byte) : List (List Nat) :=
  if op == 0x19 then (List.range rows).map fun i => (rowAt lanes a i).map (pwl tab)
  else if op == 0x1A then
    let h0 := rowAt lanes c 0
    let as := (List.range rows).map (rowAt lanes a)
    let bs := (List.range rows).map (rowAt lanes b)
    let cols := (List.range lanes).map fun l =>
      scanLane (h0.getD l 0) ((as.map fun r => r.getD l 0).zip (bs.map fun r => r.getD l 0))
    (List.range rows).map fun i => cols.map fun h => h.getD i 0
  else
    (List.range rows).map fun i =>
      let x := rowAt lanes a i
      let y := rowAt lanes b i
      let z := rowAt lanes c i
      (List.range lanes).map fun l => vecLane op (x.getD l 0) (y.getD l 0) (z.getD l 0)

/-- Start a vector operation: GATE with an invalid TABLE completes with BAD_PARAM (R91). -/
def State.startVec (s : State) (k : Nat) (x : Pkt) : State :=
  let b := x.bytes
  if u8 b 0x10 == 0x19 && !tableValid (s.table x.part (u8 b 0x28)) then s.badParam k 0x28
  else let a := u8 b 0x13; s.setAnvil a { s.anvil a with vec := some k }

/-- A source of a vector operation, empty when unused. -/
def State.vecSrc (s : State) (p : Nat) (used : Bool) (a n : Nat) : Option (List Byte) × State :=
  if used then s.load p a n else (some [], s)

/-- A vector operation ends (R376): its rows are written, or nothing when it read a poisoned word (R134). -/
def State.endVec (s : State) (a k : Nat) (x : Pkt) : State :=
  let b := x.bytes
  let p := x.part
  let op := u8 b 0x10
  let (rows, lanes) := (u16 b 0x24, u16 b 0x26)
  let n := rows * roundUp (4 * lanes) 64
  let (ua, ub, uc) := vecOpUses op
  let (da, s) := s.vecSrc p ua (u32 b 0x14) n
  let (db, s) := s.vecSrc p ub (u32 b 0x18) n
  let (dc, s) := s.vecSrc p uc (u32 b 0x1C) (if op == 0x1A then roundUp (4 * lanes) 64 else n)
  let w := s.anvil a
  let s := s.setAnvil a w.leaveVec
  match da, db, dc with
  | some da, some db, some dc =>
    let dst := u32 b 0x20
    let ra := (List.range rows).map (rowAt lanes da)
    if 0x10 ≤ op && op ≤ 0x12 then (s.writeHearth p dst (padRow (ra.map (rowReduce op)))).done k []
    else if op == 0x18 then
      let (d, v) := convertRows (u8 b 0x11) (s.satOf p (u8 b 0x12)) (bitAt (u8 b 0x12) 0) a 0 ra w
      (((s.setAnvil a v.leaveVec).noteNan a p (u8 b 0x11) ra).writeHearth p dst d).done k []
    else
      let s := if op == 0x19 then s.notePwlNan p 0xFF (ra.foldl (fun m xs => m + nanCount xs) 0) else s
      (s.writeHearth p dst ((vecRows op rows lanes (s.table p (u8 b 0x28)) da db dc).flatMap padRow)).done k []
  | _, _, _ => s.failEv k 0x7F 0x1103

/-- Act on packet `k` while it is still in the machine. -/
def State.withPkt (s : State) (k : Nat) (f : Pkt → State → State) : State :=
  match s.pkt k with
  | none => s
  | some x => f x s

end Sys2Proof.Machine
end

