-- ==== Sys2Proof/Machine/Anvils.lean ====
section
/-! DEFINITION. The commands of anvils and vector units (R373 to R376). Parity and ECC findings are operands: `parity`
for the weight buffer, `ecc` for words of Hearth, `acc` for accumulator lanes; true marks an uncorrectable one. -/
namespace Sys2Proof.Machine

/-- WEIGHT_LOAD (R373): it starts when no earlier load of the anvil runs and the STOP level allows (R437). -/
def execWeightLoad (k : Nat) (s : State) : Res :=
  runWhen 0x20 k (fun x => (s.anvil (u8 x.bytes 0x10)).load.isNone && !s.stopOn (u8 x.bytes 0x10))
    (fun x s => s.startLoad k x) s

/-- A weight load completes (R103). -/
def execWeightLoadDone (a : Nat) (ecc : List (Nat × Bool)) (s : State) : Res :=
  .next (match (s.anvil a).load with
    | none => s
    | some k => (s.eccFinds ecc).withPkt k fun x s => s.endLoad a k x)

/-- PASS (R374): with SWAP it waits for the load to complete and for running passes to end (R103). -/
def execPass (k : Nat) (s : State) : Res :=
  runWhen 0x21 k (fun x =>
      let v := s.anvil (u8 x.bytes 0x10)
      (!passSwap x.bytes || (v.load.isNone && v.passes.isEmpty)) && s.issueOn x.part && !s.stopOn (u8 x.bytes 0x10))
    (fun x s => s.startPass k x) s

/-- The oldest pass of anvil `a` writes its last row and completes (R152). -/
def execPassDone (a : Nat) (parity : Bool) (ecc acc : List (Nat × Bool)) (s : State) : Res :=
  .next (match (s.anvil a).passes with
    | [] => s
    | k :: _ => ((s.eccFinds ecc).accFinds a acc).withPkt k fun x s => s.endPass a k x parity)

/-- A vector unit is free and every earlier pass of its anvil has written its rows (R367). -/
def Anvil.vecFree (v : Anvil) : Bool := v.vec.isNone && v.passes.isEmpty

/-- EPILOGUE (R375). -/
def execEpilogue (k : Nat) (s : State) : Res :=
  runWhen 0x22 k (fun x => (s.anvil (u8 x.bytes 0x10)).vecFree && s.issueOn x.part && !s.stopOn (u8 x.bytes 0x10))
    (fun x s => s.startEpilogue k x) s

/-- An epilogue ends after 14 + ROWS cycles (R375). -/
def execEpilogueDone (a : Nat) (acc : List (Nat × Bool)) (s : State) : Res :=
  .next (match (s.anvil a).vec with
    | none => s
    | some k => (s.accFinds a acc).withPkt k fun x s => if x.opcode == 0x22 then s.endEpilogue a k x else s)

/-- VEC_OP (R376). -/
def execVecOp (k : Nat) (s : State) : Res :=
  runWhen 0x23 k (fun x => (s.anvil (u8 x.bytes 0x13)).vecFree && s.issueOn x.part && !s.stopOn (u8 x.bytes 0x13))
    (fun x s => s.startVec k x) s

/-- A vector operation ends after its latency (R376). -/
def execVecOpDone (a : Nat) (ecc : List (Nat × Bool)) (s : State) : Res :=
  .next (match (s.anvil a).vec with
    | none => s
    | some k => (s.eccFinds ecc).withPkt k fun x s => if x.opcode == 0x23 then s.endVec a k x else s)

end Sys2Proof.Machine
end

