-- ==== Sys2Proof/Machine/NvsOps.lean ====
section
/-! DEFINITION. The flash store below its commands (R451 to R468): bytes, sector headers and states, the erase ledger, the
boot descriptor, images and configurations. -/
namespace Sys2Proof.Machine

/-- Replace the flash store's state. -/
def State.setNvs (s : State) (f : Nvs → Nvs) : State := { s with nvs := f s.nvs }

/-- Bytes of a sector (R456). -/
def sectorBytes : Nat := 0x10000
/-- Payload bytes of a managed sector (R458). -/
def payloadBytes : Nat := 65472

/-- A flash byte; an unlisted byte is blank. -/
def State.flashByte (s : State) (a : Nat) : Byte := tget 0xFF#8 s.nvs.flash a
/-- `n` flash bytes from an offset. -/
def State.readFlash (s : State) (a n : Nat) : List Byte := (List.range n).map fun i => s.flashByte (a + i)

/-- Programming turns bits from 1 to 0 only (R459). -/
def progBytes : List Host.Cell → Nat → List Byte → List Host.Cell
  | m, _, [] => m
  | m, a, b :: bs => progBytes (tset 0xFF#8 m a (tget 0xFF#8 m a &&& b)) (a + 1) bs

/-- A page program completes. -/
def State.programFlash (s : State) (a : Nat) (bs : List Byte) : State :=
  (s.setNvs fun n => { n with flash := progBytes n.flash a bs }).bump adrPrograms

/-- A sector erase completes. -/
def State.eraseSector (s : State) (n : Nat) : State :=
  (s.setNvs fun v => { v with flash := v.flash.filter fun (a, _) => a / sectorBytes != n }).bump adrErases

/-- Set flash bytes to `f` of a free value each, in order: what a power loss leaves of an erase or a program that it cuts
off (R461). -/
def State.freeFlash (s : State) : Nat → List (Byte → Byte) → State
  | _, [] => s
  | a, f :: fs =>
    let (v, s) := s.free
    (s.setNvs fun n => { n with flash := tset 0xFF#8 n.flash a (f (BitVec.ofNat 8 v)) }).freeFlash (a + 1) fs

/-! Sector headers (R458, R459). -/

/-- STATE words. -/
def stErased : Nat := 0xFFFFFFFF
/-- OPEN. -/
def stOpen : Nat := 0xFFFFFF00
/-- SEALED. -/
def stSealed : Nat := 0xFFFF0000

/-- The 64 header bytes of sector `n`. -/
def State.secHdr (s : State) (n : Nat) : List Byte := s.readFlash (n * sectorBytes) 64
/-- STATE of sector `n`. -/
def State.secState (s : State) (n : Nat) : Nat := u32 (s.secHdr n) 0
/-- SEQ of sector `n`. -/
def State.secSeq (s : State) (n : Nat) : Nat := u32 (s.secHdr n) 8
/-- OPEN_CRC of sector `n` checks. -/
def State.secGood (s : State) (n : Nat) : Bool := u32 (s.secHdr n) 0x3C == crc32c (slice (s.secHdr n) 4 8)
/-- Every byte of sector `n` is 0xFF. -/
def State.secBlank (s : State) (n : Nat) : Bool := !(s.nvs.flash.any fun (a, _) => a / sectorBytes == n)

/-- REGION of a managed sector, its SLOT and the first sector of its region (R458). -/
def regionOf (n : Nat) : Nat × Nat × Nat :=
  if n < 2 then (1, 0xFF, 0) else if n < 4 then (2, 0xFF, 2) else if n < 196 then (3, 0, 4) else if n < 388 then (3, 1, 196)
  else if n < 452 then (4, 0, 388) else if n < 516 then (4, 1, 452) else (5, 0xFF, 516)

/-- The bytes of the opening program of sector `n` (R459): STATE, header and the first 192 payload bytes. -/
def openBytes (n seq : Nat) (first : List Byte) : List Byte :=
  let (r, sl, b) := regionOf n
  let h := leBytes 1 r ++ leBytes 1 sl ++ leBytes 2 (n - b) ++ leBytes 4 seq
  leBytes 4 stOpen ++ h ++ List.replicate 48 0xFF ++ leBytes 4 (crc32c h) ++ first.take 192
    ++ List.replicate (192 - first.length) 0xFF

/-- The bytes of the sealing program from offset 0 (R459): STATE, then USED and PAYLOAD_CRC; the bytes between are left. -/
def sealBytes (used crc : Nat) : List Byte := leBytes 4 stSealed ++ List.replicate 8 0xFF ++ leBytes 4 used ++ leBytes 4 crc

/-- Program STATE to STALE. -/
def State.staleSector (s : State) (n : Nat) : State := s.programFlash (n * sectorBytes) (leBytes 4 0)

/-! The erase ledger (R460). -/

/-- Slot `i` of log sector `n` with records of `len` bytes. -/
def State.logRec (s : State) (n len i : Nat) : List Byte := s.readFlash (n * sectorBytes + 64 + len * i) len
/-- A slot that is all ones. -/
def blankRec (b : List Byte) : Bool := b.all (· == 0xFF)
/-- A record's closing CRC checks. -/
def recGood (b : List Byte) : Bool := u32 b (b.length - 4) == crc32c (b.take (b.length - 4))
/-- Records of log sector `n` that are good, in slot order. -/
def State.logRecs (s : State) (n len count : Nat) : List (List Byte) :=
  ((List.range count).map (s.logRec n len)).filter fun b => !blankRec b && recGood b
/-- Slots of log sector `n` that are neither blank nor good (torn). -/
def State.torn (s : State) (n len count : Nat) : Nat :=
  (((List.range count).map (s.logRec n len)).filter fun b => !blankRec b && !recGood b).length
/-- The next slot of log sector `n`: past the last one that is not blank. -/
def State.logNext (s : State) (n len count : Nat) : Nat :=
  (List.range count).foldl (fun m i => if blankRec (s.logRec n len i) then m else i + 1) 0

/-- The active one of two log sectors: OPEN, with the higher SEQ. -/
def State.logActive (s : State) (a : Nat) : Option Nat :=
  let o := [a, a + 1].filter fun n => s.secState n == stOpen && !s.nvs.half.contains n
  match o with
  | [x] => some x
  | [x, y] => if s.secSeq x < s.secSeq y then some y else some x
  | _ => none

/-- Every ledger record (R460): the union over ledger sectors that are OPEN or SEALED. -/
def State.ledger (s : State) : List (List Byte) :=
  ([2, 3].filter fun n => (s.secState n == stOpen || s.secState n == stSealed) && !s.nvs.half.contains n).flatMap fun n => s.logRecs n 32 2046

/-- The next erase SEQ, one more for each INTENT, continued across ledger sectors (R460): the sector that a switch left STALE still
holds those before it. -/
def State.eraseSeq (s : State) : Nat :=
  let used := [2, 3].filter fun n => s.secState n != stErased && !s.nvs.half.contains n
  1 + ((used.flatMap fun n => s.logRecs n 32 2046).filter fun b => u8 b 0 == 1).foldl (fun m b => max m (u32 b 4)) 0

/-- The latest INTENT SEQ of a sector (R461), if there is one. -/
def State.lastIntent (s : State) (n : Nat) : Option Nat :=
  (s.ledger.filter fun b => u8 b 0 == 1 && u16 b 2 == n).foldl
    (fun m b => match m with
      | some x => some (max x (u32 b 4))
      | none => some (u32 b 4)) none

/-- The latest INTENT for a sector has no DONE of the same SEQ. -/
def State.openErase (s : State) (n : Nat) : Bool :=
  match s.lastIntent n with
  | some q => !(s.ledger.any fun b => u8 b 0 == 2 && u16 b 2 == n && u32 b 4 == q)
  | none => false

/-- A ledger record (R460). -/
def ledgerRec (kind purpose sector seq : Nat) : List Byte :=
  let b := leBytes 1 kind ++ leBytes 1 purpose ++ leBytes 2 sector ++ leBytes 4 seq ++ List.replicate 20 0xFF
  b ++ leBytes 4 (crc32c b)

/-- Append a record to a log sector; a full one takes none. -/
def State.appendLog (s : State) (n len count : Nat) (b : List Byte) : State :=
  if s.logNext n len count < count then s.programFlash (n * sectorBytes + 64 + len * s.logNext n len count) b else s

/-- Append a ledger record to the active ledger sector; with none OPEN, sector 2 is opened with SEQ 1. -/
def State.ledgerPut (s : State) (b : List Byte) : State :=
  match s.logActive 2 with
  | some n => s.appendLog n 32 2046 b
  | none => ((s.eraseSector 2).programFlash (2 * sectorBytes) (openBytes 2 1 [])).appendLog 2 32 2046 b

/-- An erase with its records, carried out at once (R460): used for the switches of a log, the archive ring, and the
repairs of the ROM. -/
def State.eraseLogged (s : State) (n purpose : Nat) : State :=
  let q := s.eraseSeq
  ((s.ledgerPut (ledgerRec 1 purpose n q)).eraseSector n).ledgerPut (ledgerRec 2 purpose n q)

/-- Before a further erase, a ledger sector with fewer than 4 empty slots gives way to the other one (R460). -/
def State.ledgerRoom (s : State) : State :=
  match s.logActive 2 with
  | none => s
  | some n =>
    if s.logNext n 32 2046 + 4 ≤ 2046 then s
    else
      let o := 5 - n
      ((s.eraseLogged o 5).programFlash (o * sectorBytes) (openBytes o (s.secSeq n + 1) [])).staleSector n

/-! The boot descriptor (R462). -/

/-- The descriptor record in force: the good one with the highest REC_SEQ. -/
def State.descriptor (s : State) : Option (List Byte) :=
  ((([0, 1].filter fun n => s.secState n == stOpen && !s.nvs.half.contains n).flatMap fun n => s.logRecs n 64 1023)).foldl
    (fun m b => match m with
      | some x => if u32 x 8 < u32 b 8 then some b else some x
      | none => some b) none

/-- A blank descriptor record before its first append. -/
def emptyDesc : List Byte :=
  leBytes 1 1 ++ leBytes 7 0 ++ leBytes 4 0 ++ List.replicate 16 0xFF ++ List.replicate 32 0xFF ++ leBytes 4 0

/-- A record with some fields changed and REC_SEQ one higher. -/
def nextDesc (b : List Byte) (ch : List (Nat × Nat × Nat)) : List Byte :=
  let b := ch.foldl (fun b (o, n, v) => splice b o (leBytes n v)) b
  let b := splice b 8 (leBytes 4 (u32 b 8 + 1))
  b.take 60 ++ leBytes 4 (crc32c (b.take 60))

/-- Append a descriptor record (R462); a full sector gives way to the other one, which takes a copy of the record in
force first. -/
def State.appendDesc (s : State) (ch : List (Nat × Nat × Nat)) : State :=
  let r := nextDesc (s.descriptor.getD emptyDesc) ch
  match s.logActive 0 with
  | none => (((s.ledgerRoom.eraseLogged 0 4).programFlash 0 (openBytes 0 1 []))).appendLog 0 64 1023 r
  | some n =>
    if s.logNext n 64 1023 < 1023 then s.appendLog n 64 1023 r
    else
      let o := 1 - n
      let copy := s.descriptor.getD emptyDesc
      let s := (s.ledgerRoom.eraseLogged o 4).programFlash (o * sectorBytes) (openBytes o (s.secSeq n + 1) [])
      ((s.appendLog o 64 1023 copy).staleSector n).appendLog o 64 1023 r

/-- A field of the descriptor in force. -/
def State.descField (s : State) (off n : Nat) : Nat := leVal (slice (s.descriptor.getD emptyDesc) off n)

/-! Regions, images and configurations (R451, R452, R459, R463, R464). -/

/-- First sector and size of a slot's region. -/
def slotSectors (config : Bool) (slot : Nat) : Nat × Nat :=
  if config then (if slot == 0 then (388, 64) else (452, 64)) else (if slot == 0 then (4, 192) else (196, 192))

/-- A sector belongs to a complete region of SEQ `q` at INDEX `i` (R459). -/
def State.secSealed (s : State) (n q : Nat) : Bool :=
  let h := s.secHdr n
  s.secState n == stSealed && s.secGood n && s.secSeq n == q && decide (u32 h 0xC ≤ payloadBytes)
    && u32 h 0x10 == crc32c (s.readFlash (n * sectorBytes + 64) (u32 h 0xC)) && !s.nvs.half.contains n
    && !s.nvs.failed.contains n

/-- Content of a region: the USED bytes of its leading sectors that are sealed with SEQ `q`, in INDEX order. -/
def State.regionBytes (s : State) (q : Nat) : Nat → Nat → List Byte
  | 0, _ => []
  | k + 1, n =>
    if s.secSealed n q then s.readFlash (n * sectorBytes + 64) (u32 (s.secHdr n) 0xC) ++ s.regionBytes q k (n + 1) else []

/-- SEQ that the descriptor gives for a slot: 0xFFFF_FFFF for none. -/
def State.slotSeq (s : State) (config : Bool) (slot : Nat) : Nat :=
  s.descField ((if config then 0x14 else 0xC) + 4 * slot) 4

/-- Content of a slot (R462). -/
def State.slotBytes (s : State) (config : Bool) (slot : Nat) : List Byte :=
  let (n, k) := slotSectors config slot
  if s.slotSeq config slot == 0xFFFFFFFF then [] else s.regionBytes (s.slotSeq config slot) k n

/-- SVN floor in force (R454). -/
def State.svnFloor (s : State) : Nat := max Config.svnFloor.toNat s.nvs.svn
/-- Key slots revoked. -/
def State.keysRevoked (s : State) : Nat := Nat.lor Config.keyRevoked.toNat s.nvs.revoked

/-- A public key is that of key slot `k`, which is not revoked (R452, R464). -/
def State.keyGood (s : State) (k : Nat) (pub : List Byte) : Bool :=
  Config.sha384 pub == Config.keyDigest k && !bitAt s.keysRevoked k

/-- An image verifies but for its SVN (R451, R452). -/
def State.imageSigned (s : State) (b : List Byte) : Bool :=
  let n := u32 b 0x10
  u32 b 0 == 0x53465742 && u16 b 4 == 1 && decide (u8 b 6 ≤ 1) && s.keyGood (u8 b 6) (slice b 0x50 96)
    && Config.signatureGood (slice b 0x50 96) (Config.sha384 (slice b 0 0xB0)) (slice b 0xB0 96)
    && decide (1 ≤ n) && decide (n ≤ 12570112) && decide (0x200 + n ≤ b.length)
    && slice b 0x20 48 == leBytes 48 (Config.sha384 (slice b 0x200 n)).toNat && !bitAt (u8 b 7) (u8 b 6)

/-- An image verifies (R452). -/
def State.imageGood (s : State) (b : List Byte) : Bool := s.imageSigned b && decide (s.svnFloor ≤ u8 b 0xC)

/-- Verify an image, with the events of a failure (R452). -/
def State.verifyImage (s : State) (b : List Byte) : Bool × State :=
  if s.imageGood b then (true, s)
  else
    let s := s.event 0x6002 0 0xFF
    (false, if s.imageSigned b then s.event 0x600B 0 0xFF else s)

/-- Sections of a configuration (R463): TYPE and data, as far as their DATA_CRC check. -/
def sectionsOf : Nat → List Byte → List (Nat × List Byte)
  | 0, _ => []
  | k + 1, b =>
    let n := u32 b 4
    if b.length < 16 || b.length < 16 + n || u32 b 8 != crc32c (slice b 16 n) then []
    else (u16 b 0, slice b 16 n) :: sectionsOf k (b.drop (16 + roundUp n 64))

/-- Sections of a configuration. -/
def configSections (b : List Byte) : List (Nat × List Byte) := sectionsOf 64 b
/-- Data of the section of a TYPE. -/
def sectionData (b : List Byte) (t : Nat) : Option (List Byte) := ((configSections b).find? fun x => x.1 == t).map (·.2)
/-- Bytes of a configuration up to its section of a TYPE. -/
def bytesBefore : Nat → Nat → List Byte → List Byte
  | 0, _, _ => []
  | k + 1, t, b =>
    let n := 16 + roundUp (u32 b 4) 64
    if b.length < 16 || u16 b 0 == t then [] else b.take n ++ bytesBefore k t (b.drop n)

/-- RAILS meets R450. -/
def railsOk (d : List Byte) : Bool := d.length == 32 && (List.range 8).all fun r => u8 d (4 * r) == 0x40 + r

/-- The board sections of a configuration come first, and BOARD_SIG follows them (R463). -/
def boardFirst (b : List Byte) : Bool :=
  let ts := (configSections b).map (·.1)
  (ts.dropWhile fun t => decide (t < 0x100) && t != 0xF).head? == some 0xF
    && ((ts.dropWhile fun t => decide (t < 0x100) && t != 0xF).drop 1).all fun t => decide (0x100 ≤ t)

/-- The board sections of a configuration are signed and fit this board (R464). -/
def State.boardOk (s : State) (b : List Byte) : Bool :=
  let slot := s.rf adrGlbStatus 11 8
  let role := s.rf adrGlbStatus 13 12
  match sectionData b 0xF, sectionData b 2, sectionData b 3 with
  | some sg, some r, some ra =>
    let k := u8 sg 0
    boardFirst b && decide (k ≤ 3) && bitAt Config.keyValid.toNat k && s.keyGood k (slice sg 4 96)
      && Config.signatureGood (slice sg 4 96) (Config.sha384 (bytesBefore 64 0xF b)) (slice sg 100 96)
      && u8 r 0 == slot && u8 r 1 == role && railsOk ra
  | _, _, _ => false

/-- Bytes of the sections of a configuration whose TYPE `keep` selects, headers and padding included. -/
def keepSections (keep : Nat → Bool) : Nat → List Byte → List Byte
  | 0, _ => []
  | k + 1, b =>
    let n := 16 + roundUp (u32 b 4) 64
    if b.length < 16 then [] else (if keep (u16 b 0) then b.take n else []) ++ keepSections keep k (b.drop n)

/-- The board sections of a configuration, as bytes. -/
def boardBytes (b : List Byte) : List Byte := keepSections (· < 0x100) 64 b
/-- The calibration sections of a configuration, CAL_MAC included, as bytes (R466). -/
def calBytes (b : List Byte) : List Byte := keepSections (0x100 ≤ ·) 64 b
/-- CAL_MAC over the calibration sections of a configuration. -/
def macOf (b : List Byte) : List Byte := leBytes 48 (Config.calMac (keepSections (fun t => 0x100 ≤ t && t != 0x11F) 64 b)).toNat

/-- Every section of a configuration checks, to its last byte (R464). -/
def sectionsWhole (b : List Byte) : Bool :=
  (configSections b).foldl (fun n x => n + 16 + roundUp x.2.length 64) 0 == b.length

/-- A configuration's content is usable (R464). -/
def State.configOk (s : State) (b : List Byte) : Bool :=
  sectionsWhole b && s.boardOk b && match sectionData b 0x11F with
    | some m => m == macOf b
    | none => !((configSections b).any fun x => x.1 ≥ 0x100)

/-- One section with its header and padding (R463). -/
def mkSection (typ version : Nat) (d : List Byte) : List Byte :=
  leBytes 2 typ ++ leBytes 2 version ++ leBytes 4 d.length ++ leBytes 4 (crc32c d) ++ leBytes 4 0 ++ slice d 0 (roundUp d.length 64)

/-! Writing a slot (R466). -/

/-- Cut bytes into pieces of `n`. -/
def chunksOf (n : Nat) : Nat → List Byte → List (List Byte)
  | 0, _ => []
  | k + 1, b => if b.isEmpty then [] else b.take n :: chunksOf n k (b.drop n)

/-- The operations that write one sector (R466 step 3): erase unless ERASED and blank, open, program, seal. -/
def State.sectorOps (s : State) (n seq : Nat) (pay : List Byte) : List NvOp :=
  let why := if s.nvs.half.contains n then 6 else if n < 388 then 1 else 2
  (if s.secBlank n && !s.nvs.half.contains n then [] else [.intent n why, .erase n 2 why, .doneRec n why])
    ++ [.prog (n * sectorBytes) (openBytes n seq pay)]
    ++ ((chunksOf 256 256 (pay.drop 192)).zipIdx.map fun (c, i) => .prog (n * sectorBytes + 256 + 256 * i) c)
    ++ [.prog (n * sectorBytes) (sealBytes pay.length (crc32c pay)), .boundary]

/-- The operations that write a slot, from the descriptor record that marks it unverified on (R466 steps 2 and 3). -/
def State.slotOps (s : State) (config : Bool) (slot seq : Nat) (data : List Byte) : List NvOp :=
  let (n, k) := slotSectors config slot
  .desc [((if config then 0x14 else 0xC) + 4 * slot, 4, 0xFFFFFFFF)]
    :: ((chunksOf payloadBytes k data).zipIdx.flatMap fun (p, i) => s.sectorOps (n + i) seq p)

/-- The SEQ that a slot's next content takes: one more than any SEQ its sectors or the descriptor hold. -/
def State.nextSlotSeq (s : State) (config : Bool) (slot : Nat) : Nat :=
  let (n, k) := slotSectors config slot
  let q := (List.range k).foldl (fun m i => if s.secState (n + i) == stErased then m else max m (s.secSeq (n + i))) 0
  let d := s.slotSeq config slot
  1 + max q (if d == 0xFFFFFFFF then 0 else d)

/-! Half-erased sectors (R461). -/

/-- Sector `n` is half-erased. -/
def State.halfErased (s : State) (n : Nat) : Bool :=
  let st := s.secState n
  s.openErase n || !(st == stErased || st == stOpen || st == stSealed || st == 0)
    || (st == stErased && !s.secBlank n)

/-- OP of NVS_STATUS and the sector of an operation (R470). -/
def State.opInfo (s : State) : NvOp → Nat × Nat
  | .prog a _ => (1, a / sectorBytes)
  | .intent _ _ => (1, (s.logActive 2).getD 2)
  | .erase n _ _ => (2, n)
  | .doneRec _ _ => (1, (s.logActive 2).getD 2)
  | .desc _ => (1, (s.logActive 0).getD 0)
  | .boundary => (0, 0)

/-- The operation in progress. -/
def Nvs.busy (n : Nvs) : Option NvOp :=
  match n.running with
  | some true => n.host.bind (·.ops.head?)
  | some false => n.own.bind (·.ops.head?)
  | none => none

/-- What a flash operation leaves when it ends (R459, R460, R462). -/
def State.nvEffect (s : State) : NvOp → State
  | .prog a d => s.programFlash a d
  | .intent n p => let s := s.ledgerRoom; s.ledgerPut (ledgerRec 1 p n s.eraseSeq)
  | .erase n _ _ => s.eraseSector n
  | .doneRec n p =>
    let s := (s.ledgerPut (ledgerRec 2 p n ((s.lastIntent n).getD 0))).setNvs fun v => { v with half := v.half.filter (· != n) }
    if p == 6 then s.event 0x5002 0 0xFF else s
  | .desc ch => s.appendDesc ch
  | .boundary => s

/-- A program that is cut off has turned some of its bits (R461). -/
def State.cutProg (s : State) (a : Nat) (d : List Byte) : State :=
  s.freeFlash a (d.zipIdx.map fun (b, i) => fun v => s.flashByte (a + i) &&& (v ||| b))

/-- Where the next record of a log goes. -/
def State.logEnd (s : State) (a len count : Nat) : Option Nat :=
  (s.logActive a).map fun n => n * sectorBytes + 64 + len * s.logNext n len count

/-- What the loss of power or a flash fault leaves of the operation in progress: a cut program has turned some of its bits,
so that a log record is torn, and a cut erase leaves any byte (R457, R461). -/
def State.nvCut (s : State) : NvOp → State
  | .prog a d => s.cutProg a d
  | .erase n _ _ => s.freeFlash (n * sectorBytes) (List.replicate sectorBytes id)
  | .intent n p => (s.logEnd 2 32 2046).elim s fun a => s.cutProg a (ledgerRec 1 p n s.eraseSeq)
  | .doneRec n p => (s.logEnd 2 32 2046).elim s fun a => s.cutProg a (ledgerRec 2 p n ((s.lastIntent n).getD 0))
  | .desc ch => (s.logEnd 0 64 1023).elim s fun a => s.cutProg a (nextDesc (s.descriptor.getD emptyDesc) ch)
  | .boundary => s

end Sys2Proof.Machine
end

