-- ==== Sys2Proof/Machine/FlashOps.lean ====
section
/-! DEFINITION. Running the flash store's work (R454, R465 to R468): which operation comes next, what the end of a job does,
staging, and saving calibration. -/
namespace Sys2Proof.Machine

/-- The slot of the running image: none for an image received in recovery (R455). -/
def State.runningSlot (s : State) : Option Nat :=
  if s.rf adrGlbStatus 1 1 == 1 then none else some (s.rf adrGlbStatus 3 3)

/-- A forced boot (R447). -/
def State.forcedBoot (s : State) : Bool := s.rf adrGlbStatus 15 14 == 1 || s.rf adrGlbStatus 15 14 == 2

/-- A slot is verified (R462). -/
def State.slotVerified (s : State) (slot : Nat) : Bool :=
  s.slotSeq false slot != 0xFFFFFFFF && s.imageGood (s.slotBytes false slot)

/-- Content of the configuration that the boot applied, and its slot (R464); none when defaults apply. -/
def State.configInForce (s : State) : Option (Nat × List Byte) :=
  if s.rf adrGlbStatus 6 6 == 1 then none
  else
    let c := s.rf adrGlbStatus 5 5
    some (c, s.slotBytes true c)

/-- What follows the record that confirms a trial image (R454): the SVN floor and the revocations are blown. -/
def State.confirmTrial (s : State) : State :=
  let b := s.slotBytes false (s.rf adrGlbStatus 3 3)
  let s := s.setNvs fun n => { n with svn := max s.svnFloor (min 63 (u8 b 0xC)), revoked := Nat.lor n.revoked (u8 b 7 % 16) }
  (s.setRf adrGlbStatus 4 4 0).event 0x6004 0 0xFF

/-- Fields of the descriptor record that confirms a slot. -/
def confirmRec (slot : Nat) : List (Nat × Nat × Nat) := [(1, 1, slot), (2, 1, 0)]

/-- Fields of the descriptor record that names a slot's new content (R465, R466). -/
def seqRec (config : Bool) (slot seq : Nat) : List (Nat × Nat × Nat) :=
  ((if config then 0x14 else 0xC) + 4 * slot, 4, seq) :: (if config then [(4, 1, slot)] else [])

/-- The sectors that content of `len` bytes takes in a slot. -/
def slotRun (config : Bool) (slot len : Nat) : List Nat :=
  (List.range (min (slotSectors config slot).2 ((len + payloadBytes - 1) / payloadBytes))).map (· + (slotSectors config slot).1)

/-- The job that writes content to a slot (R465, R466): from the record that marks the slot unverified on. -/
def State.slotJob (s : State) (kind pkt : Nat) (config : Bool) (slot : Nat) (c : List Byte) : NvJob :=
  let q := s.nextSlotSeq config slot
  ⟨kind, pkt, slot, config, q, c, s.slotOps config slot q c, false⟩

/-! Saving calibration (R463, R465). -/

/-- QUENCH as it stands: DELAY, TRANSIT, VALID and idle heat of each section's valve. -/
def State.quenchSection (s : State) : List Byte :=
  (List.range 8).flatMap fun v =>
    let a := adrQchValveCal v
    leBytes 1 (s.rf a 6 0) ++ leBytes 1 (s.rf a 13 7) ++ leBytes 1 (s.rf a 14 14) ++ leBytes 1 0
      ++ leBytes 2 ((s.section v).idle / 1000) ++ leBytes 2 0

/-- The lightbank sections as they stand: none where the boot found none (R464). -/
def State.lbkSections (s : State) : List Byte :=
  if (s.bank 0).tables.isEmpty then []
  else mkSection 0x103 1 (tableBytes (s.bank 0) ++ tableBytes (s.bank 1)) ++ mkSection 0x104 1 (xtalkBytes (s.bank 0) ++ xtalkBytes (s.bank 1))

/-- A configuration with the present calibration (R465): VF_TABLE is as the factory made it, the other calibration sections are new. -/
def State.savedConfig (s : State) (b : List Byte) : List Byte :=
  let c := boardBytes b ++ keepSections (fun t => 0x100 ≤ t && t < 0x102) 64 b ++ mkSection 0x102 1 s.quenchSection ++ s.lbkSections
    ++ mkSection 0x105 1 ((Config.gldCal ((sectionData b 0x105).getD []) s.freeCtr).take 262144)
    ++ keepSections (fun t => 0x106 ≤ t && t != 0x11F) 64 b
  c ++ mkSection 0x11F 1 (macOf c)

/-- The job that saves the calibration in force to the other slot (R465): none when a CONFIG_WRITE defers it, without a
usable configuration, whose board sections it would keep, or where a sector of the slot has failed (R460). -/
def State.calSave (s : State) : Option NvJob :=
  match s.configInForce with
  | none => none
  | some (c, b) =>
    let d := s.savedConfig b
    if s.nvs.deferred || (slotRun true (1 - c) d.length).any s.nvs.failed.contains then none
    else
      let j := s.slotJob 2 0 true (1 - c) d
      some { j with ops := j.ops.tail }

/-- The next half-erased sector to repair; descriptor and ledger sectors are repaired by the ROM (R461). -/
def State.toRepair (s : State) : Option Nat := s.nvs.half.find? fun n => decide (4 ≤ n) && !s.nvs.failed.contains n

/-- The own work of a kind, as it stands now: 2 a calibration save, 3 the repair of the next half-erased sector, 5 the
confirmation of the trial image that runs. -/
def State.ownWork (s : State) (kind : Nat) : Option NvJob :=
  match kind with
  | 2 => s.calSave
  | 3 => s.toRepair.map fun n => ⟨3, 0, n, false, 0, [], [.intent n 6, .erase n 2 6, .doneRec n 6], true⟩
  | _ =>
    if s.rf adrGlbStatus 4 4 == 1 then
      let c := s.rf adrGlbStatus 3 3
      some ⟨5, 0, c, false, 0, [], [.desc (confirmRec c)], true⟩
    else none

/-- Of two ledger sectors left OPEN, the lower SEQ goes STALE once nothing is left to repair (R459). -/
def State.settleLedgers (s : State) : State :=
  if s.toRepair.isNone && s.secState 2 == stOpen && s.secState 3 == stOpen then
    s.staleSector (if s.secSeq 2 < s.secSeq 3 then 2 else 3)
  else s

/-- A job fails (R457, R466, R468). -/
def State.failJob (s : State) (j : NvJob) (st : Nat) : State :=
  if j.kind == 0 || j.kind == 4 then s.failPkt j.pkt st
  else if j.kind == 1 then s.setNvs fun n => { n with pldm := { n.pldm with st := 2 } }
  else s

/-- Put an own job, or none, in place of the one that runs. -/
def Nvs.setJob (n : Nvs) (host : Bool) (x : Option NvJob) : Nvs := if host then { n with host := x } else { n with own := x }

/-- A configuration has been written: saves wait for the next chip reset, and one in progress is given up (R465). -/
def Nvs.deferSaves (n : Nvs) : Nvs := { n with deferred := true, own := n.own.filter fun j => j.kind != 2 }

/-- The note that a slot is written (R466 step 5). -/
def State.slotWritten (s : State) (config : Bool) : State :=
  let s := s.event 0x6006 0 0xFF
  if config then s.setNvs Nvs.deferSaves else s

/-- Content is verified before it is written, and again when it has been read back (R466). -/
def State.contentOk (s : State) (config : Bool) (c : List Byte) : Bool × State :=
  if config then (s.configOk c, s) else s.verifyImage c

/-- A job has run its operations (R454, R465, R466): a slot is read back and verified again first, and then named by the descriptor. -/
def State.endNvJob (s : State) (host : Bool) (j : NvJob) : State :=
  if j.kind ≤ 2 && !j.checked then
    let (n, k) := slotSectors j.config j.slot
    let (ok, s) := if j.kind == 2 then (true, s) else s.contentOk j.config (s.regionBytes j.seq k n)
    if !ok then (s.setNvs (·.setJob host none)).failJob j 0x14
    else if s.regionBytes j.seq k n == j.data then
      s.setNvs (·.setJob host (some { j with ops := [.desc (seqRec j.config j.slot j.seq)], checked := true }))
    else (s.setNvs (·.setJob host none)).failJob j 0x7F
  else
    let s := s.setNvs (·.setJob host none)
    match j.kind with
    | 0 => (s.slotWritten j.config).done j.pkt (leBytes 4 (if j.config then j.seq else u32 j.data 8))
    | 1 => (s.slotWritten j.config).setNvs fun n => { n with pldm := { n.pldm with st := 6 } }
    | 2 => s.event 0x6009 0 0xFF
    | 3 => if s.toRepair.isSome then s.setNvs fun n => { n with waiting := n.waiting ++ [3] } else s.settleLedgers
    | 4 => (if j.config then s.confirmTrial else s).done j.pkt []
    | _ => s.confirmTrial

/-- PARK ends host and sideband work (R468). -/
def State.parkFlash (s : State) : State :=
  let s := match s.nvs.stage with
    | some (k, _, _, _) => (s.setNvs fun v => { v with stage := none }).failPkt k 0x50
    | none => s
  match s.nvs.host with
  | some j => (s.setNvs fun v => { v with host := none }).failJob j 0x50
  | none => s

/-- The next operation of the flash begins (R468): persistence comes first, then host and sideband work, which an own write
lets in at its sector boundaries. -/
def State.nvNext : Nat → State → State
  | 0, s => s
  | n + 1, s =>
    if s.nvs.running.isSome then s
    else if s.parked && (s.nvs.host.isSome || s.nvs.stage.isSome) then State.nvNext n s.parkFlash
    else if s.evr.persist.isSome then s
    else
      let host := s.nvs.host.isSome && !(s.nvs.own.any fun j => j.ops.head?.any (· != .boundary))
      match if host then s.nvs.host else s.nvs.own with
      | none =>
        match s.nvs.waiting with
        | [] => s
        | k :: r => State.nvNext n (s.setNvs fun v => { v with waiting := r, own := s.ownWork k })
      | some j =>
        match j.ops with
        | [] => State.nvNext n (s.endNvJob host j)
        | .boundary :: r => State.nvNext n (s.setNvs (·.setJob host (some { j with ops := r })))
        | _ => s.setNvs fun v => { v with running := some host }

/-- Begin the flash's next operation, if it is free. -/
def State.nvGo (s : State) : State := s.nvNext 16

/-- Install a host or sideband job; a failed sector of its slot is never opened again (R460). -/
def State.hostJob (s : State) (j : NvJob) : State :=
  if j.kind ≤ 1 && (slotRun j.config j.slot j.data.length).any s.nvs.failed.contains then s.failJob j 0x7F
  else (s.setNvs fun n => { n with host := some j }).nvGo

/-- Ask for own work. -/
def State.ownAsk (s : State) (kind : Nat) : State :=
  (s.setNvs fun n => { n with waiting := if n.waiting.contains kind then n.waiting else n.waiting ++ [kind] }).nvGo

/-! Staging (R466). -/

/-- The content that a slot takes from what the host or the sideband supplies (R466): an image, or its board sections with
the calibration sections in force. -/
def State.slotContent (s : State) (config : Bool) (b : List Byte) : List Byte :=
  if config then boardBytes b ++ (s.configInForce.elim [] fun c => calBytes c.2) else b.take (0x200 + u32 b 0x10)

/-- Every read of a staging packet has ended (R466 step 1): the content is verified and its writing begins. -/
def State.stageSettle (s : State) : State :=
  match s.nvs.stage with
  | some (k, b, 0, st) =>
    let s := s.setNvs fun n => { n with stage := none }
    match s.pkt k with
    | none => s
    | some x =>
      if st != 0 then s.failEv k st (readEv st)
      else
        let config := x.opcode == 0xA2
        let c := s.slotContent config b
        let (ok, s) := s.contentOk config c
        if ok then s.hostJob (s.slotJob 0 k config (u8 x.bytes 0x10) c) else s.failPkt k 0x14
  | _ => s

end Sys2Proof.Machine
end

