-- ==== Sys2Proof/Machine/LinkOps.lean ====
section
/-! DEFINITION. Links below their commands (R183 to R210, R253 to R255): flits and ordered sets, width agreement, credits,
acknowledgement and replay, the handshake of a pause, link-down, the transmitter's choice and the receiver. -/
namespace Sys2Proof.Machine

/-! Flits and ordered sets (R183, R187, R188). -/

/-- One bit of the CRC-16 (polynomial 0x8BB7, no reflection). -/
def crc16Bit (c : BitVec 16) : BitVec 16 := if c.getLsbD 15 then (c <<< 1) ^^^ 0x8BB7#16 else c <<< 1

/-- One byte of the CRC-16. -/
def crc16Byte (c : BitVec 16) (b : Byte) : BitVec 16 :=
  crc16Bit <| crc16Bit <| crc16Bit <| crc16Bit <| crc16Bit <| crc16Bit <| crc16Bit <| crc16Bit <|
    (c ^^^ (b.setWidth 16 <<< 8))

/-- CRC-16 of a byte list, initial value 0 and no final XOR (R188). -/
def crc16 (bs : List Byte) : Nat := (bs.foldl crc16Byte 0#16).toNat

/-- Fields of a flit (R187). -/
structure Flit where
  vc : Nat
  kind : Nat
  pos : Nat
  abort : Bool
  seq : Nat
  ack : Nat
  nak : Bool
  cvc : Nat
  ctot : Nat
  pay : List Byte
deriving DecidableEq, Repr

/-- Header bits [47:0] of a flit. -/
def flitHdr (f : Flit) : Nat :=
  f.vc + 2 ^ 3 * f.kind + 2 ^ 5 * f.pos + 2 ^ 7 * b2n f.abort + 2 ^ 8 * f.seq + 2 ^ 20 * f.ack + 2 ^ 32 * b2n f.nak
    + 2 ^ 33 * f.cvc + 2 ^ 36 * f.ctot

/-- The 128 bytes of a flit. -/
def flitBytes (f : Flit) : List Byte :=
  let h := leBytes 6 (flitHdr f)
  let p := slice f.pay 0 120
  h ++ leBytes 2 (crc16 (h ++ p)) ++ p

/-- Read a flit. -/
def parseFlit (b : List Byte) : Flit :=
  let w := u64 b 0
  { vc := bits w 2 0, kind := bits w 4 3, pos := bits w 6 5, abort := bitAt w 7, seq := bits w 19 8, ack := bits w 31 20,
    nak := bitAt w 32, cvc := bits w 35 33, ctot := bits w 47 36, pay := slice b 8 120 }

/-- A flit's CRC is good and its KIND legal (R188). -/
def flitGood (b : List Byte) : Bool := u16 b 6 == crc16 (slice b 0 6 ++ slice b 8 120) && (parseFlit b).kind != 3

/-- This chip's CHIP_ID (R451). -/
def ownId : Nat := Config.chipId.toNat

/-- An ordered set (R183). -/
def osBytes (typ b1 sustain gen info : Nat) : List Byte :=
  let b := leBytes 1 typ ++ leBytes 1 b1 ++ leBytes 1 sustain ++ leBytes 1 gen ++ leBytes 8 ownId ++ leBytes 2 info
  b ++ leBytes 2 (crc16 b)

/-- An ordered set's CRC is good. -/
def osGood (b : List Byte) : Bool := b.length == 16 && u16 b 0xE == crc16 (slice b 0 14)

/-! Ports. -/

/-- A Gleed port (R253). -/
def isGleed (d : Nat) : Bool := decide (4 ≤ d)
/-- A campus port, whose VC1 and VC3 have landing slots (R256). -/
def isCampus (d : Nat) : Bool := decide (6 ≤ d)
/-- Flits of a unit of LNK_VC_BUF (R193, R253). -/
def unitFlits (d : Nat) : Nat := if d < 4 then 32 else if d < 6 then 512 else 128
/-- Receive buffer of VC `v` of port `d` in flits (R193, R253). -/
def State.bufFlits (s : State) (d v : Nat) : Nat := if v ≥ 7 then 0 else s.rf (adrLnkVcBuf d v) 6 0 * unitFlits d

/-- Quads of port `d` (R176, R238), as a mask of logical quads. -/
def Link.allotMask (l : Link) : Nat := 2 ^ l.allot - 1

/-- DESIRED of port `d` (R190). -/
def State.desired (s : State) (d : Nat) : Nat := min (s.rf (adrLnkCtrl d) 3 0) (s.link d).allot

/-- The `n` lowest ones of a mask of `k` bits (R190). -/
def lowest : Nat → Nat → Nat → Nat
  | 0, _, _ => 0
  | k + 1, m, n => if n == 0 then 0 else if m % 2 == 1 then 1 + 2 * lowest k (m / 2) (n - 1) else 2 * lowest k (m / 2) n

/-- The active set that two ends agree (R190): the lowest w quads of the intersection. -/
def agree (sus peer d1 d2 : Nat) : Nat :=
  let i := Nat.land sus peer
  lowest 8 i (min (min d1 d2) (popcount 8 i))

/-- What Gleed port `d` keeps. -/
def State.gleed (s : State) (d : Nat) : Gleed := tget {} s.gleeds (d - 4)
/-- Replace what Gleed port `d` keeps. -/
def State.setGleed (s : State) (d : Nat) (g : Gleed) : State := { s with gleeds := tset {} s.gleeds (d - 4) g }

/-- The rails that a port's transmitter needs are good (R406), its reference is present (R264, R271), and its fibres are
fitted (R447). -/
def State.portPowered (s : State) (d : Nat) : Bool :=
  let r := s.railGood
  let role := s.rf adrGlbStatus 13 12
  s.clk.tclk && (if d < 4 then r 3 && r 4 else r 5 && r 6) && (d < 4 || bitAt role (if d < 6 then 0 else 1))

/-- The port's fence is set (R226). -/
def State.fenced (s : State) (d : Nat) : Bool := s.rf (adrAntPortCfg d) 4 4 == 1

/-! Credits that this end reports (R187, R196, R255). -/

/-- Modulus of a sent count (R196, R255). -/
def sentMod (d v : Nat) : Nat := if isGleed d && !slotVc d v then 65536 else 4096

/-- CREDIT_TOTAL that this end reports for VC `v` (R187, R255). -/
def State.creditTotal (s : State) (d v : Nat) : Nat :=
  let f := tget 0 (s.link d).freed v
  (if isGleed d && !slotVc d v then f / 16 else f) % 4096

/-- ACK_SEQ, NAK and one credit report that go out with a flit (R198, R199). -/
def State.reportFlit (s : State) (d : Nat) (f : Flit) : Flit :=
  let l := s.link d
  { f with
    ack := if isGleed d then 0xFFF else l.last
    nak := !isGleed d && l.nak
    cvc := l.creditPtr, ctot := s.creditTotal d l.creditPtr }

/-- A CONTROL flit (R189). -/
def State.controlFlit (s : State) (d : Nat) : Flit :=
  { vc := 0, kind := 1, pos := 0, abort := false, seq := 0, ack := 0, nak := false, cvc := 0, ctot := 0,
    pay := (List.range 8).flatMap fun v => leBytes 2 (s.creditTotal d v) }

/-! Slots of a link (R182, R243). -/

/-- A line frame of carrier `c`, logical quad `q` (R243): OS_MAP has a bit for each slot that holds an ordered set. -/
def lineBytes (count c q : Nat) (slots : List (Bool × List Byte)) : List Byte :=
  let map := (slots.zipIdx.map fun (x, i) => b2n x.1 * 2 ^ i).sum
  withCrc (leBytes 8 0xA5C3690FF0963C5A ++ leBytes 4 count ++ leBytes 1 (c % 8 + 16 * (q % 4)) ++ leBytes 3 0 ++ leBytes 4 map
    ++ leBytes 8 0) ++ slots.flatMap fun x => slice x.2 0 128

/-- Carriers that carry the symbol stream of logical quad `q` outward: its own, and TO while a make-before-break swap moves it (R250
step 2). -/
def State.carriersOf (s : State) (d q : Nat) : List Nat :=
  let g := s.gleed d
  s.rf (adrGldChanMap (d - 4) q) 4 0 :: ((g.tx.toList ++ g.rx.toList).filter fun w => w.lane == q && w.mode == 0).map (·.dest)

/-- The line frame being built for quad `q` goes out (R243), on every carrier of its stream with the same bytes; FRAME_COUNT counts. -/
def State.closeLine (s : State) (d q : Nat) : State :=
  let g := s.gleed d
  let n := tget 0 g.count q
  let b := lineBytes n (s.rf (adrGldChanMap (d - 4) q) 4 0) q (tget [] g.slots q)
  (s.setGleed d { g with slots := tdel g.slots q, count := tset 0 g.count q ((n + 1) % 2 ^ 32) }).each (s.carriersOf d q) fun s c =>
    s.emit (.line d c b)

/-- Fill the next slot of quad `q`'s line frame with a flit or an ordered set; the 32nd slot sends the frame. -/
def State.fillLine (s : State) (d q : Nat) (os : Bool) (b : List Byte) : State :=
  let g := s.gleed d
  let l := tget [] g.slots q ++ [(os, slice b 0 128)]
  let s := s.setGleed d { g with slots := tset [] g.slots q l }
  if l.length < 32 then s else s.closeLine d q

/-- The line frame begun on quad `q` goes out with CONTROL flits in its other slots (log entry 71). -/
def State.flushLine (s : State) (d q : Nat) : State :=
  let g := s.gleed d
  let l := tget [] g.slots q
  if l.isEmpty then s
  else
    let f := flitBytes (s.reportFlit d (s.controlFlit d))
    (s.setGleed d { g with slots := tset [] g.slots q (l ++ List.replicate (32 - l.length) (false, f)) }).closeLine d q

/-- The quad that carries the next flit (R182): the active quads in turn, in increasing order; on a campus port the quad whose line
frame has the fewest slots filled, which is the same order row by row. -/
def State.nextQuad (s : State) (d : Nat) : Nat :=
  let l := s.link d
  let qs := onesOf 8 l.active
  if isCampus d then
    let n := fun q => (tget [] (s.gleed d).slots q).length
    qs.foldl (fun a q => if n q < n a then q else a) (qs.headD 0)
  else (qs.find? fun q => l.turn ≤ q).getD (qs.headD 0)

/-- The bytes of a flit go out on the next quad (R182). -/
def State.sendBytes (s : State) (d : Nat) (b : List Byte) : State :=
  let q := s.nextQuad d
  if isCampus d then s.fillLine d q false b else (s.emit (.flit d q b)).modLink d fun l => { l with turn := q + 1 }

/-! Ordered sets sent. -/

/-- Send an ordered set on quad `q` of a port. On a campus port it takes a slot of the quad's line frame (R243); while no flits flow that
frame goes out at once (log entry 71). -/
def State.sendOs (s : State) (d q : Nat) (b : List Byte) : State :=
  if isCampus d then
    let s := s.fillLine d q true b
    if (s.link d).st == .active || (s.link d).step == 6 then s else s.flushLine d q
  else s.emit (.oset d q b)

/-- Send an ordered set on every quad of a mask. -/
def State.sendOsAll (s : State) (d mask : Nat) (b : List Byte) : State := s.each (onesOf 8 mask) fun s q => s.sendOs d q b

/-- The quad that carries an ordered set sent once: the lowest active quad that this end can sustain (log entry 71). -/
def Link.osQuad (l : Link) : Nat := ((onesOf 8 (Nat.land l.active l.sustain) ++ onesOf 8 l.active).head?).getD 0

/-- Send the link's LINK_REQ (R203): a resend is the request first sent. -/
def State.sendReq (s : State) (d : Nat) : State :=
  match (s.link d).req with
  | some r => s.sendOs d (s.link d).osQuad (osBytes 0xA2 (r.kind + 16 * r.desired) r.sustain r.num 0)
  | none => s

/-- Start a handshake (R203), or remember that one is needed while another runs (R206). -/
def State.startReq (s : State) (d kind : Nat) : State :=
  let l := s.link d
  if l.st == .active && l.req.isNone && l.pause.isNone then
    let n := (l.reqNum + 1) % 256
    (s.setLink d { l with req := some ⟨kind, n, s.desired d, l.sustain⟩, reqNum := n, need := l.need.filter (· != kind) }).sendReq d
  else if l.st == .active || l.st == .paused then
    s.setLink d { l with need := if l.need.contains kind then l.need else l.need ++ [kind] }
  else s

/-! Link-down (R209, R210). -/

/-- The neighbour of a port is lost (R218). -/
def State.loseNeighbour (s : State) (d : Nat) : State :=
  let n := s.rf (adrAntPortState d) 1 0
  if n == 1 || n == 2 then (s.setRf (adrAntPortState d) 1 0 3).portEvent 0x2102 d [] else s

/-- Frames delivered or queued from port `d` no longer hold buffer space of the link that went down. -/
def State.dropHolds (s : State) (d : Nat) : State :=
  { s with
    delivered := s.delivered.map fun x => if x.port == d then { x with flits := 0 } else x
    links := s.links.map fun (i, l) => (i, { l with txq := l.txq.map fun f => if f.src == d then { f with hold := 0 } else f }) }

/-- A frame that came in on port `d` and VC `v` and passed through to port `e` as it came ends there with the abort marker (R189). -/
def State.abortTx (s : State) (e d v : Nat) : State :=
  s.modLink e fun l =>
    { l with txq := l.txq.map fun f => if f.src == d && f.vc == v && !f.whole then { f with abort := true, whole := true } else f }

/-- Frames that were coming in on port `d` and passing through end at their egress with the abort marker (R189, R210). -/
def State.abortParts (s : State) (d : Nat) (parts : Tbl RxFrame) : State :=
  s.each parts fun s (v, x) => match x.way with
    | .port e => s.abortTx e d v
    | _ => s

/-- A frame still coming in on port `d` and VC `v` has lost its egress: the rest of it is dropped. -/
def State.orphanPart (s : State) (d v : Nat) : State :=
  s.modLink d fun l => { l with part := l.part.map fun (i, x) => (i, if i == v && x.way != .here then { x with way := .gone } else x) }

/-- Frames queued at the egress of a port whose link went down are discarded (R210): what they held at their ingress is freed, the rest
of a frame that is still coming in is dropped, and what their departure would set going begins (log entry 64). -/
def State.purgeTx (s : State) (q : List TxFrame) : State :=
  s.each q fun s f =>
    let s := if f.whole then s else s.orphanPart f.src f.vc
    (s.freeFlits f.src f.vc f.hold).left f.note

/-- Landing slots of campus port `d` and VC `v` that whole or passing frames still fill. -/
def State.landingHeld (s : State) (d v : Nat) : Nat :=
  (s.delivered.filter fun x => x.port == d && x.vc == v).length + ((s.link d).frames.filter fun f => f.1 == v).length
    + (s.links.map fun (_, l) => (l.txq.filter fun f => f.note == .landing d v).length).sum

/-- A campus link goes down: its grants are gone with its credits (R210), so the slots that no frame fills go back to EMPTY and the
balance of R256 holds. -/
def State.landingDown (s : State) (d : Nat) : State :=
  if !isCampus d then s
  else match s.landing d with
    | none => s
    | some (p, r, pl) =>
      let l := s.lap p r
      let h1 := min l.grant1 (s.landingHeld d 1)
      let h3 := min l.grant3 (s.landingHeld d 3)
      let n := l.grant1 + l.grant3 - h1 - h3
      let s := s.setLap p r { l with grant1 := h1, grant3 := h3 }
      if n == 0 then s else s.semSignal p pl.semEmpty n

/-- What a link keeps when it goes down (R176, R210): its allotment, its masks, its generation one higher, and the whole
frames it had received. -/
def Link.downed (l : Link) (st : LinkSt) : Link :=
  { st := st, allot := l.allot, sustain := l.sustain, fails := l.fails, failed := l.failed, trying := l.trying, gen := (l.gen + 1) % 256,
    heldDown := l.heldDown, reqNum := l.reqNum, hello := l.hello, frames := l.frames.map fun (v, b, _) => (v, b, 0) }

/-- STATE of GLD_CHAN_HEALTH of a channel of Gleed port `d`: 0 active, 1 spare, 2 calibrating, 3 suspect, 4 failed. -/
def State.chanHealth (s : State) (d c : Nat) : Nat := s.rf (adrGldChanHealth (d - 4) c) 2 0
/-- Set the STATE of a channel. -/
def State.setChan (s : State) (d c h : Nat) : State := s.setRf (adrGldChanHealth (d - 4) c) 2 0 h

/-- A swap that this end leads or answers is abandoned (R250): FROM stays in use, TO is marked suspect, event 0x2202. On a rack port the
end that transmits on TO marks it. -/
def State.dropSwap (s : State) (d : Nat) (x : Option Swap) : State :=
  match x with
  | none => s
  | some w =>
    let m := adrGldChanMap (d - 4) w.lane
    let s := if !w.mine && s.rf m 12 8 == w.dest then s.setRf m 12 8 w.frm else s
    (if (w.mine || isCampus d) && s.chanHealth d w.dest == 1 then s.setChan d w.dest 3 else s).portEvent 0x2202 d [w.lane, w.frm, w.dest]

/-- The swaps of port `d` end with its link (R250): a lane in repair is repaired once the link is up again (R251), and the line frames
in progress are gone. -/
def State.dropSwaps (s : State) (d : Nat) : State :=
  if !isGleed d then s
  else
    let g := s.gleed d
    let lost := match g.tx with
      | some w => if w.mode == 1 then insNat g.lost w.lane else g.lost
      | none => g.lost
    ((s.dropSwap d g.tx).dropSwap d g.rx).setGleed d { g with tx := none, rx := none, again := none, lost := lost, slots := [], lines := [] }

/-- The time measurement of port `d` ends with its link (R281, R285, R390): VALID reads 0, and its packets complete with
LINK_LOST. -/
def State.dropMeasure (s : State) (d : Nat) : State :=
  let ks := (tget {} s.measures d).pkts
  let s := { s with measures := tdel s.measures d }
  (s.setRf (adrClkPortDelay d) 31 31 0).each ks fun s k => s.failPkt k 0x30

/-- The link of port `d` goes down (R209, R210), from training too; a fenced port stays FENCED (R226). -/
def State.linkDown (s : State) (d : Nat) : State :=
  let l := s.link d
  let st := if s.fenced d then LinkSt.fenced else .down
  if l.st == .active || l.st == .paused || l.st == .training then
    let s := (((s.setLink d (l.downed st)).dropHolds d).abortParts d l.part).landingDown d
    let s := ((s.portEvent 0x2002 d []).bump (adrLinkDowns d)).loseNeighbour d
    let s := s.setRf (adrLnkCtrl d) 4 4 0
    let s := (s.dropMeasure d).dropSwaps d
    (((s.purgeTx l.txq).hopsDown d).linesDown d)
  else if l.st == .down then s.setLink d { l with st := st }
  else s

/-- Quads of a mask leave SUSTAIN (R207): one NARROW is requested for them, or the link goes down with its last active quad. -/
def State.quadFault (s : State) (d mask : Nat) : State :=
  let l := s.link d
  let ks := onesOf 8 (Nat.land l.sustain mask)
  if ks.isEmpty then s
  else
    let m := (ks.map fun k => 2 ^ k).sum
    let s := s.setLink d { l with sustain := l.sustain - m, failed := Nat.lor l.failed m }
    let s := s.each ks fun s k => s.portEvent 0x2005 d [k]
    if !(l.st == .active || l.st == .paused) then s
    else if Nat.land l.active (l.sustain - m) == 0 then s.linkDown d
    else s.startReq d 1

/-! Credits (R194 to R196, R255, R256). -/

/-- Credits of VC `v` on port `d` (R196, R255); for landing slots, grants not used (R256). -/
def State.credits (s : State) (d v : Nat) : Nat :=
  let l := s.link d
  let sent := tget 0 l.sent v
  let tot := tget 0 l.peerTot v
  if slotVc d v then (tot + 4096 - sent % 4096) % 4096
  else
    let unit := if isGleed d then 16 else 1
    let m := sentMod d v
    tget 0 l.peerBuf v - (sent + m - unit * tot % m) % m

/-! Acknowledgement and replay (R198 to R201). -/

/-- Steps from one 12-bit number to another. -/
def dist12 (a b : Nat) : Nat := (b + 4096 - a) % 4096

/-- An ACK_SEQ is applied: the flits it covers leave the retry buffer (R200); an advance ends an escalation (R201). -/
def Link.applyAck (l : Link) (ack : Nat) : Link :=
  let n := dist12 l.ackd ack
  if n == 0 || l.retry.length < n then l
  else
    { l with ackd := ack, retry := l.retry.drop n, replays := 0, escal := 0,
             replay := l.replay.filter fun f => !decide (dist12 l.ackd f.seq ≤ n) }

/-- Start a replay of every unacknowledged flit (R200); the eighth in succession asks for a RETRAIN (R201). -/
def State.startReplay (s : State) (d : Nat) : State :=
  let l := s.link d
  if l.retry.isEmpty then s
  else
    let s := (s.setLink d { l with replay := l.retry, replays := l.replays + 1 }).bump (adrReplays d)
    if l.replays + 1 == 8 then
      ((s.modLink d fun l => { l with escal := 1 }).portEvent 0x2007 d []).startReq d 0
    else s

/-- The acknowledgement and credit fields of a good flit (R196, R198, R199). -/
def State.applyReports (s : State) (d : Nat) (f : Flit) : State :=
  let s := s.modLink d fun l => { l with watch := false, config := false, peerTot := tset 0 l.peerTot f.cvc f.ctot }
  let s := if f.kind == 1 then
      s.modLink d fun l => { l with peerTot := (List.range 8).foldl (fun t v => tset 0 t v (u16 f.pay (2 * v) % 4096)) l.peerTot }
    else s
  if isGleed d then s
  else
    let s := s.modLink d fun l => l.applyAck f.ack
    if f.nak then s.startReplay d else s

/-! The receiver (R188, R191, R197 to R199, R254). -/

/-- A flit arrives on an ACTIVE or PAUSED link. -/
def State.flitUp (s : State) (d : Nat) : Bool := (s.link d).st == .active || (s.link d).st == .paused

/-- A flit is discarded (R188): counted, with NAK once per gap of DATA flits on a mesh port (R199). -/
def State.badFlit (s : State) (d : Nat) (fec data : Bool) : State :=
  let s := (s.bump (adrCrcErrors d)).portEvent 0x2006 d []
  if isGleed d then (if fec then s.bump (adrFecUncorrected (d - 4)) else s)
  else if !s.flitUp d || !data then s
  else s.modLink d fun l => if l.gap then l else { l with gap := true, nak := true }

/-- Flits of a frame whose first 120 bytes are known. -/
def flitsOf (b : List Byte) : Nat := (u32 b 0xC + 119) / 120

/-- Replace or remove the frame in progress on VC `v`. -/
def State.setRxFrame (s : State) (d v : Nat) (x : Option RxFrame) : State :=
  s.modLink d fun l => { l with part := match x with
    | some y => tput l.part v y
    | none => tdel l.part v }

/-- Discard the frame in progress on VC `v`: its flits leave the buffer and count as freed (R189, R254), and a landing slot that it
fills alone is freed (R256); a frame that passes through ends at its egress with the abort marker. -/
def State.dropPart (s : State) (d v : Nat) : State :=
  match tfind (s.link d).part v with
  | none => s
  | some x =>
    let s := (s.setRxFrame d v none).freeFlits d v x.flits
    match x.way with
    | .port e => s.abortTx e d v
    | .gone => s
    | _ => s.releaseLanding d v

/-- A frame in progress on VC `v` is whole (R189): its padding goes. It waits for ingress, or joins the frames delivered to its
partition. -/
def State.frameEnd (s : State) (d v : Nat) (x : RxFrame) : State :=
  let s := s.setRxFrame d v none
  let b := x.bytes.take (u32 x.bytes 0xC)
  match x.way with
  | .wait => s.modLink d fun l => { l with frames := l.frames ++ [(v, b, x.flits)] }
  | .here => s.deliver d v ((parseHdr b).dst / 2 % 8) b 0
  | _ => s

/-- A payload joins the frame in progress on VC `v` (R189, R229): it is kept until the frame is routed, drains at once when the frame
stays here or is dropped, and goes on to the egress queue when the frame passes through. `n` is 1 for a flit of the receive buffer and
0 for a substitute (R254). -/
def State.feedFrame (s : State) (d v : Nat) (x : RxFrame) (pay : List Byte) (n : Nat) (ends : Bool) : State :=
  let len := u32 (x.bytes ++ pay) 0xC
  let y := { x with got := x.got + 120 }
  match x.way with
  | .wait =>
    let y := { y with bytes := x.bytes ++ pay, flits := x.flits + n }
    if ends then s.frameEnd d v y else s.setRxFrame d v (some y)
  | .here =>
    let y := { y with bytes := x.bytes ++ pay }
    let s := s.freeFlits d v n
    if ends then s.frameEnd d v y else s.setRxFrame d v (some y)
  | .gone => (s.freeFlits d v n).setRxFrame d v (if ends then none else some y)
  | .port e =>
    let p := pay.take (len - x.got)
    let s := s.modLink e fun l =>
      { l with txq := l.txq.map fun f =>
          if f.src == d && f.vc == v && !f.whole then { f with bytes := f.bytes ++ p, hold := f.hold + n, whole := ends } else f }
    s.setRxFrame d v (if ends then none else some y)

/-- Store the payload of a DATA flit in its frame (R189). A flit that belongs to no frame is discarded and freed. -/
def State.storeFlit (s : State) (d : Nat) (f : Flit) : State :=
  let v := f.vc
  let s := s.modLink d fun l => { l with held := tset 0 l.held v (tget 0 l.held v + 1) }
  if f.abort then (s.dropPart d v).freeFlits d v 1
  else
    let first := f.pos == 1 || f.pos == 3
    let s := if first then (s.dropPart d v).modLink d fun l => { l with skip := l.skip.filter (· != v) } else s
    if !first && ((tfind (s.link d).part v).isNone || (s.link d).skip.contains v) then s.freeFlits d v 1
    else s.feedFrame d v ((tfind (s.link d).part v).getD {}) f.pay 1 (decide (2 ≤ f.pos))

/-- A DATA flit that is accepted in order (R191, R197). -/
def State.acceptData (s : State) (d : Nat) (f : Flit) : State :=
  let s := s.bump (adrFlitsRx d)
  if s.bufFlits d f.vc == 0 && !slotVc d f.vc then (s.bump (adrVcDropped d)).portEvent 0x2008 d []
  else if tget 0 (s.link d).held f.vc ≥ s.bufFlits d f.vc && !slotVc d f.vc then
    ((s.bump (adrCreditOverflow d)).portEvent 0x2009 d []).linkDown d
  else s.storeFlit d f

/-- A gap of `k` lost flits on VC `v` of a Gleed port (R254). -/
def State.flitGap (s : State) (d v k : Nat) : State :=
  let s := (s.bump (adrFlitGaps (d - 4))).portEvent 0x2209 d []
  let s := s.modLink d fun l => if slotVc d v then l else { l with freed := tset 0 l.freed v (tget 0 l.freed v + k) }
  match tfind (s.link d).part v with
  | none => s.modLink d fun l => { l with skip := insNat l.skip v }
  | some x =>
    let left := flitsOf x.bytes - x.got / 120
    if v == 1 || v == 3 then
      let m := min k left
      let s := s.bumpBy (adrFlitsSubstituted (d - 4)) m
      let s := s.each (List.range m) fun s i => match tfind (s.link d).part v with
        | some y => s.feedFrame d v y (List.replicate 120 0) 0 (i + 1 == left)
        | none => s
      if left < k then s.modLink d fun l => { l with skip := insNat l.skip v } else s
    else
      ((s.dropPart d v).bump (adrFramesDiscarded (d - 4))).modLink d fun l => { l with skip := insNat l.skip v }

/-- A DATA flit with good CRC (R198, R199, R254). -/
def State.dataFlit (s : State) (d : Nat) (f : Flit) : State :=
  let s := s.applyReports d f
  let l := s.link d
  if isGleed d then
    let k := dist12 (tget 0 l.vexp f.vc) f.seq
    if k ≥ 2048 then s.linkDown d
    else
      let s := if k == 0 then s else s.flitGap d f.vc k
      let s := s.modLink d fun l => { l with vexp := tset 0 l.vexp f.vc ((f.seq + 1) % 4096), owed := true }
      s.acceptData d f
  else if f.seq == (l.last + 1) % 4096 then
    let s := s.setLink d { l with last := f.seq, gap := false, nak := false, unacked := l.unacked + 1, owed := true }
    s.acceptData d f
  else if l.gap then s
  else s.setLink d { l with gap := true, nak := true }

/-- CONFIG payload (R194): buffer sizes and SEEN. -/
def State.configPay (s : State) (d : Nat) : List Byte :=
  (List.range 8).flatMap (fun v => leBytes 2 (if slotVc d v then 0 else s.bufFlits d v)) ++ leBytes 1 (b2n (s.link d).seen)

/-! The transmitter (R189, R192, R231, R255). -/

/-- Send a flit; its reports go with it. -/
def State.sendFlit (s : State) (d : Nat) (f : Flit) : State :=
  let f := s.reportFlit d f
  (s.sendBytes d (flitBytes f)).modLink d fun l =>
    { l with nak := false, unacked := 0, due := if f.kind == 1 then false else l.due,
             owed := if f.kind == 1 then false else l.owed, creditPtr := (l.creditPtr + 1) % 7 }

/-- An antennation frame that no flit of has gone out. -/
def TxFrame.ant (f : TxFrame) : Bool := f.first && (parseHdr f.bytes).typ == 9

/-- The frame that VC `v` sends next: the oldest one, and on a port that carries only antennation frames the oldest of those (R218,
R219). -/
def State.headOf (s : State) (d v : Nat) : Option TxFrame := (s.link d).txq.find? fun f => f.vc == v && (!s.antOnly d || f.ant)

/-- VC `v` may send a flit: it has one, all of whose bytes have come, a credit, retry space, and its share of a tapered port (R192, R200,
R229, R231). A landing slot credit is needed for a frame's first flit only (R256). -/
def State.vcReady (s : State) (d v : Nat) : Bool :=
  let l := s.link d
  match s.headOf d v with
  | none => false
  | some f =>
    (f.whole || decide (120 ≤ f.bytes.length)) && (decide (0 < s.credits d v) || (slotVc d v && !f.first))
      && (isGleed d || decide (l.retry.length < 4095)) && (!f.cls || decide (16 ≤ l.share))

/-- Replace the first of a frame in a queue, or remove it. -/
def replaceFrame (g : TxFrame) (x : Option TxFrame) : List TxFrame → List TxFrame
  | [] => []
  | f :: fs => if f == g then x.toList ++ fs else f :: replaceFrame g x fs

/-- Send the next flit of VC `v` (R187, R189, R200, R255): what it held at its ingress is freed, and with the frame's last flit begins
what its departure sets going. -/
def State.sendVc (s : State) (d v : Nat) : State :=
  let l := s.link d
  match s.headOf d v with
  | none => s
  | some f =>
    let seq := if isGleed d then tget 0 l.vseq v else l.seq
    let ends := f.whole && decide (f.bytes.length ≤ 120)
    let ab := f.abort && f.bytes.isEmpty
    let pos := if f.abort then (if f.first && !ab then 1 else 0) else if f.first then (if ends then 3 else 1) else if ends then 2 else 0
    let pay := slice f.bytes 0 120
    let last := ab || (ends && !f.abort)
    let slot := slotVc d v
    let n := if last then f.hold else min 1 f.hold
    let l := { l with
      txq := replaceFrame f (if last then none else some { f with bytes := f.bytes.drop 120, first := false, hold := f.hold - n }) l.txq
      sent := if slot && !f.first then l.sent else tset 0 l.sent v ((tget 0 l.sent v + 1) % sentMod d v)
      share := if f.cls then l.share - 16 else l.share
      seq := if isGleed d then l.seq else (l.seq + 1) % 4096
      vseq := if isGleed d then tset 0 l.vseq v ((seq + 1) % 4096) else l.vseq
      retry := if isGleed d then l.retry else l.retry ++ [⟨seq, v, pos, ab, pay⟩] }
    let s := ((s.setLink d l).bump (adrFlitsTx d)).sendFlit d
      { vc := v, kind := 0, pos := pos, abort := ab, seq := seq, ack := 0, nak := false, cvc := 0, ctot := 0, pay := pay }
    let s := s.freeFlits f.src v n
    if last then s.left f.note else s

/-- Weight of VC `v` (R192). -/
def State.vcWeight (s : State) (d v : Nat) : Nat := s.rf (adrLnkVcWeight d) (4 * v - 1) (4 * v - 4)

/-- Deficit round robin last VC1 to VC5 (R192): the VC served, and the deficits left. A VC that cannot send keeps no deficit;
a VC of weight 0 is served only when no other weighted VC may send. -/
def State.drr (s : State) (d : Nat) : Nat → Nat → Tbl Nat → Option (Nat × Tbl Nat)
  | 0, _, _ => none
  | k + 1, v, t =>
    let nx := if v ≥ 5 then 1 else v + 1
    if s.vcReady d v && decide (0 < tget 0 t v) then some (v, tset 0 t v (tget 0 t v - 1))
    else
      let t := if s.vcReady d v then t else tset 0 t v 0
      let t := if s.vcReady d nx then tset 0 t nx (tget 0 t nx + 64 * s.vcWeight d nx) else t
      State.drr s d k nx t

/-- The VC that the transmitter serves (R192). -/
def State.pickVc (s : State) (d : Nat) : Option (Nat × Tbl Nat) :=
  let l := s.link d
  if s.vcReady d 0 then some (0, l.deficit)
  else if s.vcReady d 6 then some (6, l.deficit)
  else
    match s.drr d 11 l.rrPtr l.deficit with
    | some x => some x
    | none => ([1, 2, 3, 4, 5].find? (s.vcReady d)).map fun v => (v, l.deficit)

/-- A CONFIG flit (R194). -/
def State.sendConfig (s : State) (d : Nat) : State :=
  s.sendFlit d { vc := 0, kind := 2, pos := 0, abort := false, seq := 0, ack := 0, nak := false, cvc := 0, ctot := 0,
                 pay := s.configPay d }

/-- A time ordered set (R280). -/
def timeOs (typ tag ta tb : Nat) : List Byte :=
  let b := leBytes 1 typ ++ leBytes 1 tag ++ leBytes 6 ta ++ leBytes 6 tb
  b ++ leBytes 2 (crc16 b)

/-- The oldest time ordered set that waits leaves in a slot of its own, stamped as it leaves (R280). -/
def State.sendTime (s : State) (d : Nat) (x : TimeOs) : State :=
  let t := s.machineTime % 2 ^ 48
  let q := s.nextQuad d
  let s := s.modLink d fun l => { l with timeQ := l.timeQ.drop 1, turn := if isCampus d then l.turn else q + 1 }
  match x with
  | .rsp tag t2 => s.sendOs d q (timeOs 0xAA tag t2 t)
  | .req tag =>
    let s := match tfind s.measures d with
      | some m => { s with measures := tput s.measures d { m with t1 := tput m.t1 tag t } }
      | none => s
    s.sendOs d q (timeOs 0xA9 tag t 0)

/-- One flit slot of an ACTIVE link (R192, R280). -/
def State.slotActive (s : State) (d : Nat) : State :=
  let l := s.link d
  match l.replay with
  | f :: fs =>
    ((s.setLink d { l with replay := fs }).bump (adrFlitsTx d)).sendFlit d
      { vc := f.vc, kind := 0, pos := f.pos, abort := f.abort, seq := f.seq, ack := 0, nak := false, cvc := 0, ctot := 0,
        pay := f.payload }
  | [] =>
    match l.timeQ with
    | x :: _ => s.sendTime d x
    | [] =>
    if l.config then (s.setLink d { l with config := false }).sendConfig d
    else if l.due || decide (32 ≤ l.unacked) then s.sendFlit d (s.controlFlit d)
    else
      let s := s.setLink d { l with share := min 256 (l.share + s.rf adrAntCfg 22 18) }
      match s.pickVc d with
      | some (v, t) => (s.modLink d fun l => { l with deficit := t, rrPtr := if 1 ≤ v && v ≤ 5 then v else l.rrPtr }).sendVc d v
      | none => s.sendFlit d (s.controlFlit d)

/-! Pauses (R204, R205). -/

/-- The peer's PAUSE has come (R204 step 2): the new active set is fixed under R190 from what the handshake exchanged, or the link goes
down. -/
def State.fixSet (s : State) (d : Nat) : State :=
  let l := s.link d
  match l.pause with
  | none => s
  | some p =>
    if p.recv then s
    else
      let w := agree p.ownSustain p.sustain p.ownDesired p.desired
      if w == 0 then s.linkDown d else s.setLink d { l with pause := some { p with recv := true, newMask := w } }

/-- A pause begins: PAUSE goes out on every active quad, and time pairs that cross it are discarded (R281). -/
def State.beginPause (s : State) (d : Nat) (kind : Nat) (lead : Bool) (own ownSus des sus : Nat) : State :=
  let l := s.link d
  let s := s.setLink d { l with
    st := .paused, req := none, early := false
    pause := some { kind := kind, lead := lead, desired := des, sustain := sus, ownDesired := own, ownSustain := ownSus, recv := false,
                    ready := false, resumed := none, newMask := 0 } }
  let s := { s with measures := s.measures.map fun (i, m) => (i, if i == d then { (m : Measure) with t1 := [] } else m) }
  let s := s.sendOsAll d l.active (osBytes 0xA4 (kind + 16 * own) ownSus 0 0)
  if l.early then s.fixSet d else s

/-- A need that came up during a handshake of KIND `done` remains after it (R206): a retrain that was not one, or a width that
the new active set does not give. -/
def Link.stillNeeds (l : Link) (done desired : Nat) : Nat → Bool
  | 0 => done != 0
  | 1 => decide (desired < popcount 8 l.active) || Nat.land l.active l.sustain != l.active
  | _ => decide (popcount 8 l.active < min desired (popcount 8 l.sustain))

/-- The end of a pause (R204 step 5): replay from the peer's ACK_SEQ + 1, everything else as it was. -/
def State.endPause (s : State) (d : Nat) : State :=
  let l := s.link d
  match l.pause with
  | none => s
  | some p =>
    match p.resumed with
    | none => s
    | some ack =>
      if !p.ready then s
      else
        let l := if isGleed d then l else
          let m := l.applyAck ack
          { m with replay := m.retry }
        let need := l.need.filter (l.stillNeeds p.kind (s.desired d))
        let s := s.setLink d { l with st := .active, pause := none, need := need, escal := if l.escal == 1 && p.kind == 0 then 2 else l.escal }
        let s := if p.kind == 0 then ((s.portEvent 0x2003 d []).bump (adrRetrains d)).setRf (adrLnkCtrl d) 4 4 0
          else (s.portEvent 0x2004 d []).bump (adrWidthChanges d)
        match need with
        | k :: _ => s.startReq d k
        | [] => s

/-! Training (R184, R190). -/

/-- A LINK_INIT of quad `k` (R183). -/
def State.linkInit (s : State) (d k : Nat) : List Byte :=
  let l := s.link d
  osBytes 0xA1 (16 * s.desired d) l.sustain l.gen (k + 16 * l.allot)

/-- LINK_INIT starts on the quads that have locked (R184 step 5). A failed quad is not among them: it rejoins only when R208 recovers
it. With no quad left the link stays DOWN. -/
def State.startInit (s : State) (d locked : Nat) : State :=
  let l := s.link d
  let sus := Nat.xor locked (Nat.land locked l.failed)
  if sus == 0 then s.setLink d { l with st := .down, step := 0 }
  else
    let s := s.setLink d { l with step := 5, sustain := sus }
    s.each (onesOf 8 sus) fun s k => s.sendOs d k (s.linkInit d k)

/-- First laser and channels of Gleed port `f` (R239, R241, R244). -/
def gldLaser0 (f : Nat) : Nat := [0, 18, 36, 41].getD f 0
/-- Channels of Gleed port `f`. -/
def gldChans (f : Nat) : Nat := if f < 2 then 18 else 5

/-- The lasers of a port are lit (R184, R244): spares run and stay locked too. -/
def State.lightPort (s : State) (d : Nat) : State :=
  if d < 4 then s
  else
    let f := d - 4
    s.each (List.range (gldChans f)) fun s c =>
      let a := adrGldLaser (gldLaser0 f + c)
      if s.rf a 2 0 == 0 then s.setRf a 2 0 (if s.chanHealth d c == 1 then 3 else 2) else s

/-- An attempt to train begins (R184 step 1): DOWN reads 0 again. -/
def State.startTraining (s : State) (d : Nat) : State :=
  ((s.lightPort d).modLink d fun l => { l with st := .training, step := 1, active := 0, turn := 0, seen := false, peerSeen := false, seenSent := false }).setRf
    (adrLnkCtrl d) 5 5 0

end Sys2Proof.Machine
end

