-- ==== Sys2Proof/Machine/PartitionOps.lean ====
section
/-! DEFINITION. Partition reset, release and host port reset (R59, R290, R318, R333 to R337, R548). -/
namespace Sys2Proof.Machine

/-- Physical bytes of granule `g`. -/
def inGranule (g a : Nat) : Bool := a / granBytes == g

/-- Write zeros to every word of a granule, which clears its poison (R139). -/
def State.zeroGranule (s : State) (g : Nat) : State :=
  { s with hrt := { s.hrt with
      mem := s.hrt.mem.filter fun (a, _) => !inGranule g a
      poison := s.hrt.poison.filter fun w => !inGranule g (32 * w) } }

/-! Host accesses through BAR2 (R134, R139, R294, R303, R336). -/

/-- Granule that a BAR2 address of a function names: physical for the PF, through the partition's map for a VF. -/
def State.barGranule (s : State) (fn a : Nat) : Option Nat :=
  if fn == 0 then (if a / granBytes < 128 then some (a / granBytes) else none) else (s.granules (fn - 1))[a / granBytes]?

/-- A BAR2 access to an address must wait: its granule is being zeroed, or its owner is RESETTING. -/
def State.barWaits (s : State) (fn a : Nat) : Bool :=
  match s.barGranule fn a with
  | none => fn > 0 && s.inReset (fn - 1)
  | some g => s.hrt.zeroing.contains g || (match s.granOwner g with
      | some p => s.inReset p
      | none => false)

/-- Physical address of a BAR2 access. -/
def State.barPhys (s : State) (fn a : Nat) : Option Nat := (s.barGranule fn a).map fun g => g * granBytes + a % granBytes

/-- The requester that a function's accesses count for, and its partition (R476). -/
def fnReq (fn : Nat) : Nat := if fn == 0 then 8 else fn - 1
/-- The partition of a function; 0xFF for the PF. -/
def fnPart (fn : Nat) : Nat := if fn == 0 then 0xFF else fn - 1

/-- A BAR2 access touches the hole (R294): recorded and counted. -/
def State.holeHit (s : State) (fn : Nat) : State := (s.pciCount 6 (fnReq fn)).event 0x0106 (fnReq fn) (fnPart fn)

/-- Some byte of a BAR2 access lies in the hole (R294). -/
def State.inHole (s : State) (fn a n : Nat) : Bool := (s.barPhys fn a).isNone || (s.barPhys fn (a + n - 1)).isNone

/-- Physical bytes of a BAR2 access that avoids the hole. -/
def State.barBytes (s : State) (fn a n : Nat) : List Nat := (List.range n).filterMap fun i => s.barPhys fn (a + i)

/-- Complete a BAR2 read (R134, R294, R303): data, a poisoned TLP, or Unsupported Request in the hole. -/
def State.barRead (s : State) (fn a n : Nat) : State :=
  if s.inHole fn a n then (s.holeHit fn).emit (.hostUr fn)
  else
    let xs := s.barBytes fn a n
    let ws := ((xs.map (· / 32)).eraseDups).filter fun w => s.hrt.poison.contains w
    let p := ((xs.head?).bind fun x => s.granOwner (x / granBytes)).getD 0xFF
    let d := if ws.isEmpty then xs.map s.byteAt else List.replicate n 0xFF
    (s.notePoison p ws).emit (.hostData fn d (!ws.isEmpty))

/-- Words that a write of `n` bytes at physical address `a` covers in part: their old contents are read first (R132, R133). -/
def partWords (a n : Nat) : List Nat := [a / 32, (a + n - 1) / 32].filter fun w => !coversWord a n w

/-- Carry out a BAR2 write (R294, R303); `ecc` names the errors that the internal reads of partial writes find (R133). -/
def State.barWrite (s : State) (fn a : Nat) (d : List Byte) (ecc : List (Nat × Bool)) : State :=
  if s.inHole fn a d.length then s.holeHit fn
  else
    s.each (granPieces (d.length / granBytes + 2) a d) fun s (x, b) =>
      match s.barPhys fn x with
      | some y => (s.eccFinds (ecc.filter fun e => (partWords y b.length).contains e.1)).writePhys y b
      | none => s

/-- A BAR2 access must wait (R139, R336). -/
def State.stillWaits (s : State) (fn a n : Nat) : Bool := s.barWaits fn a || s.barWaits fn (a + n - 1)

/-- The RESETTING owner of a byte that a BAR2 access touches (R336). -/
def State.barReset (s : State) (fn a n : Nat) : Option Nat :=
  if fn != 0 && s.inReset (fn - 1) then some (fn - 1)
  else
    let o := fun x => (s.barGranule fn x).bind s.granOwner
    match o a, o (a + n - 1) with
    | some p, q => if s.inReset p then some p else q.filter s.inReset
    | none, q => q.filter s.inReset

/-! Partition reset (R333 to R335). -/

/-- A field's place in the map belongs to partition `p` (R524): by block and instance. -/
def State.ownsReg (s : State) (p : Nat) (d : RegDesc) (i j : Nat) : Bool :=
  match d.base / 0x100000 with
  | 1 => j == p
  | 4 => s.anvilOwner i == some p
  | 7 => s.tongOwner i == some p
  | 11 => s.bankOwner i == some p
  | _ => i == p

/-- A carve field of partition `p` (R325, R524). -/
def State.carveReg (s : State) (p : Nat) (d : RegDesc) (i j : Nat) : Bool :=
  if d.name == "HRT_GRANULE_OWNER" then s.granOwner j == some p
  else if d.name == "ANT_PORT_CFG" then s.portOwner j == some p
  else if d.name == "ANT_PART_SLICE" || d.name == "PCI_PROXY_CFG" then j == p
  else i == p

/-- A relay entry for an open lap that this member may no longer abort (R59), with the commit window that applies to it. -/
def State.keepRelay (s : State) (p r : Nat) (l : Lap) (j : LapJob) : State :=
  let s := s.modLap p r fun k => { k with tokens := [] }
  { s with relays := s.relays.filter (fun x => !(x.part == p && x.ring == r)) ++
      [{ part := p, ring := r, epoch := l.epoch, pred := j.plan.pred, succ := j.plan.succ, leader := l.leader,
         window := s.rf (adrPrcCommitWindow p) 15 0, tokens := l.tokens }] }

/-- Step 2 of R334: every open lap ends under R59, a lap-start packet that has not opened its lap ends too, and every line
dissolves. -/
def State.endLaps (s : State) (p : Nat) : State :=
  let s := s.each [0, 1] fun s r =>
    let s := s.modLap p r Lap.unopened
    let l := s.lap p r
    match l.job with
    | none => s
    | some j =>
      if l.isOpen && l.phase != .aborting && (if l.leader then l.decision == 1 else l.phase == .prepared) then s.keepRelay p r l j
      else s.originateAbort p r
  (s.noticeDissolve p).modPart p fun q => { q with
    lines := [], setups := [], slots := [], strms := [], jobs := [], works := [], prods := []
    goneLines := (q.lines.map (·.id)).foldl insNat q.goneLines }

/-- Tags of requester `r` go to quarantine and its waiting requests are dropped (R317, R334 step 3). -/
def State.quarantineAll (s : State) (r : Nat) : State :=
  let s := s.setReqs r []
  let s := s.setHost fun h =>
    { h with tagWait := h.tagWait.filter (· != r), tags := h.tags.map fun (t, u) => (t, if u.req == r then { u with quarantined := true, iss := .other } else u) }
  if r < 8 then
    (s.modPart r fun q => { q with
      proxy := q.proxy.map fun (t, x) => (t, { x with quarantined := true, iss := .other }), proxyQ := [] }).setHost fun h =>
      { h with serves := h.serves.filter fun (_, v) => v.part != r }
  else s

/-- Steps 1 to 4 of R334. Packets complete with PARTITION_RESET unless the host port or the function was reset, and
a completion ring in host memory needs Bus Master Enable (R298). -/
def State.resetSteps (s : State) (p cause : Nat) : State :=
  let s := s.stopFetch p
  let s := (s.endLaps p).dropDelivered p
  let s := s.stopWork p (fun k => (s.pktsOf p).contains k) .idle
  let s := s.each ((List.range 8).filter fun a => s.anvilOwner a == some p) fun s a =>
    let v := s.anvil a
    s.setAnvil a { v with buf0 := { regions := [], invalid := true }, buf1 := { regions := [], invalid := true }, shadow := [] }
  let s := (s.each ([0, 1].filter fun b => s.bankOwner b == some p) State.stopRotation).clearBlocks fun x => x.part == p
  let s := s.quarantineAll p
  let hears := fun (x : Pkt) => cause != 1 && cause != 2
    && ((s.fn (s.fnOf p)).bme || s.rf (adrCmdCqCfg p (s.boundCq p x.sq)) 6 5 != 0)
  { s with pkts := s.pkts.filter fun (_, x) => x.part != p || hears x }.failAll p 0x40

/-- A partition reset begins, or merges with the one that runs (R333, R334). -/
def State.resetPart (s : State) (p cause : Nat) (release : Bool) : State :=
  match (s.part p).st with
  | .resetting x =>
    (s.modPart p fun q => { q with st := .resetting { x with release := x.release || release, asked := x.asked || cause == 3 } }).eventD
      0x0201 p p [cause]
  | _ =>
    let lock := s.hasLock p
    let s := (s.modPart p fun q => { q with st := .resetting ⟨cause, release, lock, cause == 3⟩ }).bump (adrPrtResets p)
    s.resetSteps p cause

/-- What a partition keeps across its reset: the books of faults (R512), proxy tags in quarantine (R335), and the tokens that
the custody engine, which survives the reset (R59), still retains, and which receive bindings it removed (R336). -/
def Part.afterReset (q : Part) : Part :=
  { laps := (q.laps.map fun (r, l) => (r, ({ tokens := l.tokens } : Lap))).filter fun (_, l) => !l.tokens.isEmpty
    esc := q.esc, escTotal := q.escTotal, proxy := q.proxy.filter fun (_, x) => x.quarantined, nextProxy := q.nextProxy
    goneBulk := (q.bulk.map (·.1)).foldl insNat q.goneBulk, goneLines := q.goneLines }

/-- Steps 5 and 6 of R334: zeroing, clearing, mode and lock. -/
def State.clearPart (s : State) (p : Nat) : State :=
  let s := s.each (s.granules p) fun s g => s.zeroGranule g
  let s := s.each ((List.range 8).filter fun a => s.anvilOwner a == some p) fun s a =>
    s.setAnvil a { s.anvil a with seed := 1, lfsr := [], seedNext := none }
  let s := s.each ((List.range 32).filter fun t => s.tongOwner t == some p) fun s t => s.setTong t {}
  let s := { s with grants := s.grants.filter fun w => match w with
      | .pkt k => (s.pkt k).isSome
      | .tong t => s.tongOwner t != some p
      | .used q _ _ => q != p
      | .contrib q _ _ => q != p
      | .empty q _ _ => q != p
      | .bulk q _ => q != p }
  (s.resetDom .part (s.ownsReg p)).setPart p (s.part p).afterReset

/-- An anvil without an owner, cleared (R548). -/
def clearedAnvil : Anvil := {}

/-- A release returns every carved unit to free (R337). -/
def State.freeCarve (s : State) (p : Nat) : State :=
  let mine := fun a => s.anvilOwner a == some p || (s.anvil a).clearing == some p
  let s := s.each ((List.range 8).filter mine) fun s a => s.setAnvil a clearedAnvil
  (s.resetDom .carve (s.carveReg p)).event 0x0205 p p

/-- A partition reset ends (R334 steps 5 and 6, R337). -/
def State.partResetDone (s : State) (p : Nat) (x : Resetting) : State :=
  let s := s.clearPart p
  let s := if x.release then s.freeCarve p else s
  s.eventD 0x0201 p p [x.cause]

/-! Host port reset (R290, R318). -/

/-- The host port is reset: the PCIe core, every configuration space, the tag pool and the MSI-X state take their reset
values, event 0x0108 is recorded, and every partition is reset. The pins and the counters' shares stay. -/
def State.hostReset (s : State) : State :=
  let s := s.event 0x0108 0 0xFF
  let s := s.setHost fun h => { refclk := h.refclk, perst := h.perst, training := h.refclk && !h.perst, share := h.share, nextServe := h.nextServe }
  let s := { s with hrt := { s.hrt with hostWait := [] } }
  let s := s.resetDom .hostPort fun _ _ _ => true
  s.each allParts fun s p => s.resetPart p 2 false

end Sys2Proof.Machine
end

