-- ==== Sys2Proof/Machine/HostPort.lean ====
section
/-! DEFINITION. Commands of the host port (R287 to R321): requests, completions, tags, interrupts, resets, BAR2 accesses,
configuration writes, and the host proxy. -/
namespace Sys2Proof.Machine

/-! What a read brings back (R141, R302, R309, R313, R314, R320). -/

/-- The partition of tong `t`'s packet. -/
def State.tongPart (s : State) (t : Nat) : Option (Nat × Nat) :=
  match (s.tong t).pkt with
  | none => none
  | some k => (s.pkt k).map fun x => (k, x.part)

/-- Data of a tong's read: written to Hearth as it arrives, or kept for the rest of the copy. -/
def State.tongData (s : State) (t off : Nat) (d : List Byte) : State :=
  let x := s.tong t
  match s.tongPart t with
  | none => s
  | some (_, p) =>
    let n := max 1 (dLen x.desc)
    if dDstKind x.desc == 0 then s.writeHearth p (dDstRow x.desc (off / n) + off % n) d
    else s.setTong t { x with buf := splice x.buf off d }

/-- The answer to a request served for another chip (R320). -/
def State.serveAnswer (s : State) (n status : Nat) (d : List Byte) : State :=
  match tfind s.host.serves n with
  | none => s
  | some v =>
    let s := s.setHost fun h => { h with serves := tdel h.serves n }
    let b := proxyBody (if v.write then 4 else 3) status v.tag v.addr v.len
    s.sendFrame v.part 7 5 v.src 0 0 (if !v.write && status == 0 then b ++ withCrc d else b)

/-- Data of a read reaches what issued it. -/
def State.readData (s : State) (iss : Issuer) (off : Nat) (d : List Byte) : State :=
  match iss with
  | .fetch p i => s.burstData p i off d
  | .tong t => s.tongData t off d
  | .input p k => s.jobData p k off d
  | .firmware k => s.setNvs fun n => match n.stage with
      | some (j, b, left, st) => if j == k then { n with stage := some (j, splice b off d, left, st) } else n
      | none => n
  | .serve n => s.setHost fun h => match tfind h.serves n with
      | some v => { h with serves := tput h.serves n { v with data := splice v.data off d, got := v.got + d.length } }
      | none => h
  | .other => s

/-- A read has brought its last byte. -/
def State.readEnd (s : State) (iss : Issuer) : State :=
  match iss with
  | .tong t => let x := s.tong t; s.setTong t { x with reads := x.reads - 1 }
  | .firmware k => (s.setNvs fun n => match n.stage with
      | some (j, b, left, st) => if j == k then { n with stage := some (j, b, left - 1, st) } else n
      | none => n).stageSettle
  | .serve n =>
    match tfind s.host.serves n with
    | some v => if v.got < v.len then s else s.serveAnswer n 0 v.data
    | none => s
  | _ => s

/-- A read failed with a status: its issuer fails (R141, R309, R351). -/
def State.readFail (s : State) (iss : Issuer) (st : Nat) : State :=
  match iss with
  | .fetch p i => (s.stopRing p i st).orphan (· == .fetch p i)
  | .tong t =>
    match s.tongPart t with
    | some (_, p) => s.failTong p t st
    | none => s
  | .input p k => s.jobFail p k st
  | .firmware k => (s.setNvs fun n => match n.stage with
      | some (j, b, left, st') => if j == k then { n with stage := some (j, b, left - 1, if st' == 0 then st else st') } else n
      | none => n).stageSettle
  | .serve n => (s.serveAnswer n st []).orphan (· == .serve n)
  | .other => s

/-! Requests and tags (R298, R304 to R314). -/

/-- Issue the oldest waiting request of requester `r`; the WRITE_ACK of a served write goes once it is the oldest (R320). -/
def State.issueNext (s : State) (r : Nat) : Option State :=
  match s.reqs r with
  | .ack n :: rest => some ((s.setReqs r rest).serveAnswer n 0 [])
  | _ => s.issueOne r

/-- Issue waiting requests of requester `r` for as long as the rules allow. -/
def State.issueAll : Nat → State → Nat → State
  | 0, s, _ => s
  | n + 1, s, r =>
    match s.issueNext r with
    | none => s
    | some s' => State.issueAll n s' r


/-- Put the request of another chip behind those of requester `r` that wait; where none waits, carry it out (R307, R320). -/
def State.enqServe (s : State) (r : Nat) (ops : List HostOp) : State :=
  let idle := (s.reqs r).isEmpty
  let s := s.setReqs r (s.reqs r ++ ops)
  if idle then (State.issueAll ops.length s r).noteWait r else s

/-- Free a tag. -/
def State.freeTag (s : State) (t : Nat) : State := s.setHost fun h => { h with tags := tdel h.tags t }

/-- An Unexpected Completion (R312). -/
def State.unexpected (s : State) (fn : Nat) : State :=
  ((s.pciCount 2 (fnReq fn)).event 0x0102 (fnReq fn) (fnPart fn)).aer fn true 16 1

/-- A partition number for the books of requester `r`; 0xFF for the chip. -/
def reqPart (r : Nat) : Nat := if r < 8 then r else 0xFF

/-- A completion for a quarantined tag (R310, R311). -/
def State.lateCompletion (s : State) (t : Nat) (u : TagUse) (ends : Bool) (n : Nat) : State :=
  let s := if u.lateSeen then s else (s.pciCount 1 u.req).event 0x0103 u.req (reqPart u.req)
  if ends then s.freeTag t
  else s.setHost fun h => { h with tags := tput h.tags t { u with got := u.got + n, lateSeen := true } }

/-- A completion for an outstanding tag (R305, R313, R314). `status`: 0 Successful Completion, 1 Unsupported Request, 2
Completer Abort. -/
def State.completion (s : State) (t : Nat) (u : TagUse) (status : Nat) (poison : Bool) (d : List Byte) : State :=
  if status != 0 then
    (((s.freeTag t).pciCount 3 u.req).event 0x0104 u.req (reqPart u.req)).readFail u.iss 0x14
  else if poison then
    ((((s.freeTag t).aer u.fn true 12 1).pciCount 4 u.req).event 0x0105 u.req (reqPart u.req)).readFail u.iss 0x7F
  else
    let d := d.take (u.len - u.got)
    let g := u.got + d.length
    if g < u.len then
      (s.setHost fun h => { h with tags := tput h.tags t { u with got := g } }).readData u.iss (u.dst + u.got) d
    else ((s.freeTag t).readData u.iss (u.dst + u.got) d).readEnd u.iss

/-- The tag whose request carried the value `v` and the Requester ID of function `fn` (R306). -/
def State.tagOf (s : State) (fn v : Nat) : Option (Nat × TagUse) := s.host.tags.find? fun (_, u) => u.sent == v && u.fn == fn

/-- A completion arrives (R305, R311 to R314). `status` 3 is Request Retry Status, a malformed completion of a memory read. -/
def execHostCompletionReceived (tag fn status : Nat) (poison : Bool) (data : List Byte) (s : State) : Res :=
  .next (
    if status ≥ 3 then s.aer 0 true 18 2
    else match s.tagOf fn tag with
      | none => s.unexpected fn
      | some (t, u) =>
        if u.quarantined then
          s.lateCompletion t u (status != 0 || poison || decide (u.len ≤ u.got + data.length)) data.length
        else s.completion t u status poison data)

/-- A request's Completion Timeout is observed (R308, R309, R316). -/
def execCompletionTimeout (tag : Nat) (s : State) : Res :=
  .next (match tfind s.host.tags tag with
    | none => s
    | some u =>
      if u.quarantined then s
      else
        let s := s.setHost fun h => { h with tags := tput h.tags tag { u with quarantined := true, iss := .other } }
        let s := (s.pciCount 0 u.req).event 0x0101 u.req (reqPart u.req)
        let s := s.aer u.fn true 14 (if bitAt (s.fn u.fn).aerSev 14 then 3 else 1)
        s.readFail u.iss 0x21)

/-- A quarantined tag's period ends (R310). -/
def execTagQuarantineExpiry (tag : Nat) (s : State) : Res :=
  .next (match tfind s.host.tags tag with
    | none => s
    | some u => if u.quarantined then s.freeTag tag else s)

/-! MSI-X (R299). -/

/-- Send the pending messages of a function that are unmasked and enabled; none goes while Bus Master Enable is 0 (R298). -/
def State.flushMsix (s : State) (f : Nat) : State :=
  let c := s.fn f
  if !c.msixEn || c.fmask || !c.bme then s
  else
    let go := c.pending.filter c.unmasked.contains
    (s.setFn f { c with pending := c.pending.filter fun v => !c.unmasked.contains v }).each go fun s v => s.emit (.msix f v)

/-- Function `f` exists (R287, R296). -/
def State.fnExists (s : State) (f : Nat) : Bool := f == 0 || (decide (f ≤ 8) && s.vfExists (f - 1))

/-- Vectors of function `f` (R287). -/
def vectors (f : Nat) : Nat := if f == 0 then 64 else 32

/-- A vector becomes unmasked (R299). -/
def State.unmaskVec (s : State) (fn v : Nat) : State :=
  if s.fnExists fn && decide (v < vectors fn) then
    (s.setFn fn { s.fn fn with unmasked := insNat (s.fn fn).unmasked v }).flushMsix fn
  else s

/-! Configuration space (R291, R296, R298, R549). -/

/-- Firmware has loaded the function configuration (R291, R448). -/
def State.hostStage (s : State) : Bool := s.boot == .stage || s.boot == .calibrating || s.boot == .ready

/-- A value that PCI configuration refuses: a Max Payload Size above 512 bytes or a Max Read Request Size above 4,096. -/
def cfgBad (field val : Nat) : Bool := (field == 1 && decide (2 < val)) || (field == 2 && decide (5 < val))

/-- A configuration field takes a value: 0 Bus Master Enable, 1 Max Payload Size, 2 Max Read Request Size, 3 Enable Relaxed
Ordering, 4 Extended Tag Field Enable, 5 10-Bit Tag Requester Enable, 6 Completion Timeout Value, 7 MSI-X Enable, 8 Function
Mask, 9 AER Uncorrectable Error Status and 10 Correctable Error Status (write 1 to clear), 11 and 12 their masks, 13
severity, 15 ECRC Generation Enable, 16 ECRC Check Enable, 17 ACS Control, 18 BAR0/1 and 19 BAR2/3, 20 and 21 the VF BAR0/1 and
BAR2/3 of SR-IOV. A BAR keeps the address bits above its size (R293). -/
def FnCfg.put (c : FnCfg) (field val : Nat) : FnCfg :=
  let b := val % 2 == 1
  match field with
  | 0 => { c with bme := b }
  | 1 => { c with mps := 128 * 2 ^ val }
  | 2 => { c with mrrs := 128 * 2 ^ val }
  | 3 => { c with relaxed := b }
  | 4 => { c with extTag := b }
  | 5 => { c with tag10 := b }
  | 6 => { c with cto := val % 16 }
  | 7 => { c with msixEn := b }
  | 8 => { c with fmask := b }
  | 9 => { c with aerUnc := Nat.xor c.aerUnc (Nat.land c.aerUnc val) }
  | 10 => { c with aerCor := Nat.xor c.aerCor (Nat.land c.aerCor val) }
  | 11 => { c with aerMask := val % 2 ^ 32 }
  | 12 => { c with aerCorMask := val % 2 ^ 32 }
  | 13 => { c with aerSev := val % 2 ^ 32 }
  | 15 => { c with ecrcGen := b }
  | 16 => { c with ecrcCheck := b }
  | 17 => { c with acs := val % 2 ^ 16 }
  | 18 => { c with bar0 := val % 2 ^ 64 / 2 ^ 26 * 2 ^ 26 }
  | 19 => { c with bar2 := val % 2 ^ 64 / 2 ^ 31 * 2 ^ 31 }
  | 20 => { c with vfBar0 := val % 2 ^ 64 / 2 ^ 21 * 2 ^ 21 }
  | 21 => { c with vfBar2 := val % 2 ^ 64 / 2 ^ 31 * 2 ^ 31 }
  | _ => c

/-- SR-IOV reserves the field in a VF (R306, R308, R549), or keeps it in the PF (R293, R306); the PF alone generates and checks ECRC
for the port. -/
def vfReserved (field : Nat) : Bool := [1, 4, 5, 6, 14, 15, 16, 18, 19, 20, 21].contains field

/-- Every partition is UNCONFIGURED (R296). -/
def State.allFree (s : State) : Bool := allParts.all fun p => (s.part p).st == .unlocked && !s.configured p

/-- A write of VF Enable and NumVFs (R296): VFs that it makes or takes away have their configuration at reset. -/
def State.vfEnableWrite (s : State) (enable : Bool) (num : Nat) : State :=
  if !s.hostStage then s.emit (.hostRrs 0)
  else if !s.allFree || 8 < num then s.event 0x010A 8 0xFF
  else s.setHost fun h => { h with vfEnable := enable, numVfs := num, fns := h.fns.filter fun (f, _) => f == 0 }

/-! What configuration space shows and no write changes (R287, R293, R296). -/

/-- Device ID of the PF and VF Device ID. -/
def deviceId (fn : Nat) : Nat := if fn == 0 then 0x0408 else 0x0409

/-- Class code: processing accelerator. -/
def classCode : Nat := 0x120000

/-- Interrupt Pin: no INTx. -/
def interruptPin : Nat := 0

/-- First VF Offset and VF Stride that SR-IOV reports, and the VFs that it supports (R296). -/
def sriov : Nat × Nat × Nat := (1, 1, 8)

/-- A base address register pair: its number, its size, whether it is prefetchable. Every one is a 64-bit memory BAR. -/
structure BarDesc where
  n : Nat
  size : Nat
  prefetch : Bool
deriving DecidableEq, Repr

/-- The BARs of a function (R293); BAR4/5 are not implemented. -/
def barsOf (fn : Nat) : List BarDesc :=
  [⟨0, if fn == 0 then 2 ^ 26 else 2 ^ 21, false⟩, ⟨2, 2 ^ 31, true⟩]

/-- The low word of a BAR as configuration space shows it: a 64-bit memory BAR ([2:1] 2), [3] prefetchable, and the address. -/
def barLow (b : BarDesc) (addr : Nat) : Nat := addr % 2 ^ 32 + 4 + (if b.prefetch then 8 else 0)

/-- Features of the host port that R287 lists (R287, R288). -/
inductive PciCap where
  | msix | msi | aer | ecrc | flr | tag10Req | tag10Cpl | tag14 | acs | sriov | ctoDisable | ats | pri | pasid | atomicOps | tph | ltr
  | aspm | ide | doe | resizableBar
deriving DecidableEq, Repr

/-- A function's configuration space reports the feature (R287); of any other the capability is absent or reports no support. -/
def capOf (fn : Nat) : PciCap → Bool
  | .msix => true
  | .aer => true
  | .ecrc => fn == 0
  | .flr => fn != 0
  | .tag10Req => true
  | .tag10Cpl => true
  | .acs => true
  | .sriov => fn == 0
  | _ => false

/-- Max Payload Size Supported in bytes, and the Completion Timeout ranges supported, A to D (R287). -/
def mpsSupported : Nat := 512
/-- Completion Timeout Ranges Supported: A, B, C and D. -/
def ctoRanges : Nat := 0xF

/-! Resets and the link (R289 to R292, R317, R318). -/

/-- The host port is reset: `kind` 0 PCI_PERST_N, 1 a hot reset, 2 DL_Down (R290), 3 the loss of PCI_REFCLK, which holds the PCIe
core in reset and takes its data link down (R289). -/
def execHostPortReset (kind : Nat) (s : State) : Res :=
  .next (
    if kind > 3 || (kind == 3 && !s.host.refclk) then s
    else
      let held := s.host.perst || !s.host.refclk
      let s := if kind == 0 then s.setHost fun h => { h with perst := true, training := false }
        else if kind == 3 then s.setHost fun h => { h with refclk := false, training := false } else s
      if held || s.boot == .off then s else s.hostReset)

/-- PCI_PERST_N deasserts and link training starts (R291). -/
def execPerstDeassert (s : State) : Res :=
  .next (s.setHost fun h => if h.perst then { h with perst := false, training := h.refclk } else h)

/-- PCI_REFCLK becomes present and the PCIe core leaves reset (R289). -/
def execPciRefclkRestored (s : State) : Res :=
  .next (s.setHost fun h => if h.refclk then h else { h with refclk := true, training := !h.perst })

/-- Rates 1 to 6 and widths that the port supports (R287). -/
def linkForm (rate width : Nat) (flit : Bool) : Bool :=
  decide (1 ≤ rate) && decide (rate ≤ 6) && (width == 1 || width == 4 || width == 8 || width == 16) && (rate != 6 || flit)

/-- Training or Recovery settles at a rate and width (R292). -/
def execHostLinkSettled (rate width : Nat) (flit : Bool) (s : State) : Res :=
  .next (
    if linkForm rate width flit && (s.host.training || s.host.rate != 0) && s.boot != .off
        && s.railGood 3 && s.railGood 4 then
      let low := decide (rate < 4) || decide (width < 4)
      let s := s.setHost fun h => { h with training := false, rate := rate, width := width, flit := flit, degraded := low }
      if low then s.event 0x0107 8 0xFF else s
    else s)

/-- A function-level reset of VF `v` (R317). -/
def State.flr (s : State) (v : Nat) : State :=
  if v != 0 && s.fnExists v then
    if !s.hostStage then s.emit (.hostRrs v)
    else ((s.event 0x0109 (v - 1) (v - 1)).resetPart (v - 1) 1 false).setFn v {}
  else s

/-! The host proxy (R319 to R321, R362). -/

/-- A proxy frame is discarded (R319). -/
def State.proxyBad (s : State) (p : Nat) : State := s.event 0x010C p p

/-- Data bytes that a proxy frame carries. -/
def proxyData (b : List Byte) : List Byte := slice b 64 (u32 b 48)

/-- The body, the data and the OP of a proxy frame check (R319); WRITE, and READ_RSP with DONE, carry data. -/
def proxyGood (b : List Byte) : Bool :=
  let op := u8 b 32
  let data := op == 2 || (op == 3 && u8 b 33 == 0)
  let n := u32 b 48
  decide (64 ≤ b.length) && u32 b 60 == crc32c (slice b 32 28) && decide (1 ≤ op) && decide (op ≤ 4) && decide (1 ≤ n)
    && decide (n ≤ 4096) && (!data || (b.length == 68 + n && u32 b (64 + n) == crc32c (proxyData b)))

/-- Serve a request of another chip (R320). -/
def State.serveProxy (s : State) (p : Nat) (b : List Byte) : State :=
  let n := s.host.nextServe
  let wr := u8 b 32 == 2
  let v : Serve := { part := p, src := (parseHdr b).src, tag := u32 b 36, addr := u64 b 40, write := wr, len := u32 b 48,
                     data := List.replicate (u32 b 48) 0, got := 0 }
  let s := s.setHost fun h => { h with serves := tput h.serves n v, nextServe := n + 1 }
  if s.rf (adrPciProxyCfg p) 25 25 == 0 then s.serveAnswer n 0x14 []
  else
    s.enqServe p (if wr then s.writeOps v.addr (proxyData b) false .other ++ [.ack n] else s.readOps p v.addr v.len (.serve n) 0)

/-- A request of the same source reached partition `p` before this frame and waits (R320: those of one source are taken in arrival
order). -/
def State.proxyBehind (s : State) (p : Nat) (b : List Byte) : Bool :=
  (s.delivered.takeWhile fun d => !(d.part == p && d.bytes == b)).any fun d =>
    d.part == p && (parseHdr d.bytes).typ == 7 && (parseHdr d.bytes).src == (parseHdr b).src && proxyGood d.bytes
      && decide (u8 d.bytes 32 ≤ 2)

/-- A READ_REQ or WRITE reaches a serving partition (R319, R320). -/
def execProxyRequestReceived (p : Nat) (frame : List Byte) (s : State) : Res :=
  if (proxyGood frame && u8 frame 32 > 2) || s.proxyBehind p frame then .next s
  else onFrame 7 p frame (fun s => if proxyGood frame then s.serveProxy p frame else s.proxyBad p) s

/-- Vectors that wait for WRITE_ACKs go out once none is outstanding (R362). -/
def State.flushIrqs (s : State) (p : Nat) : State :=
  if s.proxyWrites p then s
  else
    let l := (s.part p).irqWait
    (s.modPart p fun q => { q with irqWait := [] }).each l fun s v =>
      s.sendFrame p 8 6 (s.rf (adrPciProxyCfg p) 23 0) 0 0 (mgmtBody 2 0 0 v)

/-- A completion of packet `k` that waits, once no write of the packet is outstanding (R321). -/
def State.releaseHeld (s : State) (p k : Nat) : State :=
  if s.writesOut p (.input p k) then s
  else match (s.part p).held.find? fun h => h.pkt == k with
    | none => s
    | some h =>
      (s.modPart p fun q => { q with held := q.held.filter fun h => h.pkt != k }).completeNow k h.status h.note h.result h.ev
        h.off

/-- Host writes of partition `p` have been issued (R298): tongs and completions that waited for the last of theirs go on (R301, R354
step 1). -/
def State.settleWrites (s : State) (p : Nat) : State :=
  let s := s.each (List.range 32) fun s t =>
    match s.tongPart t with
    | some (k, q) =>
      if q == p && (s.tong t).acking && !s.writesOut p (.tong t) then (s.setTong t { s.tong t with acking := false }).descDone p t k
      else s
    | none => s
  s.each ((s.part p).held.map (·.pkt)) fun s k => s.releaseHeld p k

/-- Requests of requester `r` have been issued: its place among those that wait for a tag follows, and what waited for its writes
goes on (R301, R307). -/
def State.afterIssue (s : State) (r : Nat) : State :=
  let s := s.noteWait r
  if r < 8 then s.settleWrites r else s

/-- Issue the waiting requests of requester `r` as far as the rules allow (R298, R307). -/
def State.issueMore (s : State) (r : Nat) : State := (State.issueAll (s.reqs r).length s r).afterIssue r

/-- The oldest waiting request of requester `r` is issued, as far as Bus Master Enable and the tags allow (R298, R307). -/
def execHostRequestIssue (r : Nat) (s : State) : Res := .next (((s.issueNext r).getD s).afterIssue r)

/-- Requests of every requester whose function is `f` are issued as far as they may (R298). -/
def State.pumpFn (s : State) (f : Nat) : State := s.each (List.range 9) fun s r => if s.fnOf r == f then s.issueMore r else s

/-- A PCIe configuration write (R291, R293, R298, R306, R308, R549). Field 14 of the PF is VF 10-Bit Tag Requester Enable. -/
def State.configWrite (s : State) (fn field val : Nat) : State :=
  if !s.fnExists fn then s
  else if !s.hostStage then s.emit (.hostRrs fn)
  else if fn != 0 && vfReserved field then s
  else if cfgBad field val then s.event 0x010A (fnReq fn) (fnPart fn)
  else if field == 14 then s.setHost fun h => { h with vfTag10 := val % 2 == 1 }
  else ((s.setFn fn ((s.fn fn).put field val)).flushMsix fn).pumpFn fn

/-- A proxied write ends with a status (R320, R321). -/
def State.writeEnd (s : State) (iss : Issuer) (st : Nat) : State :=
  match iss with
  | .tong t =>
    match s.tongPart t with
    | none => s
    | some (k, p) =>
      if st != 0 then s.failTong p t st
      else if (s.tong t).acking && !s.writesOut p (.tong t) then (s.setTong t { s.tong t with acking := false }).descDone p t k
      else s
  | .input p k =>
    let s := if st == 0 then s
      else s.modPart p fun q => { q with
        held := q.held.map fun h => if h.pkt == k && goodStatus h.status then { h with status := st, note := 0, result := [] } else h }
    s.releaseHeld p k
  | _ => s

/-- A proxied request ends: its tag is free, and its issuer takes the data or the failure. -/
def State.proxyEnd (s : State) (p t : Nat) (r : ProxyReq) (st : Nat) (d : List Byte) : State :=
  let s := s.modPart p fun q => { q with proxy := tdel q.proxy t }
  let s := if r.write then s.writeEnd r.iss st
    else if st != 0 then s.readFail r.iss st
    else (s.readData r.iss r.dst d).readEnd r.iss
  (State.proxyPump (s.part p).proxyQ.length s p).flushIrqs p

/-- A good response reaches its source (R321). -/
def State.proxyResponse (s : State) (p : Nat) (b : List Byte) : State :=
  let t := u32 b 36
  match tfind (s.part p).proxy t with
  | none => s
  | some r =>
    if r.quarantined then
      let s := (s.pciCount 5 p).event 0x0103 p p
      let s := s.modPart p fun q => { q with proxy := tdel q.proxy t }
      State.proxyPump (s.part p).proxyQ.length s p
    else if r.write != (u8 b 32 == 4) || (u8 b 32 == 3 && u8 b 33 == 0 && u32 b 48 != r.len) then s
    else s.proxyEnd p t r (u8 b 33) (if u8 b 32 == 3 then proxyData b else [])

/-- A READ_RSP or WRITE_ACK reaches its source (R319, R321). -/
def execProxyResponseReceived (p : Nat) (frame : List Byte) (s : State) : Res :=
  if proxyGood frame && u8 frame 32 < 3 then .next s
  else onFrame 7 p frame (fun s => if proxyGood frame then s.proxyResponse p frame else s.proxyBad p) s

/-- A proxy deadline ends (R321): the request fails and its tag is quarantined. -/
def execProxyDeadlineExpiry (p tag : Nat) (s : State) : Res :=
  .next (match tfind (s.part p).proxy tag with
    | none => s
    | some r =>
      if r.quarantined || !r.sent then s
      else
        let s := s.modPart p fun q => { q with proxy := tput q.proxy tag { r with quarantined := true, iss := .other } }
        let s := if r.write then s.writeEnd r.iss 0x20 else s.readFail r.iss 0x21
        s.flushIrqs p)

/-- A quarantined proxy tag is freed (R321). -/
def execProxyTagQuarantineExpiry (p tag : Nat) (s : State) : Res :=
  .next (match tfind (s.part p).proxy tag with
    | none => s
    | some r =>
      if r.quarantined then
        let s := s.modPart p fun q => { q with proxy := tdel q.proxy tag }
        State.proxyPump (s.part p).proxyQ.length s p
      else s)

end Sys2Proof.Machine
end

