-- ==== Sys2Proof/Machine/Registers.lean ====
section
/-! DEFINITION. Reading registers (R269, R293 to R295, R477, R488, R514 to R520): the words that report live state, what
a function's BAR0 shows, the latches of 64-bit pairs, and the commands that read. -/
namespace Sys2Proof.Machine

/-- A word from (field, low bit) pairs. -/
def packFlds (l : List (Nat × Nat)) : Nat := l.foldl (fun n (v, lo) => n + v * 2 ^ lo) 0

/-- A register word of a number. -/
def wd (n : Nat) : Word := BitVec.ofNat 32 n

/-! Partitions and anvils (R78, R127, R339). -/

/-- STATE of PRT_STATUS. -/
def State.partState (s : State) (p : Nat) : Nat :=
  match (s.part p).st with
  | .resetting _ => 3
  | .faulted _ => 4
  | .locked => 2
  | .unlocked => b2n (s.configured p)

/-- PRT_STATUS (R339). -/
def State.prtStatus (s : State) (p : Nat) : Nat :=
  packFlds [(s.partState p, 0), (b2n (s.part p).procession, 3), ((s.granules p).length, 4),
    (popcount 8 (s.reg (adrPrtAnvils p)).toNat, 12), (popcount 32 (s.reg (adrPrtTongs p)).toNat, 16),
    ((s.reg (adrPrtBanks p)).toNat, 22), (maskOf (s.portsOf p), 24)]

/-- PRT_CTRL (R334, R339, R520): LOCK reads 1 until the lock clears at step 6 of a reset, RESET and RELEASE while a reset that
they asked for runs. -/
def State.prtCtrl (s : State) (p : Nat) : Nat :=
  match (s.part p).st with
  | .resetting x => b2n x.lock + b2n x.asked * 2 + b2n x.release * 4
  | _ => b2n (s.hasLock p)

/-- Sum of the power shares in W. -/
def State.shareSum (s : State) : Nat := allParts.foldl (fun n p => n + (s.reg (adrPrtPowerShare p)).toNat) 0

/-- PRT_FREE (R339): SHARE follows the cap as written, so that it reads 0 while a lowered cap waits for its boundary (R417). -/
def State.prtFree (s : State) : Nat :=
  packFlds [(((List.range 128).filter fun g => (s.granOwner g).isNone).length, 0),
    (((List.range 8).filter fun a => (s.anvilOwner a).isNone).length, 8),
    (((List.range 32).filter fun t => (s.tongOwner t).isNone).length, 12), (s.rf adrBelCap 10 0 - s.shareSum, 18)]

/-- ANV_STATUS (R127). -/
def State.anvStatus (s : State) (a : Nat) : Nat :=
  let v := s.anvil a
  packFlds [(v.active, 0), (b2n v.load.isSome, 1), (b2n (!v.passes.isEmpty), 2), (b2n v.activeBuf.invalid, 3),
    (v.regionCount - 1, 4), ((s.anvilOwner a).getD 0, 8)]

/-- Free quota in slots (R78). -/
def State.freeQuota (s : State) : Nat := 16384 - allParts.foldl (fun n p => n + s.quota p) 0

/-- TNG_STATUS (R154): a tong whose wait is satisfied no longer waits on its semaphore. -/
def State.tngStatus (s : State) (t : Nat) : Nat :=
  let st := match (s.tong t).st with
    | .idle => 0
    | .running => 1
    | .waiting => if s.granted (.tong t) then 1 else 2
    | .failed => 3
  packFlds [((s.tongOwner t).getD 0, 0), (b2n (s.tongOwner t).isSome, 3), (st, 4)]

/-- PRC_RING_STATUS (R63). -/
def State.ringStatus (s : State) (p r : Nat) : Nat :=
  let l := s.lap p r
  let ph := match l.phase with
    | .closed => 0
    | .opening => 1
    | .forward => 2
    | .backward => 3
    | .prepared => 4
    | .aborting => 5
  packFlds [(l.epoch, 0), (ph, 16), (l.decision, 19), (b2n l.inDoubt, 21), (b2n l.leader, 22)]

/-! Lightbanks and links (R174, R211, R262). -/

/-- LBK_STATUS (R174); LASER and TEMP are stored. -/
def State.lbkStatus (s : State) (b : Nat) : Nat :=
  let x := s.bank b
  let spare := s.rf (adrLbkStatus b) 7 7
  let st := if x.dead || (x.laserLost && (spare == 1 || s.rf (adrGldLaser (47 + 2 * b)) 2 0 == 5)) then 4
    else if !x.blocks.isEmpty && x.blocks.all (fun (_, k) => !k.why.isEmpty) then 3
    else if x.sweep.isSome then 1 else if x.swept then 2 else 0
  packFlds [(st, 0), (b2n (s.bankOwner b).isSome, 3), ((s.bankOwner b).getD 0, 4), (spare, 7), ((s.spares b).length, 8),
    (min 7 (s.failedRows b), 11), (s.rf (adrLbkStatus b) 31 16, 16)]

/-- The layer that block `k` of bank `b` carries. -/
def State.blockLayer (s : State) (b k : Nat) : Option (LBlock × LayerRec) :=
  match tfind (s.bank b).blocks k with
  | none => none
  | some x => match s.line? x.part x.line with
    | none => none
    | some l => (l.layers[x.layer]?).map fun r => (x, r)

/-- LBK_BLOCK0 (R174). -/
def State.lbkBlock0 (s : State) (b k : Nat) : Nat :=
  match s.blockLayer b k with
  | none => 6 * 2 ^ 28
  | some (x, r) => packFlds [(r.bankIn, 0), (x.inCnt, 7), (r.bankRow, 14), (x.rowCnt, 21), (r.dacBits, 28)]

/-- LBK_BLOCK1 (R174). -/
def State.lbkBlock1 (s : State) (b k : Nat) : Nat :=
  match s.blockLayer b k with
  | none => 0x100 + 0x40 * 2 ^ 17
  | some (x, r) => packFlds [(r.shadowN, 0), (r.divThresh, 17), (b2n (!x.why.isEmpty), 27), (1, 28)]

/-- LNK_STATUS (R211). -/
def State.lnkStatus (s : State) (d : Nat) : Nat :=
  let l := s.link d
  let st := match l.st with
    | .disabled => 0
    | .down => 1
    | .training => 2
    | .active => 3
    | .paused => 4
    | .fenced => 5
  packFlds [(st, 0), (l.allot, 3), (popcount 8 l.active, 7), (l.active, 11), (l.sustain, 19), ((s.portOwner d).getD 0, 27)]

/-- Healthy spare channels of Gleed port `f`. -/
def State.gldSpares (s : State) (f : Nat) : List Nat :=
  (List.range (gldChans f)).filter fun c => s.rf (adrGldChanHealth f c) 2 0 == 1

/-- GLD_PORT_STATUS (R262); DELAY is stored. -/
def State.gldStatus (s : State) (f : Nat) : Nat :=
  let g := s.gleed (f + 4)
  packFlds [(b2n (decide (2 ≤ f)), 0), (b2n g.apr, 1), (b2n g.cal.isSome, 2), ((s.gldSpares f).length, 3),
    (s.rf (adrGldPortStatus f) 31 16, 16)]

/-! Chip blocks (R285, R322, R420, R441, R470, R494, R512). -/

/-- PCI_TAG_STATUS (R304, R322). -/
def State.tagStatus (s : State) : Nat :=
  let q := (s.host.tags.filter fun (_, u) => u.quarantined).length
  let n := s.host.tags.length
  packFlds [(768 - n, 0), (n - q, 10), (q, 20)]

/-- PCI_REQ_TAGS of requester `r` (R322). -/
def State.reqTags (s : State) (r : Nat) : Nat :=
  let q := (s.host.tags.filter fun (_, u) => u.quarantined && u.req == r).length
  packFlds [(s.heldTags r - q, 0), (q, 10)]

/-- PCI_LINK_STATUS (R322). -/
def State.pciLink (s : State) : Nat :=
  packFlds [(s.host.rate, 0), (s.host.width, 3), (b2n s.host.flit, 8), (b2n s.host.degraded, 9)]

/-- An input is within limits: 40.0 to 60.0 V (R398). -/
def inWithin (v : Nat) : Bool := decide (400 ≤ v) && decide (v ≤ 600)

/-- A qualification window runs (R398, R409): for either input in DARK and PARK, for the bus in SOURCE_RESERVE. -/
def State.qualifying (s : State) : Bool :=
  match s.bel.st with
  | .dark => s.bel.up.isNone && (inWithin s.bel.bus || inWithin s.bel.res)
  | .park => inWithin s.bel.bus || inWithin s.bel.res
  | .sourceReserve => inWithin s.bel.bus
  | _ => false

/-- BEL_STATUS.STATE (R420). -/
def belCode : BelSt → Nat
  | .dark => 0
  | .sourceBus => 1
  | .toReserve => 2
  | .sourceReserve => 3
  | .toBus => 4
  | .park => 5

/-- BEL_STATUS (R420). -/
def State.belStatus (s : State) : Nat :=
  packFlds [(belCode s.bel.st, 0), (b2n (inWithin s.bel.bus), 3), (b2n (inWithin s.bel.res), 4), (b2n s.qualifying, 5),
    (b2n s.shedOn, 6), (b2n s.bel.busEn, 7), (b2n s.bel.resEn, 8)]

/-- CLK_STATUS (R285); RT_LOADED is stored. -/
def State.clkStatus (s : State) : Nat :=
  packFlds [(b2n s.clk.tclk, 0), (b2n s.clk.running, 1), (b2n s.clk.synced, 2), (s.rf adrClkStatus 3 3, 3),
    (b2n s.clk.holdover, 4), (b2n (s.boot != .off && !s.clk.aclkLost), 5)]

/-- Phase number of a valve (R441). -/
def phaseCode : Phase → Nat
  | .off => 0
  | .pullIn => 1
  | .hold => 2
  | .releaseWait => 3
  | .forcedOff => 4
  | .failed => 5

/-- Valve `v`. -/
def State.valve (s : State) (v : Nat) : Valve := tget {} s.qch.valves v

/-- QCH_VALVE_STATUS (R441): CURRENT is stored; ON_TIME counts from the start of the profile while the coil is energised. -/
def State.valveStatus (s : State) (v : Nat) : Nat :=
  let x := s.valve v
  let on := x.phase == .pullIn || x.phase == .hold
  packFlds [(phaseCode x.phase, 0), (s.rf (adrQchValveStatus v) 14 3, 3),
    (if on then min 8191 (s.valveMs - x.startAt) else 0, 15)]

/-- QCH_SECTION_STATUS (R441). -/
def State.sectionStatus (s : State) (x : Nat) : Nat :=
  let q := s.section x
  packFlds [(min 65535 q.temp, 0), (q.run, 16), (q.level, 18), (q.openMs, 21)]

/-- NVS_STATUS (R470). -/
def State.nvsStatus (s : State) : Nat :=
  let (op, sec) := match s.nvs.busy with
    | some o => s.opInfo o
    | none => (0, 0)
  packFlds [(b2n s.nvs.running.isSome, 0), (op, 1), (sec, 3), (s.nvs.half.length, 13)]

/-- SEC_STATE (R470). -/
def State.secStatus (s : State) : Nat :=
  packFlds [(s.svnFloor, 0), (Config.keyValid.toNat, 8), (s.keysRevoked, 12), (s.rf adrSecState 16 16, 16)]

/-- EVR_STATUS (R494). -/
def State.evrStatus (s : State) : Nat :=
  packFlds [(s.evr.slots.length, 0), (s.evr.next, 13), (b2n (decide (4096 ≤ s.evr.next)), 26), (b2n s.evr.persist.isSome, 27),
    (b2n s.unarchived.isSome, 28)]

/-- A record's 256 bytes (R474, R475), with byte 0x0F as given. -/
def recBytes (r : Rec) (valid : Nat) : List Byte :=
  let h := leBytes 2 r.code ++ leBytes 1 r.src ++ leBytes 1 r.part ++ leBytes 8 r.time ++ leBytes 2 r.rep ++ leBytes 1 r.flags
    ++ leBytes 1 valid
  let e := (r.snap.take 40).flatMap fun (g, v) => leBytes 2 g ++ leBytes 4 v
  let pad := (List.range (40 - r.snap.length)).flatMap fun _ => leBytes 2 0xFFFF ++ leBytes 4 0
  h ++ e ++ pad

/-- Where a function's EVR_CURSOR is kept: the PF's at its address, a VF's above every address of the map (R488). -/
def cursorAt (fn : Nat) : Nat := adrEvrCursor + fn * 0x4000000

/-- A function sees a record (R487). -/
def sees (fn : Nat) (r : Rec) : Bool := fn == 0 || r.part == fn - 1

/-- Word `j` of a function's EVR_WINDOW (R488). -/
def State.windowWord (s : State) (fn j : Nat) : Nat :=
  match tfind s.evr.slots (s.rf (cursorAt fn) 11 0) with
  | some r => if sees fn r then u32 (recBytes r 0xA5) (4 * j) else 0
  | none => 0

/-- GLB_FAULT_STATUS (R512): FAULTED is live. -/
def State.faultStatus (s : State) : Nat :=
  putBits (s.reg adrGlbFaultStatus).toNat 7 0 (maskOf (allParts.filter fun p => s.partState p == 4))

/-- GLB_FAULT_ESC of partition `p` (R512). -/
def State.faultEsc (s : State) (p : Nat) : Nat := packFlds [(min 255 (s.escWindow p).length, 0), ((s.part p).escTotal, 8)]

/-- CMD_SQ_STATUS (R363). -/
def State.sqStatus (s : State) (p i : Nat) : Nat :=
  let q := s.sq p i
  let st := match q.st with
    | .disabled => 0
    | .running => 1
    | .stopped => 2
  packFlds [(ptrOf (s.sqSize p i) q.head, 0), (st, 17), (q.err, 24)]

/-! The live view (R519). -/

/-- What register `d`, instance `i`, index `j` reads as through PF BAR0, when it is not simply its stored word. -/
def State.liveOf (s : State) (d : RegDesc) (i j : Nat) (w : Word) : Word :=
  match d.name with
  | "GLB_CHIP_ID_LO" => wd ownId
  | "GLB_CHIP_ID_HI" => wd (ownId / 2 ^ 32)
  | "GLB_FAULT_STATUS" => wd s.faultStatus
  | "GLB_FAULT_ESC" => wd (s.faultEsc j)
  | "PCI_LINK_STATUS" => wd s.pciLink
  | "PCI_TAG_STATUS" => wd s.tagStatus
  | "PCI_REQ_TAGS" => wd (s.reqTags j)
  | "PRT_STATUS" => wd (s.prtStatus i)
  | "PRT_CTRL" => wd (s.prtCtrl i)
  | "PRT_FREE" => wd s.prtFree
  | "CMD_SQ_CTRL" => wd (b2n (s.sq i j).stopReq)
  | "CMD_SQ_STATUS" => wd (s.sqStatus i j)
  | "CMD_SQ_TAIL" => wd (ptrOf (s.sqSize i j) (s.sq i j).tail)
  | "CMD_CQ_STATUS" => wd (ptrOf (s.cqSize i j) (s.cq i j).tail)
  | "CMD_CQ_RESERVED" => wd (s.cq i j).reserved
  | "CMD_CQ_HEAD" => wd (ptrOf (s.cqSize i j) (s.cq i j).head)
  | "CMD_PROXY_DB_LO" => 0
  | "CMD_PROXY_DB_HI" => 0
  | "ANV_STATUS" => wd (s.anvStatus i)
  | "HRT_GRANULE_OWNER" => wd (putBits w.toNat 4 4 (b2n (s.hrt.zeroing.contains j)))
  | "TNG_STATUS" => wd (s.tngStatus i)
  | "TNG_CURRENT" => wd (s.tong i).cur
  | "SEM_VALUE" => wd (s.sem i j).value
  | "SEM_STATUS" => wd (b2n (!(s.sem i j).waiters.isEmpty) + 2 * b2n (s.sem i j).ovf)
  | "SEM_BARRIER_STATE" => wd (packFlds [((s.barrier i j).arrivals, 0), ((s.barrier i j).gen, 16)])
  | "SEQ_OCCUPANCY" => wd (packFlds [((s.part i).slots.length, 0), (min 0x7FFF (s.part i).parks.length, 16)])
  | "SEQ_TABLE_WORD" => wd (u32 (s.table i (j / 128)) (4 * (j % 128)))
  | "SEQ_POOL" => wd (putBits w.toNat 30 16 s.freeQuota)
  | "PRC_RING_STATUS" => wd (s.ringStatus i j)
  | "LBK_STATUS" => wd (s.lbkStatus i)
  | "LBK_BLOCK0" => wd (s.lbkBlock0 i j)
  | "LBK_BLOCK1" => wd (s.lbkBlock1 i j)
  | "LNK_STATUS" => wd (s.lnkStatus i)
  | "LNK_PEER_ID_LO" => wd (s.link i).peer
  | "LNK_PEER_ID_HI" => wd ((s.link i).peer / 2 ^ 32)
  | "GLD_PORT_STATUS" => wd (s.gldStatus i)
  | "CLK_STATUS" => wd s.clkStatus
  | "CLK_ACLK" => wd (putBits w.toNat 6 6 (b2n s.bel.changing.isSome))
  | "CLK_ANVIL_ACLK" => wd (s.anvilSteps j)
  | "CLK_RT_LO" => wd s.clk.rack
  | "CLK_RT_HI" => wd (s.clk.rack / 2 ^ 32)
  | "CLK_MT_LO" => wd s.machineTime
  | "CLK_MT_HI" => wd (s.machineTime / 2 ^ 32)
  | "BEL_STATUS" => wd s.belStatus
  | "BEL_VOLTS" => wd (packFlds [(s.bel.bus, 0), (s.bel.res, 10), (s.bel.node, 20)])
  | "QCH_CTRL" => wd (b2n s.qch.cal.isSome)
  | "QCH_SECTION_STATUS" => wd (s.sectionStatus j)
  | "QCH_VALVE_STATUS" => wd (s.valveStatus j)
  | "NVS_STATUS" => wd s.nvsStatus
  | "SEC_STATE" => wd s.secStatus
  | "EVR_STATUS" => wd s.evrStatus
  | "EVR_WINDOW" => wd (s.windowWord 0 j)
  | _ => w

/-- What the register at a PF BAR0 address reads as (R519). -/
def State.readReg (s : State) (a : Nat) : Word :=
  match locate a with
  | none => 0
  | some (d, i, j) => s.liveOf d i j (s.reg a)

/-! What a function's BAR0 shows (R293, R295, R515, R516). -/

/-- What a BAR0 offset of a function names. -/
inductive BarPlace where
  /-- A register at a PF address, shown to the function. -/
  | reg (a : Nat)
  /-- A register that the function's window does not show (R516). -/
  | hidden
  /-- Word `w` of the MSI-X table. -/
  | table (w : Nat)
  /-- Word `w` of the Pending Bit Array. -/
  | pba (w : Nat)
  /-- Nothing (R295). -/
  | none
deriving DecidableEq, Repr

/-- The PF address of offset `o` in the VF window of block number `b` of the VF of partition `p` (R515). -/
def vfAddr (p b o : Nat) : Nat :=
  let base := 0x100000 * b
  match b with
  | 2 | 3 | 5 | 8 | 9 | 10 => base + 0x10000 * p + o
  | 4 => base + 0x10000 * (o / 0x2000) + o % 0x2000
  | 7 => base + 0x8000 * (o / 0x800) + o % 0x800
  | 11 => base + 0x10000 * (o / 0x8000) + o % 0x8000
  | 12 => base + 0x10000 * (o / 0x2000) + o % 0x2000
  | 14 => base + 0x10000 * (o / 0x4000) + o % 0x4000
  | _ => base + o

/-- The VF of partition `p` sees register `d`, instance `i`, index `j` (R515). -/
def State.vfSees (s : State) (p : Nat) (d : RegDesc) (i j : Nat) : Bool :=
  match d.base / 0x100000 with
  | 0 => d.name == "GLB_STATUS"
  | 1 => d.name == "PCI_LINK_STATUS" || (d.name == "PCI_REQ_TAGS" && j == p) || decide (0x100400 ≤ d.base)
  | 2 => d.name == "PRT_STATUS" || d.name == "PRT_CTRL"
  | 3 | 5 | 8 | 9 | 10 => true
  | 4 => s.anvilOwner i == some p
  | 7 => s.tongOwner i == some p
  | 11 => s.bankOwner i == some p
  | 12 => d.name == "LNK_STATUS" && s.portOwner i == some p
  | 13 => (d.name == "ANT_PART_SLICE" && j == p) || (d.name == "ANT_PORT_STATE" && s.portOwner j == some p)
  | 14 => d.name == "GLD_PORT_STATUS" && s.portOwner (i + 4) == some p
  | 15 => d.name == "CLK_STATUS" || (decide (0xF00040 ≤ d.base) && decide (d.base ≤ 0xF0004C))
  | 16 => d.name == "BEL_STATUS" || (d.name == "BEL_PART_POWER" && j == p)
  | 17 => d.name == "QCH_SECTION_STATUS"
  | 19 => d.name == "EVR_STATUS" || d.name == "EVR_CURSOR" || d.name == "EVR_WINDOW" || (d.name == "EVR_PART_OVERFLOW" && j == p)
  | _ => false

/-- BarPlace of an MSI-X structure: the table at `t`, the Pending Bit Array, whose entries are QWORDs, at `t` + 0x8000 (R293,
R515). -/
def msixPlace (fn t off : Nat) : Option BarPlace :=
  if t ≤ off && off < t + 16 * vectors fn then some (.table ((off - t) / 4))
  else if t + 0x8000 ≤ off && off < t + 0x8000 + (vectors fn + 63) / 64 * 8 then some (.pba ((off - t - 0x8000) / 4))
  else none

/-- What a BAR0 offset of a function names. -/
def State.place (s : State) (fn off : Nat) : BarPlace :=
  if off % 4 != 0 then .none
  else if fn == 0 then
    match msixPlace 0 0x180000 off with
    | some x => x
    | none => if (locate off).isSome then .reg off else .none
  else
    match msixPlace fn 0x1F0000 off with
    | some x => x
    | none =>
      if off ≥ 0x150000 then .none
      else
        let a := vfAddr (fn - 1) (off / 0x10000) (off % 0x10000)
        match locate a with
        | none => .none
        | some (d, i, j) => if s.vfSees (fn - 1) d i j then .reg a else .hidden

/-- The PF address of the low word of the 64-bit pair whose high word is register `d` at `a` (R519). -/
def pairLow (d : RegDesc) (a : Nat) : Option Nat :=
  if ["GLB_CHIP_ID_HI", "LNK_PEER_ID_HI", "CLK_RT_HI", "CLK_MT_HI", "CLK_RT_LOAD_HI", "CLK_MT_OFFSET_HI", "CMD_SQ_BASE_HI",
      "CMD_CQ_BASE_HI"].contains d.name then some (a - 4) else none

/-- Register `d` is the low word of a 64-bit pair. -/
def isLow (d : RegDesc) : Bool :=
  ["GLB_CHIP_ID_LO", "LNK_PEER_ID_LO", "CLK_RT_LO", "CLK_MT_LO", "CLK_RT_LOAD_LO", "CLK_MT_OFFSET_LO", "CMD_SQ_BASE_LO",
    "CMD_CQ_BASE_LO"].contains d.name

/-- Latch of a function for the pair whose low word is at `a`. -/
def latchAt (fn a : Nat) : Nat := fn * 2 ^ 32 + a

/-- What a function reads at a PF address that it sees: its latch for the high word of a pair, its own cursor and window,
and its share of the PCI counters (R269, R322, R488, R515). -/
def State.readFn (s : State) (fn a : Nat) : Word :=
  match locate a with
  | none => 0
  | some (d, _, j) =>
    match pairLow d a with
    | some lo => tget 0 s.latches (latchAt fn lo)
    | none =>
      if d.name == "EVR_CURSOR" then s.reg (cursorAt fn)
      else if d.name == "EVR_WINDOW" then wd (s.windowWord fn j)
      else if fn == 0 then s.readReg a
      else if d.name == "EVR_STATUS" then wd (b2n (decide (4096 ≤ s.evr.next)) * 2 ^ 26)
      else if d.base / 0x100000 == 1 && 0x100400 ≤ d.base then wd (tget 0 s.host.share ((d.base - 0x100400) / 4 * 8 + (fn - 1)))
      else s.readReg a

/-- Word `w` of a function's MSI-X table (R299). -/
def State.tableWord (s : State) (fn w : Nat) : Word :=
  if w % 4 == 3 then (if (s.fn fn).unmasked.contains (w / 4) then 0 else 1) else tget 0 (s.fn fn).table w

/-- Read one word of a function's BAR0: its value, and the state with the latch of a pair taken (R269, R519). -/
def State.readWord (s : State) (fn off : Nat) : Option Word × State :=
  match s.place fn off with
  | .none => (none, s)
  | .hidden => (some 0, s)
  | .table w => (some (s.tableWord fn w), s)
  | .pba w => (some (wd (maskOf (((s.fn fn).pending.filter fun v => v / 32 == w).map (· % 32)))), s)
  | .reg a =>
    let v := s.readFn fn a
    match locate a with
    | some (d, _, _) => (some v, if isLow d then { s with latches := tset 0 s.latches (latchAt fn a) (s.readReg (a + 4)) } else s)
    | none => (some v, s)

/-- A BAR0 access is refused (R295, R316): event 0x0106, and an Unsupported Request of the function addressed. -/
def State.bar0Refused (s : State) (fn : Nat) (write : Bool) : State :=
  let s := s.event 0x0106 (fnReq fn) (fnPart fn)
  if write then s.aer fn true 20 2 else (s.aer fn true 20 1).emit (.hostUr fn)

/-- A register read of `len` bytes, 4 or 8 (R269, R295): an 8-byte read is two 4-byte reads, low word first, and is refused
as a whole where either half is reserved. The low word of a 64-bit pair latches its high word (R519). -/
def State.bar0Read (s : State) (fn addr len : Nat) : State :=
  if !((len == 4 && addr % 4 == 0) || (len == 8 && addr % 8 == 0)) then s
  else match s.readWord fn addr with
    | (none, _) => s.bar0Refused fn false
    | (some v, t) =>
      if len == 4 then t.emit (.hostData fn (leBytes 4 v.toNat) false)
      else match t.readWord fn (addr + 4) with
        | (none, _) => s.bar0Refused fn false
        | (some u, t) => t.emit (.hostData fn (leBytes 4 v.toNat ++ leBytes 4 u.toNat) false)

/-- A BAR0 access of an illegal size or alignment, or to a reserved offset (R295); a legal access changes nothing here. -/
def State.bar0Illegal (s : State) (fn addr len : Nat) (write : Bool) : State :=
  let form := (len == 4 && addr % 4 == 0) || (len == 8 && addr % 8 == 0)
  let bad := s.place fn addr == .none || (len == 8 && s.place fn (addr + 4) == .none)
  if !form || (bad && (!write || len == 4)) then s.bar0Refused fn write else s

end Sys2Proof.Machine
end

