-- ==== Sys2Proof/Machine/Resets.lean ====
section
/-! DEFINITION. Chip reset and loss of power (R444 to R447, R524): what each clears and what the AUX domain keeps. -/
namespace Sys2Proof.Machine

/-- Stored registers with every field outside the AUX domain at its reset value (R524). -/
def clearRegs (t : Tbl Word) : Tbl Word :=
  [Dom.carve, Dom.part, Dom.hostPort, Dom.chip].foldl (fun t d => resetRegs d (fun _ _ _ => true) t) t

/-- Everything outside the AUX domain at its reset value (R397, R423, R472, R524). The flash, the fuses, the strap and
host pins and the model's own fields stay. -/
def State.chipClear (s : State) : State :=
  let s := s.setRf adrEvrCtrl 2 2 0
  { State.reset with
    pending := s.pending, osc := s.osc, freeCtr := s.freeCtr, out := s.out, regs := clearRegs s.regs, nextPkt := s.nextPkt
    evr := { s.evr with persist := none }
    bel := { s.bel with rise := none, changing := none, fresh := s.bel.fresh, droop := false, cap := 1150, vf := [], sets := [] }
    qch := { s.qch with cal := none }
    nvs := { flash := s.nvs.flash, failed := s.nvs.failed, svn := s.nvs.svn, revoked := s.nvs.revoked }
    host := { refclk := s.host.refclk, perst := s.host.perst, training := s.host.refclk && !s.host.perst }
    side := { jtag := s.side.jtag }
    aux := s.aux, auxAt := s.auxAt, straps := s.straps }

/-- The straps are sampled into GLB_STATUS (R447, R470). -/
def State.sampleStraps (s : State) : State :=
  ((s.setRf adrGlbStatus 11 8 (bits s.straps 3 0)).setRf adrGlbStatus 13 12 (bits s.straps 5 4)).setRf adrGlbStatus 15 14
    (bits s.straps 7 6)

/-- A chip reset (R446): a flash operation in progress completes first; the boot runs again from step 6 while the rails are
up. FATAL_RESETS counts those with cause 5 (R504). -/
def State.chipReset (s : State) (cause : Nat) : State :=
  let s := match s.nvs.busy with
    | some op => s.nvEffect op
    | none => s
  let s := s.chipClear
  let s := s.setRf adrGlbResetCause 3 0 cause
  let s := if cause == 5 then s.setRf adrGlbFaultStatus 19 16 (min 15 (s.rf adrGlbFaultStatus 19 16 + 1)) else s
  let s := if cause ≥ 2 then s.event 0x0108 0 0xFF else s
  if s.bel.st == .dark then s else { s.sampleStraps with boot := .rom }

/-- Step 5 of R502, once it is due and Bellows is in a source state (R503). -/
def State.fatalStep (s : State) : State := if s.fatalDue && s.sourced then s.chipReset 5 else s

/-- AUX power rises (R397, R448 step 1): every domain is reset; flash, pins and the model's own fields stay. -/
def State.auxRise (s : State) : State :=
  { State.reset with
    pending := s.pending, osc := s.osc, freeCtr := s.freeCtr, out := s.out, nextPkt := s.nextPkt
    nvs := { flash := s.nvs.flash, svn := s.nvs.svn, revoked := s.nvs.revoked }
    host := { refclk := s.host.refclk, perst := s.host.perst }
    auxAt := s.osc, straps := s.straps }

/-- Every rail and both inputs are off (R405, R414): what power loss takes with it. -/
def State.powerOff (s : State) : State :=
  let s := match s.nvs.busy with
    | some op => s.nvCut op
    | none => s
  s.chipClear

end Sys2Proof.Machine
end

