-- ==== Sys2Proof/Machine/Bellows.lean ====
section
/-! DEFINITION. Bellows (R397 to R418): rails, the changeover state machine, PARK and DARK, the cap and the shares, and
the commands of power. Voltages are operands in 0.1 V, powers in mW. -/
namespace Sys2Proof.Machine

/-- Change what Bellows keeps. -/
def State.modBel (s : State) (f : Bel → Bel) : State := { s with bel := f s.bel }

/-! Inputs and enables (R398, R407, R411, R413). -/

/-- The input `b` (true for the bus) is within limits at the last sample. -/
def Bel.within (x : Bel) (b : Bool) : Bool := inWithin (if b then x.bus else x.res)

/-- The enable of input `b` is high. -/
def Bel.enOf (x : Bel) (b : Bool) : Bool := if b then x.busEn else x.resEn

/-- Drive the two FET enables. -/
def State.fets (s : State) (bus res : Bool) : State :=
  (s.modBel fun b => { b with busEn := bus, resEn := res, dead := none }).emit (.fet bus res)

/-- Turn to input `b`, break before make (R411): the other enable falls at once, and this one rises 10 µs later. With both
low and no dead time running, it rises at once (R413). -/
def State.turnTo (s : State) (b : Bool) : State :=
  if s.bel.enOf b then s
  else if s.bel.enOf (!b) then (s.fets false false).modBel fun x => { x with dead := some b }
  else if s.bel.dead.isSome then s.modBel fun x => { x with dead := some b }
  else s.fets b (!b)

/-- The FETs in PARK (R413): the bus if it is within limits, else the reserve if it is, else neither. -/
def State.parkFets (s : State) : State :=
  if s.bel.within true then s.turnTo true
  else if s.bel.within false then s.turnTo false
  else if s.bel.busEn || s.bel.resEn then s.fets false false
  else s.modBel fun x => { x with dead := none }

/-- The FETs in PARK at a sample (R413): an input within limits takes the load, the bus before the reserve; a FET whose input has left the
limits and is not yet out stays on. -/
def State.parkTake (s : State) : State :=
  if s.bel.st != .park then s
  else if s.bel.within true then s.turnTo true
  else if s.bel.busEn || !s.bel.within false then s
  else s.turnTo false

/-- A sample of the input monitors. A bus dip in SOURCE_RESERVE while the window runs restarts it: event 0x4004 (R410). -/
def State.sampleVolts (s : State) (vb vr vn : Nat) : State :=
  let dip := s.bel.st == .sourceReserve && inWithin s.bel.bus && !inWithin vb
  let s := s.modBel fun b => { b with bus := min vb 1023, res := min vr 1023, node := min vn 1023 }
  (if dip then s.event 0x4004 0 0xFF else s).parkTake

/-! State changes (R408, R409). -/

/-- Enter a changeover state: event 0x4003 with the old and new states, the events and counters of a changeover, and
SHED_EVENTS where the shed begins. -/
def State.belMove (s : State) (st : BelSt) : State :=
  let was := s.shedOn
  let s := (s.modBel fun b => { b with st := st }).eventD 0x4003 0 0xFF [belCode s.bel.st, belCode st]
  let s := match st with
    | .toReserve => (s.event 0x4001 0 0xFF).bump adrChangeovers
    | .toBus => (s.event 0x4002 0 0xFF).bump adrChangeovers
    | _ => s
  if !was && s.shedOn then s.bump adrShedEvents else s

/-- Work of one tong ends with a status as a failed descriptor does (R141, R412). -/
def State.haltTong (s : State) (t st : Nat) : State :=
  match (s.tong t).pkt with
  | none => s
  | some k =>
    match s.pkt k with
    | none => s
    | some x => if (s.tong t).fill then (s.stopTong x.part t .failed).failPkt k st else s.failTong x.part t st

/-- Packets that run at anvil `a` or its vector unit. -/
def Anvil.running (a : Anvil) : List Nat := a.load.toList ++ a.passes ++ a.vec.toList

/-- Work of one anvil ends with a status, nothing written (R412). -/
def State.haltAnvil (s : State) (a st : Nat) : State :=
  let ks := (s.anvil a).running
  let reg := fun k => (s.pkt k).elim 16 fun x => u8 x.bytes 0x11
  (s.setAnvil a ((s.anvil a).stop (fun _ => true) reg)).each ks fun s k => s.failPkt k st

/-- Each non-prepared member of an open lap of partition `p` originates ABORT (R49, R412). -/
def State.parkLaps (s : State) (p : Nat) : State :=
  s.each [0, 1] fun s r => if (s.lap p r).phase == .prepared then s else s.originateAbort p r

/-- Entry into PARK (R412, R413). -/
def State.enterPark (s : State) : State :=
  let s := ((s.belMove .park).event 0x4006 0 0xFF).bump adrParks
  let s := s.each (List.range 32) fun s t => s.haltTong t 0x50
  let s := (s.each (List.range 8) fun s a => s.haltAnvil a 0x50).haltWorks 0x50
  let s := s.each allParts State.parkLaps
  ((s.startPersist 1 []).parkFets).nvGo

/-- COMMITs that waited for the end of PARK are applied (R412, R413). -/
def State.deferredCommits (s : State) : State :=
  s.each allParts fun s p => s.each [0, 1] fun s r =>
    if (s.lap p r).deferred then (s.modLap p r fun l => { l with deferred := false }).commitLap p r else s

/-- Settle in the source state of input `b` (R409): from PARK, deferred updates run first; a chip reset that waited for a
source state follows (R503). -/
def State.settleOn (s : State) (b : Bool) : State :=
  let parked := s.parked
  let s := s.belMove (if b then .sourceBus else .sourceReserve)
  (if parked then s.deferredCommits else s).fatalStep

/-- Entry into TO_BUS or TO_RESERVE (R411). -/
def State.changeover (s : State) (b : Bool) : State := (s.belMove (if b then .toBus else .toReserve)).turnTo b

/-! Rails (R400 to R406). -/

/-- Setpoint of rail `r` in mV at power-up (R400). -/
def railSet (r : Nat) : Nat := [1800, 750, 750, 900, 1200, 900, 3300].getD r 900

/-- VCORE in mV at step `n` (R403). -/
def State.vcoreAt (s : State) (n : Nat) : Nat := s.bel.vf.getD (n - 24) 900

/-- A rail's setpoint: VCORE's at N = 24 while it comes up (R405), another's as the RAILS section in force gives it (R463), else that of
R400. -/
def State.setpoint (s : State) (r : Nat) : Nat :=
  if r == 7 then s.vcoreAt 24 else if s.bel.sets.getD r 0 == 0 then railSet r else s.bel.sets.getD r 0

/-- A READ_VOUT within ± 3 % of setpoint (R405). -/
def State.voutGood (s : State) (r v : Nat) : Bool :=
  decide (97 * s.setpoint r ≤ 100 * v) && decide (100 * v ≤ 103 * s.setpoint r)

/-- Record what a rail does, with its last READ_VOUT when there is one. -/
def State.setRail (s : State) (r st : Nat) (vout : Option Nat) : State :=
  let s := (s.modBel fun b => { b with rails := tset 0 b.rails r st }).setRf (adrBelRail r) 14 12 st
  match vout with
  | some v => s.setRf (adrBelRail r) 11 0 (min v 4095)
  | none => s

/-- Command a rail on: it ramps. -/
def State.railOn (s : State) (r : Nat) : State := (s.setRail r 1 none).emit (.rail r true)

/-- Start the power-up sequence from input `b` (R405, R409). -/
def State.powerUp (s : State) (b : Bool) : State :=
  ((s.modBel fun x => { x with up := some (b, 0), retry := none }).turnTo b).railOn 0

/-- A valve whose drive loses its power in DARK (R414, R439): its coil is off; FAILED stays. DESIGN CHOICE (log entry 27):
the manual gives no phase for it. -/
def Valve.unpowered (x : Valve) : Valve := if x.phase == .failed then x else { x with phase := .off, pend := none }

/-- The power-down sequence (R405): VCORE, then index 6 to 0; both enables are low, and every content but the AUX domain
and the flash is lost (R414). -/
def State.powerDown (s : State) : State :=
  let s := s.each [7, 6, 5, 4, 3, 2, 1, 0] fun s r => s.emit (.rail r false)
  let s := s.fets false false
  let s := if s.bel.st == .dark then s else s.belMove .dark
  let s := s.modBel fun b => { b with rails := [], up := none, restart := [], restarted := [] }
  let s := { s with qch := { s.qch with valves := s.qch.valves.map fun (v, x) => (v, Valve.unpowered x) } }
  s.powerOff

/-- The power-up that just failed may be retried, at most 3 times per rise of AUX (R405). -/
def State.allowRetry (s : State) (b : Bool) : State :=
  s.modBel fun x => { x with tries := min 4 (x.tries + 1), retry := if x.tries < 3 then some b else none }

/-- Gleed ports go down and every lightbank block falls back (R406). -/
def State.lightsOut (s : State) : State :=
  (s.each [4, 5, 6, 7] State.linkDown).each [0, 1] fun s b => s.bankFall b 9

/-- A rail fault in service (R404, R406): `comm` marks a lost VRM bus, event 0x400C. -/
def State.railFault (s : State) (r : Nat) (comm : Bool) : State :=
  let s := if comm then s.event 0x400C r 0xFF else s
  let s := (s.eventD 0x4008 r 0xFF [r]).setRail r 3 none
  if r < 3 || r == 7 then
    let src := s.bel.st != .sourceReserve && s.bel.st != .toReserve
    ((s.event 0x4007 0 0xFF).powerDown).allowRetry src
  else
    let s := s.modBel fun b => if b.restarted.contains r then b else { b with restart := insNat b.restart r }
    if r < 5 then (s.each [0, 1, 2, 3] State.linkDown).hostReset else s.lightsOut

/-! Steps and the cap (R266, R267, R403, R415 to R417). -/

/-- Bring N toward BEL_ACLK.TARGET_STEPS (R403): the higher voltage first on a rise, the lower N first on a fall. A change
in progress ends before the next begins (R267). -/
def State.aclkGo (s : State) : State :=
  let n := s.rf adrBelAclk 5 0
  if s.bel.changing.isSome then s
  else if n > s.chipSteps then (s.modBel fun b => { b with rise := some n }).emit (.avs (s.vcoreAt n))
  else if n < s.chipSteps then s.modBel fun b => { b with rise := none, changing := some n }
  else s.modBel fun b => { b with rise := none }

/-- A write of TARGET_STEPS (R403, R416): every n_p above it falls to it. -/
def State.setTarget (s : State) (n : Nat) : State :=
  let s := s.setRf adrBelAclk 5 0 n
  (s.each allParts fun s p => if s.rf (adrBelPartPower p) 22 17 > n then s.setRf (adrBelPartPower p) 22 17 n else s).aclkGo

/-- Split `total` by integer weights, rounding down. -/
def shareOut (total : Nat) (ws : List Nat) : List Nat :=
  let t := ws.foldl (· + ·) 0
  ws.map fun w => if t == 0 then 0 else total * w / t

/-- Add lists element by element. -/
def addLists (a b : List Nat) : List Nat := (a.zip b).map fun (x, y) => x + y

/-- Powers and proportions that one control period measures (R415): rails, anvil estimates and the sequence engine's
estimate in mW, slot-steps, Hearth accesses, flits sent per port, lightbank power in mW. -/
structure Measured where
  pout : List Nat
  est : List Nat
  seqEst : Nat
  steps : List Nat
  hearth : List Nat
  flits : List Nat
  banks : List Nat

/-- Weight of each partition by the units it owns. -/
def byOwner (own : Nat → Option Nat) (ws : List Nat) : List Nat :=
  allParts.map fun p => ws.zipIdx.foldl (fun n (w, i) => if own i == some p then n + w else n) 0

/-- What the rules of R415 charge directly, by partition, in mW. -/
def State.directCharges (s : State) (m : Measured) : List Nat :=
  let core := m.pout.getD 7 0
  let e := m.est.foldl (· + ·) 0 + m.seqEst
  let scale := fun n => if e == 0 then 0 else n * core / e
  let anv := byOwner s.anvilOwner (m.est.map scale)
  let seq := shareOut (scale m.seqEst) m.steps
  let hrt := shareOut (m.pout.getD 2 0) m.hearth
  let link := m.pout.getD 3 0 + m.pout.getD 4 0 + m.pout.getD 5 0 + m.pout.getD 6 0
  let bank := m.banks.map fun b => min b (m.pout.getD 6 0 / 2)
  let fl := shareOut (link - bank.foldl (· + ·) 0) (byOwner s.portOwner m.flits)
  addLists (addLists (addLists (addLists anv seq) hrt) fl) (byOwner s.bankOwner bank)

/-- Power charged to each partition in mW (R415): the rest goes to LOCKED partitions by share, and what rounding leaves to
the lowest of them, so that the charges sum to chip power. -/
def State.charges (s : State) (m : Measured) : List Nat :=
  let d := s.directCharges m
  let rest := m.pout.foldl (· + ·) 0 - d.foldl (· + ·) 0
  let w := allParts.map fun p => if s.locked p then (s.reg (adrPrtPowerShare p)).toNat else 0
  let r := shareOut rest w
  let left := if w.all (· == 0) then 0 else rest - r.foldl (· + ·) 0
  let first := (allParts.find? fun p => w.getD p 0 != 0).getD 0
  (addLists d r).zipIdx.map fun (x, p) => if p == first then x + left else x

/-- The control law of one partition (R416): new step and duty, from its charge and chip power in mW. -/
def lawStep (share cap steps a chip n d : Nat) : Nat × Nat :=
  let hot := if share > 0 then decide (a > 1000 * share) else decide (chip > 1000 * cap)
  let cool := if share > 0 then decide (a < 950 * share) else decide (chip < 950 * cap)
  if hot then
    if n > 24 then (if share > 0 then max 24 (n * share * 1000 / a) else n - 1, d) else (n, max 1 (d - 2))
  else if cool then (if d < 16 then (n, d + 1) else if n < steps then (n + 1, d) else (n, d))
  else (n, d)

/-- The end of a control period for partition `p` (R416): its step and duty, 0x4009 when the duty first falls below 16;
whether the law lowered anything. -/
def State.lawPart (s : State) (p a chip : Nat) : Bool × State :=
  let w := s.reg (adrBelPartPower p)
  let n := fld w 22 17
  let d := fld w 16 12
  let (n', d') := lawStep (s.reg (adrPrtPowerShare p)).toNat s.bel.cap (s.rf adrBelAclk 5 0) a chip n d
  let s := s.setReg (adrBelPartPower p) (setFld (setFld w 22 17 n') 16 12 d')
  (decide (n' < n) || decide (d' < d), if d == 16 && d' < 16 then s.event 0x4009 0 p else s)

/-- A new cap takes effect at a period boundary (R417): shares above it are rescaled, event 0x4005. -/
def State.capBoundary (s : State) : State :=
  let cap := s.rf adrBelCap 10 0
  if cap == s.bel.cap then s
  else
    let sum := s.shareSum
    let s := s.modBel fun b => { b with cap := cap }
    if sum ≤ cap then s
    else
      (s.each allParts fun s p =>
        s.setReg (adrPrtPowerShare p) (wd ((s.reg (adrPrtPowerShare p)).toNat * cap / sum))).event 0x4005 0 0xFF

/-- POWER_CAP packets that wait for the boundary complete with the cap in force (R392). -/
def State.capDone (s : State) : State :=
  s.each (s.pkts.filter fun (_, x) => x.opcode == 0x80 && x.phase == .started) fun s (k, x) =>
    let lim := decide (u16 x.bytes 0x10 < 400) || decide (u16 x.bytes 0x10 > 1250)
    s.complete k (b2n lim) (b2n lim) (leBytes 2 s.bel.cap)

/-- The end of a control period (R401, R415 to R417). While the shed is on, steps and duties stay as they were (R408). -/
def State.controlPeriod (s : State) (m : Measured) (status : List Nat) : State :=
  let s := s.each (List.range 8) fun s r =>
    (s.setRf (adrBelRail r) 31 16 (status.getD r 0)).setRf (adrBelRail r) 14 12 (tget 0 s.bel.rails r)
  let chip := m.pout.foldl (· + ·) 0
  let cs := s.charges m
  let s := s.setRf adrBelChipPower 10 0 (min 2047 (chip / 1000))
  let s := s.each allParts fun s p => s.setRf (adrBelPartPower p) 10 0 (min 2047 (cs.getD p 0 / 1000))
  let (low, s) :=
    if s.shedOn then (false, s)
    else (allParts.filter s.locked).foldl
      (fun (x : Bool × State) p => let (b, t) := x.2.lawPart p (cs.getD p 0) chip; (x.1 || b, t)) (false, s)
  let s := if low then s.bump adrThrottledPeriods else s
  s.capBoundary.capDone

/-! Commands. -/

/-- An input is out (R398, R409): `bus` names it; the operands are the samples of bus, reserve and node in 0.1 V. -/
def execInputOut (bus : Bool) (vb vr vn : Nat) (s : State) : Res :=
  .next (
    if inWithin (if bus then vb else vr) then s
    else
      let s := s.sampleVolts vb vr vn
      match s.bel.st, bus with
      | .sourceBus, true => if s.bel.within false then s.changeover false else s.enterPark
      | .toReserve, false => if s.bel.within true then (s.turnTo true).settleOn true else s.enterPark
      | .sourceReserve, false => if s.bel.within true then s.changeover true else s.enterPark
      | .toBus, true => if s.bel.within false then (s.turnTo false).settleOn false else s.enterPark
      | .park, _ => s.parkFets
      | _, _ => s)

/-- An input completes its qualification window (R398, R409). -/
def execInputQualified (bus : Bool) (vb vr vn : Nat) (s : State) : Res :=
  .next (
    if !inWithin (if bus then vb else vr) then s
    else
      let s := s.sampleVolts vb vr vn
      match s.bel.st, bus with
      | .dark, _ => if s.aux && s.bel.up.isNone && s.bel.retry.isNone && decide (s.bel.tries < 4) then s.powerUp bus else s
      | .park, _ => (s.turnTo bus).settleOn bus
      | .sourceReserve, true => s.changeover true
      | _, _ => s)

/-- The 10 µs after one enable fell have passed: the other rises (R411). -/
def execFetDeadtimeExpiry (s : State) : Res :=
  .next (match s.bel.dead with
    | some b => s.fets b (!b)
    | none => s)

/-- The node has been within limits for 100 µs behind the FET turned on: the changeover settles (R409, R411). -/
def execNodeSettled (vb vr vn : Nat) (s : State) : Res :=
  .next (
    if !inWithin vn then s
    else match s.bel.st with
      | .toReserve => if s.bel.resEn then (s.sampleVolts vb vr vn).settleOn false else s
      | .toBus => if s.bel.busEn then (s.sampleVolts vb vr vn).settleOn true else s
      | _ => s)

/-- The node falls to 32 V in PARK (R414): event 0x4007, the power-down sequence, DARK. -/
def execNodeAt32v (vn : Nat) (s : State) : Res :=
  .next (
    if s.parked && vn ≤ 320 then
      ((s.sampleVolts s.bel.bus s.bel.res vn).event 0x4007 0 0xFF).powerDown
    else s)

/-- A rail reports power-good with a READ_VOUT in mV (R405): the next rail follows; after VIO the straps are sampled
(R447), and after VCORE the chip enters its source state and is reset (R414, R445). A restarted rail is good again (R406). -/
def execRailPowerGood (r vout straps : Nat) (s : State) : Res :=
  .next (
    if tget 0 s.bel.rails r != 1 || !s.voutGood r vout then s
    else
      let s := s.setRail r 2 (some vout)
      match s.bel.up with
      | none => s
      | some (b, i) =>
        if i != r then s
        else
          let s := if r == 0 then { s with straps := straps % 256 } else s
          if r < 7 then (s.modBel fun x => { x with up := some (b, r + 1) }).railOn (r + 1)
          else
            let cause := if s.bel.fresh then 0 else 1
            let s := s.modBel fun x => { x with up := none, fresh := false }
            ((s.belMove (if b then .sourceBus else .sourceReserve)).chipReset cause))

/-- A rail misses its 5 ms limit (R405, R406): in the power-up sequence the rails go down again and the chip stays DARK;
a restarted rail stays faulted. -/
def execRailRampTimeout (r : Nat) (s : State) : Res :=
  .next (
    if tget 0 s.bel.rails r != 1 then s
    else match s.bel.up with
      | some (b, _) => (((s.eventD 0x4008 r 0xFF [r]).setRail r 3 none).powerDown).allowRetry b
      | none => (s.eventD 0x4008 r 0xFF [r]).setRail r 3 none)

/-- One second after a failed power-up or a restartable rail fault (R405, R406): in DARK a power-up from an input within
limits, else the restart of rail `r`. -/
def execRailRetryTimer (r : Nat) (s : State) : Res :=
  .next (
    if s.bel.st == .dark then
      match s.bel.retry with
      | some b =>
        if s.bel.within b then s.powerUp b else if s.bel.within (!b) then s.powerUp (!b)
        else s.modBel fun x => { x with retry := none }
      | none => s
    else if s.bel.restart.contains r then
      (s.modBel fun x => { x with restart := x.restart.filter (· != r), restarted := insNat x.restarted r }).railOn r
    else s)

/-- A rail fault in service (R404, R406), with its STATUS_WORD. -/
def execRailFault (r status : Nat) (comm : Bool) (s : State) : Res :=
  .next (
    if r < 8 && s.bel.st != .dark && s.railGood r then (s.setRf (adrBelRail r) 31 16 status).railFault r comm else s)

/-- The end of a control period of 1 ms (R415, R416, R417), with what it measures. -/
def execBellowsControlPeriod (pout est : List Nat) (seqEst : Nat) (steps hearth flits banks status : List Nat)
    (vb vr vn : Nat) (s : State) : Res :=
  .next (
    if s.bel.st == .dark then s
    else if s.boot == .off || s.boot == .rom || s.boot == .recovery then s.sampleVolts vb vr vn
    else (s.sampleVolts vb vr vn).controlPeriod ⟨pout, est, seqEst, steps, hearth, flits, banks⟩ status)

/-- The VCORE sense falls 50 mV below setpoint (R418): every n_a is halved, event 0x400A. -/
def execVcoreDroop (s : State) : Res :=
  .next (
    if s.bel.st == .dark || s.bel.droop then s
    else (s.modBel fun b => { b with droop := true }).event 0x400A 0 0xFF)

/-- 10 µs after the sense recovers, the steps of R416 return (R418). -/
def execVcoreDroopRecovery (s : State) : Res := .next (s.modBel fun b => { b with droop := false })

/-- The AVSBus status reports VCORE settled at its higher voltage: N is raised (R403). -/
def execVcoreSettled (s : State) : Res :=
  .next (match s.bel.rise with
    | some n => s.modBel fun b => { b with rise := none, changing := some n }
    | none => s)

/-- A change of N completes once the new PLL locks (R267): after a fall the voltage follows (R403). -/
def execAclkChangeDone (s : State) : Res :=
  .next (match s.bel.changing with
    | none => s
    | some n =>
      let fall := decide (n < s.chipSteps)
      let s := (s.setRf adrClkAclk 5 0 n).modBel fun b => { b with changing := none }
      (if fall then s.emit (.avs (s.vcoreAt n)) else s).aclkGo)

end Sys2Proof.Machine
end

