-- ==== Sys2Proof/Machine/Bringup.lean ====
section
/-! DEFINITION. Bring-up (R444 to R464, R504): AUX power, chip resets, the boot ROM, and the stages of firmware up to READY. -/
namespace Sys2Proof.Machine

/-! Power and resets. -/

/-- AUX power rises (R448 step 1). -/
def execAuxRise (s : State) : Res := .next (if s.aux then s else s.auxRise)

/-- AUX power falls (R397, R399, R472): everything outside the flash and the fuses is lost. -/
def execAuxFall (s : State) : Res :=
  .next (
    if !s.aux then s
    else
      let s := match s.nvs.busy with
        | some op => s.nvCut op
        | none => s
      { s.auxRise with aux := false })

/-- A cause of R445 other than power asks for a chip reset: 2 GLB_CTRL, 3 a watchdog, 4 the sideband, 5 a fault. -/
def execChipReset (cause : Nat) (s : State) : Res :=
  .next (if s.boot != .off && 2 ≤ cause && cause ≤ 5 then s.chipReset cause else s)

/-- The watchdog of smith `k` expires (R444). -/
def execSmithWatchdogExpiry (k : Nat) (s : State) : Res :=
  .next (
    if s.boot == .off || k > 3 then s
    else (if k == 0 then s else s.event 0x6008 k 0xFF).chipReset 3)

/-! The boot ROM (R453 to R462). -/

/-- A sector header other than STATE is blank. -/
def blankHdr (h : List Byte) : Bool := (h.drop 4).all (· == 0xFF)

/-- The ROM finds sector `n` half-erased (R461): it blank-checks only descriptor and ledger sectors. -/
def State.romHalf (s : State) (n : Nat) : Bool :=
  let st := s.secState n
  s.openErase n || !(st == stErased || st == stOpen || st == stSealed || st == 0)
    || (st == stErased && (!blankHdr (s.secHdr n) || (n < 4 && !s.secBlank n)))

/-- Half-erased sectors have been found (R461). -/
def State.foundHalf (s : State) (l : List Nat) : State :=
  let s := s.setNvs fun n => { n with half := l.foldl insNat n.half }
  s.each l fun s _ => (s.event 0x5001 0 0xFF).bump adrHalfErasedFound

/-- Repair a ledger or descriptor sector at step 7 (R461), the ledger's first: with both ledger sectors half-erased, sector 2 is erased without
a record and opened with SEQ 1. -/
def State.romRepair (s : State) (n : Nat) : State :=
  let s := if n == 2 && s.nvs.half.contains 3 then (s.eraseSector 2).programFlash (2 * sectorBytes) (openBytes 2 1 [])
    else if n < 2 then s.ledgerRoom.eraseLogged n 6 else s.eraseLogged n 6
  (s.setNvs fun v => { v with half := v.half.filter (· != n) }).event 0x5002 0 0xFF

/-- Torn records of the log sectors are skipped, each with event 0x5003 (R460, R462). -/
def State.tornEvents (s : State) : State :=
  let inUse := fun n => s.secState n == stOpen || s.secState n == stSealed
  let k := (([0, 1].filter inUse).map fun n => s.torn n 64 1023).foldl (· + ·) 0
    + (([2, 3].filter inUse).map fun n => s.torn n 32 2046).foldl (· + ·) 0
  s.each (List.range k) fun s _ => s.event 0x5003 0 0xFF

/-- Of two descriptor sectors left OPEN, the later one takes the record in force, and the other goes STALE (R459). -/
def State.settleDesc (s : State) : State :=
  if s.secState 0 == stOpen && s.secState 1 == stOpen then
    let (hi, lo) := if s.secSeq 0 < s.secSeq 1 then (1, 0) else (0, 1)
    match s.descriptor with
    | none => s.staleSector lo
    | some r => (if (s.logRecs hi 64 1023).contains r then s else s.appendLog hi 64 1023 r).staleSector lo
  else s

/-- Regions whose open sectors a power loss leaves incomplete (R459): first sector and length. -/
def closedRegions : List (Nat × Nat) := [(4, 192), (196, 192), (388, 64), (452, 64), (516, 32)]

/-- OPEN sectors of a region go STALE, and the region is not complete (R459). -/
def State.staleOpen (s : State) (r : Nat × Nat) : State :=
  let l := ((List.range r.2).map (· + r.1)).filter fun n => s.secState n == stOpen && !s.nvs.half.contains n
  if l.isEmpty then s else (s.each l State.staleSector).event 0x5004 0 0xFF

/-- Step 7 of the power-on timeline: the ROM reads headers, ledger and descriptor, and settles what power loss left. -/
def State.romScan (s : State) : State :=
  let s := s.foundHalf ((List.range 548).filter s.romHalf)
  let s := s.each ([2, 3, 0, 1].filter s.nvs.half.contains) State.romRepair
  let s := (s.tornEvents.settleDesc.each closedRegions State.staleOpen).settleLedgers
  s.setEvr fun e => { e with arcOpen := false, arcSlot := 0 }

/-- The boot enters recovery (R455). -/
def State.toRecovery (s : State) : State := { (s.setRf adrGlbStatus 1 1 1).event 0x6005 0 0xFF with boot := .recovery }

/-- Verify a slot with its events (R452, R462): a slot without an image records none. -/
def State.checkSlot (s : State) (slot : Nat) : Bool × State :=
  if s.slotSeq false slot == 0xFFFFFFFF then (false, s) else s.verifyImage (s.slotBytes false slot)

/-- Firmware starts (R448 step 9), and event 0x6001 records the cause of the reset (R446). -/
def State.startFirmware (s : State) (img : List Byte) : State :=
  let s := (s.setReg adrGlbFwVersion (wd (u32 img 8))).setNvs fun n => { n with header := img.take 0x200 }
  { s.eventD 0x6001 0 0xFF [s.rf adrGlbResetCause 3 0] with boot := .firmware }

/-- Run the image of a slot. -/
def State.runSlot (s : State) (slot trial : Nat) : State :=
  ((s.setRf adrGlbStatus 3 3 slot).setRf adrGlbStatus 4 4 trial).startFirmware (s.slotBytes false slot)

/-- The boot falls back to a slot, which the descriptor then names, confirmed (R453). -/
def State.fallBack (s : State) (slot : Nat) : State := (s.appendDesc (confirmRec slot)).event 0x6003 0 0xFF

/-- The trial rules of R453: a trial without tries left gives way to the other slot, and another one spends a try. -/
def State.trialStep (s : State) : State :=
  if s.descField 2 1 == 1 then
    let t := s.descField 3 1
    if t == 0 then s.fallBack (1 - s.descField 1 1) else s.appendDesc [(3, 1, t - 1)]
  else s

/-- A boot from the descriptor (R453). -/
def State.bootDesc (s : State) : State :=
  match s.descriptor with
  | none => s.toRecovery
  | some _ =>
    let s := s.trialStep
    let slot := s.descField 1 1 % 2
    let (ok, s) := s.checkSlot slot
    if ok then s.runSlot slot (s.descField 2 1 % 2)
    else
      let (ok, s) := s.checkSlot (1 - slot)
      if ok then (s.fallBack (1 - slot)).runSlot (1 - slot) 0 else s.toRecovery

/-- Choose and run an image (R453). -/
def State.bootImage (s : State) : State :=
  match s.rf adrGlbStatus 15 14 with
  | 3 => s.toRecovery
  | 0 => s.bootDesc
  | b =>
    let (ok, s) := s.checkSlot (b - 1)
    if ok then s.runSlot (b - 1) 0 else s.toRecovery

/-- The boot ROM's work is done (R448 steps 7 to 9); `fit` says that the flash is 64 MiB by its SFDP (R456). In recovery, an
image received over the sideband runs (R455). -/
def execBootImageLoaded (fit : Bool) (s : State) : Res :=
  .next (match s.boot, s.nvs.sideImage with
    | .rom, _ => if fit then s.romScan.bootImage else (s.event 0x5006 0 0xFF).toRecovery
    | .recovery, some img => (s.setNvs fun n => { n with sideImage := none, pldm := {} }).startFirmware img
    | _, _ => s)

/-! The configuration (R176 to R178, R403, R463, R464). -/

/-- Quads of each port under a preset (R177), N, E, S, W. -/
def presetQuads (n : Nat) : List Nat :=
  ([[4, 4, 4, 4], [6, 2, 6, 2], [2, 6, 2, 6], [8, 8, 0, 0], [0, 8, 8, 0], [0, 0, 8, 8], [8, 0, 0, 8]]).getD n [4, 4, 4, 4]

/-- QUAD_DIR of quads assigned consecutively. -/
def presetDir (n : Nat) : Nat :=
  (((presetQuads n).zipIdx.flatMap fun (c, d) => List.replicate c d).zipIdx.map fun (d, q) => d * 4 ^ q).foldl (· + ·) 0

/-- Quads that an allotment gives to port `d`. -/
def quadsOf (dir en d : Nat) : Nat := ((List.range 16).filter fun q => bitAt en q && dir / 4 ^ q % 4 == d).length

/-- The allotment of an ALLOTMENT section (R177, R178): QUAD_DIR, QUAD_EN, PRESET; none when it is illegal. -/
def allotment (b : List Byte) : Option (Nat × Nat × Nat) :=
  let p := u8 b 6
  let dir := u32 b 0
  let en := u16 b 4
  if b.length < 12 || u32 b 8 != crc32c (b.take 8) || p > 7 then none
  else if p < 7 then some (presetDir p, 0xFFFF, p)
  else if [0, 1, 2, 3].any fun d => quadsOf dir en d > 8 then none
  else some (dir, en, 7)

/-- Apply an allotment to the registers and the mesh ports (R176). -/
def State.applyAllotment (s : State) (dir en p : Nat) (fallback : Bool) : State :=
  let s := (s.setReg adrLnkAllot0 (wd dir)).setReg adrLnkAllot1 (wd (en + 2 ^ 16 * p + 2 ^ 19 * b2n fallback))
  let s := if fallback then s.event 0x200A 0 0xFF else s
  s.each [0, 1, 2, 3] fun s d =>
    let n := quadsOf dir en d
    s.modLink d fun l => { l with allot := n, st := if n == 0 then .disabled else .down }

/-- Gleed ports are down or, without fibres, disabled (R447). -/
def State.applyRole (s : State) : State :=
  s.each [4, 5, 6, 7] fun s d =>
    if s.rf adrGlbStatus (12 + (d - 4) / 2) (12 + (d - 4) / 2) == 1 then s.modLink d fun l => { l with allot := 4, st := .down }
    else s.modLink d fun l => { l with allot := 0, st := .disabled }

/-- VCORE in mV per step, clamped (R403): event 0x400B for each entry outside 650 to 900 mV. -/
def State.applyVf (s : State) (b : List Byte) : State :=
  let v := (List.range 33).map fun i => u16 b (2 * i)
  let s := s.each v fun s x => if x < 650 || 900 < x then s.event 0x400B 0 0xFF else s
  { s with bel := { s.bel with vf := v.map fun x => max 650 (min 900 x) } }

/-- The rail table of a configuration (R448 step 10, R463): the setpoints that it gives. DEDUCED (log entry 36). -/
def State.applyRails (s : State) (b : List Byte) : State :=
  let v := (List.range 7).map fun r => u16 b (4 * r + 1)
  let s := { s with bel := { s.bel with sets := v } }
  s.each (List.range 7) fun s r => if s.bel.sets.getD r 0 == 0 then s else s.emit (.vout r (s.bel.sets.getD r 0))

/-- The Quench values of a configuration (R463): DELAY, TRANSIT, VALID and idle heat of each valve and section. -/
def State.applyQuench (s : State) (b : List Byte) : State :=
  s.each (List.range 8) fun s v =>
    let s := s.setReg (adrQchValveCal v) (wd (u8 b (8 * v) % 128 + 2 ^ 7 * (u8 b (8 * v + 1) % 128) + 2 ^ 14 * (u8 b (8 * v + 2) % 2)))
    { s with qch := { s.qch with sections := tset {} s.qch.sections v { s.section v with idle := 1000 * u16 b (8 * v + 4) } } }

/-- A bank without tables in the store stands FAILED (R464). -/
def State.failBank (s : State) (b : Nat) : State :=
  { s with banks := tset {} s.banks b { tget {} s.banks b with dead := true, stopped := true } }

/-- The tables of the lightbanks are those of the configuration (R159, R160, R463); without both of their sections every bank stands
FAILED (R464). -/
def State.applyLbk (s : State) (b : List Byte) : State :=
  match sectionData b 0x103, sectionData b 0x104 with
  | some t, some c => s.each [0, 1] fun s k => s.modBank k fun x => { x with tables := slice t (1035776 * k) 1035776, xtalk := slice c (52224 * k) 52224 }
  | _, _ => s.each [0, 1] State.failBank

/-- The lightbanks' primary lasers are lit; their spares stay off (R244). -/
def State.lightBanks (s : State) : State := s.each [46, 48] fun s i => s.setRf (adrGldLaser i) 2 0 2

/-- A section of the configuration to be applied is used where it is present. -/
def State.withSection (s : State) (b : List Byte) (t : Nat) (f : State → List Byte → State) : State :=
  match sectionData b t with
  | some d => f s d
  | none => s

/-- A configuration slot is usable (R464). -/
def State.configUsable (s : State) (c : Nat) : Bool := s.slotSeq true c != 0xFFFFFFFF && s.configOk (s.slotBytes true c)

/-- The configuration slot that the boot applies (R464). -/
def State.configChoice (s : State) : Option Nat :=
  let c := s.descField 4 1 % 2
  if s.configUsable c then some c else if s.configUsable (1 - c) then some (1 - c) else none

/-- Apply a configuration (R464). -/
def State.applyConfig (s : State) : State :=
  match s.configChoice with
  | none =>
    let s := (s.setRf adrGlbStatus 6 6 1).event 0x6007 0 0xFF
    ((s.applyAllotment (presetDir 0) 0xFFFF 0 false).each [0, 1] State.failBank)
  | some c =>
    let b := s.slotBytes true c
    let s := s.setRf adrGlbStatus 5 5 c
    let s := match (sectionData b 1).bind allotment with
      | some (dir, en, p) => s.applyAllotment dir en p false
      | none => s.applyAllotment (presetDir 0) 0xFFFF 0 true
    (((s.withSection b 3 State.applyRails).withSection b 0x101 State.applyVf).withSection b 0x102 State.applyQuench).applyLbk b

/-- Step 11 is reached (R291, R448); a chip that has had 3 fatal resets is held there (R504). -/
def execHostPortStage (s : State) : Res :=
  .next (
    if s.boot != .firmware then s
    else
      let s := s.applyConfig.applyRole.lightBanks
      let s := (s.emit (.avs (s.vcoreAt s.chipSteps))).setRf adrGlbStatus 2 2 1
      let s := if s.rf adrGlbFaultStatus 19 16 ≥ 3 then (s.setRf adrGlbFaultStatus 20 20 1).event 0x600F 0 0xFF else s
      { s with boot := .stage })

/-! READY (R448 step 12, R454, R461). -/

/-- Some valve has no valid values (R435). -/
def State.valvesOpen (s : State) : Bool := (List.range 8).any fun v => s.rf (adrQchValveCal v) 14 14 == 0

/-- ERASED sectors that a blank check after READY finds not blank (R461). -/
def State.notBlank (s : State) : List Nat :=
  ((List.range 544).map (· + 4)).filter fun n => s.secState n == stErased && !s.secBlank n && !s.nvs.half.contains n

/-- READY is set: a trial image is confirmed, and sectors are checked and repaired in the background (R454, R461). -/
def State.goReady (s : State) : State :=
  let s := { s.setRf adrGlbStatus 0 0 1 with boot := .ready }
  let s := if s.rf adrGlbStatus 4 4 == 1 then s.ownAsk 5 else s
  let s := s.foundHalf s.notBlank
  if s.toRepair.isSome then s.ownAsk 3 else s.settleLedgers

/-- Step 12 (R448): READY is set, after Quench has been calibrated where a valve has no valid values (R435). A held chip
stays without READY (R504). -/
def execChipReady (s : State) : Res :=
  .next (
    if s.rf adrGlbFaultStatus 20 20 == 1 then s
    else match s.boot with
      | .stage => if s.valvesOpen then { s with qch := { s.qch with cal := some 0 }, boot := .calibrating } else s.goReady
      | .calibrating => if s.qch.cal.isNone then s.goReady else s
      | _ => s)

end Sys2Proof.Machine
end

