-- ==== Sys2Proof/Machine/Clocks.lean ====
section
/-! DEFINITION. TCLK, RTSYNC, rack time and machine time, the measurements of links, and the ACLK PLL (R267, R271 to
R283). -/
namespace Sys2Proof.Machine

/-- Change the clock state. -/
def State.modClk (s : State) (f : Clk → Clk) : State := { s with clk := f s.clk }

/-- A rack tick's length in TCLK cycles (R273). -/
def tickLen : Nat := 2 ^ 20

/-- A partition has an open lap or a set-up line (R275, R278). -/
def State.timeBound (s : State) : Bool := allParts.any fun p => s.anyLap p || !(s.part p).lines.isEmpty

/-! Offset and load (R275, R278). -/

/-- MT_OFFSET as written. -/
def State.offsetWritten (s : State) : Nat := (s.reg adrClkMtOffsetLo).toNat + 2 ^ 32 * (s.reg adrClkMtOffsetHi).toNat

/-- A rack tick (R273, R278): an armed MT_OFFSET is applied, or dropped when it moves machine time by more than 64 cycles
while a lap or a line holds it. -/
def State.tick (s : State) : State :=
  if s.rf adrClkMtArm 0 0 == 0 then s
  else
    let s := s.setRf adrClkMtArm 0 0 0
    let d := sext 64 ((s.offsetWritten + 2 ^ 64 - s.clk.offset) % 2 ^ 64)
    if d.natAbs > 64 && s.timeBound then s.event 0x300B 0 0xFF
    else
      let o := s.offsetWritten
      (s.modClk fun c => { c with offset := o }).event 0x3007 0 0xFF

/-- Rack time that an armed load gives (R275). -/
def State.loadTime (s : State) : Nat :=
  ((s.reg adrClkRtLoadLo).toNat + 2 ^ 32 * s.rf adrClkRtLoadHi 11 0) * tickLen

/-- Rack time is set to a multiple of 2^20, which is a rack tick. -/
def State.setRack (s : State) (t : Nat) : State := (s.modClk fun c => { c with rack := t % 2 ^ 64, hold := 0 }).tick

/-- Alignment of a pulse with RT_SYNCED set whose error is within reach or confirmed (R274). -/
def State.alignTo (s : State) (e : Int) : State :=
  if e == 0 then s
  else
    let s := ((s.setRf adrClkSync 19 0 (twos 20 e)).bump adrRtsyncCorrected).event 0x3004 0 0xFF
    if e > 0 then s.modClk fun c => { c with hold := e.toNat } else s.setRack (s.clk.rack + e.natAbs)

/-- A pulse that R274 acts on: an armed load takes the place of the alignment, or is dropped (R275). -/
def State.pulseActs (s : State) (e : Int) : State :=
  if s.rf adrClkRtLoadHi 31 31 == 0 then s.alignTo e
  else
    let s := s.setRf adrClkRtLoadHi 31 31 0
    if s.loadTime < s.clk.rack && s.timeBound then (s.event 0x300B 0 0xFF).alignTo e
    else ((s.setRf adrClkStatus 3 3 1).event 0x3006 0 0xFF).setRack s.loadTime

/-- A sampled RTSYNC rising edge (R274). -/
def execRtsyncPulse (s : State) : Res :=
  .next (
    if !s.clk.running || !s.clk.tclk then s
    else
      let c := s.clk
      let e := sext 20 (c.rack % tickLen)
      let s := s.modClk fun c => { c with sampled := true, misses := 0 }
      let here := fun (s : State) => s.modClk fun k => { k with pulse := some c.cycles, ignored := none }
      if !c.synced then
        let s := (here s).modClk fun k => { k with synced := true }
        if e == 0 then s else s.setRack (roundUp c.rack tickLen)
      else if e.natAbs ≤ 16 || c.ignored.any (fun i => c.cycles == i + tickLen) then (here s).pulseActs e
      else
        ((s.modClk fun k => { k with ignored := some c.cycles }).setRf adrClkSync 19 0 (twos 20 e)
          |>.bump adrRtsyncIgnored).event 0x3005 0 0xFF)

/-- Four cycles after an expected instant (R274): a miss is counted unless a pulse was sampled since the last decision;
four in a row clear RT_SYNCED. -/
def execRtsyncMissDecision (s : State) : Res :=
  .next (
    if !s.clk.synced then s
    else if s.clk.sampled then s.modClk fun c => { c with sampled := false }
    else
      let n := s.clk.misses + 1
      ((s.modClk fun c => { c with misses := if n ≥ 4 then 0 else n, synced := decide (n < 4) }).bump adrRtsyncMissed).event
        0x3003 0 0xFF)

/-- Bits [19:0] of rack time become zero (R273). A command away from a tick changes nothing (log entry 16). -/
def execRackTick (s : State) : Res :=
  .next (if s.clk.running && s.clk.rack % tickLen < 2 then s.tick else s)

/-- TCLK has stayed in its window for 1 ms (R271, R272): rack time starts, or holdover ends. -/
def execTclkPresent (s : State) : Res :=
  .next (
    if s.clk.tclk || s.boot == .off then s
    else
      let back := s.clk.holdover
      let s := s.modClk fun c => { c with tclk := true, running := true, holdover := false }
      if back then s.event 0x3002 0 0xFF else s)

/-- TCLK is lost (R271): holdover, and every link goes down. -/
def execTclkLost (s : State) : Res :=
  .next (
    if !s.clk.tclk then s
    else
      let s := s.modClk fun c => { c with
        tclk := false, holdover := true, synced := false, misses := 0, pulse := none, ignored := none, sampled := false }
      ((s.bump adrTclkLosses).event 0x3001 0 0xFF).each (List.range 8) State.linkDown)

/-- The ACLK PLL loses lock (R267): event 0x300A; the domain runs at OSC × 12. -/
def execAclkPllLockLost (s : State) : Res :=
  .next (
    if s.clk.aclkLost || s.boot == .off then s else (s.modClk fun c => { c with aclkLost := true }).event 0x300A 0 0xFF)

/-- The ACLK PLL regains lock (R267). -/
def execAclkPllLockRestored (s : State) : Res := .next (s.modClk fun c => { c with aclkLost := false })

/-! Offset and delay of links (R280 to R283). -/

/-- 48 bits of a time ordered set at a byte offset. -/
def u48 (b : List Byte) (off : Nat) : Nat := leVal (slice b off 6)

/-- The measurement of port `d`. -/
def State.measure (s : State) (d : Nat) : Option Measure := tfind s.measures d
/-- Replace the measurement of port `d`. -/
def State.setMeasure (s : State) (d : Nat) (m : Measure) : State := { s with measures := tput s.measures d m }

/-- The link of port `d` can carry time ordered sets: it is ACTIVE, or its LINK_INIT has agreed (R281). -/
def State.timeUp (s : State) (d : Nat) : Bool :=
  (s.link d).st == .active || ((s.link d).st == .training && (s.link d).step == 6)

/-- The next TIME_REQ of a measurement waits for its slot (R280, R281). -/
def State.nextReq (s : State) (d : Nat) (m : Measure) : State :=
  (s.setMeasure d { m with next := m.next + 1 }).modLink d fun l => { l with timeQ := l.timeQ ++ [.req m.next] }

/-- Start a measurement (R281), or let packets join the one that runs. -/
def State.startMeasure (s : State) (d : Nat) (ks : List Nat) : State :=
  match s.measure d with
  | some m => s.setMeasure d { m with pkts := m.pkts ++ ks }
  | none => s.nextReq d { pkts := ks }

/-- A measurement starts at training or by TIME_PERIOD (R281). -/
def execTimeMeasureStart (d : Nat) (s : State) : Res :=
  .next (if d < 8 && s.timeUp d && (s.measure d).isNone then s.startMeasure d [] else s)

/-- LINK_MEASURE (R390). -/
def execLinkMeasure (k : Nat) (s : State) : Res :=
  runOp 0x62 k (fun x s =>
    let d := u8 x.bytes 0x10
    if (s.link d).st != .active then s.failPkt k 0x30 else s.startMeasure d [k]) s

/-- 1 µs after the last TIME_REQ the next one leaves (R281). -/
def execTimeReqSend (d : Nat) (s : State) : Res :=
  .next (match s.measure d with
    | some m => if m.next < 8 && s.timeUp d then s.nextReq d m else s
    | none => s)

/-- A TIME_REQ arrives; its answer waits for its slot (R280). -/
def State.timeReq (s : State) (d : Nat) (os : List Byte) : State :=
  if osGood os && u8 os 0 == 0xA9 && s.timeUp d then
    let t := s.machineTime % 2 ^ 48
    s.modLink d fun l => { l with timeQ := l.timeQ ++ [.rsp (u8 os 1) t] }
  else s

/-- A TIME_REQ is received (R280). -/
def execTimeReqReceived (d : Nat) (os : List Byte) (s : State) : Res := .next (if d < 8 then s.timeReq d os else s)

/-- A TIME_RSP arrives: one pair of round trip and twice the offset, differences modulo 2^48 (R281). -/
def State.timeRsp (s : State) (d : Nat) (os : List Byte) : State :=
  match s.measure d with
  | none => s
  | some m =>
    match tfind m.t1 (u8 os 1) with
    | none => s
    | some t1 =>
      if !osGood os || u8 os 0 != 0xAA then s
      else
        let df := fun (a b : Nat) => sext 48 ((a + 2 ^ 48 - b) % 2 ^ 48)
        let (t2, t3, t4) := (u48 os 2, u48 os 8, s.machineTime % 2 ^ 48)
        let r := df t4 t1 - df t3 t2
        let o := df t2 t1 - df t4 t3
        s.setMeasure d { m with t1 := tdel m.t1 (u8 os 1), pairs := m.pairs ++ [(u8 os 1, r, o)] }

/-- A TIME_RSP is received (R281). -/
def execTimeRspReceived (d : Nat) (os : List Byte) (s : State) : Res := .next (if d < 8 then s.timeRsp d os else s)

/-- The pair with the smallest round trip, the lowest TAG on a tie (R281). -/
def bestPair : List (Nat × Int × Int) → Option (Nat × Int × Int)
  | [] => none
  | x :: t =>
    match bestPair t with
    | none => some x
    | some y => if y.2.1 < x.2.1 || (y.2.1 == x.2.1 && y.1 < x.1) then some y else some x

/-- The window of a measurement ends (R281, R283). -/
def execTimeMeasureEnd (d : Nat) (s : State) : Res :=
  .next (match s.measure d with
    | none => s
    | some m =>
      let s := { s with measures := tdel s.measures d }
      match (if m.pairs.length < 4 then none else bestPair m.pairs) with
      | none => (s.portEvent 0x3008 d []).each m.pkts fun s k => s.failEv k 0x20 0x3008
      | some (_, r, o) =>
        let off := 5 * o
        let s := s.setReg (adrClkPortOffset d) (wd (twos 32 off))
        let s := s.setReg (adrClkPortDelay d) (wd (twos 31 (5 * r) + 2 ^ 31))
        let s := if isGleed d then s.setRf (adrGldPortStatus (d - 4)) 31 16 (min 65535 (r.toNat / 2)) else s
        let far := decide (s.rf adrClkTimeCfg 31 16 < off.natAbs)
        let s := if far && s.rf (adrAntPortState d) 1 0 == 1 then s.portEvent 0x3009 d [] else s
        s.each m.pkts fun s k => s.done k (leBytes 4 (twos 32 off) ++ leBytes 4 (twos 31 (5 * r))))

end Sys2Proof.Machine
end

