-- ==== Sys2Proof/Machine/Procession.lean ====
section
/-! DEFINITION. The commands of procession (R21, R25 to R60, R377 to R383): laps, billets, verdicts and lap tokens. A billet
is named by its place `n` in PLAN_ORDER, a ring by `r`. -/
namespace Sys2Proof.Machine

/-! Slots (R60, R149, R256). -/

/-- Address of receive slot `i`, counted from 1. -/
def Plan.recvAddr (p : Plan) (i : Nat) : Nat := p.recvBase + (i - 1) * p.slotBytes
/-- Address of retain slot `i`, counted from 1. -/
def Plan.retainAddr (p : Plan) (i : Nat) : Nat := p.retainBase + (i - 1) * p.slotBytes

/-- First receive slot from the round-robin pointer on that no entry uses, counted from 1. -/
def Lap.nextSlot (l : Lap) (pl : Plan) : Option Nat :=
  ((List.range pl.recvSlots).map fun i => (l.slotPtr + i) % pl.recvSlots + 1).find? fun i =>
    l.entries.all fun (_, e) => e.slot != i && e.frees != i

/-- First retain slot that no entry uses, counted from 1. -/
def Lap.nextRetain (l : Lap) (pl : Plan) : Option Nat :=
  ((List.range (pl.retainBytes / pl.slotBytes)).map (· + 1)).find? fun i => l.entries.all fun (_, e) => e.retain != i

/-! Lap start and open (R45, R46, R58, R377, R383). -/

/-- The job that a lap-start or rehome packet describes. -/
def lapJob (k : Nat) (b : List Byte) (pl : Plan) (rehome : Bool) : LapJob :=
  let low := pl.members.foldl min (pl.members.headD 0)
  { pkt := k, plan := pl, replay := bitAt (u8 b 0x11) 0, sr := bitAt (u8 b 0x11) 1, opt := u8 b 0x12, start := u64 b 0x1C,
    leader := if u32 b 0x24 == 0 then low else u32 b 0x24, lr := u32 b 0x28, beta1 := u32 b 0x2C, beta2 := u32 b 0x30,
    eps := u32 b 0x34, wd := u32 b 0x38, optStep := u32 b 0x3C, rehome := rehome }

/-- The hop of a ring has credits for VC0, VC1 and VC3 (R27). On a campus port VC1 and VC3 count landing slots, which the receiver's
lap gives (R256), and no buffer is set aside for them (R253). -/
def State.lapCredits (s : State) (pl : Plan) : Bool :=
  match s.wiredPort pl.succ with
  | some d => [0, 1, 3].all fun v => slotVc d v || s.rf (adrLnkVcBuf d v) 15 0 != 0
  | none => true

/-- A billet record can name a billet (R29): a BILLET_ID that is no token's, and sizes in their ranges. -/
def recSizes (b : BRec) : Bool :=
  b.id != tokenId && b.len % 4096 == 0 && decide (1048576 ≤ b.len) && decide (b.len ≤ 8388608)
    && decide (1 ≤ b.rows) && decide (b.rows ≤ 512) && decide (1 ≤ b.cols) && decide (b.cols ≤ 512)

/-- Records of a rehome plan (R383), or of a lap: legal sizes, kind and format, a home on the ring, and no optimizer billets. -/
def recOk (rehome : Bool) (pl : Plan) (b : BRec) : Bool :=
  recSizes b && pl.members.contains b.home && (if rehome then b.kind == 3 && b.format == 8 && pl.members.contains b.gradOf
    else kindOk b.kind b.format && b.kind != 3)

/-- A replay of the last closed epoch is legal (R58): it aborted with its activations kept, in the same keep area, and the member
set is the same. A forward phase or a partition reset in between leaves no such epoch. -/
def Lap.replayOk (l : Lap) (pl : Plan) : Bool :=
  match l.aborted with
  | none => false
  | some (e, ms, a, n) => e == l.epoch && ms.all pl.members.contains && pl.members.all ms.contains && a == pl.keepBase && n == pl.keepBytes

/-- The checks of a lap-start packet before its plan is read: R21, R23, R50, R223. -/
def State.lapForbidden (s : State) (p r : Nat) : Bool :=
  (s.part p).modePend.isSome || !(s.part p).procession || (s.lap p r).inDoubt || !s.addrValid

/-- Status and offset with which a lap-start packet fails (R25, R27, R41, R60, R377, R379, R383). -/
def State.lapBad (s : State) (k : Nat) (x : Pkt) (rehome : Bool) (d : List Byte) : Option (Nat × Nat) :=
  let b := x.bytes
  let pl := parsePlan d
  let j := lapJob k b pl rehome
  let l := s.lap x.part (u8 b 0x10)
  if !planOk d (u32 b 0x18) (s.partAddr x.part) || !pl.members.all (s.memberOk x.part) || !pl.billets.all (recOk rehome pl) then
    some (0x11, 0x14)
  else if !pl.members.contains j.leader then some (0x11, 0x24)
  else if j.replay && (l.phase == .closed && !l.replayOk pl) then some (0x11, 0x11)
  else if s.hopFenced pl.succ then some (0x13, 0xFFFF)
  else if !s.lapCredits pl || s.entriesUsed + pl.billets.length > 131072 || !s.areasOk x.part pl then some (0x12, 0xFFFF)
  else none

/-- Accept a lap-start packet (R46 step 1): phase OPENING, or behind the laps before it (R45). -/
def State.acceptLap (s : State) (p r : Nat) (j : LapJob) : State :=
  let l := s.lap p r
  if l.phase == .closed then s.setLap p r { l with phase := .opening, job := some j, leader := j.leader == j.plan.self }
  else s.setLap p r { l with waiting := l.waiting ++ [j] }

/-- Start a lap-start or rehome packet, which R21, R23, R50 or R223 may forbid; a plan that holds a poisoned word fails with INTERNAL
(R134). -/
def State.startLap (s : State) (k : Nat) (x : Pkt) (rehome : Bool) : State :=
  if s.lapForbidden x.part (u8 x.bytes 0x10) then s.failPkt k 0x14
  else match s.load x.part (u32 x.bytes 0x14) (u32 x.bytes 0x18) with
  | (none, s) => s.failEv k 0x7F 0x1103
  | (some d, s) =>
    match s.lapBad k x rehome d with
    | some (0x11, o) => s.badParam k o
    | some (st, _) => s.failPkt k st
    | none => s.acceptLap x.part (u8 x.bytes 0x10) (lapJob k x.bytes (parsePlan d) rehome)

/-- LAP_START (R377). -/
def execLapStart (k : Nat) (s : State) : Res := runOp 0x30 k (fun x s => s.startLap k x false) s

/-- REHOME (R383). -/
def execRehome (k : Nat) (s : State) : Res := runOp 0x32 k (fun x s => s.startLap k x true) s

/-- Custody entries at the opening of an epoch: this home's weight and gradient billets, and the optimizer billets of the
old home, are HOME. -/
def openEntries (pl : Plan) (sr : Bool) : Tbl Entry :=
  pl.billets.zipIdx.foldl (fun t (b, i) =>
    if (b.kind != 3 && b.home == pl.self) || (b.kind == 3 && b.gradOf == pl.self && b.home != pl.self) then
      tput t i { st := .home, loc := b.homeSrc, sr := sr }
    else t) []

/-- The waits that the custody engine makes for an epoch, in PLAN_ORDER (R380): SEM_USED for every billet of another home,
SEM_CONTRIB for every gradient billet; a rehome pass makes none. -/
def State.lapWaits (s : State) (p r : Nat) (j : LapJob) : State :=
  if j.rehome then s
  else
    s.each j.plan.billets.zipIdx fun s (b, i) =>
      let s := if b.home != j.plan.self then s.semWait p j.plan.semUsed 1 (.used p r i) else s
      if b.kind == 2 then s.semWait p j.plan.semContrib 1 (.contrib p r i) else s

/-- Open the epoch (R45, R46 step 2): the receive semaphores start with FULL 0 and EMPTY n (R149). -/
def State.openLap (s : State) (p r : Nat) (j : LapJob) : State :=
  let s := s.modLap p r fun l => { l with
    epoch := (l.epoch + 1) % 65536, phase := if j.replay then .backward else .forward, decision := 0, pktDone := false,
    leader := j.leader == j.plan.self, entries := openEntries j.plan j.sr, aborted := if j.replay then l.aborted else none
    aborts := l.aborts.filter (· != (l.epoch + 1) % 65536) }
  let s := { s with relays := s.relays.filter fun x => !(x.part == p && x.ring == r && x.ended && x.epoch == (s.lap p r).epoch) }
  let s := (s.semWrite p j.plan.semFull 0).semWrite p j.plan.semEmpty j.plan.recvSlots
  let s := match s.wiredPort j.plan.succ with
    | some d =>
      if s.portOwner d == some p then (s.setRf (adrLnkVcWeight d) 3 0 j.plan.vc1).setRf (adrLnkVcWeight d) 11 8 j.plan.vc3 else s
    | none => s
  (s.lapWaits p r j).phaseSettle p r

/-- Epoch E opens at the later of its start machine time and the close of E − 1 (R45); a replay that is not legal then
completes with BAD_PARAM (R58). -/
def execLapOpen (p r : Nat) (s : State) : Res :=
  .next (let l := s.lap p r
    match l.job with
    | none => s
    | some j =>
      if l.phase != .opening || s.machineTime < j.start then s
      else if j.replay && !l.replayOk j.plan then (s.badParam j.pkt 0x11).closeLap p r
      else s.openLap p r j)

/-! Departures (R34, R380). -/

/-- The successor is the billet's home, so the last hop of a weight billet is a RETURN header (R34). -/
def Plan.returnHop (p : Plan) (b : BRec) : Bool := b.kind == 1 && p.succ == b.home && b.home != p.self

/-- Every earlier billet of another home has been processed here (R46 step 3). -/
def State.inTurn (_s : State) (l : Lap) (pl : Plan) (n : Nat) : Bool :=
  (List.range n).all fun i =>
    match pl.billets[i]? with
    | none => true
    | some b =>
      let st := (l.entry i).st
      b.home == pl.self || st == .onWire || st == .passed || st == .retired || (b.kind == 3 && !pl.onWay b) || b.stays

/-- Every earlier billet of this home and VC has departed (R46 steps 2 and 4). -/
def Lap.homeTurn (l : Lap) (pl : Plan) (n : Nat) (kind : Nat) : Bool :=
  (List.range n).all fun i =>
    match pl.billets[i]? with
    | none => true
    | some b => b.kind != kind || (l.entry i).st != .home

/-- The billet may depart now: at the home in its turn, and for a gradient once its contribution is ready; elsewhere when
HELD, in its turn, after SEM_USED; `unused` marks a weight billet that the last member before its home does not use. -/
def State.mayDepart (s : State) (p r n : Nat) (unused : Bool) (j : LapJob) (b : BRec) : Bool :=
  let l := s.lap p r
  match (l.entry n).st with
  | .home => l.homeTurn j.plan n b.kind && (b.kind != 2 || (l.phase == .backward && s.granted (.contrib p r n)))
  | .held => b.home != j.plan.self && s.inTurn l j.plan n
      && (j.rehome || s.granted (.used p r n) || (unused && j.plan.returnHop b))
  | _ => false

/-- Free a receive slot: EMPTY is signalled (R380). -/
def State.freeRecv (s : State) (p : Nat) (pl : Plan) (slot : Nat) : State :=
  if slot == 0 then s else s.semSignal p pl.semEmpty 1

/-- Local address of the bytes from which the copy of a billet that departs is made: the contribution of a home's gradient billet, the
optimizer part of an old home's record, or the copy held. -/
def Entry.source (e : Entry) (b : BRec) : Nat :=
  if e.st == .home && b.kind == 2 then b.contrib else if b.kind == 3 && e.st == .home then e.loc + roundUp b.len 64 else e.loc

/-- Their length: a contribution is FP32. -/
def Entry.sourceLen (e : Entry) (b : BRec) : Nat :=
  if e.st == .home && b.kind == 2 then b.len * 32 / fmtBits b.format else b.len

/-- Stage a billet into its retain slot (R33, R60): the bytes sent from there; a home's gradient billet is seeded with its
own contribution, an optimizer billet built from the home record. None when a poisoned word was met. -/
def State.stage (s : State) (p r n : Nat) (b : BRec) (dst : Nat) : Option State :=
  let l := s.lap p r
  let e := l.entry n
  match s.load p (e.source b) (e.sourceLen b) with
  | (some d, s) => some (if e.st == .home && b.kind == 2 then s.gradSeed p b l.epoch dst e.sr else s.writeHearth p dst d)
  | (none, _) => none

/-- The billet becomes ON_WIRE with its retained copy and its frame goes to egress (R32, R33). Once the last flit has left, the
receive slot frees and the custody deadline starts (R43, R380). -/
def State.depart (s : State) (p r n : Nat) (j : LapJob) (b : BRec) (retain : Nat) : State :=
  let ret := j.plan.returnHop b
  let e := (s.lap p r).entry n
  let s := s.modLap p r fun l => l.setEntry n { e with
    st := .onWire, retain := retain, loc := if retain == 0 then e.loc else j.plan.retainAddr retain, slot := 0, frees := e.slot, ret := ret,
    resendSeq := 0, route := 0, deadline := false, recovery := false, notOpen := false, stopped := false, segFails := [] }
  let s := (s.takeGrant (.used p r n)).takeGrant (.contrib p r n)
  let s := if e.st == .home && !j.rehome then s.semSignal p j.plan.semFull 1 else s
  (s.sendBillet p r n 0 (b.len / 4096)).phaseSettle p r

/-- Withdraw a SEM_USED wait that a departure did not need. -/
def State.dropUsed (s : State) (p r n : Nat) (j : LapJob) : State :=
  if s.granted (.used p r n) || j.rehome then s else s.semDrop p j.plan.semUsed (.used p r n)

/-- A billet departs (R380): it waits for a free retain slot (R60); poison in its copy makes the member originate ABORT
(R134). -/
def State.departOne (s : State) (p r n : Nat) (unused : Bool) (j : LapJob) (b : BRec) : State :=
  if !(s.lap p r).isOpen || !s.mayDepart p r n unused j b then s
  else if j.plan.returnHop b then (s.dropUsed p r n j).depart p r n j b 0
  else
    match (s.lap p r).nextRetain j.plan with
    | none => s
    | some i =>
      match s.stage p r n b (j.plan.retainAddr i) with
      | some s => (s.dropUsed p r n j).depart p r n j b i
      | none =>
        let e := (s.lap p r).entry n
        (s.notePoison p (s.poisonHits p (e.source b) (e.sourceLen b))).originateAbort p r

/-- A billet is staged onward and becomes ON_WIRE (R380). -/
def execBilletDepart (p r n : Nat) (unused : Bool) (s : State) : Res :=
  .next (match (s.lap p r).job, (s.lap p r).rec? n with
    | some j, some b => s.departOne p r n unused j b
    | _, _ => s)

/-! Arrivals (R38 to R43, R380). -/

/-- A billet frame: fields of its header (R29). -/
structure BHdr where
  id : Nat
  epoch : Nat
  kind : Nat
  format : Nat
  ring : Nat
  resend : Nat
  home : Nat
  len : Nat
  segs : Nat
  flags : Nat
  order : Nat
deriving DecidableEq, Repr

/-- Read the billet header of a frame. -/
def parseBillet (f : List Byte) : BHdr :=
  { id := u32 f 32, epoch := u16 f 36, kind := u8 f 38, format := u8 f 39, ring := u8 f 46 % 2, resend := u8 f 47,
    home := u32 f 48 % 2 ^ 24, len := u32 f 52, segs := u16 f 56, flags := u16 f 58, order := u32 f 60 }

/-- HEADER_CRC of the billet header is good (R29). -/
def billetGood (f : List Byte) : Bool := decide (96 ≤ f.length) && u32 f 92 == crc32c (slice f 32 60)

/-- Answer a billet frame to its sender. -/
def State.verdict (s : State) (p : Nat) (f : List Byte) (h : BHdr) (code first span : Nat) : State :=
  s.answer p (parseHdr f).src (parseHdr f).back h.id h.epoch h.resend code first span h.ring

/-- STALE: counted (R38, R63). -/
def State.staleBillet (s : State) (p : Nat) (f : List Byte) (h : BHdr) : State := (s.bump (adrStale p)).verdict p f h 5 0 0

/-- DUPLICATE: counted for the packet and the partition (R40, R63, R381). -/
def State.duplicate (s : State) (p : Nat) (f : List Byte) (h : BHdr) : State :=
  let s := s.modLap p h.ring fun l => { l with dups := l.dups + 1 }
  ((s.bump (adrDuplicates p)).event 0x1304 h.ring p).verdict p f h 2 0 0

/-- Signal SEM_FULL for the HELD billets that now stand next in PLAN_ORDER (R46 step 3, R380). -/
def State.fullSettle (s : State) (p r : Nat) : Nat → Nat → State
  | 0, _ => s
  | m + 1, n =>
    let l := s.lap p r
    match l.job, l.rec? n with
    | some j, some b =>
      let e := l.entry n
      if b.home == j.plan.self || e.full || (b.kind == 3 && !j.plan.onWay b) then State.fullSettle s p r m (n + 1)
      else if e.st == .held then
        State.fullSettle ((s.setLap p r (l.setEntry n { e with full := true })).semSignal p j.plan.semFull 1) p r m (n + 1)
      else s
    | _, _ => s

/-- Take custody of a complete billet in a receive slot (R32, R42, R380): a gradient billet has the member's contribution
added in the same step; poison makes the member originate ABORT. -/
def State.takeBillet (s : State) (p r n : Nat) (b : BRec) : State :=
  let l := s.lap p r
  let e := l.entry n
  let hits := if b.kind == 2 then
      s.poisonHits p e.recv b.len ++ s.poisonHits p b.contrib (b.len * 32 / fmtBits b.format) else []
  if !hits.isEmpty then (s.notePoison p hits).originateAbort p r
  else
    let s := if b.kind == 2 then s.gradAdd p b l.epoch e.recv e.sr else s
    let s := (s.setLap p r (l.setEntry n { e with st := .held, loc := e.recv, waiting := false, hdr := false, segs := [] })).takeGrant (.contrib p r n)
    let s := s.answer p e.from_ e.back b.id l.epoch e.seq 1 0 0 r
    if (l.job.elim false fun j => j.rehome) then s else s.fullSettle p r l.entries.length.succ 0

/-- A returning gradient billet goes to the gradient hold, an optimizer billet to the new home's record; the receive slot
frees and TAKEN is sent (R32, R34, R383). A retained copy whose verdict is still out stays (R33). -/
def State.takeHome (s : State) (p r n : Nat) (j : LapJob) (b : BRec) : State :=
  let l := s.lap p r
  let e := l.entry n
  let dst := if b.kind == 2 then j.plan.holdAddr n else b.homeSrc + roundUp b.len 64
  match s.load p e.recv b.len with
  | (none, s) => s.originateAbort p r
  | (some d, s) =>
    let s := s.writeHearth p dst d
    let s := s.setLap p r ((s.lap p r).setEntry n { e with
      st := if e.st == .onWire then .onWire else .held, loc := if e.st == .onWire then e.loc else dst, returned := true, slot := 0,
      hdr := false, segs := [] })
    ((s.freeRecv p j.plan e.slot).answer p e.from_ e.back b.id l.epoch e.seq 1 0 0 r).phaseSettle p r

/-- The `i`-th segment of a frame's payload: its number, its bytes, and whether its trailer names this billet and its CRC is
good (R31, R39). -/
def frameSeg (f : List Byte) (h : BHdr) (i : Nat) : Nat × List Byte × Bool :=
  let o := 96 + 4112 * i
  let d := slice f o 4096
  (u16 f (o + 4102), d, u32 f (o + 4096) == h.id && u16 f (o + 4100) == h.epoch && u32 f (o + 4108) == crc32c d)

/-- Number of segments in a frame. -/
def frameSegs (f : List Byte) : Nat := (f.length - 96) / 4112

/-- Store the good segments of a frame that are not held yet (R40). -/
def State.storeSegs (s : State) (p r n : Nat) (f : List Byte) (h : BHdr) : State :=
  s.each (List.range (frameSegs f)) fun s i =>
    let l := s.lap p r
    let e := l.entry n
    let (k, d, good) := frameSeg f h i
    if !good || h.segs ≤ k || e.segs.contains k then s
    else (s.setLap p r (l.setEntry n { e with segs := insNat e.segs k })).writeHearth p (e.recv + 4096 * k) d

/-- Segments of a frame that failed and are not held (R39), rising. -/
def badSegs (f : List Byte) (h : BHdr) (held : List Nat) : List Nat :=
  (List.range (frameSegs f)).foldl (fun l i =>
    let (k, _, good) := frameSeg f h i
    if good || h.segs ≤ k || held.contains k then l else insNat l k) []

/-- Runs of consecutive numbers in a rising list, as first and length. -/
def spans : List Nat → List (Nat × Nat)
  | [] => []
  | k :: ks =>
    match spans ks with
    | [] => [(k, 1)]
    | (a, n) :: t => if a == k + 1 then (k, n + 1) :: t else (k, 1) :: (a, n) :: t

/-- Ask for the failed segments of a frame again (R39): one event for each, one RESEND_SEGMENTS for each run. -/
def State.askAgain (s : State) (p : Nat) (f : List Byte) (h : BHdr) : State :=
  let bad := badSegs f h ((s.lap p h.ring).entry h.order).segs
  let s := (s.each bad fun s _ => s.event 0x1303 h.ring p).bumpBy (adrSegmentResends p) bad.length
  s.each (spans bad) fun s (a, k) => s.verdict p f h 3 a k

/-- The receive slot of an arriving billet: the slot it holds, a landing grant of its VC (R256), or a slot after EMPTY 1
(R149); none while EMPTY is not met. -/
def State.recvSlot (s : State) (p r n port vc : Nat) (pl : Plan) : Option Nat × State :=
  let l := s.lap p r
  let e := l.entry n
  let w := Waiter.empty p r port
  if e.slot != 0 then (some e.slot, s.releaseLanding port vc)
  else
    let g := if vc == 3 then l.grant3 else l.grant1
    if port ≥ 6 && port < 8 && g > 0 then
      match l.nextSlot pl with
      | none => (none, s)
      | some i =>
        (some i, s.setLap p r { l with
          slotPtr := i % pl.recvSlots, grant1 := if vc == 3 then l.grant1 else g - 1, grant3 := if vc == 3 then g - 1 else l.grant3 })
    else
      let s := if (s.sem p pl.semEmpty).waiters.any (·.1 == w) || s.granted w then s else s.semWait p pl.semEmpty 1 w
      match l.nextSlot pl with
      | none => (none, s)
      | some i =>
        if s.granted w then (some i, (s.takeGrant w).modLap p r fun l => { l with slotPtr := i % pl.recvSlots }) else (none, s)

/-- Take in a billet not yet taken in this epoch: gradient billets wait for admission, on mesh and rack hops in the link
buffer, on campus hops in their slot with WAITING (R43); then its segments are stored and, when complete, custody is
taken (R40). R43 speaks of hops: the model goes by the port that a copy arrives on (DESIGN CHOICE, log entry 67), so a detoured
copy of a campus hop's billet that comes in by a mesh or rack port waits in the link buffer, without WAITING. -/
def State.intake (s : State) (p port : Nat) (f : List Byte) (h : BHdr) (j : LapJob) (b : BRec) : State :=
  let r := h.ring
  let n := h.order
  let home := b.home == j.plan.self
  let admitted := b.kind != 2 || home || s.granted (.contrib p r n)
  if (s.lap p r).entry n |>.waiting then (s.discard p f).verdict p f h 7 0 0
  else if !admitted && port < 6 then s
  else
    match s.recvSlot p r n port (kindVc b.kind) j.plan with
    | (none, s) => s
    | (some i, s) =>
      let s := (s.consume p f).modLap p r fun l => l.setEntry n { l.entry n with
        slot := i, recv := j.plan.recvAddr i, sr := bitAt h.flags 1, hdr := true, from_ := (parseHdr f).src, back := (parseHdr f).back, seq := h.resend }
      let s := (s.storeSegs p r n f h).askAgain p f h
      let e := (s.lap p r).entry n
      if e.segs.length < h.segs then s
      else if home then s.takeHome p r n j b
      else if admitted then s.takeBillet p r n b
      else (s.modLap p r fun l => l.setEntry n { l.entry n with waiting := true }).verdict p f h 7 0 0

/-- The checks of R38 that need the open plan: a home that is a member, a place in the plan that names this billet. -/
def planAgrees (j : LapJob) (h : BHdr) : Bool :=
  j.plan.members.contains h.home &&
    match j.plan.billets[h.order]? with
    | none => false
    | some b => b.id == h.id && b.len == h.len && b.kind == h.kind

/-- A RETURN header (R34): the home answers TAKEN and retires its weight billet (R32); anywhere else it is refused. While the verdict
on the home's own hop is still out, the retained copy stays (R33) and the billet retires with that verdict. A header for a billet
that the home has not sent yet is discarded without a verdict (log entry 68). -/
def State.returnHdr (s : State) (p : Nat) (f : List Byte) (h : BHdr) (j : LapJob) (b : BRec) : State :=
  let s := s.discard p f
  let l := s.lap p h.ring
  let e := l.entry h.order
  if b.kind != 1 || b.home != j.plan.self then s.verdict p f h 6 0 0
  else if e.st == .retired || e.returned then s.duplicate p f h
  else if e.st == .onWire then (s.setLap p h.ring (l.setEntry h.order { e with returned := true })).verdict p f h 1 0 0
  else if e.st == .passed then (s.setLap p h.ring (l.setEntry h.order { e with st := .retired })).verdict p f h 1 0 0
  else s

/-- A billet not taken in this epoch, or a home's gradient billet on its return (R40, R34). -/
def State.billetNew (s : State) (p : Nat) (h : BHdr) (j : LapJob) (b : BRec) : Bool :=
  let e := (s.lap p h.ring).entry h.order
  e.st == .fresh || (b.kind == 2 && b.home == j.plan.self && !e.returned && (e.st == .onWire || e.st == .passed))

/-- A billet of the open epoch whose header agrees with the plan. -/
def State.openBillet (s : State) (p port : Nat) (f : List Byte) (h : BHdr) (j : LapJob) (b : BRec) : State :=
  let e := (s.lap p h.ring).entry h.order
  if bitAt h.flags 0 then s.returnHdr p f h j b
  else if s.billetNew p h j b then s.intake p port f h j b
  else if e.st == .home then s.discard p f
  else (s.discard p f).duplicate p f h

/-- A header whose KIND, FORMAT and lengths are legal (R29, R30, R38). -/
def billetLegal (h : BHdr) : Bool :=
  kindOk h.kind h.format && h.segs * 4096 == h.len && decide (1048576 ≤ h.len) && decide (h.len ≤ 8388608)

/-- The custody engine starts to drain a billet frame whose first flit has come (R43, R149): into a receive slot after EMPTY 1, and a
gradient billet once it is admitted; a frame that is only answered drains at once, and one on a campus hop is in its landing slot
already (R256). False while it is held back in the link buffer. -/
def State.billetDrains (s : State) (p port : Nat) (f : List Byte) : Bool × State :=
  let h := parseBillet f
  let l := s.lap p h.ring
  let vc := (parseHdr f).vc
  match l.job, l.rec? h.order with
  | some j, some b =>
    let e := l.entry h.order
    if slotVc port vc || !billetGood f || !billetLegal h || h.epoch != l.epoch || !l.isOpen || bitAt h.flags 0 || !planAgrees j h
      || !s.billetNew p h j b || e.waiting then (true, s)
    else if !(b.kind != 2 || b.home == j.plan.self || s.granted (.contrib p h.ring h.order)) then (false, s)
    else
      match s.recvSlot p h.ring h.order port (kindVc b.kind) j.plan with
      | (none, s) => (false, s)
      | (some i, s) => (true, s.modLap p h.ring fun l => l.setEntry h.order { l.entry h.order with slot := i })
  | _, _ => (true, s)

/-- A billet frame at its receiver (R38 to R43): a bad header is discarded without a verdict. A PAYLOAD_LEN outside the range of R29 is
answered REFUSED (DESIGN CHOICE, log entry 69: the list of R38 does not name it). -/
def State.billetFrame (s : State) (p port : Nat) (f : List Byte) : State :=
  let h := parseBillet f
  let l := s.lap p h.ring
  if !billetGood f then s.discard p f
  else if ((s.relay? p h.ring).elim false fun x => x.epoch == h.epoch) || (s.relayEnded p h.ring h.epoch && !(l.isOpen && l.epoch == h.epoch)) then
    (s.discard p f).staleBillet p f h
  else if !billetLegal h then
    (s.discard p f).verdict p f h 6 0 0
  else if newer h.epoch l.epoch then (s.discard p f).verdict p f h 4 0 0
  else if h.epoch != l.epoch || !l.isOpen then (s.discard p f).staleBillet p f h
  else
    match l.job, l.rec? h.order with
    | some j, some b =>
      if planAgrees j h then s.openBillet p port f h j b else (s.discard p f).verdict p f h 6 0 0
    | _, _ => (s.discard p f).verdict p f h 6 0 0

/-- Port on which a delivered frame arrived. -/
def State.arrivalPort (s : State) (p : Nat) (f : List Byte) : Nat :=
  ((s.delivered.find? fun d => d.part == p && d.bytes == f).map (·.port)).getD 8

/-- A billet arrives (R38). While admission or EMPTY holds it back, it stays in the link buffer. -/
def execBilletReceived (p : Nat) (frame : List Byte) (s : State) : Res :=
  .next (if s.arrived 1 p frame then s.billetFrame p (s.arrivalPort p frame) frame else s)

/-- A gradient billet held back in its landing slot is admitted once the contribution is complete (R43). -/
def execGradientAdmit (p r n : Nat) (s : State) : Res :=
  .next (match (s.lap p r).job, (s.lap p r).rec? n with
    | some _, some b =>
      if ((s.lap p r).entry n).waiting && s.granted (.contrib p r n) then s.takeBillet p r n b else s
    | _, _ => s)

/-- The receiver of a campus hop grants a landing slot after EMPTY 1 (R256): to VC1 in FORWARD, else to the VC with fewer
outstanding grants, VC3 on a tie. The grant is a slot credit on its VC. -/
def State.grantSlot (s : State) (d p r : Nat) (j : LapJob) : State :=
  let l := s.lap p r
  let w := Waiter.empty p r d
  let s := if (s.sem p j.plan.semEmpty).waiters.any (·.1 == w) || s.granted w then s else s.semWait p j.plan.semEmpty 1 w
  if s.granted w then
    let v3 := l.phase != .forward && decide (l.grant3 ≤ l.grant1)
    let s := (s.takeGrant w).modLap p r fun l =>
      if v3 then { l with grant3 := l.grant3 + 1 } else { l with grant1 := l.grant1 + 1 }
    s.modLink d fun k => { k with freed := tset 0 k.freed (if v3 then 3 else 1) (tget 0 k.freed (if v3 then 3 else 1) + 1), owed := true }
  else s

/-- LANDING_SLOT_GRANT on campus port `d` for ring `r` of partition `p` (R256). -/
def execLandingSlotGrant (d p r : Nat) (s : State) : Res :=
  .next (match (s.lap p r).job with
    | none => s
    | some j => if d == 6 || d == 7 then (if (s.lap p r).isOpen && s.wiredPort j.plan.pred == some d then s.grantSlot d p r j else s) else s)

/-! Verdicts (R33, R36). -/

/-- Body of a verdict or token frame: CRC, BILLET_ID, epoch, code, first segment, span, sender, ring. -/
structure VBody where
  id : Nat
  epoch : Nat
  code : Nat
  first : Nat
  span : Nat
  sender : Nat
  ring : Nat
deriving DecidableEq, Repr

/-- Read a verdict or token body. -/
def parseVerdict (f : List Byte) : VBody :=
  { id := u32 f 32, epoch := u16 f 36, code := u8 f 39, first := u16 f 40, span := u16 f 42, sender := u32 f 44 % 2 ^ 24,
    ring := u8 f 48 % 2 }

/-- The CRC of a verdict or token body is good. -/
def verdictGood (f : List Byte) : Bool := f.length == 64 && u32 f 60 == crc32c (slice f 32 28)

/-- Custody passes on TAKEN or DUPLICATE: the retained copy is released (R32, R33). At the home, a billet that is back already is
then held, or retired if it is a weight billet. -/
def State.released (s : State) (p r n : Nat) (st : Cust) : State :=
  (s.modLap p r fun l => l.setEntry n { l.entry n with
    st := if (l.entry n).returned then (if (l.rec? n).elim false fun b => b.kind == 1 then .retired else .held) else st, retain := 0, deadline := false, recovery := false, notOpen := false, stopped := false }).phaseSettle p r

/-- RESEND_SEGMENTS (R36, R39): the named segments go again over the same route, and the deadline restarts
when they have left; a segment asked for a fourth time on one route makes the sender take a detour. Poison in the retained copy makes
the sender originate ABORT (R134). -/
def State.resendSegs (s : State) (p r n : Nat) (v : VBody) : State :=
  let l := s.lap p r
  let e := l.entry n
  let span := min v.span (((l.rec? n).elim 0 fun b => b.len / 4096) - v.first)
  let fails := (List.range span).foldl (fun t i => tset 0 t (v.first + i) (tget 0 t (v.first + i) + 1)) e.segFails
  if span == 0 then s
  else if s.retainPoisoned p r n then s.poisonAbort p r n
  else
    let s := s.setLap p r (l.setEntry n { e with segFails := fails, deadline := false })
    if (List.range span).any fun i => decide (4 ≤ tget 0 fails (v.first + i)) then s.takeDetour p r n
    else s.sendBillet p r n v.first span

/-- What a sender does on a verdict about record `n` that is ON_WIRE (R36). -/
def State.onVerdict (s : State) (p n : Nat) (v : VBody) : State :=
  let r := v.ring
  match v.code with
  | 1 => s.released p r n .passed
  | 2 => s.released p r n .passed
  | 3 => s.resendSegs p r n v
  | 4 => s.modLap p r fun l => l.setEntry n { l.entry n with notOpen := true, recovery := true, deadline := false }
  | 5 => (s.released p r n .passed).event 0x1305 r p
  | 6 => (s.event 0x1308 r p).originateAbort p r
  | 7 => s.modLap p r fun l => l.setEntry n { l.entry n with deadline := false, stopped := true }
  | _ => s

/-- Release the oldest retained token to a peer of an epoch. -/
def dropToken : List Token → Nat → Nat → List Token
  | [], _, _ => []
  | t :: ts, a, e => if t.dst == a && t.epoch == e then ts else t :: dropToken ts a e

/-- A verdict on a token of ring `r` (R48): TAKEN, DUPLICATE and STALE release it; NOT_OPEN has it sent again. -/
def State.onTokenVerdict (s : State) (p : Nat) (v : VBody) : State :=
  let go := fun (ts : List Token) =>
    if v.code == 1 || v.code == 2 || v.code == 5 then dropToken ts v.sender v.epoch
    else if v.code == 4 then ts.map fun t => if t.dst == v.sender && t.epoch == v.epoch then { t with notOpen := true, recovery := true, deadline := false } else t
    else ts
  let s := s.modLap p v.ring fun l => { l with tokens := go l.tokens }
  { s with relays := s.relays.map fun x => if x.part == p && x.ring == v.ring then { x with tokens := go x.tokens } else x }

/-- A sender receives a verdict (R36); one that names no billet ON_WIRE in the open epoch changes nothing. -/
def execVerdictReceived (p : Nat) (frame : List Byte) (s : State) : Res :=
  .next (let v := parseVerdict frame
    if !s.arrived 2 p frame || v.code > 7 then s
    else
      let s := s.consume p frame
      if !verdictGood frame then s
      else if v.id == tokenId then s.onTokenVerdict p v
      else
        let l := s.lap p v.ring
        match l.job with
        | none => s
        | some j =>
          match j.plan.billets.findIdx? fun b => b.id == v.id with
          | some n => if l.isOpen && v.epoch == l.epoch && (l.entry n).st == .onWire then s.onVerdict p n v else s
          | none => s)

/-! Timers of a hop (R36, R54, R56). Operand `tok` selects the `n`-th retained token instead of record `n`. -/

/-- 100 µs after NOT_OPEN the whole billet, or the token, goes again over the same hop (R36), unless its retained copy holds poison
(R134). -/
def execNotOpenResendTimer (p r : Nat) (tok : Bool) (n : Nat) (s : State) : Res :=
  .next (let l := s.lap p r
    if tok then
      match (s.lapTokens p r)[n]? with
      | some t =>
        if t.notOpen then
          let t := { t with notOpen := false, deadline := false }
          (s.setToken p r n t).tokenFrame p r t
        else s
      | none => s
    else
      let e := l.entry n
      if e.st == .onWire && e.notOpen then
        if s.retainPoisoned p r n then s.poisonAbort p r n
        else
          (s.setLap p r (l.setEntry n { e with notOpen := false, deadline := false })).sendBillet p r n 0
            ((l.rec? n).elim 0 fun b => b.len / 4096)
      else s)

/-- The custody deadline runs out: the hop is in trouble and takes the next detour (R54). -/
def execCustodyDeadlineExpiry (p r : Nat) (tok : Bool) (n : Nat) (s : State) : Res :=
  .next (let l := s.lap p r
    if tok then
      match (s.lapTokens p r)[n]? with
      | some t => if t.deadline then (s.event 0x1301 r p).tokenDetour p r n else s
      | none => s
    else
      let e := l.entry n
      if e.st == .onWire && e.deadline && !e.stopped then (s.event 0x1301 r p).takeDetour p r n else s)

/-- The hop recovery window ends without a verdict: event 0x1306, and the sender originates ABORT (R56). -/
def execHopRecoveryExpiry (p r : Nat) (tok : Bool) (n : Nat) (s : State) : Res :=
  .next (let l := s.lap p r
    if tok then
      match (s.lapTokens p r)[n]? with
      | some t =>
        if t.recovery then
          let s := (s.setToken p r n { t with recovery := false }).event 0x1306 r p
          if t.epoch == l.epoch then s.originateAbort p r else s
        else s
      | none => s
    else
      let e := l.entry n
      if e.st == .onWire && e.recovery then
        ((s.setLap p r (l.setEntry n { e with recovery := false })).event 0x1306 r p).originateAbort p r
      else s)

/-! Lap tokens (R46 to R50, R59). -/

/-- Every billet homed here is retired or held, and no retained copy remains (R46 step 5, R47). -/
def execMemberPrepared (p r : Nat) (s : State) : Res :=
  .next (if (s.lap p r).phase == .backward && s.preparedNow p r then
    (s.modLap p r fun l => { l with phase := .prepared }).sendPrepare p r
  else s)

/-- Acknowledge a token, or answer it with another verdict code (R48). -/
def State.tokenAck (s : State) (p : Nat) (f : List Byte) (v : VBody) (code : Nat) : State :=
  s.answer p v.sender (parseHdr f).back tokenId v.epoch (u8 f 38) code 0 0 v.ring

/-- The relay entry forwards COMMIT and ABORT tokens of its epoch in their direction of travel; a token that returns to a
reset leader is dropped (R59). -/
def State.relayToken (s : State) (p : Nat) (f : List Byte) (v : VBody) (x : Relay) : State :=
  let s := s.tokenAck p f v 1
  if x.leader || v.code == 0x11 || x.ended then s
  else
    let dst := if v.sender == x.pred then x.succ else x.pred
    let t : Token := { code := v.code, epoch := v.epoch, dst := dst, ways := s.detoursTo (s.kindTo dst) dst 0 0 }
    { s with relays := s.relays.map fun y => if y == x then { y with tokens := y.tokens ++ [t] } else y }.tokenFrame p v.ring t

/-- What a token frame does: `f` on the token of the open epoch; a relay entry, an epoch not open and a stale epoch are
answered here (R38, R49, R59). -/
def State.onToken (s : State) (p code : Nat) (b : List Byte) (f : VBody → State → State) : State :=
  let v := parseVerdict b
  if !s.arrived 2 p b || v.id != tokenId || v.code != code then s
  else
    let s := s.consume p b
    let l := s.lap p v.ring
    if !verdictGood b then s
    else
      match (s.relay? p v.ring).filter fun x => x.epoch == v.epoch with
      | some x => s.relayToken p b v x
      | none =>
        if l.isOpen && v.epoch == l.epoch then f v s
        else if code == 0x13 && l.aborts.contains v.epoch then s.tokenAck p b v 1
        else if s.relayEnded p v.ring v.epoch then s.tokenAck p b v 5
        else if newer v.epoch l.epoch then s.tokenAck p b v 4
        else s.tokenAck p b v 5

/-- PREPARE (R46, R47): the leader records COMMIT when it returns; another member keeps it until it is prepared. -/
def execPrepareTokenReceived (p : Nat) (frame : List Byte) (s : State) : Res :=
  .next (s.onToken p 0x11 frame fun v s =>
    let s := s.tokenAck p frame v 1
    let l := s.lap p v.ring
    match l.job with
    | none => s
    | some j =>
      if l.leader then
        if l.prepSent && l.decision == 0 then
          (s.setLap p v.ring { l with decision := 1, window := false }).sendToken p v.ring j.plan 0x12 j.plan.succ
        else s
      else if l.prepSent then s
      else (s.setLap p v.ring { l with prepare := true }).sendPrepare p v.ring)

/-- COMMIT (R46 steps 7 and 8): a member applies it, closes the epoch and forwards it; at the leader it has returned. -/
def execCommitTokenReceived (p : Nat) (frame : List Byte) (s : State) : Res :=
  .next (s.onToken p 0x12 frame fun v s =>
    let s := s.tokenAck p frame v 1
    let l := s.lap p v.ring
    match l.job with
    | none => s
    | some j =>
      if l.phase != .prepared || l.deferred then s
      else if l.leader then (if l.decision == 1 then s.commitLap p v.ring else s)
      else (s.sendToken p v.ring j.plan 0x12 j.plan.succ).commitLap p v.ring)

/-- ABORT (R49, R57): the member forwards it in its direction of travel and aborts. -/
def execAbortTokenReceived (p : Nat) (frame : List Byte) (s : State) : Res :=
  .next (s.onToken p 0x13 frame fun v s =>
    let s := s.tokenAck p frame v 1
    match (s.lap p v.ring).job with
    | none => s
    | some j =>
      (s.sendToken p v.ring j.plan 0x13 (if v.sender == j.plan.pred then j.plan.succ else j.plan.pred)).abortLap p v.ring)

/-- The commit window ends (R50): the leader decides ABORT; another member falls in doubt. -/
def execCommitWindowExpiry (p r : Nat) (s : State) : Res :=
  .next (let l := s.lap p r
    if !l.window then s
    else
      let s := s.setLap p r { l with window := false }
      if l.leader then s.originateAbort p r
      else ((s.modLap p r fun l => { l with inDoubt := true }).event 0x1307 r p).lapDone p r 0x30)

/-- The relay entry of a reset prepared member is dropped, with its retained tokens, after one commit window; a later token of its
epoch is STALE (R59). -/
def execRelayWindowExpiry (p r : Nat) (s : State) : Res :=
  .next { s with relays := s.relays.map fun x => if x.part == p && x.ring == r && !x.ended then { x with ended := true, tokens := [] } else x }

/-- LAP_RESOLVE (R51, R382): it completes when the epoch has closed; in PARK a COMMIT waits for its end (R412). -/
def execLapResolve (k : Nat) (s : State) : Res :=
  runOp 0x31 k (fun x s =>
    let p := x.part
    let r := u8 x.bytes 0x10
    let l := s.lap p r
    if !l.inDoubt then s.failPkt k 0x14
    else if u16 x.bytes 0x12 != l.epoch then s.badParam k 0x12
    else
      let s := s.setLap p r { l with resolver := some k }
      if u8 x.bytes 0x11 == 1 then s.commitLap p r else s.abortLap p r) s

end Sys2Proof.Machine
end

