-- ==== Sys2Proof/Machine/Tongs.lean ====
section
/-! DEFINITION. The commands of tongs and bulk receive bindings (R141, R147, R149, R370 to R372, R395). -/
namespace Sys2Proof.Machine

/-- Tong `t` runs nothing. -/
def State.tongFree (s : State) (t : Nat) : Bool := (s.tong t).pkt.isNone

/-- TONG_DESC (R370): a list whose first descriptor is in the packet. -/
def execTongDesc (k : Nat) (s : State) : Res :=
  runWhen 0x10 k (fun x => s.tongFree (u8 x.bytes 0x40))
    (fun x s => s.setTong (u8 x.bytes 0x40) { st := .running, pkt := some k, desc := slice x.bytes 0x10 48 }) s

/-- TONG_LIST (R370): a list whose first descriptor is in Hearth. -/
def execTongList (k : Nat) (s : State) : Res :=
  runWhen 0x11 k (fun x => s.tongFree (u8 x.bytes 0x10))
    (fun x s =>
      let t := u8 x.bytes 0x10
      (s.setTong t { st := .running, pkt := some k }).loadDesc x.part t (u32 x.bytes 0x14)) s

/-- Begin to copy: host rows are requested (R141 step 3). -/
def State.startCopy (s : State) (p t : Nat) : State :=
  let x := s.tong t
  let d := x.desc
  let host := dSrcKind d == 1
  let n := if host then (List.range (dRows d)).foldl (fun n i => n + s.readCount p (s.proxied p) (dSrcRow d i) (dLen d)) 0 else 0
  let buf := if host && dDstKind d != 0 then List.replicate (dRows d * dLen d) 0 else []
  let s := s.setTong t { x with st := .running, copying := true, reads := n, buf := buf }
  if host then
    s.each (List.range (dRows d)) fun s i => s.hostRead p (s.proxied p) (dSrcRow d i) (dLen d) (.tong t) (i * dLen d)
  else s

/-- The wait of the descriptor is met, or it has none. -/
def State.tongMet (s : State) (t : Nat) : Bool :=
  dWaitSem (s.tong t).desc > 255 || ((s.tong t).waitMade && s.granted (.tong t))

/-- The descriptor's port and VC are free, or it has none (R142). -/
def State.egressFree (s : State) (d : List Byte) : Bool := dDstKind d != 2 || (tfind s.egress (dEgress d)).isNone

/-- Hold the descriptor's port and VC (R142). -/
def State.holdEgress (s : State) (t : Nat) (d : List Byte) : State :=
  if dDstKind d == 2 then { s with egress := tput s.egress (dEgress d) t } else s

/-- A checked descriptor waits, then copies once its semaphore and its port allow (R141, R142). -/
def State.descAdvance (s : State) (p t : Nat) : State :=
  let x := s.tong t
  let d := x.desc
  let s :=
    if dWaitSem d ≤ 255 && !x.waitMade then
      (s.setTong t { x with st := .waiting, waitMade := true }).semWait p (dWaitSem d) (u8 d 0x24) (.tong t)
    else s
  if s.tongMet t && s.egressFree d then
    let s := (s.takeGrant (.tong t)).holdEgress t d
    (s.setTong t { s.tong t with waitMade := false }).startCopy p t
  else s

/-- A tong checks its next descriptor, waits and then copies (R141); shed and the duty of R416 hold it back (R408). -/
def execTongDescriptorStart (t : Nat) (s : State) : Res :=
  .next (match (s.tong t).pkt.bind s.pkt with
    | none => s
    | some k =>
      let x := s.tong t
      if x.copying || x.fill || (!s.issueOn k.part && !x.waitMade) then s
      else if s.descBad k.part x.desc != 0 then s.failDesc k.part t k.opcode
      else s.descAdvance k.part t)

/-- Move the bytes of a descriptor whose host reads, if any, have all ended (R141, R134). -/
def State.moveRows (s : State) (p t k : Nat) : State :=
  let x := s.tong t
  let d := x.desc
  if dSrcKind d == 1 then
    let s := if dDstKind d == 2 then s.sendEgress p d x.buf false
      else if dDstKind d == 1 then s.each (List.range (dRows d)) fun s i => s.writeRow p t d i (slice x.buf (i * dLen d) (dLen d))
      else s
    s.descSent p t k
  else
    let rows := List.range (dRows d)
    if dDstKind d == 2 then
      match s.gatherRows p d rows with
      | (b, []) => (s.sendEgress p d b false).descSent p t k
      | (b, h) => ((s.notePoison p h).sendEgress p d b true).failTong p t 0x7F
    else
      match State.copyRows p t d rows s with
      | (s', []) => s'.descSent p t k
      | (_, h) => (s.notePoison p h).failTong p t 0x7F

/-- The last byte of a descriptor becomes visible (R141). -/
def execTongDescriptorDone (t : Nat) (ecc : List (Nat × Bool)) (s : State) : Res :=
  .next (match (s.tong t).pkt with
    | none => s
    | some k =>
      if (s.tong t).copying && (s.tong t).reads == 0 && !(s.tong t).acking then
        (s.eccFinds ecc).withPkt k fun x s => s.moveRows x.part t k
      else s)

/-- A descriptor's wait runs out (R141, R147). -/
def State.tongTimeout (s : State) (p t : Nat) : State :=
  let x := s.tong t
  if x.waitMade && !s.granted (.tong t) && u32 x.desc 0x28 != 0 then
    (s.event 0x1106 (dWaitSem x.desc) p).failTong p t 0x20
  else s

/-- WAIT_TIMEOUT of a descriptor ends before its wait is met (R141, R147). -/
def execTongWaitTimeout (t : Nat) (s : State) : Res :=
  .next (match (s.tong t).pkt.bind s.pkt with
    | none => s
    | some k => s.tongTimeout k.part t)

/-- FILL (R371). -/
def execFill (k : Nat) (s : State) : Res :=
  runWhen 0x12 k (fun x => s.tongFree (u8 x.bytes 0x10))
    (fun x s => s.setTong (u8 x.bytes 0x10) { st := .running, pkt := some k, fill := true }) s

/-- A fill ends (R371): whole words are written, which clears poison (R133). -/
def execFillDone (t : Nat) (s : State) : Res :=
  .next (match (s.tong t).pkt with
    | none => s
    | some k =>
      if (s.tong t).fill then
        s.withPkt k fun x s =>
          ((s.writeHearth x.part (u32 x.bytes 0x14) (fillBytes (u32 x.bytes 0x1C) (u32 x.bytes 0x18))).setTong t {}).done k []
      else s)

/-! Bulk receive (R149, R372, R395). -/

/-- Replace binding `b` of partition `p`. -/
def State.setBulk (s : State) (p b : Nat) (x : Bulk) : State := s.modPart p fun q => { q with bulk := tput q.bulk b x }

/-- BULK_RECEIVE (R372): a binding already bound completes with NOT_PERMITTED. -/
def execBulkReceive (k : Nat) (s : State) : Res :=
  runOp 0x13 k (fun x s =>
    let b := x.bytes
    if (tfind (s.part x.part).bulk (u8 b 0x10)).isSome then s.failPkt k 0x14
    else
      let y : Bulk := { slots := u8 b 0x11, full := u8 b 0x12, empty := u8 b 0x13, base := u32 b 0x14, size := u32 b 0x18 }
      let s := s.modPart x.part fun q => { q with goneBulk := q.goneBulk.filter (· != u8 b 0x10) }
      (((s.setBulk x.part (u8 b 0x10) y).semWrite x.part y.full 0).semWrite x.part y.empty y.slots).done k []) s

/-- A frame is draining into a slot of binding `j`, but for one on port `d` (R149). -/
def State.bulkFilling (s : State) (p j d : Nat) : Bool :=
  s.links.any fun (i, l) => i != d && l.part.any fun (v, x) =>
    v == 5 && x.way == .here && (parseHdr x.bytes).typ == 6 && (parseHdr x.bytes).dst / 2 % 8 == p && u8 x.bytes 0x20 == j

/-- BULK_UNBIND (R372): it waits for the end of a frame being written into the binding. -/
def execBulkUnbind (k : Nat) (s : State) : Res :=
  runWhen 0x14 k (fun x => !s.bulkFilling x.part (u8 x.bytes 0x10) 8) (fun x s =>
    let j := u8 x.bytes 0x10
    let s := match tfind (s.part x.part).bulk j with
      | some b => (s.semDrop x.part b.empty (.bulk x.part j)).takeGrant (.bulk x.part j)
      | none => s
    (s.modPart x.part fun q => { q with bulk := tdel q.bulk j }).done k []) s

/-- The body of a bulk frame is good, its binding exists and its data fits a slot (R395). -/
def bulkOk (x : Option Bulk) (f : List Byte) : Bool :=
  match x with
  | none => false
  | some b => u32 f 0x2C == crc32c (slice f 0x20 12) && decide (u8 f 0x20 ≤ 7) && decide (u32 f 0x28 ≤ b.size)

/-- The CRC-32C of a bulk frame's data is good. -/
def bulkDataGood (f : List Byte) : Bool :=
  let n := u32 f 0x28
  f.length == 52 + n && u32 f (48 + n) == crc32c (slice f 48 n)

/-- A bulk frame is dropped (R336, R395). -/
def State.bulkDrop (s : State) (p : Nat) (f : List Byte) : State :=
  if (s.part p).goneBulk.contains (u8 f 0x20) then (s.consume p f).dropGone p true
  else (s.consume p f).event 0x0307 (if u8 f 0x20 ≤ 7 then u8 f 0x20 else 0xFF) p

/-- EMPTY 1 of the next slot of binding `j` (R149): taken, or asked for. -/
def State.bulkEmpty (s : State) (p j : Nat) (b : Bulk) : Bool × State :=
  let w := Waiter.bulk p j
  let s := if b.taken || b.asked then s else (s.setBulk p j { b with asked := true }).semWait p b.empty 1 w
  if b.taken then (true, s)
  else if s.granted w then (true, (s.takeGrant w).setBulk p j { b with asked := false, taken := true })
  else (false, s)

/-- A bulk frame for binding `j`: EMPTY is taken first, then the slot is written and FULL signalled; a bad CRC leaves the
slot for the next frame (R149). -/
def State.bulkFill (s : State) (p j : Nat) (b : Bulk) (f : List Byte) : State :=
  match s.bulkEmpty p j b with
  | (false, s) => s
  | (true, s) =>
    if bulkDataGood f then
      let s := s.setBulk p j { b with asked := false, taken := false, next := (b.next + 1) % b.slots }
      ((s.consume p f).writeHearth p (b.base + b.next * b.size) (slice f 48 (u32 f 0x28))).semSignal p b.full 1
    else s.bulkDrop p f

/-- A bulk frame whose first flit has come on port `d` starts to drain into the next slot of its binding after EMPTY 1, one frame of a
binding at a time; one that will be dropped drains at once (R149, R395). -/
def State.bulkDrains (s : State) (p d : Nat) (f : List Byte) : Bool × State :=
  let j := u8 f 0x20
  match tfind (s.part p).bulk j with
  | none => (true, s)
  | some b => if !bulkOk (some b) f then (true, s) else if s.bulkFilling p j d then (false, s) else s.bulkEmpty p j b

/-- A bulk transfer frame (R395); while EMPTY is zero it stays in the link buffer (R149). -/
def execBulkFrameReceived (p : Nat) (frame : List Byte) (s : State) : Res :=
  .next (if s.arrived 6 p frame then
    let j := u8 frame 0x20
    match tfind (s.part p).bulk j with
    | some b => if bulkOk (some b) frame then s.bulkFill p j b frame else s.bulkDrop p frame
    | none => s.bulkDrop p frame
  else s)

end Sys2Proof.Machine
end

