-- ==== Sys2Proof/Machine/Derord.lean ====
section
/-! DEFINITION. Derord's commands (R21, R341 to R363, R369, R391, R396): doorbells, fetching, dispatch, timeouts, interrupts,
proxied rings, and the admin and semaphore opcodes. -/
namespace Sys2Proof.Machine

/-! Doorbells (R328, R343, R344, R366). -/

/-- A pointer written to a doorbell names a place of a ring of `n` entries (R342, R343). -/
def ptrOk (n v : Nat) : Bool := decide (v < 0x20000) && decide (v % 0x10000 < n)

/-- A doorbell is ignored (R343). -/
def State.dbReject (s : State) (p src : Nat) : State := (s.bump (adrDbRejected p)).event 0x0303 src p

/-- A submission doorbell is accepted or rejected (R343); an accepted one announces its entries with their right (R366). -/
def State.sqBell (s : State) (p i v : Nat) (pf : Bool) : State :=
  let q := s.sq p i
  let n := s.sqSize p i
  let t := posOf n v
  if ptrOk n v && decide (spanOf n q.head q.tail ≤ spanOf n q.head t) && decide (spanOf n q.head t ≤ n) then
    let c := spanOf n q.tail t
    s.setSq p i { q with tail := t, ann := if c == 0 then q.ann else q.ann ++ [(c, pf)] }
  else s.dbReject p i

/-- A submission doorbell is observed: kept until the lock (R328), dropped while RESETTING (R526). -/
def State.sqDoorbell (s : State) (p i v : Nat) (pf : Bool) : State :=
  if s.inReset p then s.event 0x0206 p p
  else if s.hasLock p then s.sqBell p i v pf
  else s.modPart p fun q => { q with kept := q.kept ++ [(i, v, pf)] }

/-- A completion doorbell (R344). -/
def State.cqDoorbell (s : State) (p j v : Nat) : State :=
  if s.inReset p then s.event 0x0206 p p
  else
    let c := s.cq p j
    let n := s.cqSize p j
    if ptrOk n v && decide (spanOf n c.head (posOf n v) ≤ spanOf n c.head c.tail) then
      s.setCq p j { c with head := posOf n v }
    else s.event 0x0303 (16 + j) p

/-- Doorbells kept before the lock are checked at the lock, in order (R328, R343). -/
def State.keptBells (s : State) (p : Nat) : State :=
  let l := (s.part p).kept
  (s.modPart p fun q => { q with kept := [] }).each l fun s (i, v, pf) => s.sqBell p i v pf

/-! Ring control (R351, R363). -/

/-- CMD_SQ_CTRL.STOP: fetching stops after the burst in progress. -/
def State.sqStop (s : State) (p i : Nat) : State :=
  let q := s.sq p i
  if q.st != .running then s
  else if q.burst.isSome then s.setSq p i { q with stopReq := true }
  else s.setSq p i { q with st := .stopped, err := 0 }

/-- CMD_SQ_CTRL.RESTART: a STOPPED ring resumes from its head. -/
def State.sqRestart (s : State) (p i : Nat) : State :=
  let q := s.sq p i
  if q.st == .stopped then s.setSq p i { q with st := .running } else s

/-! Fetch and dispatch (R349 to R353). -/

/-- The fetch engine visits the next partition (R350). -/
def execFetchBurstIssue (s : State) : Res := .next s.fetchIssue

/-- The checks of a fetched packet (R352). Check 6, resources, concerns a lap-start or rehome packet whose plan, as it stands in Hearth, is
legal and asks for more than there is; the plan is checked again when the packet starts. DEDUCED (log entry 86). -/
def State.fetchCheck (s : State) (x : Pkt) : Option (Nat × Nat) :=
  (s.checkPacket x).orElse fun _ =>
    if (x.opcode == 0x30 || x.opcode == 0x32) && !s.lapForbidden x.part (u8 x.bytes 0x10) then
      (s.lapBad 0 x (x.opcode == 0x32) (s.readHearth x.part (u32 x.bytes 0x14) (u32 x.bytes 0x18))).filter fun r => r.1 == 0x12
    else none

/-- Every byte of a burst has arrived, or the burst has failed (R350, R351). -/
def execFetchBurstArrive (p i : Nat) (s : State) : Res := .next (State.burstArrived State.fetchCheck s p i)

/-- The next packet of a ring is dispatched (R353). -/
def execPacketDispatch (p i : Nat) (s : State) : Res := .next (s.dispatchNext p i)

/-! Timeouts (R147, R358). -/

/-- The timeout of a packet in ms; 0 for none (R346, R358). -/
def State.timeoutOf (s : State) (x : Pkt) : Nat :=
  if x.timeout == 0xFFFF then 0 else if x.timeout != 0 then x.timeout else s.rf (adrCmdSqTimeout x.part x.sq) 15 0

/-- The first of the reads that `mine` issues, the one with destination offset 0, still waits for Bus Master Enable or a tag:
none of them has been issued (R307). -/
def State.unissued (s : State) (p : Nat) (mine : Issuer → Bool) : Bool :=
  let waits := fun (op : HostOp) => match op with
    | .read _ _ i d => mine i && d == 0
    | _ => false
  (s.reqs p).any waits || (s.reqs 8).any waits || (s.part p).proxyQ.any waits

/-- The tong that runs packet `k`. -/
def State.tongOf (s : State) (k : Nat) : Option Nat := (List.range 32).find? fun t => (s.tong t).pkt == some k

/-- A started packet that has not begun its work (R358): it waits in an entry queue, or for its first host read. -/
def State.unbegun (s : State) (k : Nat) (x : Pkt) : Bool :=
  match s.job? x.part k with
  | some j => !j.inFlight || (x.opcode == 0x49 && s.unissued x.part (· == .input x.part k))
  | none =>
    match s.tongOf k with
    | some t => (s.tong t).done == 0 && s.unissued x.part (· == .tong t)
    | none => (s.nvs.stage.map (·.1)) == some k && s.unissued x.part (· == .firmware k)

/-- The tong of a packet that is withdrawn runs nothing any more (R358). -/
def State.leaveTong (s : State) (k : Nat) (x : Pkt) : State :=
  match s.tongOf k with
  | some t => s.stopTong x.part t .idle
  | none => s

/-- Withdraw a packet that has not begun (R358). -/
def State.withdraw (s : State) (k : Nat) (x : Pkt) : State :=
  let p := x.part
  let s := (s.leaveTong k x).orphan fun i => i == .input p k || i == .firmware k
  let q := s.sq p x.sq
  let s := s.setSq p x.sq { q with fetched := q.fetched.filter (· != k) }
  let s := s.setNvs fun n => match n.stage with
    | some (j, _, _, _) => if j == k then { n with stage := none } else n
    | none => n
  ((s.dropJob p k).failEv k 0x20 0x0302).settle p

/-- Stop a started packet of a stoppable opcode (R358). -/
def State.stopPkt (s : State) (k : Nat) (x : Pkt) : State :=
  match s.tongOf k with
  | some t => s.failTong x.part t 0x20
  | none => ((s.stopWork x.part (· == k) .failed).orphan (· == .input x.part k)).failEv k 0x20 0x0302

/-- A packet timeout is observed (R358, R359): a header wait that it ends records 0x1106 (R147), and a packet whose header wait
is satisfied already counts as started. -/
def State.pktTimeout (s : State) (k : Nat) (x : Pkt) : State :=
  let s := (s.bump (adrTimeouts x.part)).event 0x0302 x.sq x.part
  let met := s.granted (.pkt k)
  if x.phase != .started && !met then (if x.waitMade then s.event 0x1106 x.waitSem x.part else s).withdraw k x
  else if x.phase == .started && s.unbegun k x then s.withdraw k x
  else if ((opRow x.opcode).map (·.stop)).getD false then s.stopPkt k x
  else s.setPkt k { x with late := true }

/-- A packet's timeout is observed (R358); a packet without one changes nothing. -/
def execPacketTimeout (k : Nat) (s : State) : Res :=
  .next (s.withPkt k fun x s => if s.timeoutOf x == 0 || x.late then s else s.pktTimeout k x)

/-- The timeout of the `j`-th waiter of a semaphore ends first (R147): a descriptor's wait, or a header wait, whose timeout
is its packet's (R359). -/
def execSemWaitTimeout (p i j : Nat) (s : State) : Res :=
  .next (match (s.sem p i).waiters[j]? with
    | some (.tong t, _) => s.tongTimeout p t
    | some (.pkt k, _) =>
      s.withPkt k fun x s => if s.timeoutOf x == 0 then s else s.pktTimeout k x
    | _ => s)

/-- TIME of a completion ring has passed (R360). -/
def execCqInterruptTimer (p j : Nat) (s : State) : Res :=
  .next (if (s.cq p j).timer && s.rf (adrCmdCqIrq p j) 6 6 == 1 then s.cqMessage p j else s)

/-! Rings through a proxy (R362, R396). -/

/-- The serving partition forwards a doorbell (R362): `lo` and `hi` are the words of CMD_PROXY_DB. -/
def State.proxyBell (s : State) (p lo hi : Nat) : State :=
  if s.rf (adrPciProxyCfg p) 25 25 == 0 then s.event 0x0306 0xFF p
  else s.sendFrame p 8 6 (hi % 2 ^ 24) 0 0 (mgmtBody 1 (bits lo 20 17 + 16 * bits lo 21 21) (lo % 2 ^ 17) 0)

/-- A management frame's body checks and is known (R396). -/
def mgmtGood (b : List Byte) : Bool :=
  b.length == 48 && u32 b 44 == crc32c (slice b 32 12) && (u8 b 32 == 1 || u8 b 32 == 2)

/-- Vectors that a CQ of partition `p` may name (R361): 0 to 30 of its VF, or 0 to 62 of the PF. -/
def State.vectorOk (s : State) (p v : Nat) : Bool := decide (v < if s.vfExists p then 31 else 63)

/-- A good management frame is applied, or discarded for the roles of R362. -/
def State.mgmt (s : State) (p : Nat) (b : List Byte) : State :=
  let ring := u8 b 33
  if u8 b 32 == 1 then
    if s.rf (adrPciProxyCfg p) 24 24 == 0 then s.event 0x0306 0xFF p
    else if bitAt ring 4 then s.cqDoorbell p (ring % 16) (u32 b 36) else s.sqDoorbell p (ring % 16) (u32 b 36) false
  else if s.rf (adrPciProxyCfg p) 25 25 == 0 || !s.vectorOk p (u8 b 40) then s.event 0x0306 0xFF p
  else s.enq p [.msg (s.fnOf p) (u8 b 40)]

/-- A management frame reaches a partition (R362, R396). -/
def execManagementFrameReceived (p : Nat) (frame : List Byte) (s : State) : Res :=
  onFrame 8 p frame (fun s => if mgmtGood frame then s.mgmt p frame else s.event 0x0306 0xFF p) s

/-! Admin opcodes (R21, R369). -/

/-- NOP (R369). -/
def execNop (k : Nat) (s : State) : Res := runOp 0x00 k (fun _ s => s.done k []) s

/-- SET_MODE (R21): one change of a partition is pending at a time; a further one waits at its unit, and one that names the mode in
force completes at once. A change that becomes pending ends every lap-start packet that has been accepted and has not opened its lap,
as it ends those that come later (log entry 66). -/
def execSetMode (k : Nat) (s : State) : Res :=
  runWhen 0x01 k (fun x => (s.part x.part).modePend.isNone || (u8 x.bytes 0x10 == 1) == (s.part x.part).procession) (fun x s =>
    let p := x.part
    let q := s.part p
    let m := u8 x.bytes 0x10
    if (m == 1) == q.procession then s.done k (leBytes 1 m)
    else if q.procession then
      (((s.setPart p { q with modePend := some k }).dropUnopened p 0 0x14).dropUnopened p 1 0x14).modeSettle p
    else if q.slots.isEmpty then (s.setPart p { q with procession := true }).done k (leBytes 1 1)
    else s.failPkt k 0x14) s

/-- IDENTIFY (R369). -/
def execIdentify (k : Nat) (s : State) : Res :=
  runOp 0x02 k (fun _ s => s.done k (leBytes 8 ownId ++ leBytes 4 (s.reg adrGlbFwVersion).toNat)) s

/-! Semaphore and barrier opcodes (R391). -/

/-- SEM_SET. -/
def execSemSet (k : Nat) (s : State) : Res :=
  runOp 0x70 k (fun x s =>
    let i := u16 x.bytes 0x10
    let m := s.sem x.part i
    if m.waiters.isEmpty then (s.semWrite x.part i (u32 x.bytes 0x14)).done k (leBytes 4 m.value) else s.failPkt k 0x14) s

/-- SEM_SIGNAL. -/
def execSemSignal (k : Nat) (s : State) : Res :=
  runOp 0x71 k (fun x s =>
    let i := u16 x.bytes 0x10
    let s := s.semSignal x.part i (u8 x.bytes 0x12)
    s.done k (leBytes 4 (s.sem x.part i).value)) s

/-- A SEM_BARRIER word. -/
def barrierWord (expected target count : Nat) : Word := wd (expected + target * 2 ^ 11 + count * 2 ^ 19)

/-- BARRIER_SET. -/
def execBarrierSet (k : Nat) (s : State) : Res :=
  runOp 0x72 k (fun x s =>
    let j := u16 x.bytes 0x10
    let w := barrierWord (u16 x.bytes 0x12) (u8 x.bytes 0x14) (u8 x.bytes 0x15)
    if (s.barrier x.part j).arrivals != 0 && w != s.reg (adrSemBarrier x.part j) then s.failPkt k 0x14
    else (s.setReg (adrSemBarrier x.part j) w).done k []) s

/-- BARRIER_ARRIVE. -/
def execBarrierArrive (k : Nat) (s : State) : Res :=
  runOp 0x73 k (fun x s =>
    let j := u16 x.bytes 0x10
    let s := s.arrive x.part j (u16 x.bytes 0x12)
    s.done k (leBytes 2 (s.barrier x.part j).gen)) s

end Sys2Proof.Machine
end

