-- ==== Sys2Proof/Machine/Fabric.lean ====
section
/-! DEFINITION. The fabric's commands (R213 to R235, R390): antennation, address assignment, fences, and the ingress of
frames. -/
namespace Sys2Proof.Machine

/-! Antennation frames (R216 to R219). -/

/-- Send an antennation body on port `d`. -/
def State.sendAnt (s : State) (d : Nat) (body : List Byte) : State :=
  let b := slice body 0 44
  let h : FHdr := { dst := 0, typ := 9, src := if s.addrValid then s.chipAddr else 0, hop := s.rf adrAntCfg 17 10,
                    slice := s.portSlice d, vc := 6, len := 80, way := 0, back := 0 }
  s.egressPut d { vc := 6, bytes := hdrBytes h ++ withCrc b, first := true, abort := false, cls := false }

/-- STRAP_SLOT as sampled (R447). -/
def State.slot (s : State) : Nat := s.rf adrGlbStatus 11 8

/-- A HELLO body (R217). -/
def State.helloBody (s : State) (d : Nat) : List Byte :=
  leBytes 1 1 ++ leBytes 1 0 ++ leBytes 1 d ++ leBytes 1 (b2n s.addrValid) ++ leBytes 8 ownId
    ++ leBytes 4 (if s.addrValid then s.chipAddr else 0) ++ leBytes 2 (s.portSlice d) ++ leBytes 2 (s.rf adrAntGen 15 0)
    ++ leBytes 1 s.slot ++ leBytes 1 (s.link d).hello ++ leBytes 2 (s.rf adrAntCfg 9 0)

/-- HELLO_SEND_TIMER (R218). -/
def execHelloSendTimer (d : Nat) (s : State) : Res :=
  .next (if s.flitUp d then
    (s.sendAnt d (s.helloBody d)).modLink d fun l => { l with hello := (l.hello + 1) % 256 }
  else s)

/-- An ASSIGN body (R217). -/
def State.assignBody (s : State) : List Byte :=
  leBytes 1 2 ++ leBytes 1 0 ++ leBytes 2 (s.rf adrAntGen 15 0) ++ leBytes 4 (s.chipAddr / 256 * 256) ++ leBytes 8 s.origin

/-- Send the assignment held on port `d` when its neighbour is a found chip on a mesh port (R221). -/
def State.sendAssign (s : State) (d : Nat) : State :=
  if d < 4 && s.rf (adrAntPortState d) 1 0 == 1 && s.addrValid && s.flitUp d then s.sendAnt d s.assignBody else s

/-- The slot of the neighbour that R214 gives for mesh port `d`, if it is on the sled. -/
def neighbourSlot (slot d : Nat) : Option Nat :=
  let x := slot / 4
  let y := slot % 4
  match d with
  | 0 => if y < 3 then some (slot + 1) else none
  | 1 => if x < 3 then some (slot + 4) else none
  | 2 => if 0 < y then some (slot - 1) else none
  | 3 => if 0 < x then some (slot - 4) else none
  | _ => none

/-- A HELLO is consistent (R219); rack and campus ports check none of it. -/
def State.consistent (s : State) (d : Nat) (b : List Byte) : Bool :=
  decide (4 ≤ d) ||
    (u8 b 1 == 0 && neighbourSlot s.slot d == some (u8 b 0x14) && u8 b 2 == (d + 2) % 4
      && !(s.addrValid && bitAt (u8 b 3) 0 && bits (u32 b 0xC) 23 8 != bits s.chipAddr 23 8))

/-- A port is fenced (R220, R226): its link goes down and stays FENCED. -/
def State.fencePort (s : State) (d : Nat) : State :=
  let s := (s.setRf (adrAntPortCfg d) 4 4 1).linkDown d
  if (s.link d).st == .disabled then s else s.modLink d fun l => { l with st := .fenced }

/-- A valid HELLO on port `d` (R218 to R220). -/
def State.hello (s : State) (d : Nat) (b : List Byte) : State :=
  let was := s.rf (adrAntPortState d) 1 0
  let new := was == 0 || was == 3
  let s := s.setRf (adrAntPortState d) 1 0 (if u8 b 1 == 0 then 1 else 2)
  let s := s.setRf (adrAntPortState d) 14 3 (u16 b 0x10 % 4096)
  let s := s.setReg (adrAntPeer d) (BitVec.ofNat 32 (u32 b 0xC % 2 ^ 24 + 2 ^ 24 * (u8 b 3 % 2) + 2 ^ 25 * (u8 b 2 % 8)))
  let s := if new then s.portEvent 0x2101 d [] else s
  let ok := s.consistent d b
  let s := if ok then s else s.portEvent 0x2103 d []
  let s := s.setRf (adrAntPortState d) 2 2 (b2n (!ok))
  if u16 b 0x10 % 4096 != s.portSlice d then
    ((s.setRf (adrAntPortCfg d) 5 5 1).portEvent 0x2104 d []).fencePort d
  else if new then s.sendAssign d else s

/-- Take an antennation frame that waits at the chip from port `d`. -/
def State.takeAnt (s : State) (d : Nat) (b : List Byte) (kind : Nat) (f : State → State) : State :=
  match s.delivered.find? fun x => x.part == 8 && x.port == d && x.bytes == b with
  | none => s
  | some x =>
    if u8 b 32 == kind then f (({ s with delivered := s.delivered.erase x }).freeFlits d x.vc x.flits) else s

/-- HELLO_RECEIVED (R218 to R220). -/
def execHelloReceived (d : Nat) (frame : List Byte) (s : State) : Res :=
  .next (s.takeAnt d frame 1 fun s => s.hello d (slice frame 32 48))

/-- NEIGHBOUR_LOST_TIMER (R218). -/
def execNeighbourLostTimer (d : Nat) (s : State) : Res :=
  .next (if (s.link d).st == .active then s.loseNeighbour d else s)

/-! Address assignment (R221 to R224). -/

/-- The chip takes an address (R221); a new SLED_BASE first ends the laps and lines of the old one, whose tokens and notices still go
out from the old address (R224). -/
def State.takeAddress (s : State) (gen base origin : Nat) (seed : Bool) (ingress : Nat) : State :=
  let moved := s.addrValid && bits s.chipAddr 23 8 != bits base 23 8
  let a := bits base 23 8 * 256 + s.slot * 16
  let s := if moved then s.each allParts fun s p => (s.abortAll p).noticeAll p else s
  let s := { s.setReg adrAntAddr (BitVec.ofNat 32 (a + 2 ^ 24 + 2 ^ 25 * b2n seed)) with origin := origin }
  let s := (s.setRf adrAntGen 15 0 gen).event 0x2105 0xFF 0xFF
  s.each ((List.range 4).filter (· != ingress)) fun s d => s.sendAssign d

/-- An ASSIGN on port `d` (R221, R222). -/
def State.assign (s : State) (d : Nat) (b : List Byte) : State :=
  let g := u16 b 2
  let own := s.rf adrAntGen 15 0
  if d ≥ 4 then s
  else if newer g own then s.takeAddress g (u32 b 4) (u64 b 8) false d
  else if g == own && !(s.addrValid && bits (u32 b 4) 23 8 == bits s.chipAddr 23 8) then s.portEvent 0x2106 d []
  else s

/-- ASSIGN_RECEIVED (R221, R222). -/
def execAssignReceived (d : Nat) (frame : List Byte) (s : State) : Res :=
  .next (s.takeAnt d frame 2 fun s => s.assign d (slice frame 32 48))

/-- ADDRESS_ASSIGN (R221, R390). -/
def execAddressAssign (k : Nat) (s : State) : Res :=
  runOp 0x61 k (fun x s =>
    let g := u16 x.bytes 0x14
    if newer g (s.rf adrAntGen 15 0) then
      let s := s.takeAddress g (u32 x.bytes 0x10) ownId true 8
      s.done k (leBytes 4 (s.reg adrAntAddr).toNat)
    else s.badParam k 0x14) s

/-- LINK_CONFIG (R390). -/
def execLinkConfig (k : Nat) (s : State) : Res :=
  runOp 0x60 k (fun x s => (s.setReg (adrLnkVcWeight (u8 x.bytes 0x10)) (BitVec.ofNat 32 (u32 x.bytes 0x14))).done k []) s

/-! Ingress (R227 to R231). -/

/-- A frame is dropped at ingress, with its counter and event (R227). -/
def State.dropIngress (s : State) (d v n ctr code : Nat) : State :=
  (((s.bump ctr).portEvent code d []).freeFlits d v n).releaseLanding d v

/-- An antennation body is legal: its KIND, the ROLE of a HELLO, and its BODY_CRC (R217). -/
def antGood (b : List Byte) : Bool :=
  b.length == 80 && ((u8 b 32 == 1 && decide (u8 b 33 ≤ 1)) || u8 b 32 == 2) && u32 b 76 == crc32c (slice b 32 44)

/-- An antennation frame waits at the chip (R227, check 4). -/
def State.antIngress (s : State) (d v n : Nat) (b : List Byte) : State :=
  if antGood b then { s with delivered := s.delivered ++ [⟨d, v, 8, b, n⟩] }
  else (s.bump adrHdrErrors).freeFlits d v n

/-- Delivery here or forwarding, by the route (R227, checks 5 and 6; R229). -/
def State.routeIngress (s : State) (d v n : Nat) (b : List Byte) : State :=
  let h := parseHdr b
  match s.route h d with
  | .deliver p =>
    if s.sliceOf p == h.slice then s.deliver d v p b n else s.dropIngress d v n adrForeignSlice 0x2107
  | _ =>
    if h.hop == 0 then s.dropIngress d v n adrHopExpired 0x2109
    else s.forward b d n (if slotVc d v then .landing d v else .none)

/-- A whole frame at ingress (R227); a chip without an address forwards and delivers antennation only (R223). An antennation
frame skips the slice check, so that a HELLO shows a mismatch (R220 and the chapter's Edges). -/
def State.ingress (s : State) (d v n : Nat) (b : List Byte) : State :=
  let h := parseHdr b
  if !hdrGood b || h.dst % 2 == 1 then s.dropIngress d v n adrHdrErrors 0x2108
  else if h.typ != 9 && h.slice != s.portSlice d then s.dropIngress d v n adrForeignSlice 0x2107
  else if !(typeVcs h.typ).contains v || h.vc != v then s.dropIngress d v n adrBadType 0x2108
  else if h.typ == 9 then s.antIngress d v n b
  else if !s.addrValid || s.antOnly d then (s.freeFlits d v n).releaseLanding d v
  else s.routeIngress d v n b

/-- Ingress starts to drain a frame whose first flit has come (R43, R149). False while it stays in the link buffer. -/
def State.drains (s : State) (d v p : Nat) (b : List Byte) : Bool × State :=
  match (parseHdr b).typ with
  | 1 => s.billetDrains p d b
  | 6 => s.bulkDrains p d b
  | 3 => (s.actDrains p d b, s)
  | _ => (true, s)

/-- The rest of a frame that ingress has dropped is discarded as it comes. -/
def State.dropRest (s : State) (d v : Nat) (x : RxFrame) : State := s.setRxFrame d v (some { x with way := .gone, flits := 0 })

/-- Delivery here or forwarding of a frame whose first flit has come, by the route (R227, checks 5 and 6; R229): what has come goes on,
and the rest follows as it comes. -/
def State.routePart (s : State) (d v : Nat) (x : RxFrame) : State :=
  let h := parseHdr x.bytes
  let n := x.flits
  match s.route h d with
  | .deliver p =>
    if s.sliceOf p != h.slice then (s.dropIngress d v n adrForeignSlice 0x2107).dropRest d v x
    else if s.refuses p x.bytes then ((s.dropFrame d v p n).releaseLanding d v).dropRest d v x
    else
      match s.drains d v p x.bytes with
      | (true, s) => (s.setRxFrame d v (some { x with way := .here, flits := 0 })).freeFlits d v n
      | (false, s) => s
  | r =>
    if h.hop == 0 then (s.dropIngress d v n adrHopExpired 0x2109).dropRest d v x
    else
      let s := s.forward x.bytes d n (if slotVc d v then .landing d v else .none)
      match r with
      | .port e _ _ =>
        (s.modLink e fun l => { l with txq := l.txq.dropLast ++ (l.txq.getLast?.map fun f => { f with whole := false }).toList }).setRxFrame d v
          (some { x with way := .port e, flits := 0 })
      | _ => s.dropRest d v x

/-- A frame at ingress whose first flit has come and whose last has not (R227, R229). An antennation frame fits one flit: a longer one
waits for its end. -/
def State.ingressPart (s : State) (d v : Nat) (x : RxFrame) : State :=
  let h := parseHdr x.bytes
  let n := x.flits
  if !hdrGood x.bytes || h.dst % 2 == 1 then (s.dropIngress d v n adrHdrErrors 0x2108).dropRest d v x
  else if h.typ != 9 && h.slice != s.portSlice d then (s.dropIngress d v n adrForeignSlice 0x2107).dropRest d v x
  else if !(typeVcs h.typ).contains v || h.vc != v then (s.dropIngress d v n adrBadType 0x2108).dropRest d v x
  else if h.typ == 9 then s
  else if !s.addrValid || s.antOnly d then ((s.freeFlits d v n).releaseLanding d v).dropRest d v x
  else s.routePart d v x

/-- FRAME_INGRESS of the oldest frame of VC `v` on port `d` that has not been routed (R227, R229): a whole one, else the one in progress
once its first flit has come. -/
def execFrameIngress (d v : Nat) (s : State) : Res :=
  .next (match (s.link d).frames.find? fun f => f.1 == v with
    | some f => (s.modLink d fun l => { l with frames := l.frames.erase f }).ingress d v f.2.2 f.2.1
    | none =>
      match tfind (s.link d).part v with
      | some x => if x.way == .wait && 120 ≤ x.got then s.ingressPart d v x else s
      | none => s)

end Sys2Proof.Machine
end

