-- ==== Sys2Proof/Machine/Flash.lean ====
section
/-! DEFINITION. The flash opcodes, and the ends of flash operations (R394, R457 to R468). -/
namespace Sys2Proof.Machine

/-- Another flash opcode of the chip is running; a PLDM update counts as one (R394, R468). -/
def State.flashBusy (s : State) : Bool := s.nvs.stage.isSome || s.nvs.host.isSome || s.nvs.pldm.st != 0

/-- Largest image or configuration that a slot holds, in bytes (R451, R464). -/
def slotBytesMax (config : Bool) : Nat := payloadBytes * (slotSectors config 0).2

/-- Slot in use of the kind written (R466): the running image, or the configuration that the boot applied. -/
def State.slotInUse (s : State) (config : Bool) : Option Nat :=
  if config then s.configInForce.map (·.1) else s.runningSlot

/-- FW_STAGE and CONFIG_WRITE read what they write from the host into the staging area (R466 step 1). Content longer than a
slot holds fails as content that does not verify. -/
def State.stagePkt (s : State) (config : Bool) (k : Nat) (b : List Byte) : State :=
  let len := u32 b 0x20
  if s.flashBusy || s.slotInUse config == some (u8 b 0x10) || len > slotBytesMax config then s.failPkt k 0x14
  else
    let ops := s.readOps 8 (u64 b 0x18) len (.firmware k) 0
    let s := s.setNvs fun n => { n with stage := some (k, List.replicate len 0, ops.length, 0) }
    if ops.isEmpty then s.stageSettle else s.enq 8 ops

/-- FW_STAGE. -/
def execFwStage (k : Nat) (s : State) : Res := runOp 0xA0 k (fun x s => s.stagePkt false k x.bytes) s

/-- FW_ACTIVATE of a slot (R467), as fields of the descriptor record to append; none where nothing changes. -/
def State.activation (s : State) (slot : Nat) : Option (List (Nat × Nat × Nat)) :=
  if s.runningSlot == some slot then
    if s.descField 2 1 == 1 && s.descField 1 1 == slot then some (confirmRec slot) else none
  else some [(1, 1, slot), (2, 1, 1), (3, 1, 3)]

/-- FW_ACTIVATE names a slot that it may not (R467). -/
def State.activateRefused (s : State) (slot : Nat) : Bool :=
  if s.runningSlot == some slot then s.forcedBoot else !s.slotVerified slot

/-- FW_ACTIVATE (R467). -/
def execFwActivate (k : Nat) (s : State) : Res :=
  runOp 0xA1 k (fun x s =>
    let slot := u8 x.bytes 0x10
    if s.flashBusy || s.activateRefused slot then s.failPkt k 0x14
    else match s.activation slot with
      | none => s.done k []
      | some ch => s.hostJob ⟨4, k, slot, s.runningSlot == some slot, 0, [], [.desc ch], true⟩) s

/-- CONFIG_WRITE. -/
def execConfigWrite (k : Nat) (s : State) : Res := runOp 0xA2 k (fun x s => s.stagePkt true k x.bytes) s

/-- FLASH_READ (R394). -/
def execFlashRead (k : Nat) (s : State) : Res :=
  runOp 0xA3 k (fun x s =>
    if s.flashBusy then s.failPkt k 0x14
    else
      let b := x.bytes
      let d := s.readFlash (u32 b 0x10) (u32 b 0x14)
      (s.hostWrite x.part (s.proxied x.part) (u64 b 0x18) d false (.input x.part k)).done k []) s

/-! Operations end (R457, R460, R468). -/

/-- The job whose operation runs. -/
def Nvs.current (n : Nvs) : Option (Bool × NvJob) :=
  match n.running with
  | some h => (if h then n.host else n.own).map fun j => (h, j)
  | none => none

/-- The running operation is over and the job's remaining operations are `ops`. -/
def State.nvLeave (s : State) (host : Bool) (j : NvJob) (ops : List NvOp) : State :=
  (s.setNvs fun n => { n.setJob host (some { j with ops := ops }) with running := none }).nvGo

/-- The job of the running operation fails with INTERNAL and event 0x5005 (R457, R460). -/
def State.nvFail (s : State) (host : Bool) (j : NvJob) : State :=
  ((((s.setNvs fun n => { n.setJob host none with running := none }).event 0x5005 0 0xFF)).failJob j 0x7F).nvGo

/-- A blank check fails (R460): the erase is repeated at most twice, and then the sector has failed. -/
def State.eraseFails (s : State) (host : Bool) (j : NvJob) (n tries why : Nat) (ops : List NvOp) : State :=
  let s := (s.nvCut (.erase n tries why)).bump adrErases
  if tries == 0 then
    (s.setNvs fun v => { v with failed := insNat v.failed n, half := v.half.filter (· != n) }).nvFail host j
  else s.nvLeave host j (.erase n (tries - 1) why :: ops)

/-- The running flash operation ends, and the next one follows (R457). `blank` is the outcome of an erase's blank check. -/
def execFlashOpDone (blank : Bool) (s : State) : Res :=
  .next (match s.nvs.current with
    | none => s
    | some (h, j) =>
      match j.ops with
      | [] => s
      | .erase n t w :: ops =>
        if blank then (s.nvEffect (.erase n t w)).nvLeave h j ops else s.eraseFails h j n t w ops
      | op :: ops => (s.nvEffect op).nvLeave h j ops)

/-- Flash faults end persistence without its mark (R490). -/
def State.persistFault (s : State) : State :=
  match s.evr.persist with
  | none => s
  | some x =>
    let s := s.setNvs fun n => { n with half := insNat n.half s.evr.arcSector }
    let s := ((s.setEvr fun e => { e with persist := none, arcOpen := false }).setRf adrEvrCtrl 2 2 0).event 0x5005 0 0xFF
    ((s.each x.pkts fun s k => s.failPkt k 0x7F).bump adrFlashFaults).nvGo

/-- A program is still busy at 5 ms, or an erase at 3 s (R457): the operation fails with INTERNAL. A log sector keeps its
other records: its torn one is skipped (DESIGN CHOICE, log entry 28). -/
def execFlashBusyTimeout (s : State) : Res :=
  .next (match s.nvs.current with
    | none => s.persistFault
    | some (h, j) =>
      match j.ops with
      | [] => s
      | op :: _ =>
        let n := (s.opInfo op).2
        let s := (s.nvCut op).bump adrFlashFaults
        let s := if n < 4 then s else s.setNvs fun v => { v with half := insNat v.half n }
        s.nvFail h j)

/-- The 24 h of R465 have passed. -/
def execCalibrationSaveTimer (s : State) : Res := .next (if s.boot == .ready then s.ownAsk 2 else s)

end Sys2Proof.Machine
end

