-- ==== Sys2Proof/Machine/Lightbanks.lean ====
section
/-! DEFINITION. The commands of the lightbanks (R156 to R173, R389). What the analog side measures (ADC results,
temperatures, fit residuals, monitor readings) comes with the command. -/
namespace Sys2Proof.Machine

/-! Products (R163, R166, R167). -/

/-- A comparison of an active row with its spare (R166): 64 agreements within 2 ADC steps map the logical row to the
spare and free the row for its fit; a disagreement sends the spare to its fit. -/
def State.compareRow (s : State) (b : Nat) (pair : Option (Int × Int)) : State :=
  match (s.bank b).rot, pair with
  | some r, some (a, c) =>
    match r.phase with
    | .comparing n =>
      if (a - c).natAbs > 2 then
        (s.setHealth b r.spare 2).modBank b fun x => { x.probeRow r.spare with rot := some { r with phase := .fitting, retry := true } }
      else if n + 1 < 64 then s.modBank b fun x => { x with rot := some { r with phase := .comparing (n + 1) } }
      else
        let s := match s.logicalRow b r.row with
          | some l => s.setRf (adrLbkRowMap b l) 6 0 r.spare
          | none => s
        ((s.setHealth b r.spare 0).setHealth b r.row 2).modBank b fun x => { x.probeRow r.row with rot := some ⟨r.row, r.row, .fitting, false⟩ }
    | _ => s
  | _, _ => s

/-- Clipped results of a block (R163). -/
def clipsOf (codes : List Int) (n : Nat) : Nat := ((codes.take n).filter fun c => decide (127 < c) || decide (c < -127)).length

/-- Deliver a product's rows (R163, R165): without a check the term is ready, with one it waits for the verdict. -/
def State.deliverRows (s : State) (p i : Nat) (r : Prod) (y : List Nat) : State :=
  if r.check then s.modPart p fun q => { q with prods := q.prods.set i { r with y := some y } }
  else (s.modPart p fun q => { q with prods := q.prods.eraseIdx i }).setTerm p r.line r.stream r.layer y false false

/-- LBK_PRODUCT_DONE (R163, R166, R167): the `i`-th recurrent term in progress at a partition, with the ADC results of
its rows on each bank before clamping, and the pair (active row, spare) of a comparison in progress on each bank. An
index beyond the list is a calibration vector, whose outputs are discarded. -/
def execLbkProductDone (p i : Nat) (c0 c1 : List Int) (cmp0 cmp1 : Option (Int × Int)) (s : State) : Res :=
  .next (
    let s := (s.compareRow 0 cmp0).compareRow 1 cmp1
    match (s.part p).prods[i]? with
    | none => s
    | some r =>
      if !r.analog || r.y.isSome then s
      else
        let bs := s.layerBlocks p r.line r.layer
        let codes := fun (b : Nat) => if b == 0 then c0 else c1
        let s := s.each bs fun s (b, _, x) =>
          (s.bump (adrProducts b)).bumpBy (adrClips b) (clipsOf (codes b) x.rowCnt)
        let e := ceilLog2 (stateMax r.h)
        let y := match bs with
          | [(b, _, x)] => joinRows [x] e (codes b) []
          | _ => joinRows (bs.map fun (_, _, x) => x) e c0 c1
        s.deliverRows p i r y)

/-! The shadow check (R170 to R173). -/

/-- The first diverging row of a check (R171). -/
def firstDiverging (l : LayerRec) (e : Int) (scales a d : List Nat) : Option Nat :=
  (List.range l.r).find? fun i => rowDiverges l e (scales.getD i 0) (a.getD i 0) (d.getD i 0)

/-- Bank, block and logical row of each place that carries row `i` of a layer, bank 0 first. -/
def State.rowPlaces (s : State) (bs : List (Nat × Nat × LBlock)) (i : Nat) : List (Nat × Nat × Nat) :=
  (bs.filter fun (_, _, x) => decide (x.rowOff ≤ i) && decide (i < x.rowOff + x.rowCnt)).map fun (b, k, x) =>
    (b, k, s.rf (adrLbkBlock0 b k) 19 14 + i - x.rowOff)

/-- A check that diverged in row `i` (R172, R173): the row is recalibrated next. -/
def State.diverged (s : State) (bs : List (Nat × Nat × LBlock)) (i : Nat) : State :=
  let s := s.each bs fun s (b, k, _) =>
    match tfind (s.bank b).blocks k with
    | none => s
    | some x => s.setBlock b k { x with divs := x.divs + 1, nDiv := x.nDiv + 1 }
  let s := s.each bs fun s (b, _, _) => s.bump (adrDiverged b)
  let at_ := s.rowPlaces bs i
  let s := match at_ with
    | (b, k, l) :: _ => s.bankEvent 0x1401 b [k, l]
    | [] => s
  let s := s.each at_ fun s (b, _, l) =>
    let s := s.modBank b fun x => { x with prio := x.prio ++ [s.physRow b l] }
    if (s.bank b).stopped then s else s.nextVisit 80 b
  s.each bs fun s (b, k, x) => if x.divs + 1 ≥ s.rf (adrLbkCalCfg b) 25 18 then s.blockFall b k 2 else s

/-- The shadow's value `d` of the `i`-th recurrent term in progress takes the place of the analog one in fallback and for a state that
is not finite, or is compared with it (R157, R170 to R173). -/
def State.shadowVerdict (s : State) (p i : Nat) (r : Prod) (l : LayerRec) (d : List Nat) : State :=
  let drop := fun (s : State) => s.modPart p fun q => { q with prods := q.prods.eraseIdx i }
  let bs := s.layerBlocks p r.line r.layer
  if !r.analog then (drop s).setTerm p r.line r.stream r.layer d false (r.h.all isFinite)
  else
    match r.y with
    | none => s
    | some y =>
      let s := s.each bs fun s (b, _, _) => s.bump (adrShadowChecks b)
      match firstDiverging l (ceilLog2 (stateMax r.h)) (joinScales (bs.map fun (_, _, x) => x)) y d with
      | some j => ((drop s).diverged bs j).setTerm p r.line r.stream r.layer d true false
      | none =>
        let s := s.each bs fun s (b, k, x) => s.setBlock b k { x with divs := 0 }
        (drop s).setTerm p r.line r.stream r.layer y false false

/-- SHADOW_VERDICT (R170): a pass of the shadow anvil ends with the digital value of the `i`-th recurrent term in progress; for a term
whose analog value is still to come nothing happens yet. -/
def execShadowVerdict (p i : Nat) (s : State) : Res :=
  .next (match (s.part p).prods[i]? with
    | none => s
    | some r =>
      match (s.line? p r.line).bind fun l => l.layers[r.layer]? with
      | none => s
      | some l =>
        if r.analog && r.y.isNone then s
        else (s.bump (adrPasses l.shadowAnvil)).shadowVerdict p i r l (digitalTerm l (s.rf (adrVecCvtCfg p) 0 0 == 1) r.h))

/-! Temperature (R161, R162). -/

/-- Distance of two numbers. -/
def gap (a b : Nat) : Nat := (a - b) + (b - a)

/-- LBK_TEMP_SAMPLE (R161, R162): the bank's temperature in 0.01 °C. New heater codes for every row are applied together and restart a
comparison in progress; outside 40 to 70 °C every block is in fallback until the temperature is back and a full sweep has run. -/
def execLbkTempSample (b t : Nat) (s : State) : Res :=
  .next (
    let s := s.setRf (adrLbkStatus b) 31 16 t
    let out := decide (t < 4000) || decide (7000 < t)
    let s :=
      if s.rf (adrLbkCalCfg b) 17 12 * 5 < gap t (s.bank b).codeTemp then
        s.modBank b fun x =>
          { x.redrive t with rot := x.rot.map fun r => match r.phase with
              | .comparing _ => { r with phase := .comparing 0 }
              | _ => r }
      else s
    if out && !(s.bank b).hot then
      ((s.modBank b fun x => { x with hot := true, owes := insNat x.owes 0 }).bankEvent 0x1407 b [t]).bankFall b 0
    else if !out && (s.bank b).hot then (s.modBank b fun x => { x with hot := false }).startSweep b
    else s)

/-! Sweeps and rows (R166, R168). -/

/-- LBK_SWEEP_TIMER (R166): a sweep starts when none is running. -/
def execLbkSweepTimer (b : Nat) (s : State) : Res :=
  .next (if (s.bank b).sweep.isNone then s.startSweep b else s)

/-- LBK_SWEEP (R389): a sweep starts now, or the packet joins the one running. With sweeps stopped (R168) there is none
to wait for, and the packet completes with the bank as it is. -/
def execLbkSweep (k : Nat) (s : State) : Res :=
  runOp 0x50 k (fun x s =>
    let b := u8 x.bytes 0x10 % 2
    let s' := s.modBank b fun y => { y with sweepPkts := y.sweepPkts ++ [k] }
    if (s.bank b).stopped then s'.sweepDone b
    else if (s.bank b).sweep.isNone then s'.startSweep b else s') s

/-- A row of block `k` is still settling (R169). -/
def State.blockSettles (s : State) (b k : Nat) : Bool :=
  (s.bank b).settling.any fun r => ((s.logicalRow b r).map fun l => (s.blocksOfRow b l).contains k).getD false

/-- ROW_SETTLED (R166, R169): the heaters of physical row `r` have settled. -/
def execRowSettled (b r : Nat) (s : State) : Res :=
  .next (
    let s :=
      if (s.bank b).settling.contains r then
        let s := s.modBank b fun x => { x with settling := x.settling.filter (· != r) }
        match s.logicalRow b r with
        | some l => s.each (s.blocksOfRow b l) fun s k => if s.blockSettles b k then s else s.blockLift b k [5]
        | none => s
      else s
    match (s.bank b).rot with
    | some t =>
      if t.spare == r && t.phase == .settling then s.modBank b fun x => { x with rot := some { t with phase := .comparing 0 } }
      else s
    | none => s)

/-- Input stages found healthy by a calibration lift the fallback of their blocks (R169). -/
def State.stagesHealthy (s : State) (b : Nat) (inputs : List Nat) : State :=
  let s := s.modBank b fun x => { x with badInputs := x.badInputs.filter fun i => !inputs.contains i }
  s.each (s.bank b).blocks fun s (k, _) =>
    if (s.bank b).badInputs.any fun i => (s.blocksOfInput b i).contains k then s else s.blockLift b k [4]

/-- ROW_FIT_DONE (R166, R168): the row fitted becomes a spare with a residual of at most 2^-7 (8 units of 2^-10),
otherwise it has failed; `inputs` are the input stages the calibration found healthy. The next visit follows. -/
def execRowFitDone (b residual : Nat) (inputs : List Nat) (s : State) : Res :=
  .next (match (s.bank b).rot with
    | none => s
    | some r =>
      if r.phase != .fitting then s
      else
        let t := r.spare
        let s := (s.setRf (adrLbkRowHealth b t) 15 8 (min residual 255)).stagesHealthy b inputs
        let s := (s.refitRow b t).modBank b fun x => { x with rot := none }
        let s := if residual ≤ 8 then s.setHealth b t 1
                 else ((s.setHealth b t 3).bankEvent 0x1403 b [t, residual]).spareCheck b
        if (s.bank b).stopped then s
        else if r.retry then
          match (s.spares b).find? (· != t) with
          | some sp => s.rotate b r.row sp
          | none => s.nextVisit 80 b
        else s.nextVisit 80 b)

/-- LBK_TABLES_STALE (R168): with sweeps stopped for want of a spare, every block goes to fallback. -/
def execLbkTablesStale (b : Nat) (s : State) : Res :=
  .next (if (s.bank b).stopped then (s.modBank b fun x => { x with stale := true }).bankFall b 6 else s)

/-! Stage monitors (R169, R246). -/

/-- The spare that takes over a failed row: one that no rotation holds, else the one that the rotation in progress holds. -/
def State.spareFor (s : State) (b : Nat) : Option Nat :=
  let held := ((s.bank b).rot.filter fun r => decide (r.phase ≠ RotPhase.fitting)).map (·.spare)
  ((s.spares b).find? fun r => some r != held).orElse fun _ => held

/-- Logical row `l` goes to spare `sp` without comparison (R169): the spare is programmed, and the row's blocks are in fallback while it
settles. -/
def State.takeOver (s : State) (b l sp : Nat) : State :=
  let s := ((s.setRf (adrLbkRowMap b l) 6 0 sp).setHealth b sp 0).programRow b sp l
  let s := s.modBank b fun x => { x with
    settling := x.settling ++ [sp], rot := x.rot.filter fun r => decide (r.spare ≠ sp) }
  s.each (s.blocksOfRow b l) fun s k => s.blockFall b k 5

/-- A row or its receiver has failed (R168, R169): its logical row goes to a spare; with no spare its blocks stay in fallback. A
rotation of the row, or one that loses its spare so, ends, and the next visit follows. -/
def State.rowLost (s : State) (b r : Nat) : State :=
  let l := s.logicalRow b r
  let was := (s.bank b).rot.isSome
  let s := (s.setHealth b r 3).modBank b fun x =>
    { x.probeRow r with rot := x.rot.filter fun t => decide (t.row ≠ r) && decide (t.spare ≠ r) }
  let s := match l, s.spareFor b with
    | none, _ => s
    | some l, none => s.each (s.blocksOfRow b l) fun s k => s.blockFall b k 7
    | some l, some sp => s.takeOver b l sp
  let s := s.spareCheck b
  if was && (s.bank b).rot.isNone && !(s.bank b).stopped then s.nextVisit 80 b else s

/-- An input stage has failed (R169): every block that uses input `i` goes to fallback. -/
def State.inputLost (s : State) (b i : Nat) : State :=
  (s.modBank b fun x => { x with badInputs := insNat x.badInputs i }).each (s.blocksOfInput b i) fun s k => s.blockFall b k 4

/-- The laser in use of bank `b` has failed (R169, R246): its blocks fall back, and the spare is powered up if it is still
to be had. -/
def State.bankLaser (s : State) (b : Nat) : State :=
  let used := s.rf (adrLbkStatus b) 7 7
  let s := ((s.modBank b fun x => { x with laserLost := true, owes := insNat x.owes 1 }).bankFall b 1).setRf (adrGldLaser (46 + 2 * b + used)) 2 0 5
  if used == 0 && s.rf (adrGldLaser (47 + 2 * b)) 2 0 != 5 then (s.bankEvent 0x1408 b []).setRf (adrGldLaser (47 + 2 * b)) 2 0 1 else s

/-- LBK_STAGE_POWER_LOSS (R169): stage 0 laser, 1 splitter waveguide, 2 modulator, 3 row bus, 4 receiver, with its index. -/
def execLbkStagePowerLoss (b stage idx : Nat) (s : State) : Res :=
  .next (
    let s := s.bankEvent 0x1405 b [stage, idx]
    match stage with
    | 0 => s.bankLaser b
    | 1 => if idx < 64 then s.inputLost b idx else s
    | 2 => if idx < 64 then s.inputLost b idx else s
    | _ => if idx < 68 && s.rowHealth b idx != 3 then s.rowLost b idx else s)
/-- LBK_LASER_CHANGE_DONE (R166, R246): the spare laser is switched in, and a sweep follows. -/
def execLbkLaserChangeDone (b : Nat) (s : State) : Res :=
  .next (if (s.bank b).laserLost && s.rf (adrLbkStatus b) 7 7 == 0 && s.rf (adrGldLaser (47 + 2 * b)) 2 0 != 5 then
    (((s.setRf (adrLbkStatus b) 7 7 1).setRf (adrGldLaser (47 + 2 * b)) 2 0 2).modBank b fun x =>
      { x with laserLost := false }).startSweep b
  else s)

/-! Packets (R389). -/

/-- LBK_BLOCK_STATUS (R389). -/
def execLbkBlockStatus (k : Nat) (s : State) : Res :=
  runOp 0x51 k (fun x s =>
    match tfind (s.bank (u8 x.bytes 0x10 % 2)).blocks (u8 x.bytes 0x11) with
    | none => s.badParam k 0x11
    | some y => s.done k (leBytes 4 (b2n !y.why.isEmpty) ++ leBytes 4 y.nDiv ++ leBytes 4 y.nFall)) s

/-- LBK_FORCE_FALLBACK (R173, R389): FORCE 1 holds the block in fallback; FORCE 0 returns it after the next full sweep. -/
def execLbkForceFallback (k : Nat) (s : State) : Res :=
  runOp 0x52 k (fun x s =>
    let b := u8 x.bytes 0x10 % 2
    let j := u8 x.bytes 0x11
    match tfind (s.bank b).blocks j with
    | none => s.badParam k 0x11
    | some y =>
      if u8 x.bytes 0x12 > 1 then s.badParam k 0x12 else
      let s := if u8 x.bytes 0x12 == 1 then (s.setBlock b j { y with released := false }).blockFall b j 3
               else s.setBlock b j { y with released := y.why.contains 3 }
      s.done k []) s

end Sys2Proof.Machine
end

