-- ==== Sys2Proof/Machine/GleedOps.lean ====
section
/-! DEFINITION. Gleed ports below their commands (R239 to R252): the channel map, channel swaps and repairs; and what the end of
training depends on them for: CONFIG flits, the link coming up, and the flit slot. -/
namespace Sys2Proof.Machine

/-! The channel map (R239, R241, R262). -/

/-- Logical lanes of Gleed port `d`: 16 on a rack port, 4 on a campus port. -/
def gldLanes (d : Nat) : Nat := if isCampus d then 4 else 16
/-- Logical quad of a lane. -/
def laneQuad (d l : Nat) : Nat := if isCampus d then l else l / 4
/-- A Gleed port's number. -/
def isGld (d : Nat) : Bool := decide (4 ≤ d) && decide (d < 8)

/-- Channel that carries a lane outward. -/
def State.txChan (s : State) (d l : Nat) : Nat := s.rf (adrGldChanMap (d - 4) l) 4 0
/-- Channel that carries a lane inward. -/
def State.rxChan (s : State) (d l : Nat) : Nat := s.rf (adrGldChanMap (d - 4) l) 12 8
/-- Move a lane's outward channel. -/
def State.setTx (s : State) (d l c : Nat) : State := s.setRf (adrGldChanMap (d - 4) l) 4 0 c
/-- Move a lane's inward channel. -/
def State.setRx (s : State) (d l c : Nat) : State := s.setRf (adrGldChanMap (d - 4) l) 12 8 c
/-- Lane that a channel carries outward. -/
def State.laneOf (s : State) (d c : Nat) : Option Nat := (List.range (gldLanes d)).find? fun l => s.txChan d l == c
/-- Lane that a channel carries inward. -/
def State.rxLaneOf (s : State) (d c : Nat) : Option Nat := (List.range (gldLanes d)).find? fun l => s.rxChan d l == c

/-- Change what Gleed port `d` keeps. -/
def State.modGleed (s : State) (d : Nat) (f : Gleed → Gleed) : State := s.setGleed d (f (s.gleed d))

/-- Laser of channel `c` of port `d` (R244). -/
def laserOf (d c : Nat) : Nat := adrGldLaser (gldLaser0 (d - 4) + c)

/-- The healthy spare to use next: a channel with a worn laser is the last resort (R245). -/
def State.bestSpare (s : State) (d : Nat) : Option Nat :=
  let l := (List.range (gldChans (d - 4))).filter fun c => s.chanHealth d c == 1
  match l.find? fun c => !(s.gleed d).worn.contains c with
  | some c => some c
  | none => l.head?

/-! Swaps (R249 to R251). -/

/-- A swap ordered set (R249). -/
def swapOs (typ : Nat) (w : Swap) : List Byte :=
  let b := leBytes 1 typ ++ leBytes 1 w.lane ++ leBytes 1 w.frm ++ leBytes 1 w.dest ++ leBytes 8 ownId ++ leBytes 1 w.mode
    ++ leBytes 1 0
  b ++ leBytes 2 (crc16 b)

/-- Send a swap ordered set on every active logical quad. -/
def State.sendSwap (s : State) (d typ : Nat) (w : Swap) : State := s.sendOsAll d (s.link d).active (swapOs typ w)

/-- Start a swap of a lane onto a spare (R250 step 1). -/
def State.startSwap (s : State) (d l dest mode : Nat) (cal : Bool) : State :=
  let w : Swap := ⟨l, s.txChan d l, dest, mode, true, cal⟩
  (s.modGleed d fun g => { g with tx := some w }).sendSwap d 0xA6 w

/-- This end may lead a swap: none of its own runs, and on a campus port none of the peer's (R249). -/
def State.swapFree (s : State) (d : Nat) : Bool :=
  (s.gleed d).tx.isNone && (!isCampus d || (s.gleed d).rx.isNone) && s.flitUp d

/-- Begin the repair swap of the first lane that needs one; with no healthy spare for it, 0x2207 (R251). -/
def State.repairNext (s : State) (d : Nat) : State :=
  match (s.gleed d).lost with
  | [] => s
  | l :: rest =>
    if !s.swapFree d then s
    else match s.bestSpare d with
      | none => s.portEvent 0x2207 d []
      | some c => (s.modGleed d fun g => { g with lost := rest }).startSwap d l c 1 false

/-- Lanes in need of repair try the next healthy spare; with none, 0x2207, whether or not the swap could begin now (R251). -/
def State.repairTry (s : State) (d : Nat) : State :=
  if (s.gleed d).lost.isEmpty then s
  else if (s.bestSpare d).isNone then s.portEvent 0x2207 d [] else s.repairNext d

/-- A lane's channel has failed (R251): its quad leaves the link, and its repair begins. -/
def State.repairLane (s : State) (d l : Nat) : State :=
  let s := s.quadFault d (2 ^ laneQuad d l)
  (s.modGleed d fun g => { g with lost := insNat g.lost l }).repairTry d

/-- The next swap that waits (R249, R251): a request that gave way to the peer's is made again, or a lane is repaired. -/
def State.swapNext (s : State) (d : Nat) : State :=
  match (s.gleed d).again, s.bestSpare d with
  | some l, some c => if s.swapFree d then (s.modGleed d fun g => { g with again := none }).startSwap d l c 0 true else s
  | _, _ => s.repairNext d

/-- A swap in progress uses channel `c`, and its lane fails: the fault wins (R250). -/
def State.faultSwap (s : State) (d c : Nat) : State :=
  let hit := fun (x : Option Swap) => x.filter fun w => w.frm == c || w.dest == c
  let s := match hit (s.gleed d).tx with
    | none => s
    | some w =>
      (s.dropSwap d (some w)).modGleed d fun g => { g with tx := none, lost := if w.mode == 1 then insNat g.lost w.lane else g.lost }
  match hit (s.gleed d).rx with
  | none => s
  | some w => if isCampus d then (s.dropSwap d (some w)).modGleed d fun g => { g with rx := none } else s

/-- A channel becomes suspect (3) or failed (4): what it carries outward is repaired (R251, R257). -/
def State.chanFail (s : State) (d c h : Nat) : State :=
  let l := s.laneOf d c
  let s := ((s.faultSwap d c).setChan d c h).modGleed d fun g => { g with cal := if g.cal == some c then none else g.cal }
  match l with
  | none => s.repairTry d
  | some l => s.repairLane d l

/-! The end of training (R184, R194, R210). -/

/-- The link becomes ACTIVE (R184, R210); lanes whose repair had to wait for it are repaired now (R251). -/
def State.linkUp (s : State) (d : Nat) : State :=
  let s := (s.modLink d fun l => { l with st := .active, step := 0, watch := true, config := false }).portEvent 0x2001 d []
  if isGleed d then s.repairTry d else s

/-- A CONFIG flit (R194): the peer's buffers, credits from them, and SEEN. The link is ACTIVE once one with SEEN 1 has come and one has
gone (R184); an ACTIVE end that has heard nothing else yet answers with one, in case its own was lost (log entry 72). -/
def State.configFlit (s : State) (d : Nat) (f : Flit) : State :=
  let l := s.link d
  if l.step != 6 && !s.flitUp d then s
  else
    let s := if l.seen then s
      else s.setLink d { l with
        seen := true, sent := [], peerTot := [],
        peerBuf := (List.range 8).foldl (fun t v => tset 0 t v (u16 f.pay (2 * v))) [] }
    if l.step != 6 then (if l.watch then s.modLink d fun l => { l with config := true } else s)
    else if u8 f.pay 0x10 == 1 then
      let s := s.modLink d fun l => { l with peerSeen := true }
      if l.seenSent then s.linkUp d else s
    else s

/-- One CONFIG flit of the exchange (R184 step 6). -/
def State.slotConfig (s : State) (d : Nat) : State :=
  let l := s.link d
  let s := s.sendConfig d
  if !l.seen then s
  else
    let s := s.modLink d fun l => { l with seenSent := true }
    if l.peerSeen then s.linkUp d else s

/-- One flit slot (R184, R192, R280): CONFIG flits while the ends exchange them, otherwise the choice of R192. -/
def State.flitSlot (s : State) (d : Nat) : State :=
  let l := s.link d
  if l.step == 6 then
    match l.timeQ with
    | x :: _ => s.sendTime d x
    | [] => s.slotConfig d
  else if l.st == .active then s.slotActive d
  else s

end Sys2Proof.Machine
end

