-- ==== Sys2Proof/Machine/Links.lean ====
section
/-! DEFINITION. The commands of a link (R183 to R210, R253): training, flits, timers, handshakes and lane faults. -/
namespace Sys2Proof.Machine

/-- A mask with bit `k` set. -/
def setBit (m k : Nat) : Nat := if bitAt m k then m else m + 2 ^ k
/-- A mask with bit `k` clear. -/
def clrBit (m k : Nat) : Nat := if bitAt m k then m - 2 ^ k else m

/-! Training. -/

/-- The port may train (R184, R185, R186), at full power (R258). -/
def State.mayTrain (s : State) (d : Nat) : Bool :=
  (s.link d).st == .down && decide (d < 8) && decide (0 < (s.link d).allot) && !(s.link d).heldDown && !s.fenced d && s.portPowered d
    && !(isGleed d && (s.gleed d).apr)

/-- LINK_TRAINING_START (R184 step 1). -/
def execLinkTrainingStart (d : Nat) (s : State) : Res := .next (if s.mayTrain d then s.startTraining d else s)

/-- A training attempt fails quad `k`; the third failure in succession marks it (R184). -/
def State.failQuad (s : State) (d k : Nat) : State :=
  let l := s.link d
  let n := tget 0 l.fails k + 1
  let s := s.setLink d { l with fails := tset 0 l.fails k n, failed := if n ≥ 3 then setBit l.failed k else l.failed }
  if n == 3 then s.portEvent 0x2005 d [k] else s

/-- A training step passes its limit (R184): after steps 2 to 4 the link comes up on the quads that passed, or stays DOWN; in step 5 or
6 the attempt fails. A campus port whose carriers do not acquire records 0x220B (R263). -/
def execTrainingStepTimeout (d passed : Nat) (s : State) : Res :=
  .next (let l := s.link d
    if l.st == .training && (l.step == 5 || l.step == 6) then
      (s.setLink d { l with st := .down, step := 0, active := 0, timeQ := [] }).dropMeasure d
    else if l.st == .training && l.step == 1 then
      let ok := Nat.land passed l.allotMask
      let s := s.each (onesOf 8 l.allotMask) fun s k =>
        if bitAt ok k then s.modLink d fun l => { l with fails := tset 0 l.fails k 0 } else s.failQuad d k
      if ok == 0 then
        let s := s.modLink d fun l => { l with st := .down, step := 0 }
        if isCampus d then s.portEvent 0x220B d [] else s
      else s.startInit d ok
    else s)

/-- TRAINING_LOCK_ACHIEVED (R184 step 5): every quad of the link has locked. -/
def execTrainingLockAchieved (d : Nat) (s : State) : Res :=
  .next (let l := s.link d
    if l.st == .training && l.step == 1 then (s.modLink d fun l => { l with fails := [] }).startInit d l.allotMask
    else s)

/-- LINK_INIT agrees (R190, R179): the active set, or the link goes DOWN when the intersection is empty. -/
def State.initAgree (s : State) (d : Nat) (b : List Byte) : State :=
  let l := s.link d
  let w := agree l.sustain (u8 b 2) (s.desired d) (u8 b 1 / 16)
  let s := if bits (u16 b 0xC) 7 4 != l.allot then s.portEvent 0x200B d [] else s
  if w == 0 then s.linkDown d
  else
    s.modLink d fun l => { l with active := w, peer := u64 b 4, step := 6, seq := 0, ackd := 0xFFF, last := 0xFFF }

/-- A LINK_INIT arrives (R184, R186, R190, R209). -/
def State.initRx (s : State) (d : Nat) (os : List Byte) : State :=
  let l := s.link d
  if !(osGood os && u8 os 0 == 0xA1) then s
  else if l.st == .active || l.st == .paused then s.linkDown d
  else if l.st == .training && l.step == 5 then
    if u64 os 4 == ownId then
      (s.modLink d fun l => { l with st := .down, step := 0, heldDown := true }).portEvent 0x200B d []
    else s.initAgree d os
  else s

/-- LINK_INIT_RECEIVED (R184). -/
def execLinkInitReceived (d : Nat) (os : List Byte) (s : State) : Res := .next (s.initRx d os)

/-! Flits. -/

/-- A flit of KIND `kind` arrives, after `cor` RS codewords were corrected (R211): one that fails R188 is discarded, and one of another
KIND is not this command's. -/
def State.flitArrive (s : State) (d kind : Nat) (b : List Byte) (fec : Bool) (cor : Nat) (f : State → Flit → State) : State :=
  let s := s.bumpBy (adrFecCorrected d) cor
  if fec || !flitGood b then
    (if s.flitUp d || (s.link d).step == 6 then s.badFlit d fec (kind == 0 && (parseFlit b).kind == 0) else s)
  else if (parseFlit b).kind == kind then f s (parseFlit b)
  else s

/-- A flit of any KIND arrives (R188, R194, R196, R198). -/
def State.flitRx (s : State) (d : Nat) (b : List Byte) (fec : Bool) : State :=
  if fec || !flitGood b then
    (if s.flitUp d || (s.link d).step == 6 then s.badFlit d fec ((parseFlit b).kind == 0) else s)
  else
    let f := parseFlit b
    if f.kind == 2 then s.configFlit d f
    else if !s.flitUp d then s
    else if f.kind == 0 then s.dataFlit d f
    else s.applyReports d f

/-- CONFIG_FLIT_RECEIVED (R184 step 6, R194). -/
def execConfigFlitReceived (d : Nat) (flit : List Byte) (fec : Bool) (s : State) (cor : Nat := 0) : Res :=
  .next (s.flitArrive d 2 flit fec cor fun s f => s.configFlit d f)

/-- DATA_FLIT_RECEIVED (R188, R198). -/
def execDataFlitReceived (d : Nat) (flit : List Byte) (fec : Bool) (s : State) (cor : Nat := 0) : Res :=
  .next (s.flitArrive d 0 flit fec cor fun s f => if s.flitUp d then s.dataFlit d f else s)

/-- CONTROL_FLIT_RECEIVED (R189, R196). -/
def execControlFlitReceived (d : Nat) (flit : List Byte) (fec : Bool) (s : State) (cor : Nat := 0) : Res :=
  .next (s.flitArrive d 1 flit fec cor fun s f => if s.flitUp d then s.applyReports d f else s)

/-- FLIT_SLOT (R192). -/
def execFlitSlot (d : Nat) (s : State) : Res := .next (s.flitSlot d)

/-! Timers of acknowledgement (R198 to R201). -/

/-- ACK_REPORT_DUE (R198). -/
def execAckReportDue (d : Nat) (s : State) : Res :=
  .next (if (s.link d).owed then s.modLink d fun l => { l with due := true } else s)

/-- NAK_REPEAT_TIMER (R199). -/
def execNakRepeatTimer (d : Nat) (s : State) : Res :=
  .next (if (s.link d).gap then s.modLink d fun l => { l with nak := true } else s)

/-- REPLAY_TIMER_EXPIRY (R200). `tie` says that an advance of ACK_SEQ was observed in the same LCLK cycle: it wins, and the timer only
restarts (R202). -/
def execReplayTimerExpiry (d : Nat) (s : State) (tie : Bool := false) : Res :=
  .next (if (s.link d).st == .active && !tie then s.startReplay d else s)

/-- RETRAIN_ADVANCE_TIMEOUT (R201). -/
def execRetrainAdvanceTimeout (d : Nat) (s : State) : Res :=
  .next (if (s.link d).escal == 2 then s.linkDown d else s)

/-! Handshakes (R203 to R206). -/

/-- Answer a LINK_REQ and begin the pause (R203, R204). -/
def State.answerReq (s : State) (d : Nat) (b : List Byte) : State :=
  let l := s.link d
  let own := s.desired d
  (s.sendOs d l.osQuad (osBytes 0xA3 (u8 b 1 % 4 + 16 * own) l.sustain (u8 b 3) 0)).beginPause d (u8 b 1 % 4) false own l.sustain
    (u8 b 1 / 16) (u8 b 2)

/-- A LINK_REQ arrives (R203, R206): of two that cross, the end with the lower CHIP_ID leads. -/
def State.reqRx (s : State) (d : Nat) (os : List Byte) : State :=
  let l := s.link d
  if !(osGood os && u8 os 0 == 0xA2) then s
  else if l.st == .paused then
    match l.pause with
    | some p => if p.lead then s else s.sendOs d l.osQuad (osBytes 0xA3 (u8 os 1 % 4 + 16 * p.ownDesired) p.ownSustain (u8 os 3) 0)
    | none => s
  else if l.st != .active then s
  else match l.req with
    | none => s.answerReq d os
    | some r =>
      let s := s.portEvent 0x200D d []
      if ownId < u64 os 4 then s
      else
        (s.modLink d fun l => { l with req := none, need := if l.need.contains r.kind then l.need else l.need ++ [r.kind] }).answerReq d os

/-- LINK_REQ_RECEIVED (R203). -/
def execLinkReqReceived (d : Nat) (os : List Byte) (s : State) : Res := .next (s.reqRx d os)

/-- A LINK_ACK arrives (R204 step 1). -/
def State.ackRx (s : State) (d : Nat) (os : List Byte) : State :=
  match (s.link d).req with
  | none => s
  | some r =>
    if osGood os && u8 os 0 == 0xA3 && u8 os 3 == r.num then s.beginPause d r.kind true r.desired r.sustain (u8 os 1 / 16) (u8 os 2)
    else s

/-- LINK_ACK_RECEIVED (R204 step 1). -/
def execLinkAckReceived (d : Nat) (os : List Byte) (s : State) : Res := .next (s.ackRx d os)

/-- LINK_REQ_RESEND_TIMER (R203). -/
def execLinkReqResendTimer (d : Nat) (s : State) : Res := .next (s.sendReq d)

/-- LINK_REQ_TIMEOUT (R203, R209). -/
def execLinkReqTimeout (d : Nat) (s : State) : Res := .next (if (s.link d).req.isSome then s.linkDown d else s)

/-- A PAUSE arrives (R204 step 2); one that comes before the LINK_ACK that it follows is kept until that is resent (R203). -/
def State.pauseRx (s : State) (d : Nat) : State :=
  let l := s.link d
  if l.pause.isSome then s.fixSet d
  else if l.st == .active && l.req.isSome then s.setLink d { l with early := true }
  else s

/-- PAUSE_RECEIVED (R204 step 2). -/
def execPauseReceived (d : Nat) (s : State) : Res := .next (s.pauseRx d)

/-- QUADS_READY (R204 step 4): RESUME goes out with the last ACK_SEQ. -/
def execQuadsReady (d : Nat) (s : State) : Res :=
  .next (let l := s.link d
    match l.pause with
    | none => s
    | some p =>
      if !p.recv || p.ready then s
      else
        let s := s.setLink d { l with active := p.newMask, pause := some { p with ready := true } }
        let ack := if isGleed d then 0xFFF else l.last
        (s.sendOsAll d p.newMask (osBytes 0xA5 (p.kind + 16 * p.ownDesired) p.ownSustain 0 ack)).endPause d)

/-- A RESUME arrives (R204 step 5). -/
def State.resumeRx (s : State) (d : Nat) (os : List Byte) : State :=
  let l := s.link d
  match l.pause with
  | none => s
  | some p =>
    if osGood os && u8 os 0 == 0xA5 then
      (s.setLink d { l with pause := some { p with resumed := some (u16 os 0xC % 4096) } }).endPause d
    else s

/-- RESUME_RECEIVED (R204 step 5). -/
def execResumeReceived (d : Nat) (os : List Byte) (s : State) : Res := .next (s.resumeRx d os)

/-- PAUSE_LIMIT_EXPIRY (R209). -/
def execPauseLimitExpiry (d : Nat) (s : State) : Res := .next (if (s.link d).pause.isSome then s.linkDown d else s)

/-- LINK_SILENCE_EXPIRY (R209). -/
def execLinkSilenceExpiry (d : Nat) (s : State) : Res := .next (if s.flitUp d then s.linkDown d else s)

/-! Lane faults (R207, R208). -/

/-- QUAD_FAULT (R207): quads found faulty in the same instant, as a mask. -/
def execQuadFault (d quads : Nat) (s : State) : Res := .next (s.quadFault d quads)

/-- FAILED_QUAD_RETRAIN (R208): failed quads train in the background, while the link runs on the others or, with none left, is DOWN. -/
def execFailedQuadRetrain (d : Nat) (s : State) : Res :=
  .next (let l := s.link d
    if l.st == .active || (l.st == .down && !s.fenced d) then s.setLink d { l with trying := Nat.land l.failed l.allotMask } else s)

/-- A recovered quad returns to SUSTAIN, and WIDEN is requested if TARGET_QUADS allows (R208). -/
def State.quadBack (s : State) (d k : Nat) : State :=
  let l := s.link d
  let s := s.setLink d { l with sustain := setBit l.sustain k, failed := clrBit l.failed k, trying := clrBit l.trying k,
                                fails := tset 0 l.fails k 0 }
  if popcount 8 l.active < s.desired d then s.startReq d 2 else s

/-- QUAD_PRBS_PASSED (R208). -/
def execQuadPrbsPassed (d k : Nat) (s : State) : Res := .next (if bitAt (s.link d).trying k then s.quadBack d k else s)

end Sys2Proof.Machine
end

