-- ==== Sys2Proof/Machine/Gleed.lean ====
section
/-! DEFINITION. Gleed ports (R239 to R261): channel swaps, calibration in use, lasers, rings, the loss of light, and campus
line frames. Port `d` is a fabric port 4 to 7. -/
namespace Sys2Proof.Machine

/-- The outward channel of a lane moves from FROM to TO, which becomes active; FROM takes state `frm`, and the lasers change places. -/
def State.moveLane (s : State) (d : Nat) (w : Swap) (frm : Nat) : State :=
  let s := ((s.setTx d w.lane w.dest).setChan d w.dest 0).setChan d w.frm frm
  let s := if s.rf (laserOf d w.dest) 2 0 == 3 then s.setRf (laserOf d w.dest) 2 0 2 else s
  if s.rf (laserOf d w.frm) 2 0 == 2 then s.setRf (laserOf d w.frm) 2 0 3 else s

/-- The repaired quad of a MODE 1 swap is checked under R208 at once (R251). -/
def State.tryQuad (s : State) (d : Nat) (w : Swap) : State :=
  if w.mode == 1 then s.modLink d fun l => { l with trying := Nat.lor l.trying (2 ^ laneQuad d w.lane) } else s

/-- The end of a swap at the end that led it (R250 step 4): the map moves, FROM is free, event 0x2201. -/
def State.swapDone (s : State) (d : Nat) (w : Swap) : State :=
  let s := s.moveLane d w (if w.cal then 2 else if w.mode == 1 then s.chanHealth d w.frm else 1)
  let s := if isCampus d then s.setRx d w.lane w.dest else s
  let s := ((s.bump (adrSwaps (d - 4))).portEvent 0x2201 d [w.lane, w.frm, w.dest]).sendSwap d 0xA8 w
  let s := s.modGleed d fun g => { g with tx := none, cal := if w.cal then some w.frm else g.cal }
  (s.tryQuad d w).repairNext d

/-- The swap that an ordered set names. -/
def swapOf (os : List Byte) : Swap := ⟨u8 os 1, u8 os 2, u8 os 3, u8 os 0xC, false, false⟩

/-- Two swaps are the same. -/
def sameSwap (a b : Swap) : Bool := a.lane == b.lane && a.frm == b.frm && a.dest == b.dest && a.mode == b.mode

/-- A swap ordered set is good and names a lane and channels of the port. -/
def swapGood (d typ : Nat) (os : List Byte) : Bool :=
  osGood os && u8 os 0 == typ && decide (u8 os 1 < gldLanes d) && decide (u8 os 2 < gldChans (d - 4))
    && decide (u8 os 3 < gldChans (d - 4)) && decide (u8 os 0xC ≤ 1)

/-- A SWAP_REQ arrives (R249, R250 step 2): of two that cross on a campus port, the end with the lower CHIP_ID leads, and
the other reissues its own later. -/
def State.swapReq (s : State) (d : Nat) (os : List Byte) : State :=
  if !swapGood d 0xA6 os || !s.flitUp d then s
  else
    let g := s.gleed d
    match (if isCampus d then g.tx else none) with
    | some w =>
      if ownId < u64 os 4 then s
      else if w.mode == 1 then s.setGleed d { g with tx := none, rx := some (swapOf os), lost := insNat g.lost w.lane }
      else s.setGleed d { g with tx := none, rx := some (swapOf os), again := some w.lane }
    | none => s.setGleed d { g with rx := some (swapOf os) }

/-- SWAP_REQ_RECEIVED (R250 step 2). -/
def execSwapReqReceived (d : Nat) (os : List Byte) (s : State) : Res := .next (if isGld d then s.swapReq d os else s)

/-- SWAP_TO_VERIFIED (R250 step 3): with 1,000 clean codewords or frames on TO the receiver switches its input and sends
SWAP_ACK; otherwise the swap is abandoned here. -/
def execSwapToVerified (d : Nat) (ok : Bool) (s : State) : Res :=
  .next (match (if isGld d then (s.gleed d).rx else none) with
    | none => s
    | some w =>
      if ok then
        let s := if s.rxChan d w.lane == w.dest then s else s.setRx d w.lane w.dest
        s.sendSwap d 0xA7 w
      else (s.dropSwap d (some w)).modGleed d fun g => { g with rx := none })

/-- A SWAP_ACK arrives (R250 step 4). -/
def State.swapAck (s : State) (d : Nat) (os : List Byte) : State :=
  match (s.gleed d).tx with
  | none => s
  | some w => if swapGood d 0xA7 os && sameSwap (swapOf os) w then s.swapDone d w else s

/-- SWAP_ACK_RECEIVED (R250 step 4). -/
def execSwapAckReceived (d : Nat) (os : List Byte) (s : State) : Res := .next (if isGld d then s.swapAck d os else s)

/-- A SWAP_DONE arrives: FROM is free at this end too; on a campus port this end's outward carrier has moved as well, and a
request that gave way is made again (R249, R250). A repaired quad is checked at this end too (R251). -/
def State.swapDoneRx (s : State) (d : Nat) (os : List Byte) : State :=
  match (s.gleed d).rx with
  | none => s
  | some w =>
    if !(swapGood d 0xA8 os && sameSwap (swapOf os) w) then s
    else
      let s := s.modGleed d fun g => { g with rx := none }
      let s := if isCampus d then s.moveLane d w (if w.mode == 1 then 4 else 1) else s
      (s.tryQuad d w).swapNext d

/-- SWAP_DONE_RECEIVED (R250). -/
def execSwapDoneReceived (d : Nat) (os : List Byte) (s : State) : Res := .next (if isGld d then s.swapDoneRx d os else s)

/-- A swap passes its time limit (R250): it is abandoned, and a lane in need of repair tries again on another spare. -/
def execSwapTimeLimit (d : Nat) (s : State) : Res :=
  .next (
    if !isGld d then s
    else
      let g := s.gleed d
      match g.tx with
      | some w =>
        let s := (s.dropSwap d (some w)).modGleed d fun g => { g with tx := none }
        if w.mode == 1 then
          (s.modGleed d fun g => { g with lost := insNat g.lost w.lane }).repairTry d
        else s
      | none =>
        match g.rx with
        | some w => (s.dropSwap d (some w)).modGleed d fun g => { g with rx := none }
        | none => s)

/-! Calibration in use (R252). -/

/-- The next channel to visit, in increasing order: an active or a suspect one (R250, R252). -/
def State.nextChan (s : State) (d : Nat) : Option Nat :=
  let ok := fun c => s.chanHealth d c == 0 || s.chanHealth d c == 3
  let l := (List.range (gldChans (d - 4))).filter ok
  match l.find? fun c => (s.gleed d).visited ≤ c with
  | some c => some c
  | none => l.head?

/-- CHANNEL_CAL_VISIT (R252): a port visits its next channel; with no healthy spare, 0x2207. -/
def execChannelCalVisit (d : Nat) (s : State) : Res :=
  .next (
    if !isGld d || (s.gleed d).cal.isSome || !s.swapFree d then s
    else match s.nextChan d with
      | none => s
      | some c =>
        match s.laneOf d c, s.bestSpare d with
        | none, _ => (s.setChan d c 2).modGleed d fun g => { g with cal := some c, visited := c + 1 }
        | some _, none => s.portEvent 0x2207 d []
        | some l, some dest => (s.modGleed d fun g => { g with visited := c + 1 }).startSwap d l dest 0 true)

/-- Crosstalk coefficient of ring `c` for the neighbour `j` places on (R247): that of its last calibration, else the factory's. -/
def State.ringCoef (s : State) (d c : Nat) (j : Int) : Int :=
  let i := (if j < 0 then j + 3 else j + 2).toNat
  sext 16 (match tfind (s.gleed d).coef c with
    | some l => l.getD i 0
    | none => (Config.ringCrosstalk d c i).toNat)

/-- The drive applied to the heater of ring `c` of a rack port, in units of 2^-15 of a code: its mean drive through the banded crosstalk
correction of R160 over 3 neighbours on each side (R247). -/
def State.ringDrive (s : State) (d c : Nat) : Int :=
  let h := fun (n : Nat) => ((tget 0 (s.gleed d).heat n : Nat) : Int)
  ([-3, -2, -1, 1, 2, 3] : List Int).foldl (fun v j =>
    let n := (c : Int) + j
    if 0 ≤ n && n < 18 then v - s.ringCoef d c j * h n.toNat else v) (32768 * h c)

/-- What a calibration found takes effect (R240, R247, R252, R262): laser bias and power, quality, and on a rack port the PAM4 codes,
the ring's mean drive and its coefficients, with the drives of all rings applied anew. -/
def State.chanCal (s : State) (d c : Nat) (m : ChanCal) : State :=
  let s := (s.setRf (laserOf d c) 15 8 m.bias).setRf (laserOf d c) 31 16 m.power
  let s := s.setRf (adrGldChanHealth (d - 4) c) 31 16 m.quality
  let s := s.modGleed d fun g => { g with dim := g.dim.filter fun x => x.2 != c }
  if isCampus d then s
  else
    let s := s.modGleed d fun g => { g with dac := tset [] g.dac c m.dac, heat := tset 0 g.heat c m.heat, coef := tput g.coef c m.coef }
    s.modGleed d fun g => { g with drive := (List.range 18).foldl (fun t k => tset 0 t k (s.ringDrive d k)) [] }

/-- CHANNEL_CAL_DONE (R250, R252): the channel becomes a spare, or suspect when its calibration did not pass. -/
def execChannelCalDone (d : Nat) (pass : Bool) (s : State) (m : ChanCal := {}) : Res :=
  .next (match (if isGld d then (s.gleed d).cal else none) with
    | none => s
    | some c =>
      let s := if pass then s.chanCal d c m else s
      ((s.setChan d c (if pass then 1 else 3)).modGleed d fun g => { g with cal := none }).swapNext d)

/-! Faults of channels (R245, R247, R257, R258, R261). -/

/-- Port and channel of a port laser (R244). -/
def laserPort (i : Nat) : Nat × Nat :=
  if i < 18 then (4, i) else if i < 36 then (5, i - 18) else if i < 41 then (6, i - 36) else (7, i - 41)

/-- Laser `i` fails (R245, R246): event 0x2203; its channel is repaired, or its lightbank changes lasers. -/
def State.laserFail (s : State) (i : Nat) : State :=
  let s := s.setRf (adrGldLaser i) 2 0 5
  if i < 46 then
    let (d, c) := laserPort i
    (s.eventD 0x2203 i ((s.portOwner d).getD 0xFF) []).chanFail d c 4
  else
    let b := (i - 46) / 2
    let s := s.eventD 0x2203 i ((s.bankOwner b).getD 0xFF) []
    if s.rf (adrLbkStatus b) 7 7 == i % 2 then s.bankLaser b else s

/-- Bias and after-laser power of laser `i`, as its monitor reads them (R262). -/
def State.laserReads (s : State) (i bias power : Nat) : State := (s.setRf (adrGldLaser i) 15 8 bias).setRf (adrGldLaser i) 31 16 power

/-- LASER_FAILED (R245). -/
def execLaserFailed (i : Nat) (s : State) (bias : Nat := 0) (power : Nat := 0) : Res :=
  .next (if i < 50 && s.rf (adrGldLaser i) 2 0 != 5 then (s.laserReads i bias power).laserFail i else s)

/-- LASER_WORN (R245): event 0x2204; the laser stays in use until its channel's next visit. -/
def execLaserWorn (i bias : Nat) (s : State) (power : Nat := 0) : Res :=
  .next (
    if i < 50 && s.rf (adrGldLaser i) 2 0 != 5 then
      let s := (s.setRf (adrGldLaser i) 2 0 4).laserReads i bias power
      if i < 46 then
        let (d, c) := laserPort i
        (s.eventD 0x2204 i ((s.portOwner d).getD 0xFF) []).modGleed d fun g => { g with worn := insNat g.worn c }
      else s.eventD 0x2204 i ((s.bankOwner ((i - 46) / 2)).getD 0xFF) []
    else s)

/-- An inward channel of port `d` becomes suspect (3) or failed (4): on a campus port the carrier is repaired in both directions; on a
rack port its quad leaves the link, and the far end, which transmits it, leads the repair swap (R249, R251; log entry 73). -/
def State.rxFail (s : State) (d c h : Nat) : State :=
  if isCampus d then s.chanFail d c h
  else
    let s := s.setChan d c h
    match s.rxLaneOf d c with
    | some l => s.quadFault d (2 ^ laneQuad d l)
    | none => s

/-- One receiver reads low while others of the port are healthy (R257): the channel is suspect, and a repair swap moves its lane to a
spare; when that spare reads low too, the local ring has failed. -/
def State.rxLow (s : State) (d c : Nat) : State :=
  match s.rxLaneOf d c with
  | none => s.rxFail d c 3
  | some l =>
    match (tfind (s.gleed d).dim l).filter (· != c) with
    | some _ => (s.modGleed d fun g => { g with dim := tdel g.dim l }).rxFail d c 4
    | none => (s.modGleed d fun g => { g with dim := tput g.dim l c }).rxFail d c 3

/-- RING_LOCK_LOST (R247): event 0x2205 for a modulator ring (`rx` false) or a demultiplexer ring of a rack port, with its
lock error in 0.1 GHz. -/
def execRingLockLost (d c : Nat) (rx : Bool) (err : Nat) (s : State) : Res :=
  .next (
    if (d == 4 || d == 5) && c < 18 then
      let s := (s.setRf (adrGldChanHealth (d - 4) c) 15 8 err).portEvent 0x2205 d [c]
      if rx then s.rxFail d c 3 else s.chanFail d c 3
    else s)

/-- LIGHT_MONITOR_LOW (R257): stage 0 laser, 1 transmit branch and 2 local-oscillator branch of a campus splitter, 3 modulator, 4 one
receiver, 5 every receiver; `reading` is what the monitor reads. -/
def execLightMonitorLow (d stage c : Nat) (s : State) (reading : Nat := 0) : Res :=
  .next (
    if !isGld d || c ≥ gldChans (d - 4) || stage > 5 || ((stage == 1 || stage == 2) && !isCampus d) then s
    else
      let s := s.portEvent 0x2206 d [stage, c]
      match stage with
      | 0 =>
        let i := gldLaser0 (d - 4) + c
        if s.rf (adrGldLaser i) 2 0 == 5 then s else (s.setRf (adrGldLaser i) 31 16 reading).laserFail i
      | 4 => (s.setRf (adrGldChanHealth (d - 4) c) 31 16 reading).rxLow d c
      | 5 => s.linkDown d
      | 2 => s.rxFail d c 4
      | _ => s.chanFail d c 4)

/-- SIGNAL_ABSENT (R258): no signal on any receive channel for 100 µs limits the transmit power. -/
def execSignalAbsent (d : Nat) (s : State) : Res :=
  .next (
    if !isGld d || (s.gleed d).apr then s
    else ((s.linkDown d).modGleed d fun g => { g with apr := true }).portEvent 0x220A d [])

/-- APR_PROBE_TIMER (R258): a full-power probe while power is limited. -/
def execAprProbeTimer (d : Nat) (s : State) : Res :=
  .next (if isGld d && (s.gleed d).apr then s.emit (.probe d) else s)

/-- SIGNAL_RESTORED (R258): signal for 1 ms restores full power, and training starts. -/
def execSignalRestored (d : Nat) (s : State) : Res :=
  .next (
    if isGld d && (s.gleed d).apr then
      let s := s.modGleed d fun g => { g with apr := false }
      if s.mayTrain d then s.startTraining d else s
    else s)

/-- LASER_SECTION_OUT_OF_RANGE (R261): event 0x2208. -/
def execLaserSectionOutOfRange (s : State) : Res := .next (if s.boot == .off then s else s.event 0x2208 0xFF 0xFF)

/-! Campus line frames (R243). -/

/-- An ordered set in a line-frame slot, by its TYPE (R183, R249, R280). -/
def State.osRx (s : State) (d : Nat) (os : List Byte) : State :=
  match u8 os 0 with
  | 0xA1 => s.initRx d os
  | 0xA2 => s.reqRx d os
  | 0xA3 => s.ackRx d os
  | 0xA4 => if osGood os then s.pauseRx d else s
  | 0xA5 => s.resumeRx d os
  | 0xA6 => s.swapReq d os
  | 0xA7 => s.swapAck d os
  | 0xA8 => s.swapDoneRx d os
  | 0xA9 => s.timeReq d os
  | 0xAA => s.timeRsp d os
  | _ => s

/-- MARKER and CRC of a line frame are good (R243). -/
def lineGood (b : List Byte) : Bool :=
  b.length == 4128 && u64 b 0 == 0xA5C3690FF0963C5A && u32 b 0x1C == crc32c (slice b 0 0x1C)

/-- One slot of a line frame: an ordered set, or a flit. A frame that failed its overhead check is held as no bytes, and its slots are
lost. -/
def State.slotRx (s : State) (d : Nat) (b : List Byte) (i : Nat) : State :=
  if b.isEmpty then s
  else
    let x := slice b (32 + 128 * i) 128
    if bitAt (u32 b 0x10) i then s.osRx d (x.take 16) else s.flitRx d x false

/-- The slots of one line frame of each quad, row by row in increasing quad order: the order in which they were sent (R182). -/
def State.unpackLines (s : State) (d : Nat) (bs : List (List Byte)) : State :=
  s.each (List.range 32) fun s i => s.each bs fun s b => s.slotRx d b i

/-- A line frame of quad `q` (R182, R243): on a link that carries flits it waits for the frames of the other active quads, else its
ordered sets act at once. -/
def State.lineRx (s : State) (d q : Nat) (b : List Byte) : State :=
  let l := s.link d
  if !(s.flitUp d || l.step == 6) then s.unpackLines d [b]
  else
    let s := s.modGleed d fun g => { g with lines := tset [] g.lines q (tget [] g.lines q ++ [b]) }
    let qs := onesOf 8 l.active
    let ls := (s.gleed d).lines
    if qs.all fun k => !(tget [] ls k).isEmpty then
      let s := s.modGleed d fun g => { g with lines := qs.foldl (fun t k => tset [] t k ((tget [] t k).drop 1)) g.lines }
      s.unpackLines d (qs.map fun k => (tget [] ls k).headD [])
    else s

/-- Alignment after a frame (R243): taken after 3 good in a row, lost after 4 failures in a row. -/
def Align.next (a : Align) (good : Bool) : Align :=
  if good then { good := min 3 (a.good + 1), bad := 0, locked := a.locked || decide (3 ≤ a.good + 1) }
  else { good := 0, bad := min 4 (a.bad + 1), locked := a.locked && decide (a.bad + 1 < 4) }

/-- LINE_FRAME_RECEIVED (R243): a frame on carrier `c` of campus port `d`; `fec` marks one whose oFEC could not correct it (R188), which
counts as a failed frame. Only the carrier in use for a quad is unpacked: a copy on TO serves the comparison of R250 alone. Losing
alignment makes the carrier's quad faulty (R207). -/
def execLineFrameReceived (d c : Nat) (frame : List Byte) (s : State) (fec : Bool := false) : Res :=
  .next (
    if !(d == 6 || d == 7) || c ≥ 5 then s
    else
      let good := lineGood frame && !fec
      let a := tget {} (s.gleed d).aligns c
      let n := a.next good
      let s := s.modGleed d fun g => { g with aligns := tset {} g.aligns c n }
      let s := if fec then s.bump (adrFecUncorrected (d - 4)) else s
      match s.rxLaneOf d c with
      | none => s
      | some q =>
        if n.locked then s.lineRx d q (if good then frame else [])
        else if a.locked then s.quadFault d (2 ^ q)
        else s)

end Sys2Proof.Machine
end

