-- ==== Sys2Proof/Machine/Quench.lean ====
section
/-! DEFINITION. Quench (R422 to R439): valve cycles and coils, the forecast and its fallback, hints, temperature levels and
calibration. Times are milliseconds of the valve clock, temperatures 0.01 °C, heats mW. -/
namespace Sys2Proof.Machine

/-- Change what Quench keeps. -/
def State.modQch (s : State) (f : Qch → Qch) : State := { s with qch := f s.qch }

/-- Replace section `x`. -/
def State.setSection (s : State) (x : Nat) (q : Section) : State :=
  s.modQch fun h => { h with sections := tset {} h.sections x q }

/-- Replace valve `v`. -/
def State.setValve (s : State) (v : Nat) (x : Valve) : State := s.modQch fun h => { h with valves := tset {} h.valves v x }

/-! Coils (R425 to R427). -/

/-- PULL_TIME of a valve in ms. -/
def State.pullTime (s : State) (v : Nat) : Nat := s.rf (adrQchValveCfg v) 5 0

/-- Start a pull-in at `t` with its profile end. -/
def State.pullIn (s : State) (v t e : Nat) : State :=
  (s.setValve v { s.valve v with phase := .pullIn, startAt := t, endAt := e, pend := none }).emit (.coil v 1)

/-- An energise command at `t` with end `e`, by the phase it meets (R426). -/
def State.energise (s : State) (v t e : Nat) : State :=
  let x := s.valve v
  match x.phase with
  | .off => s.pullIn v t e
  | .pullIn => s.setValve v { x with endAt := max x.endAt e }
  | .hold => s.setValve v { x with endAt := max x.endAt e }
  | .releaseWait => s.setValve v { x with pend := some (max (x.pend.getD 0) e) }
  | .forcedOff => s.setValve v { x with pend := some (max (x.pend.getD 0) e) }
  | .failed => s

/-- A normal release at `t` (R425): off by the valve's DECAY for RELEASE_MIN. -/
def State.release (s : State) (v t : Nat) : State :=
  (s.setValve v { s.valve v with phase := .releaseWait, endAt := t + 20, pend := none }).emit
    (.coil v (if s.rf (adrQchValveCfg v) 20 20 == 1 then 3 else 0))

/-- A waiting phase ends (R426): PULL_IN starts if PENDING is later than that instant. -/
def State.waitOver (s : State) (v : Nat) : State :=
  let x := s.valve v
  match x.pend with
  | some e => if e > x.endAt then s.pullIn v x.endAt e else s.setValve v { x with phase := .off, pend := none }
  | none => s.setValve v { x with phase := .off }

/-- Average of a list, rounded half up. -/
def average (l : List Nat) : Nat := if l.isEmpty then 0 else (2 * l.foldl (· + ·) 0 + l.length) / (2 * l.length)

/-- A delay in its range of 8 to 60 ms, else 60 (R435). -/
def clampDelay (d : Nat) : Nat := if 8 ≤ d && d ≤ 60 then d else 60

/-- The armature's closing delay measured in a pull-in (R434): DELAY is the larger of the two delays, once the opening
delay is known. -/
def State.dip (s : State) (v : Nat) (d : Option Nat) : State :=
  match d with
  | none => s
  | some d =>
    let x := s.valve v
    let l := (d :: x.closing).take 8
    let s := s.setValve v { x with closing := l }
    match x.opening with
    | none => s
    | some o =>
      let m := max (average l) o
      let s := if m != clampDelay m then s.event 0x410B v 0xFF else s
      s.setRf (adrQchValveCal v) 6 0 (clampDelay m)

/-! OPEN_MS (R424, R429 to R432, R436 to R439). -/

/-- QCH_CFG.MODE. -/
def State.qchMode (s : State) : Nat := s.rf adrQchCfg 1 0

/-- A temperature level of section `x`, or a TRIP anywhere, holds its valve open (R437). -/
def State.heldOpen (s : State) (x : Nat) : Bool := s.level x != 0 || s.tripped

/-- Largest forecast heat over the bins that overlap the 100 ms window at `t` (R429). -/
def State.peak (s : State) (x t : Nat) : Nat :=
  (s.section x).bins.zipIdx.foldl (fun m (h, b) =>
    let lo := s.qch.forecastAt + 4 * b
    if lo < t + 100 && t < lo + 4 then max m h else m) 0

/-- OPEN_MS from a heat in mW (R429), rounded half up and at most 100. -/
def State.openFor (s : State) (x heat : Nat) : Nat :=
  let q := s.section x
  let mn := s.rf (adrQchSectionFlow x) 6 0
  let hf := max 1 (s.rf (adrQchSectionFlow x) 17 7)
  let gain := s.rf (adrQchSectionFlow x) 23 18
  let target := 100 * s.rf (adrQchSectionLimits x) 7 0
  let num := mn * 1000 * hf + (100 - mn) * heat + gain * (q.temp - target) * 10 * hf
  min 100 ((2 * num + 1000 * hf) / (2 * 1000 * hf))

/-- OPEN_MS of S5 by the duty of its heaters in percent (R430). -/
def State.laserOpen (s : State) (duty : Nat) : Nat :=
  let mn := s.rf (adrQchSectionFlow 5) 6 0
  let o := s.qch.lasers
  max mn (min 100 (if duty > 60 then o - 5 else if duty < 20 then o + 5 else o))

/-- OPEN_MS of section `x` for the cycle that starts at `t`: the level first (R437), then manual mode (R432), S5's heaters
(R430), idle heat in PARK and changeovers (R439), measured heat in reactive mode (R431), and the forecast (R429). -/
def State.openAt (s : State) (x t duty meas : Nat) : Nat :=
  if s.heldOpen x then 100
  else if s.qchMode == 2 then min 100 (s.rf (adrQchValveCfg x) 27 21)
  else if x == 5 then s.laserOpen duty
  else if s.parked || s.switching then s.openFor x (s.section x).idle
  else if (s.section x).run == 1 then s.openFor x meas
  else s.openFor x (s.peak x (t + s.rf (adrQchValveCal x) 6 0 + s.rf (adrQchValveCal x) 13 7))

/-- Closed time of a cycle (R424). -/
def State.closedMs (s : State) (v o : Nat) : Nat :=
  let c := 100 - o
  if c < s.pullTime v then 0 else if c > 80 then 100 else c

/-- Valve `v`'s cycle starts (R424): 12v modulo 100 on the valve clock. -/
def execValveCycleStart (v duty meas : Nat) (s : State) : Res :=
  .next (
    let t := s.valveMs
    if v ≥ 8 || t % 100 != 12 * v % 100 || !s.aux || s.bel.st == .dark then s
    else
      let o := s.openAt v t duty meas
      let s := if v == 5 && !s.heldOpen 5 && s.qchMode != 2 then s.modQch fun h => { h with lasers := s.laserOpen duty } else s
      let s := s.setSection v { s.section v with openMs := o }
      let c := s.closedMs v o
      if c == 0 then s else s.energise v t (t + c))

/-- PULL_TIME ends (R425, R426), with the closing delay if the dip has come: HOLD, or release at or after the profile
end. -/
def execPullTimeEnd (v : Nat) (closing : Option Nat) (s : State) : Res :=
  .next (
    if v ≥ 8 || (s.valve v).phase != .pullIn then s
    else
      let s := s.dip v closing
      let x := s.valve v
      let t := x.startAt + s.pullTime v
      if x.endAt ≤ t then s.release v t else (s.setValve v { x with phase := .hold }).emit (.coil v 2))

/-- The profile end is reached in HOLD (R426), with the closing delay if the dip came in HOLD. -/
def execProfileEnd (v : Nat) (closing : Option Nat) (s : State) : Res :=
  .next (
    if v ≥ 8 || (s.valve v).phase != .hold then s
    else let s := s.dip v closing; s.release v (s.valve v).endAt)

/-- RELEASE_WAIT ends (R426). -/
def execReleaseWaitEnd (v : Nat) (s : State) : Res :=
  .next (if v < 8 && (s.valve v).phase == .releaseWait then s.waitOver v else s)

/-- FORCED_OFF ends (R426). -/
def execForcedOffEnd (v : Nat) (s : State) : Res :=
  .next (if v < 8 && (s.valve v).phase == .forcedOff then s.waitOver v else s)

/-- The 50 ms limit of a pull-in (R427): HOLD, event 0x4102. -/
def execPullInLimit (v : Nat) (s : State) : Res :=
  .next (
    if v < 8 && (s.valve v).phase == .pullIn then
      ((s.setValve v { s.valve v with phase := .hold }).emit (.coil v 2)).event 0x4102 v 0xFF
    else s)

/-- The 4.0 s limit (R427): forced release by fast decay for 200 ms. -/
def execOnTimeLimit (v : Nat) (s : State) : Res :=
  .next (
    let x := s.valve v
    if v < 8 && (x.phase == .pullIn || x.phase == .hold) then
      (((s.setValve v { x with phase := .forcedOff, endAt := x.startAt + 4200, pend := none }).emit (.coil v 0)).bump
        adrForcedReleases).event 0x4101 v 0xFF
    else s)

/-- An open or shorted coil (R438): the valve fails open. -/
def execCoilFault (v : Nat) (s : State) : Res :=
  .next (
    let x := s.valve v
    if v < 8 && (x.phase == .pullIn || x.phase == .hold) then
      ((s.setValve v { x with phase := .failed, pend := none }).emit (.coil v 0)).event 0x4103 v 0xFF
    else s)

/-- A pull-in shows no dip within 60 ms (R434). -/
def execArmatureNoMotion (v : Nat) (s : State) : Res :=
  .next (
    if v < 8 && ((s.valve v).phase == .pullIn || (s.valve v).phase == .hold) then s.event 0x4104 v 0xFF else s)

/-- CLEAR of a valve (R438): FAILED becomes OFF. -/
def State.clearValve (s : State) (v : Nat) : State :=
  if (s.valve v).phase == .failed then s.setValve v { s.valve v with phase := .off } else s

/-! Forecast and fallback (R428, R431, R433). -/

/-- The end of a hint in TCLK cycles of machine time. -/
def Hint.stop (h : Hint) : Nat := h.start + 100 * h.dur

/-- Drop the hints of partition `p` whose end has passed (R433). -/
def State.dropHints (s : State) (p : Nat) : State :=
  s.modPart p fun q => { q with hints := q.hints.filter fun h => decide (s.machineTime < h.stop) }

/-- Largest POWER in mW of a partition's hints for a section that cover bin `b` (R428). -/
def State.hintHeat (s : State) (p x b : Nat) : Nat :=
  if !s.clk.running then 0
  else
    let lo := s.machineTime + 400000 * b
    (s.part p).hints.foldl (fun m h =>
      if h.section_ == x && h.start < lo + 400000 && lo < h.stop then max m (1000 * h.heat) else m) 0

/-- Heat of partition `p` in bin `b` of section `x`: the larger of schedule plus lap heat and hint heat (R428). -/
def State.partHeat (s : State) (heat : List (List (List Nat))) (p x b : Nat) : Nat :=
  max (((heat.getD p []).getD x []).getD b 0) (s.hintHeat p x b)

/-- Heat of bin `b` of section `x` (R428). S7 takes 10 % of the forecast of S0 to S6; no work runs in PARK or a changeover
(R439). -/
def State.binHeat (s : State) (heat : List (List (List Nat))) (x b : Nat) : Nat :=
  let work := fun y => if s.parked || s.switching then 0 else allParts.foldl (fun n p => n + s.partHeat heat p y b) 0
  let all := fun y => work y + (s.section y).idle
  if x == 7 then max ((List.range 7).foldl (fun n y => n + all y) 0 / 10) (work 7) else all x

/-- The mode of section `x` after a change of what R431 depends on, with its event. -/
def State.runSettle (s : State) (x : Nat) : State :=
  let q := s.section x
  let m := s.qchMode
  if m == 2 then s.setSection x { q with run := 2 }
  else if x == 5 then s.setSection x { q with run := 0 }
  else
    let want := if m == 1 || s.qch.silent || decide (3 ≤ q.high) then 1 else if q.run == 1 && decide (q.calm < 25) then 1 else 0
    if want == q.run then s
    else if want == 1 then
      ((s.setSection x { q with run := 1, high := 0, calm := 0 }).bump adrReactiveEntries).event 0x4105 x 0xFF
    else
      let s := s.setSection x { q with run := 0, high := 0, calm := 0 }
      if q.run == 1 then s.event 0x4106 x 0xFF else s

/-- The bin just ended, judged against its forecast (R431). -/
def judgeBin (q : Section) (meas : Nat) : Section :=
  match q.bins with
  | [] => q
  | f :: _ =>
    let above := decide (meas * 10 > f * 12) && decide (meas > f + 10000)
    let d := if meas > f then meas - f else f - meas
    let calm := decide (10 * d ≤ f) || decide (d ≤ 10000)
    { q with high := if above then q.high + 1 else 0, calm := if calm then q.calm + 1 else 0 }

/-- Every 4 ms (R428): `heat` is schedule plus lap heat by partition, section and bin, `meas` the power measured over the
last bin by section. -/
def execForecastTick (heat : List (List (List Nat))) (meas : List Nat) (s : State) : Res :=
  .next (
    if s.boot == .off || s.boot == .rom || s.boot == .recovery then s
    else
      let s := s.each allParts State.dropHints
      let s := s.each allSections fun s x => s.setSection x (judgeBin (s.section x) (meas.getD x 0))
      let bins := allSections.map fun x => (List.range 64).map (s.binHeat heat x)
      let s := s.each allSections fun s x => s.setSection x { s.section x with bins := bins.getD x [] }
      let s := s.modQch fun h => { h with silent := false, forecastAt := s.valveMs }
      s.each allSections State.runSettle)

/-- No forecast has reached the valve engine for 20 ms (R431). -/
def execForecastSilence (s : State) : Res :=
  .next (if !s.aux then s else (s.modQch fun h => { h with silent := true }).each allSections State.runSettle)

/-- The hint that a record names (R433). -/
def hintOf (b : List Byte) : Hint := ⟨u64 b 0, u32 b 8, u16 b 0xC, u8 b 0xE⟩

/-- A hint record is accepted (R433). -/
def State.hintOk (s : State) (p : Nat) (b : List Byte) : Bool :=
  let h := hintOf b
  decide (1 ≤ h.dur) && decide (h.dur ≤ 60000000) && decide (h.heat ≤ 1250) && decide (h.section_ ≤ 7) && u8 b 0xF == 0
    && decide (s.machineTime < h.stop) && decide (h.start ≤ s.machineTime + 6000000000)
    && (decide (4 ≤ h.section_) || s.anvilOwner (2 * h.section_) == some p || s.anvilOwner (2 * h.section_ + 1) == some p)
    && decide ((s.part p).hints.length < 512)

/-- Take hint records in order (R433): how many are accepted. -/
def State.takeHints (s : State) (p : Nat) : List (List Byte) → Nat → Nat × State
  | [], n => (n, s)
  | b :: bs, n =>
    if s.hintOk p b then (s.modPart p fun q => { q with hints := q.hints ++ [hintOf b] }).takeHints p bs (n + 1)
    else
      let x := u8 b 0xE
      ((s.bump adrHintsRefused).event 0x410D (if x ≤ 7 then x else 0xFF) p).takeHints p bs n

/-- THERMAL_HINT (R392, R433). -/
def execThermalHint (k : Nat) (s : State) : Res :=
  runOp 0x81 k (fun x s =>
    let n := u16 x.bytes 0x14
    let s := s.dropHints x.part
    match s.load x.part (u32 x.bytes 0x10) (16 * n) with
    | (none, s) => s.failEv k 0x7F 0x1103
    | (some d, s) =>
      let (a, s) := s.takeHints x.part ((List.range n).map fun i => slice d (16 * i) 16) 0
      s.done k (leBytes 2 a)) s

/-! Temperature levels (R436 to R438). -/

/-- Limit `j` of a section in °C: 1 THROTTLE, 2 STOP, 3 TRIP. -/
def State.limit (s : State) (x j : Nat) : Nat := bits (s.reg (adrQchSectionLimits x)).toNat (8 * j + 7) (8 * j)

/-- Highest of THROTTLE, STOP and TRIP that a temperature reaches. -/
def State.reached (s : State) (x t : Nat) : Nat :=
  if 100 * s.limit x 3 ≤ t then 3 else if 100 * s.limit x 2 ≤ t then 2 else if 100 * s.limit x 1 ≤ t then 1 else 0

/-- Level of a section after a sample, from the samples counted 2 °C below each limit (R436). -/
def levelAfter (r old : Nat) (cool : List Nat) : Nat :=
  let o := if old == 4 then 1 else old
  let keep := fun j => decide (j ≤ o) && decide (cool.getD (j - 1) 0 < 100)
  let l := if r ≥ o then r else if keep 3 then 3 else if keep 2 then 2 else if keep 1 then 1 else 0
  if old == 4 && l == 1 && r == 0 then 4 else l

/-- Running packets on anvils, vector units and tongs complete with THERMAL_LIMIT and stop as in R412 (R437). -/
def State.tripWork (s : State) : State :=
  let n := s.pkts.length
  let s := s.each (List.range 32) fun s t => s.haltTong t 0x60
  let s := s.each (List.range 8) fun s a => s.haltAnvil a 0x60
  (s.bumpBy adrThermalStops (n - s.pkts.length)).haltWorks 0x60

/-- A section enters or leaves a level (R437). -/
def State.toLevel (s : State) (x l : Nat) : State :=
  let old := s.level x
  let was := s.shedOn
  let s := s.setSection x { s.section x with level := l }
  if l == old then s
  else
    let s := if l == 1 then s.event 0x4107 x 0xFF else if l == 2 then s.event 0x4108 x 0xFF
      else if l == 3 then s.event 0x4109 x 0xFF else s
    let s := if !was && s.shedOn then s.bump adrShedEvents else s
    let s := if x == 5 && (l == 2 || l == 3) then s.each [0, 1] fun s b => s.bankFall b 10 else s
    let s := if x == 5 && l != 2 && l != 3 then
        s.each [0, 1] fun s b => s.each (s.bank b).blocks fun s (k, _) => s.blockLift b k [10]
      else s
    if l == 3 then s.tripWork else s

/-- Every 1 ms (R422, R436): the temperature of section `x` and the coil current of its valve in mA. -/
def execSectionTempSample (x t ma : Nat) (s : State) : Res :=
  .next (
    if x ≥ 8 || !s.aux then s
    else
      let q := s.section x
      let cool := [1, 2, 3].map fun j => if t + 200 ≤ 100 * s.limit x j then min 100 (q.cool.getD (j - 1) 0 + 1) else 0
      let l := levelAfter (s.reached x t) q.level cool
      let s := (s.setSection x { q with temp := t, cool := cool }).setRf (adrQchValveStatus x) 14 3 (min ma 4095)
      s.toLevel x l)

/-- A temperature source gives no valid reading for 10 ms (R438). -/
def execTempSourceFault (x : Nat) (s : State) : Res :=
  .next (
    if x ≥ 8 || s.level x == 4 then s
    else
      let s := s.event 0x410A x 0xFF
      let q := s.section x
      if q.level ≥ 2 then s else s.setSection x { q with level := 4, cool := [] })

/-- Each 1 ms (R437): the step cap of every section but S5 falls by 2 while a level holds, and rises by 1 after. -/
def execThrottleStepPeriod (s : State) : Res :=
  .next (s.each allSections fun s x =>
    if x == 5 then s
    else
      let q := s.section x
      s.setSection x { q with drop := if q.level != 0 then min (s.chipSteps - 24) (q.drop + 2) else q.drop - 1 })

/-- Anvil of a packet that the STOP level may hold (R437): a weight load, pass, epilogue or vector operation. -/
def stopAnvil (x : Pkt) : Option Nat :=
  if x.opcode == 0x23 then some (u8 x.bytes 0x13)
  else if x.opcode == 0x20 || x.opcode == 0x21 || x.opcode == 0x22 then some (u8 x.bytes 0x10) else none

/-- A packet has been held at the STOP level for 100 ms (R437). -/
def execStopHoldTimeout (k : Nat) (s : State) : Res :=
  .next (match s.pkt k with
    | none => s
    | some x =>
      match stopAnvil x with
      | none => s
      | some a =>
        if (s.startable k x.opcode).isSome && s.stopOn a then (s.failPkt k 0x60).bump adrThermalStops else s)

/-! Calibration (R434, R435). -/

/-- QCH_CTRL.CALIBRATE (R435): refused with 0x410C while a partition is LOCKED. -/
def State.calibrate (s : State) : State :=
  if allParts.any s.locked then s.event 0x410C 0xFF 0xFF
  else if s.qch.cal.isSome then s
  else s.modQch fun h => { h with cal := some 0 }

/-- A section's visit ends with what it measured (R435): closing and opening delays and transit in ms, idle heat in mW. After
the last one the calibration is saved (R465). -/
def execQchCalibrationDone (closing opening transit idle : Nat) (s : State) : Res :=
  .next (match s.qch.cal with
    | none => s
    | some x =>
      let d := max closing opening
      let t := if 5 ≤ transit && transit ≤ 96 then transit else 96
      let s := if clampDelay d != d || t != transit then s.event 0x410B x 0xFF else s
      let s := s.setReg (adrQchValveCal x) (wd (clampDelay d + 2 ^ 7 * t + 2 ^ 14))
      let s := s.setValve x { s.valve x with closing := [closing], opening := some opening }
      let s := s.setSection x { s.section x with idle := idle }
      let s := s.modQch fun h => { h with cal := if x < 7 then some (x + 1) else none }
      if x < 7 then s else s.ownAsk 2)

end Sys2Proof.Machine
end

