-- ==== Sys2Proof/Machine/WriteOps.lean ====
section
/-! DEFINITION. Writing registers (R295, R326, R329, R330, R514 to R526, R550): which fields of a write act, what makes it
illegal, and what each register with behaviour of its own does with it. -/
namespace Sys2Proof.Machine

/-! Which fields act (R326, R330, R517, R518, R522, R523). -/

/-- Block number of a register. -/
def RegDesc.blk (d : RegDesc) : Nat := d.base / 0x100000

/-- The partition whose instance of PRT, CMD, VEC, SEM, SEQ or PRC a register belongs to. -/
def instPart (d : RegDesc) (i : Nat) : Option Nat :=
  if d.insts == 8 && [2, 3, 5, 8, 9, 10].contains d.blk then some i else none

/-- The partition whose lock holds the RWL fields of a register (R522). -/
def State.lockPart (s : State) (d : RegDesc) (i j : Nat) : Option Nat :=
  match d.name with
  | "ANT_PART_SLICE" => some j
  | "PCI_PROXY_CFG" => some j
  | "PCI_PROXY_DEADLINE" => some j
  | "LBK_CAL_CFG" => s.bankOwner i
  | "LNK_VC_BUF" => s.portOwner i
  | _ => instPart d i

/-- The RWL fields of a register are locked (R522). -/
def State.rwlLocked (s : State) (d : RegDesc) (i j : Nat) : Bool := (s.lockPart d i j).elim false s.hasLock

/-- What a 4-byte write makes of a register word: the new word, whether a locked RWL field would have changed, whether a VF
would have changed a carve field, whether a field is outside its range, and whether any field acts. -/
structure RegWrite where
  new : Nat
  locked : Bool := false
  carve : Bool := false
  bad : Bool := false
  live : Bool := false
deriving DecidableEq, Repr

/-- One field of a write (R518): RO, locked RWL and, for a VF, carve fields ignore the written bits. -/
def RegWrite.field (pf lk : Bool) (v : Nat) (r : RegWrite) (f : Fld) : RegWrite :=
  let x := bits v f.hi f.lo
  let y := bits r.new f.hi f.lo
  if f.dom == .carve && !pf then { r with carve := r.carve || x != y }
  else match f.acc with
    | .ro => r
    | .rwl =>
      if lk then { r with locked := r.locked || x != y }
      else { r with new := putBits r.new f.hi f.lo x, bad := r.bad || decide (x < f.min) || decide (f.max < x), live := true }
    | .rw =>
      { r with new := putBits r.new f.hi f.lo x, bad := r.bad || decide (x < f.min) || decide (f.max < x), live := true }
    | .wo => { r with new := putBits r.new f.hi f.lo x, live := true }
    | .w1s => { r with new := if x == 1 then putBits r.new f.hi f.lo 1 else r.new, live := true }
    | .w1c => { r with new := if x == 1 then putBits r.new f.hi f.lo 0 else r.new, live := true }

/-- All the fields of a write. -/
def regWrite (pf lk : Bool) (d : RegDesc) (old v : Nat) : RegWrite :=
  d.flds.foldl (RegWrite.field pf lk v) { new := old }

/-- Registers that a VF may write (R517). -/
def vfWrites (d : RegDesc) : Bool :=
  [3, 5, 8, 9, 10].contains d.blk || d.name == "PRT_CTRL" || d.name == "EVR_CURSOR"

/-! Illegal writes (R470, R476, R514). -/

/-- SOURCE of a block's illegal-write event (R476). -/
def illegalSrc (d : RegDesc) (i j : Nat) : Nat :=
  match d.blk with
  | 1 => if d.n == 8 then j else 8
  | 2 => i
  | 3 =>
    if d.name.startsWith "CMD_SQ" then j else if d.name.startsWith "CMD_CQ" then 16 + j else 0xFF
  | 5 => 0xFF
  | 9 => 0xFF
  | 10 => 0xFF
  | 11 => i
  | 12 => if d.insts == 8 then i else 0xFF
  | 13 => if d.name == "ANT_PORT_CFG" then j else 0xFF
  | 14 => if d.insts == 4 then i + 4 else 0xFF
  | 17 => if d.n == 8 then j else 0xFF
  | _ => 0

/-- PARTITION of a block's illegal-write event (R476). -/
def State.illegalPart (s : State) (fn : Nat) (d : RegDesc) (i j : Nat) : Nat :=
  match instPart d i with
  | some p => p
  | none =>
    match d.blk with
    | 1 => if d.n == 8 then j else fnPart fn
    | 11 => (s.bankOwner i).getD 0xFF
    | 12 => if d.insts == 8 then (s.portOwner i).getD 0xFF else 0xFF
    | 13 => if d.name == "ANT_PART_SLICE" then j else if d.name == "ANT_PORT_CFG" then (s.portOwner j).getD 0xFF else 0xFF
    | 14 => if d.insts == 4 then (s.portOwner (i + 4)).getD 0xFF else 0xFF
    | _ => fnPart fn

/-- A write is recorded under the illegal-write event of its block (R514). -/
def State.illegal (s : State) (fn : Nat) (d : RegDesc) (i j : Nat) : State :=
  match (allBlks[d.blk]?).bind illegalEvent with
  | some e => s.event e (illegalSrc d i j) (s.illegalPart fn d i j)
  | none => s

/-- A forbidden carve write (R326). -/
def State.carveEvent (s : State) (p : Nat) : State := s.event 0x0203 p p

/-- The partition's carve may not change: LOCKED, RESETTING or FAULTED (R326). -/
def State.frozen (s : State) (p : Nat) : Bool := decide (2 ≤ s.partState p)

/-- Owner that an OWNER and OWNED field pair names: HRT_GRANULE_OWNER and ANT_PORT_CFG [3:0]. -/
def ownerField (w : Nat) : Option Nat := if bitAt w 3 then some (bits w 2 0) else none

/-- A change of a unit's owner is forbidden (R326): another partition owns it, or either partition's carve may not change. -/
def State.handBad (s : State) (old new : Option Nat) : Bool :=
  (old.isSome && new.isSome && old != new) || old.elim false s.frozen || new.elim false s.frozen

/-- An anvil is another partition's, or about to be. -/
def State.anvilTaken (s : State) (p a : Nat) : Bool :=
  (s.anvilOwner a).elim false (· != p) || (s.anvil a).clearing.elim false fun c => c < 8 && c != p

/-- The partition for which a PF write breaks R326, if it does. -/
def State.carveBad (s : State) (d : RegDesc) (i j old new : Nat) : Option Nat :=
  let taken := fun (own : Nat → Option Nat) => (onesOf 32 new).any fun u => (own u).elim false (· != i)
  let no := fun (b : Bool) (p : Nat) => if b then some p else none
  match d.name with
  | "PRT_ANVILS" => no (old != new && (s.frozen i || (onesOf 8 new).any (s.anvilTaken i))) i
  | "PRT_TONGS" => no (old != new && (s.frozen i || taken s.tongOwner)) i
  | "PRT_BANKS" => no (old != new && (s.frozen i || taken s.bankOwner)) i
  | "PRT_POWER_SHARE" => no (decide (old < new) && decide (s.bel.cap < s.shareSum - old + new)) i
  | "HRT_GRANULE_OWNER" =>
    no (bits old 3 0 != bits new 3 0 && s.handBad (ownerField old) (ownerField new)) (bits (if bitAt old 3 then old else new) 2 0)
  | "ANT_PORT_CFG" =>
    no (bits old 3 0 != bits new 3 0 && s.handBad (ownerField old) (ownerField new)) (bits (if bitAt old 3 then old else new) 2 0)
  | "SEQ_SLOT_CFG" => no (s.frozen i && (bits old 7 0 != bits new 7 0 || bits old 21 16 != bits new 21 16)) i
  | "ANT_PART_SLICE" => no (old != new && s.frozen j) j
  | "PCI_PROXY_CFG" => no (old != new && s.frozen j) j
  | _ => none

/-! What the owning rules forbid (R63, R78, R79, R148, R150, R193, R253, R262, R322, R341, R361, R363, R436, R479, R550). -/

/-- Granules that back a SEQ_SLOT_CFG word's slots and park entries (R77, R79). -/
def backing (w : Nat) : Nat := (bits w 7 0 * 128 * (1024 * 2 ^ bits w 9 8) + granBytes - 1) / granBytes + bits w 21 16

/-- Granules that back the slots and park entries of the partitions other than `p` (8 for none). -/
def State.backingBut (s : State) (p : Nat) : Nat :=
  (allParts.filter (· != p)).foldl (fun n q => n + backing (s.reg (adrSeqSlotCfg q)).toNat) 0

/-- A SEQ_SLOT_CFG word fits the free quota and the pool (R78, R79). -/
def State.slotCfgOk (s : State) (p old new : Nat) : Bool :=
  decide (bits new 7 0 * 128 ≤ s.freeQuota + bits old 7 0 * 128)
    && decide (s.backingBut p + backing new ≤ s.rf adrSeqPool 5 0)

/-- A ring base is aligned for a LOCATION (R341): host memory, here or at the serving chip, to 4,096 bytes; Hearth to 64. -/
def baseOk (location lo : Nat) : Bool := if location == 1 then lo % 64 == 0 else lo % 4096 == 0

/-- A CMD_SQ_CFG word is legal (R341, R363, R550). -/
def State.sqCfgOk (s : State) (p i old new : Nat) : Bool :=
  bits new 6 5 != 3
    && (!bitAt old 31 || (bits old 6 0 == bits new 6 0 && bits old 11 8 == bits new 11 8))
    && (bitAt old 31 || !bitAt new 31
        || (baseOk (bits new 6 5) (s.reg (adrCmdSqBaseLo p i)).toNat && s.rf (adrCmdCqCfg p (bits new 11 8)) 31 31 == 1))

/-- An enabled SQ is bound to CQ `j`. -/
def State.cqBound (s : State) (p j : Nat) : Bool :=
  (List.range 16).any fun i => s.rf (adrCmdSqCfg p i) 31 31 == 1 && s.boundCq p i == j

/-- A CMD_CQ_CFG word is legal (R341, R363, R550). -/
def State.cqCfgOk (s : State) (p j old new : Nat) : Bool :=
  bits new 6 5 != 3
    && (!bitAt old 31 || bits old 6 0 == bits new 6 0)
    && (!bitAt old 31 || bitAt new 31 || (!s.cqBound p j && (s.cq p j).reserved == 0))
    && (bitAt old 31 || !bitAt new 31 || baseOk (bits new 6 5) (s.reg (adrCmdCqBaseLo p j)).toNat)

/-- A hop timing pair is legal (R63): custody deadline in 10 µs, recovery window in ms. -/
def hopOk (custody recovery : Nat) : Bool := decide (2 * custody ≤ 100 * recovery)

/-- The hop timing words are legal together (R63). -/
def hopsOk (t0 t1 : Nat) : Bool := hopOk (bits t0 15 0) (bits t1 15 0) && hopOk (bits t0 31 16) (bits t1 31 16)

/-- Receive buffers in units, VC `v` taking `n` (R193, R253). -/
def State.vcUnits (s : State) (d v n : Nat) : List Nat :=
  (List.range 8).map fun w => if w == v then n else s.rf (adrLnkVcBuf d w) 6 0

/-- A link is down for a change of its buffers (R193). -/
def State.quiet (s : State) (d : Nat) : Bool := (s.link d).st == .disabled || (s.link d).st == .down

/-- A division of a receive buffer is legal (R193, R253): the VC's own limit, the total, and the least of VC0 and VC6. -/
def vcBufOk (d : Nat) (l : List Nat) : Bool :=
  let top := if d < 4 then 127 else if d < 6 then 64 else 127
  let total := if d < 4 then 256 else 128
  let least := if d < 4 then 2 else if d < 6 then 1 else 4
  l.all (fun n => decide (n ≤ top)) && decide (l.foldl (· + ·) 0 ≤ total) && decide (least ≤ l.getD 0 0)
    && decide (least ≤ l.getD 6 0) && l.getD 7 0 == 0 && (d < 6 || (l.getD 1 0 == 0 && l.getD 3 0 == 0))

/-- A QCH_SECTION_LIMITS word is legal (R436). -/
def limitsOk (x w : Nat) : Bool :=
  decide (bits w 7 0 < bits w 15 8) && decide (bits w 15 8 < bits w 23 16) && decide (bits w 23 16 < bits w 31 24)
    && (decide (4 ≤ x) || decide (bits w 31 24 ≤ 105))

/-- A snapshot set entry is legal (R479): the end mark, or a block of R477 with INST 0, or INST 1 where it has instances. -/
def entryOk (e : Nat) : Bool :=
  let b := e / 2048
  if e == 0xFFFF then true
  else if 27 ≤ b then false
  else !bitAt e 10 || [2, 3, 4, 5, 7, 8, 9, 10, 11, 12, 14, 26].contains b

/-- The rules of a register allow the value (R518). -/
def State.writeOk (s : State) (d : RegDesc) (i j old new : Nat) : Bool :=
  match d.name with
  | "PCI_TAG_CFG" => decide (9 * bits new 6 0 ≤ 768)
  | "CMD_SQ_BASE_LO" => old == new || s.rf (adrCmdSqCfg i j) 31 31 == 0
  | "CMD_SQ_BASE_HI" => old == new || s.rf (adrCmdSqCfg i j) 31 31 == 0
  | "CMD_CQ_BASE_LO" => old == new || s.rf (adrCmdCqCfg i j) 31 31 == 0
  | "CMD_CQ_BASE_HI" => old == new || s.rf (adrCmdCqCfg i j) 31 31 == 0
  | "CMD_SQ_CFG" => s.sqCfgOk i j old new
  | "CMD_CQ_CFG" => s.cqCfgOk i j old new
  | "CMD_CQ_IRQ" => s.vectorOk i (bits new 5 0)
  | "SEM_VALUE" => (s.sem i j).waiters.isEmpty
  | "SEM_SIGNAL" => bits new 7 0 != 0 && bits new 31 8 == 0
  | "SEM_BARRIER" => old == new || (s.barrier i j).arrivals == 0
  | "SEQ_SLOT_CFG" => s.slotCfgOk i old new
  | "SEQ_POOL" => !allParts.any s.hasLock && decide (s.backingBut 8 ≤ bits new 5 0)
  | "PRC_HOP_TIMING0" => hopsOk new (s.reg (adrPrcHopTiming1 i)).toNat
  | "PRC_HOP_TIMING1" => hopsOk (s.reg (adrPrcHopTiming0 i)).toNat new
  | "LNK_VC_BUF" => s.quiet i && vcBufOk i (s.vcUnits i j (bits new 6 0))
  | "GLD_CAMPUS_PLAN" =>
    let n := sext 11 (bits new 10 0)
    decide (-280 ≤ n) && decide (n ≤ 480) && (s.quiet (i + 4) || (s.link (i + 4)).st == .fenced)
  | "QCH_SECTION_LIMITS" => limitsOk j new
  | "QCH_CTRL" => !bitAt new 0 || !allParts.any s.locked
  | "EVR_CTRL" => !bitAt new 0 || !s.clearRefused (bitAt new 1)
  | "EVR_SET" => entryOk (bits new 15 0) && entryOk (bits new 31 16)
  | _ => true

/-! Effects. -/

/-- The first condition of R329 that partition `p` does not meet. -/
def State.lockFails (s : State) (p : Nat) : Option Nat :=
  if s.partState p != 1 then some 1
  else if (s.granules p).isEmpty then some 2
  else if (s.granules p).length < backing (s.reg (adrSeqSlotCfg p)).toNat then some 3
  else if (s.reg (adrPrtAnvils p)).toNat != 0 && decide ((s.reg (adrPrtPowerShare p)).toNat < 50) then some 4
  else if s.sliceOf p == 0xFFF then some 5
  else none

/-- PRT_CTRL.LOCK (R329, R449): the lock is set, and the doorbells kept until then are checked (R328). -/
def State.setLock (s : State) (p : Nat) : State :=
  if s.rf adrGlbStatus 0 0 == 0 then s.eventD 0x0202 p p []
  else if s.hasLock p then s
  else match s.lockFails p with
    | some n => s.eventD 0x0202 p p [n]
    | none => (s.modPart p fun q => { q with st := .locked }).keptBells p

/-- A write of PRT_CTRL (R339, R517). -/
def State.prtControl (s : State) (fn p v : Nat) : State :=
  let s := if bitAt v 0 then s.setLock p else s
  if bits v 2 1 == 0 then s
  else if fn != 0 then s.carveEvent p
  else if bitAt v 2 then s.resetPart p 4 true
  else s.resetPart p 3 false

/-- A write of PRT_ANVILS (R548): each anvil that changes hands is cleared first. -/
def State.anvilMask (s : State) (p old new : Nat) : State :=
  s.each (List.range 8) fun s a =>
    let x := s.anvil a
    let mine := bitAt old a || x.clearing == some p
    if bitAt new a != bitAt old a || (x.clearing.isSome && mine) then
      s.setAnvil a { x with clearing := some (if bitAt new a then p else 8) }
    else s

/-- A granule changes hands (R139): its zeroing starts. -/
def State.handGranule (s : State) (g old new : Nat) : State :=
  let s := s.setRf (adrHrtGranuleOwner g) 3 0 (bits new 3 0)
  if ownerField old == ownerField new then s
  else
    let s := s.zeroGranule g
    { s with hrt := { s.hrt with zeroing := insNat s.hrt.zeroing g } }

/-- A write of ANT_PORT_CFG (R220, R226): FENCE fences the port or lifts its fence. -/
def State.portCfg (s : State) (d old new : Nat) : State :=
  let s := s.setReg (adrAntPortCfg d) (wd new)
  if bitAt new 4 && !bitAt old 4 then s.fencePort d
  else if bitAt old 4 && !bitAt new 4 then s.modLink d fun l => if l.st == .fenced then { l with st := .down } else l
  else s

/-- A write of LNK_CTRL (R203, R209). -/
def State.linkControl (s : State) (d old new v : Nat) : State :=
  let s := s.setReg (adrLnkCtrl d) (wd (putBits old 3 0 new))
  let s := if bits old 3 0 == bits new 3 0 then s
    else s.startReq d (if s.desired d < popcount 8 (s.link d).active then 1 else 2)
  let s := if bitAt v 4 && s.flitUp d then (s.setRf (adrLnkCtrl d) 4 4 1).startReq d 0 else s
  if bitAt v 5 && !s.quiet d && (s.link d).st != .fenced then (s.linkDown d).setRf (adrLnkCtrl d) 5 5 1 else s

/-- An SQ is enabled or disabled, or keeps its state (R550). -/
def State.sqConfig (s : State) (p i old new : Nat) : State :=
  let s := s.setReg (adrCmdSqCfg p i) (wd new)
  if bitAt new 31 && !bitAt old 31 then s.setSq p i { st := .running, err := (s.sq p i).err }
  else if bitAt old 31 && !bitAt new 31 then s.setSq p i { s.sq p i with st := .disabled }
  else s

/-- A CQ is enabled or disabled, or keeps its state (R550). -/
def State.cqConfig (s : State) (p j old new : Nat) : State :=
  let s := s.setReg (adrCmdCqCfg p j) (wd new)
  if bitAt new 31 && !bitAt old 31 then s.setCq p j {} else s

/-- The lane generators of a partition's anvils are seeded (R124). -/
def State.reseed (s : State) (p seed : Nat) : State :=
  s.each ((List.range 8).filter fun a => s.anvilOwner a == some p) fun s a => s.setAnvil a ((s.anvil a).seedWith seed)

/-- The lowest slot from `i` on whose record a function sees (R488). -/
def State.seekRec (s : State) (fn i : Nat) : Option Nat :=
  (s.evr.slots.find? fun (k, r) => decide (i ≤ k) && sees fn r).map (·.1)

/-- A write of EVR_CURSOR (R488): INDEX first, then FIRST or NEXT. -/
def State.moveCursor (s : State) (fn v : Nat) : State :=
  let a := cursorAt fn
  let idx := bits v 11 0
  if bits v 14 13 == 0 then s.setReg a (wd idx)
  else match s.seekRec fn (if bitAt v 13 then 0 else idx + 1) with
    | some k => s.setReg a (wd k)
    | none => s.setReg a (wd (idx + 2 ^ 12))

/-- A write of EVR_CTRL (R489, R490). -/
def State.evrControl (s : State) (v : Nat) : State :=
  let s := if bitAt v 0 then s.clearRecorder else s
  if bitAt v 2 then (s.startPersist 2 []).setRf adrEvrCtrl 2 2 1 else s

/-- A write of QCH_VALVE_CFG (R434, R438): a change of DECAY makes the opening delay invalid. -/
def State.valveConfig (s : State) (v old new w : Nat) : State :=
  let s := s.setReg (adrQchValveCfg v) (wd (putBits new 28 28 0))
  let s := if bitAt old 20 == bitAt new 20 then s
    else (s.setValve v { s.valve v with opening := none }).setRf (adrQchValveCal v) 14 14 0
  if bitAt w 28 then s.clearValve v else s

/-- GLB_FAULT_CTRL.RELEASE (R504): a chip held at step 11 becomes ready. -/
def State.unhold (s : State) : State :=
  if s.rf adrGlbFaultStatus 20 20 == 0 then s
  else
    let s := (s.setRf adrGlbFaultStatus 20 20 0).setRf adrGlbFaultStatus 19 16 0
    if s.boot == .stage then s.goReady else s

/-- What a legal write does (R518): `new` is the word with the fields that act, `v` the word written. -/
def State.effect (s : State) (fn : Nat) (d : RegDesc) (i j a old new v : Nat) : State :=
  match d.name with
  | "GLB_CTRL" => if bitAt v 0 then s.chipReset 2 else s
  | "GLB_FAULT_CTRL" => if bitAt v 0 then s.unhold else s
  | "PCI_TAG_CFG" => (s.setReg a (wd new)).each (List.range 9) State.issueMore
  | "PRT_CTRL" => s.prtControl fn i v
  | "PRT_ANVILS" => s.anvilMask i old new
  | "CMD_SQ_CFG" => s.sqConfig i j old new
  | "CMD_CQ_CFG" => s.cqConfig i j old new
  | "CMD_SQ_CTRL" =>
    let s := if bitAt v 0 then s.sqStop i j else s
    if bitAt v 1 then s.sqRestart i j else s
  | "CMD_SQ_DB" => s.sqDoorbell i j v (fn == 0)
  | "CMD_CQ_DB" => s.cqDoorbell i j v
  | "CMD_PROXY_DB_HI" => (s.setReg a (wd new)).proxyBell i (s.reg (adrCmdProxyDbLo i)).toNat v
  | "VEC_SR_SEED" => (s.setReg a (wd new)).reseed i new
  | "HRT_GRANULE_OWNER" => s.handGranule j old new
  | "SEM_VALUE" => s.semWrite i j new
  | "SEM_SIGNAL" => s.semSignal i j (bits v 7 0)
  | "SEM_STATUS" => if bitAt v 1 then s.setSem i j { s.sem i j with ovf := false } else s
  | "LNK_CTRL" => s.linkControl i old new v
  | "ANT_PORT_CFG" => s.portCfg j old new
  | "ANT_ROUTE_MATCH" => (s.setReg a (wd new)).setRf (adrAntRouteAction j) 13 13 0
  | "BEL_ACLK" => s.setTarget (bits new 5 0)
  | "QCH_CFG" => (s.setReg a (wd new)).each allSections State.runSettle
  | "QCH_CTRL" => if bitAt v 0 then s.calibrate else s
  | "QCH_VALVE_CFG" => s.valveConfig j old new v
  | "EVR_CTRL" => s.evrControl v
  | "EVR_CURSOR" => s.moveCursor fn v
  | "EVR_PART_LIMIT" => (s.setReg a (wd new)).setEvr fun e => { e with limSent := e.limSent.filter (· != j) }
  | "EVR_CODE_CFG" => (s.setReg a (wd new)).setEvr fun e => { e with spent := tdel e.spent (indexCode j) }
  | _ => s.setReg a (wd new)

/-! One write. -/

/-- A VF writes a register that it only reads (R470, R517): a change of a carve field, and GLB_STATUS, are recorded. -/
def State.vfReadOnly (s : State) (fn : Nat) (d : RegDesc) (old v : Nat) : State :=
  if d.name == "GLB_STATUS" then s.event 0x5007 0 (fnPart fn)
  else if (regWrite false false d old v).carve then s.carveEvent (fn - 1) else s

/-- Every field of a register of GLB, NVS or SEC is read-only, and a write of it is recorded (R470). -/
def roRecorded (d : RegDesc) : Bool := [0, 18, 20].contains d.blk && d.flds.all fun f => f.acc == .ro

/-- A write that reaches a register which it may act on (R326, R330, R518). -/
def State.applyWrite (s : State) (fn : Nat) (d : RegDesc) (i j a v : Nat) : State :=
  let old := (s.reg a).toNat
  let r := regWrite (fn == 0) (s.rwlLocked d i j) d old (v % 2 ^ 32)
  let lifted := regWrite (fn == 0) false d old (v % 2 ^ 32)
  match (if fn == 0 then s.carveBad d i j old lifted.new else none) with
  | some p => s.carveEvent p
  | none =>
    let s := if r.carve then s.carveEvent i else s
    if r.bad || (r.live && !s.writeOk d i j old r.new) || roRecorded d then s.illegal fn d i j
    else
      let s := if r.locked then s.illegal fn d i j else s
      if r.live then s.effect fn d i j a old r.new (v % 2 ^ 32) else s

/-- A write of the register at a PF address that the function sees (R516, R517, R526). -/
def State.writeAt (s : State) (fn a v : Nat) : State :=
  match locate a with
  | none => s
  | some (d, i, j) =>
    match (instPart d i).filter s.inReset with
    | some p => if d.name == "PRT_CTRL" then s.applyWrite fn d i j a v else s.event 0x0206 p p
    | none =>
      if fn != 0 && !vfWrites d then s.vfReadOnly fn d (s.reg a).toNat (v % 2 ^ 32) else s.applyWrite fn d i j a v

/-- A write of word `w` of a function's MSI-X table (R299): Vector Control [0] masks a vector. -/
def State.writeTable (s : State) (fn w v : Nat) : State :=
  let c := s.fn fn
  if w % 4 != 3 then s.setFn fn { c with table := tset 0 c.table w (wd v) }
  else if bitAt v 0 then s.setFn fn { c with unmasked := c.unmasked.filter (· != w / 4) }
  else (s.setFn fn { c with unmasked := insNat c.unmasked (w / 4) }).flushMsix fn

/-- One 4-byte write of a function's BAR0 (R295, R516). -/
def State.writeWord (s : State) (fn off v : Nat) : State :=
  match s.place fn off with
  | .none => s.bar0Refused fn true
  | .hidden => s.event 0x0106 (fnReq fn) (fnPart fn)
  | .table w => s.writeTable fn w v
  | .pba _ => s
  | .reg a => s.writeAt fn a v

/-! Requests of the host, in arrival order (R303). -/

/-- The register at a PF address is the owner of a granule that a waiting BAR2 read touches: the change of owner waits until the
read has been answered (R139). -/
def State.granuleBusy (s : State) (a : Nat) : Bool :=
  match locate a with
  | none => false
  | some (d, _, g) => d.name == "HRT_GRANULE_OWNER" && s.hrt.hostWait.any fun r => match r with
    | .bar2Read fn x n _ => s.barGranule fn x == some g || s.barGranule fn (x + n - 1) == some g
    | _ => false

/-- A posted write that arrived earlier still waits, so that no later request may act (R303). -/
def State.hostHeld (s : State) : Bool := s.hrt.hostWait.any HostReq.posted

/-- A request of the host must wait: behind an earlier posted write (R303), or for zeroing (R139, R336). -/
def State.hostWaits (s : State) (r : HostReq) : Bool :=
  s.hostHeld || match r with
    | .bar2Read fn a n _ => s.stillWaits fn a n
    | .bar2Write fn a d _ => (s.barReset fn a d.length).isNone && s.stillWaits fn a d.length
    | .regWrite _ a _ => s.granuleBusy a
    | .wordWrite fn off _ => match s.place fn off with
      | .reg a => s.granuleBusy a
      | _ => false
    | _ => false

/-- A request of the host takes effect. A BAR2 write is dropped for a RESETTING owner (R336). -/
def State.hostAct (s : State) : HostReq → State
  | .bar2Read fn a n ecc => (s.eccFinds ecc).barRead fn a n
  | .bar2Write fn a d ecc =>
    match s.barReset fn a d.length with
    | some p => s.event 0x0206 p p
    | none => s.barWrite fn a d ecc
  | .regWrite fn a v => s.writeAt fn a v
  | .wordWrite fn off v => s.writeWord fn off v
  | .wordRead fn a n => s.bar0Read fn a n
  | .refused fn a n w => s.bar0Illegal fn a n w
  | .unmask fn v => s.unmaskVec fn v
  | .config fn field val => s.configWrite fn field val
  | .vfs e n => s.vfEnableWrite e n
  | .flr v => s.flr v

/-- A request of the host arrives, and takes effect or waits (R303). -/
def State.hostReq (s : State) (r : HostReq) : State :=
  if s.hostWaits r then { s with hrt := { s.hrt with hostWait := s.hrt.hostWait ++ [r] } } else s.hostAct r

/-- Waiting requests of the host go on, in the order in which they arrived (R303, R336). -/
def State.serveHost (s : State) : State := { s with hrt := { s.hrt with hostWait := [] } }.each s.hrt.hostWait State.hostReq

/-- A write by a function that exists, at the PF address of a register: the PF writes any, and a VF only what its own window
maps there. -/
def State.hostWrites (s : State) (fn a v : Nat) : State := if s.fnExists fn then s.hostReq (.regWrite fn a v) else s

end Sys2Proof.Machine
end

