-- ==== Sys2Proof/Machine/Partitions.lean ====
section
/-! DEFINITION. Commands of partitions, faults and power packets (R133, R135, R139, R334, R392, R499, R502 to R504,
R548). -/
namespace Sys2Proof.Machine

/-- Zeroing and clearing of a partition reset end (R334). -/
def execPartitionResetDone (p : Nat) (s : State) : Res :=
  .next (match (s.part p).st with
    | .resetting x => if p < 8 then (s.partResetDone p x).serveHost else s
    | _ => s)

/-- An uncorrectable error in what the device keeps for a partition alone (R499). -/
def execPartitionStateLost (p : Nat) (s : State) : Res := .next (if p < 8 then s.faultPartition p 2 else s)

/-- Zeroing of a granule ends, and the accesses that wait for it proceed (R139). -/
def execGranuleZeroingDone (g : Nat) (s : State) : Res :=
  .next (
    if s.hrt.zeroing.contains g then
      { s with hrt := { s.hrt with zeroing := s.hrt.zeroing.filter (· != g) } }.serveHost
    else s)

/-- Anvil `a` passes to owner `o`, 8 for none (R548): it is cleared, and its generators take the new owner's seed. -/
def State.handAnvil (s : State) (a o : Nat) : State :=
  let s := s.each allParts fun s p => s.setRf (adrPrtAnvils p) a a (b2n (p == o))
  s.setAnvil a (if o < 8 then { clearedAnvil with seed := (s.reg (adrVecSrSeed o)).toNat } else clearedAnvil)

/-- Clearing of an anvil ends, and its change of owner takes effect (R548). -/
def execAnvilClearingDone (a : Nat) (s : State) : Res :=
  .next (match (s.anvil a).clearing with
    | some o => if a < 8 then s.handAnvil a o else s
    | none => s)

/-- Words of Hearth. -/
def hearthWords : Nat := 0x4000000

/-- The scrubber reads the next word (R135): `find` 0 no error, 1 a single-bit error, 2 an uncorrectable one. -/
def execScrubRead (find : Nat) (s : State) : Res :=
  .next (
    if s.boot == .off then s
    else
      let w := s.hrt.scrubPos
      let s := { s with hrt := { s.hrt with scrubPos := (w + 1) % hearthWords } }
      if find == 1 then s.eccHearth w false else if find == 2 then s.eccHearth w true else s)

/-- A chip-fatal cause of R501 is observed: 1 to 4, with the book number for cause 4. -/
def execChipFatalFault (cause book : Nat) (s : State) : Res :=
  .next (if s.boot != .off && 1 ≤ cause && cause ≤ 4 then s.chipFatal cause book else s)

/-- 2.0 s have passed after a chip-fatal fault (R502). -/
def execFatalResetTimeout (s : State) : Res :=
  .next (if s.fatal.isSome then { s with fatalDue := true }.fatalStep else s)

/-- 600 s have passed after the last reset of cause 5 (R504). -/
def execFatalCountExpiry (s : State) : Res := .next (s.setRf adrGlbFaultStatus 19 16 0)

/-- POWER_CAP (R392): it completes when the cap is in force. -/
def execPowerCap (k : Nat) (s : State) : Res :=
  runOp 0x80 k (fun x s => s.setReg adrBelCap (wd (max 400 (min 1250 (u16 x.bytes 0x10))))) s

/-- The lowest effective ACLK of a partition in MHz: the lowest of its anvils, or n_p without any. -/
def State.lowestAclk (s : State) (p : Nat) : Nat :=
  25 * ((List.range 8).filter fun a => s.anvilOwner a == some p).foldl (fun n a => min n (s.anvilSteps a))
    (s.rf (adrBelPartPower p) 22 17)

/-- POWER_READ (R392). -/
def execPowerRead (k : Nat) (s : State) : Res :=
  runOp 0x82 k (fun x s =>
    let p := x.part
    s.done k (leBytes 2 (s.reg adrBelChipPower).toNat ++ leBytes 2 (s.rf (adrBelPartPower p) 10 0) ++ leBytes 2 s.bel.cap
      ++ leBytes 2 (s.reg (adrPrtPowerShare p)).toNat ++ leBytes 2 (s.lowestAclk p))) s

end Sys2Proof.Machine
end

