-- ==== Sys2Proof/Machine/Recorder.lean ====
section
/-! DEFINITION. The event recorder's commands (R472 to R493): taking an event, its snapshot, buckets, the archive, the mark
of persistence, and the recorder's opcodes. -/
namespace Sys2Proof.Machine

/-! Snapshots (R477 to R479). -/

/-- Instances and stride of a block of R477. -/
def snapBlock (b : Nat) : Nat × Nat :=
  match b with
  | 2 => (8, 0x10000)
  | 3 => (8, 0x10000)
  | 4 => (8, 0x10000)
  | 5 => (8, 0x10000)
  | 7 => (32, 0x8000)
  | 8 => (8, 0x10000)
  | 9 => (8, 0x10000)
  | 10 => (8, 0x10000)
  | 11 => (2, 0x10000)
  | 12 => (8, 0x10000)
  | 14 => (4, 0x10000)
  | 26 => (8, 0x10000)
  | _ => (1, 0)

/-- Base of a block or region of R477. -/
def snapBase (b : Nat) : Nat :=
  match b with
  | 21 => 0x280000
  | 22 => 0x980000
  | 23 => 0xC80000
  | 24 => 0xE80000
  | 25 => 0xD02000
  | 26 => 0x802000
  | _ => 0x100000 * b

/-- The register that a set entry names for a record's SOURCE and PARTITION (R477), if it exists. -/
def snapAddr (e src part : Nat) : Option Nat :=
  let b := e / 2048
  let (n, st) := snapBlock b
  let i := if n == 1 then some 0 else if bitAt e 10 then some part else if b == 14 then (if src < 4 then none else some (src - 4)) else some src
  match i with
  | none => none
  | some i =>
    let a := snapBase b + st * i + 4 * (e % 1024)
    if b ≤ 26 && i < n && (locate a).isSome then some a else none

/-- Entry `n` of snapshot set `s`. -/
def State.setEntry (s : State) (set n : Nat) : Nat := s.rf (adrEvrSet (20 * set + n / 2)) (16 * (n % 2) + 15) (16 * (n % 2))

/-- The entries of a set before its end mark. -/
def State.setList (s : State) (set : Nat) : List Nat := ((List.range 40).map (s.setEntry set)).takeWhile (· != 0xFFFF)

/-- One snapshot entry (R477): REG 0xFFFE where nothing is read. -/
def State.snapEntry (s : State) (src part e : Nat) : Nat × Nat :=
  match snapAddr e src part with
  | some a => (e, (s.readReg a).toNat)
  | none => (0xFFFE, 0)

/-- The snapshot of an event (R478, R479): detail words, then its code's set, 40 entries at most. -/
def State.snapshot (s : State) (e : Ev) : List (Nat × Nat) :=
  let d := e.det.zipIdx.map fun (v, k) => (0xF800 + k, v)
  (d ++ (s.setList (fld (s.codeCfg e.code) 5 0)).map (s.snapEntry e.src e.part)).take 40

/-! Taking events (R482 to R486). -/

/-- One event passes the steps of R482. -/
def State.record (s : State) (e : Ev) : State :=
  if fld (s.codeCfg e.code) 6 6 == 0 then s
  else match s.coalesces e with
    | some (i, r) => s.setEvr fun v => { v with slots := tput v.slots i r.again, last := some (i, e.t) }
    | none =>
      if s.tokens e.code == 0 then (s.bump adrEvrSuppressed).setEvr fun v => { v with supp := insNat v.supp e.code }
      else if s.refused e.part then s.loseRecord e.part
      else s.storeRecord e (s.snapshot e)

/-- The recorder takes the oldest event of its queue (R482), while the steward smith runs (R472). -/
def execEvrEventTaken (s : State) : Res :=
  .next (
    if s.boot == .off then s
    else match s.evr.queue with
      | [] => s
      | e :: q => (s.setEvr fun v => { v with queue := q }).record e)

/-- A code's bucket gains a token (R484). -/
def execEvrTokenRefill (code : Nat) (s : State) : Res :=
  .next (s.setEvr fun v => { v with spent := tset 0 v.spent code (tget 0 v.spent code - 1) })

/-! The archive (R490 to R493). -/

/-- Sectors of the archive ring that have been opened: their SEQ and sector. -/
def State.arcSectors (s : State) : List (Nat × Nat) :=
  ((List.range 32).map (· + 516)).filterMap fun n =>
    if s.secState n != stErased && s.secGood n && !s.nvs.half.contains n then some (s.secSeq n, n) else none

/-- The last archive sector opened. -/
def State.arcLast (s : State) : Option (Nat × Nat) :=
  s.arcSectors.foldl (fun m x => match m with
    | some y => if y.1 < x.1 then some x else some y
    | none => some x) none

/-- The archive sector after sector `n` in the ring; a failed one is never opened again (R460). -/
def State.arcAfter (s : State) (n : Nat) : Nat :=
  (((List.range 32).map fun i => 516 + (n - 516 + 1 + i) % 32).find? fun m => !s.nvs.failed.contains m).getD n

/-- Erase an archive sector unless it is blank (R491). -/
def State.arcErase (s : State) (n : Nat) : State :=
  if s.secBlank n && !s.nvs.half.contains n then s
  else (s.ledgerRoom.eraseLogged n 3).setNvs fun v => { v with half := v.half.filter (· != n) }

/-- Open the next sector of the ring, and erase the one after it (R491). -/
def State.arcOpenNext (s : State) : State :=
  let (seq, n) := match s.arcLast with
    | some (q, m) => (q + 1, s.arcAfter m)
    | none => (1, s.arcAfter 547)
  let s := (s.arcErase n).programFlash (n * sectorBytes)
    (openBytes n seq (leBytes 8 ownId ++ leBytes 4 (s.reg adrGlbFwVersion).toNat))
  let s := s.arcErase (s.arcAfter n)
  s.setEvr fun e => { e with arcOpen := true, arcSector := n, arcSlot := 0 }

/-- Seal the open archive sector (R459, R491). -/
def State.arcSeal (s : State) : State :=
  let a := s.evr.arcSector * sectorBytes
  (s.programFlash a (sealBytes payloadBytes (crc32c (s.readFlash (a + 64) payloadBytes)))).setEvr fun e =>
    { e with arcOpen := false, arcSlot := 0 }

/-- Write a record to the archive in two programs (R492). -/
def State.arcWrite (s : State) (r : Rec) : State :=
  let s := if s.evr.arcOpen then s else s.arcOpenNext
  let a := s.evr.arcSector * sectorBytes + 0x100 + 0x100 * s.evr.arcSlot
  let s := (s.programFlash a (recBytes r 0xFF)).programFlash (a + 0xF) [0xA5]
  let s := s.setEvr fun e => { e with arcSlot := e.arcSlot + 1 }
  if s.evr.arcSlot ≥ 255 then s.arcSeal else s

/-- Archive the record of slot `i` (R490): ARCHIVED is set after it is written. -/
def State.archive (s : State) (i : Nat) (r : Rec) : State :=
  let s := (s.arcWrite r).bump adrEvrArchived
  s.setEvr fun e => { e with
    slots := tput e.slots i { r with flags := putBits r.flags 4 4 1 }
    persist := e.persist.map fun x => { x with written := x.written + 1 } }

/-- The mark record ends persistence (R490, R492): its packets complete, and a chip-fatal fault goes on to its reset
(R502). -/
def State.writeMark (s : State) (x : Persist) : State :=
  let d := [x.first + 2 ^ 8 * x.trigs, (s.reg adrEvrOverflow).toNat, (s.reg adrEvrSuppressed).toNat, x.written]
  let e : Ev := ⟨0x600C, 0, 0xFF, d, s.osc, s.machineTime, b2n s.clk.synced + 2 * b2n s.clk.holdover⟩
  let s := s.arcWrite ⟨e.code, e.src, e.part, e.mt, 1, e.fl, s.snapshot e⟩
  let s := (s.setEvr fun v => { v with persist := none }).setRf adrEvrCtrl 2 2 0
  let s := (s.each x.pkts fun s k => s.done k []).nvGo
  if s.fatal.isSome then { s with fatalDue := true }.fatalStep else s

/-- The steward smith writes the oldest unarchived record to the archive (R490 to R492), or, when persistence has written
them all, its mark. An operation in progress ends first, and host work comes before background archiving (R468). -/
def execArchiveRecord (s : State) : Res :=
  .next (
    if s.boot == .off || s.nvs.running.isSome || (s.evr.persist.isNone && s.nvs.host.isSome) then s
    else match s.unarchived, s.evr.persist with
      | some (i, r), _ => s.archive i r
      | none, some x => if s.evr.queue.isEmpty then s.writeMark x else s
      | none, none => s)

/-! Opcodes (R393). -/

/-- The function that issued a packet, for what it may see (R366, R487). -/
def Pkt.fn (x : Pkt) : Nat := if x.pf then 0 else x.part + 1

/-- EVR_COPY. -/
def execEvrCopy (k : Nat) (s : State) : Res :=
  runOp 0x90 k (fun x s =>
    let b := x.bytes
    let first := u16 b 0x10
    let rs := (s.evr.slots.filter fun (i, r) => decide (first ≤ i) && sees x.fn r).take (u16 b 0x12)
    let full := decide (rs.length = u16 b 0x12)
    let next := if full then ((rs.getLast?).map (·.1 + 1)).getD first else max first s.evr.next
    let d := rs.flatMap fun (_, r) => recBytes r 0xA5
    let s := if bitAt (u8 b 0x14) 0 then s.writeHearth x.part (u64 b 0x18) d
      else s.hostWrite x.part (s.proxied x.part) (u64 b 0x18) d false (.input x.part k)
    s.done k (leBytes 2 rs.length ++ leBytes 2 next ++ leBytes 4 (s.reg adrEvrOverflow).toNat)) s

/-- EVR_CLEAR (R489). -/
def execEvrClear (k : Nat) (s : State) : Res :=
  runOp 0x91 k (fun _ s => if s.clearRefused false then s.failPkt k 0x14 else s.clearRecorder.done k []) s

/-- EVR_PERSIST (R490): it completes with the mark. -/
def execEvrPersist (k : Nat) (s : State) : Res := runOp 0x92 k (fun _ s => s.startPersist 2 [k]) s

end Sys2Proof.Machine
end

