-- ==== Sys2Proof/Machine/Sideband.lean ====
section
/-! DEFINITION. The sideband (R455, R466, R467, R469) and boundary scan (R538). The manual names the commands of MCTP, PLDM
and SPDM; their codes and answers follow those standards in short (log entry 29), and bytes of an answer that neither gives
are free values. -/
namespace Sys2Proof.Machine

/-- Answer on the sideband. -/
def State.reply (s : State) (b : List Byte) : State := s.emit (.sideband b)

/-- An answer that only carries a completion code. -/
def State.answerCode (s : State) (c : Nat) : State := s.reply (leBytes 1 c)

/-- `n` bytes whose values the manual does not give. -/
def State.freeBytes : Nat → State → List Byte × State
  | 0, s => ([], s)
  | n + 1, s =>
    let (v, s) := s.free
    let (b, s) := State.freeBytes n s
    (BitVec.ofNat 8 v :: b, s)

/-- Answer with bytes followed by `n` free ones. -/
def State.answerFree (s : State) (b : List Byte) (n : Nat) : State :=
  let (f, s) := s.freeBytes n
  s.reply (b ++ f)

/-- A bit map of `n` bytes. -/
def bitmap (n : Nat) (l : List Nat) : List Byte := leBytes n (maskOf l)

/-! MCTP. -/

/-- An MCTP control message (R469): Set and Get Endpoint ID, version and message type support. -/
def execMctpControlMessage (cmd : Nat) (data : List Byte) (s : State) : Res :=
  .next (
    if s.boot == .off then s
    else match cmd with
      | 1 =>
        let s := { s with side := { s.side with eid := u8 data 1 } }
        s.reply (leBytes 1 0 ++ leBytes 1 0 ++ leBytes 1 s.side.eid ++ leBytes 1 0)
      | 2 => s.answerFree (leBytes 1 0 ++ leBytes 1 s.side.eid) 2
      | 4 => s.answerFree (leBytes 1 0) 5
      | 5 => s.reply (leBytes 1 0 ++ leBytes 1 2 ++ leBytes 1 1 ++ leBytes 1 5)
      | _ => s.answerCode 5)

/-! PLDM Types 0 and 2. -/

/-- Commands supported of a PLDM type (R469). -/
def pldmCommands : Nat → List Nat
  | 0 => [2, 3, 4, 5]
  | 2 => [0x11, 0x21, 0x51]
  | 5 => [0x10, 0x13, 0x14, 0x15, 0x16, 0x17, 0x18, 0x1A, 0x1B, 0x1C, 0x1D]
  | _ => []

/-- Reading of a sensor (R469): 0 chip power in W, 1 to 8 section temperatures in 0.01 °C, 9 to 16 rail voltages in mV, 17
the changeover state. -/
def State.sensor (s : State) (n : Nat) : Option Nat :=
  if n == 0 then some (s.reg adrBelChipPower).toNat
  else if n ≤ 8 then some (s.section (n - 1)).temp
  else if n ≤ 16 then some (s.rf (adrBelRail (n - 9)) 11 0)
  else if n == 17 then some (belCode s.bel.st)
  else none

/-- Answer a sensor reading: numeric sensors by GetSensorReading, the state sensor by its own command. -/
def State.answerSensor (s : State) (n : Nat) (state : Bool) : State :=
  match s.sensor n with
  | some v => if state == (n == 17) then s.reply (leBytes 1 0 ++ leBytes 4 v) else s.answerCode 0x80
  | none => s.answerCode 0x80

/-- A PLDM Type 0 or Type 2 request (R469), which firmware and the ROM answer outside recovery. -/
def execPldmMonitorRequest (typ cmd : Nat) (data : List Byte) (s : State) : Res :=
  .next (
    if s.boot == .off || s.boot == .recovery then s
    else match typ, cmd with
      | 0, 2 => s.answerFree (leBytes 1 0) 1
      | 0, 3 => s.answerFree (leBytes 1 0) 4
      | 0, 4 => s.reply (leBytes 1 0 ++ bitmap 8 [0, 2, 5])
      | 0, 5 => s.reply (leBytes 1 0 ++ bitmap 32 (pldmCommands (u8 data 0)))
      | 2, 0x11 => s.answerSensor (u16 data 0) false
      | 2, 0x21 => s.answerSensor (u16 data 0) true
      | 2, 0x51 =>
        let n := u32 data 0
        if n ≤ 17 then s.answerFree (leBytes 1 0 ++ leBytes 4 n ++ leBytes 1 (b2n (n == 17))) 16 else s.answerCode 0x80
      | _, _ => s.answerCode 5)

/-! PLDM Type 5. -/

/-- Change the update's progress. -/
def State.setPldm (s : State) (f : Pldm → Pldm) : State := s.setNvs fun n => { n with pldm := f n.pldm }

/-- The slot that an update writes: the one not in use; with none in use, the one that the descriptor does not name. -/
def State.pldmSlot (s : State) (config : Bool) : Nat :=
  match s.slotInUse config with
  | some c => 1 - c
  | none => 1 - s.descField (if config then 4 else 1) 1 % 2

/-- Bytes received, as a slot would take them: the image, or the configuration with the calibration in force. -/
def State.pldmContent (s : State) : List Byte := s.slotContent (s.nvs.pldm.comp == 2) s.nvs.pldm.data

/-- The answer to a step that the update's progress allows or not. -/
def State.pldmStep (s : State) (ok : Bool) (f : Pldm → Pldm) : State :=
  if ok then (s.setPldm f).answerCode 0 else s.answerCode 0x84

/-- VerifyComplete (R452, R464, R466): what was received is verified. -/
def State.pldmVerify (s : State) : State :=
  let (ok, s) := s.contentOk (s.nvs.pldm.comp == 2) s.pldmContent
  (s.setPldm fun p => { p with st := if ok then 5 else 2 }).answerCode (if ok then 0 else 1)

/-- ApplyComplete: the slot is written as FW_STAGE and CONFIG_WRITE write it (R469); in recovery the flash is left alone
(R455). -/
def State.pldmApply (s : State) : State :=
  if s.boot == .recovery then (s.setPldm fun p => { p with st := 6 }).answerCode 0
  else
    let config := s.nvs.pldm.comp == 2
    (s.hostJob (s.slotJob 1 0 config (s.pldmSlot config) s.pldmContent)).answerCode 0

/-- Cancel an update, back to progress `st`; a slot whose writing has begun is left unverified. -/
def State.pldmCancel (s : State) (ok : Bool) (st : Nat) : State :=
  if !ok || s.nvs.running == some true then s.answerCode 0x84
  else
    ((s.setNvs fun n => { n with host := n.host.filter fun j => j.kind != 1 }).setPldm fun _ => { st := st }).answerCode 0

/-- A PLDM Type 5 command (R469). In recovery only the image can be updated (R455). -/
def execPldmUpdateCommand (cmd : Nat) (data : List Byte) (s : State) : Res :=
  .next (
    let p := s.nvs.pldm
    if s.boot == .off then s
    else match cmd with
      | 0x10 => if s.flashBusy then s.answerCode 0x81 else (s.setPldm fun _ => { st := 1 }).answerCode 0
      | 0x13 => s.pldmStep (p.st == 1) fun p => { p with st := 2 }
      | 0x14 =>
        let comp := u16 data 0
        let ok := (comp == 1 || (comp == 2 && s.boot != .recovery)) && u32 data 2 ≤ slotBytesMax (comp == 2)
        s.pldmStep (p.st == 2 && ok) fun _ => { st := 3, comp := comp, size := u32 data 2 }
      | 0x15 => s.pldmStep (p.st == 3) fun p => { p with data := (p.data ++ data).take p.size }
      | 0x16 => s.pldmStep (p.st == 3 && p.data.length == p.size) fun p => { p with st := 4 }
      | 0x17 => if p.st == 4 then s.pldmVerify else s.answerCode 0x84
      | 0x18 => if p.st == 5 && s.nvs.host.isNone then s.pldmApply else s.answerCode 0x84
      | 0x1B => s.reply (leBytes 1 0 ++ leBytes 1 p.st)
      | 0x1C => s.pldmCancel (p.st ≥ 3) 2
      | 0x1D => s.pldmCancel (p.st ≥ 1) 0
      | _ => s.answerCode 5)

/-- What ActivateFirmware does to the descriptor (R467): an image that was written becomes the trial image. -/
def State.pldmSelect (s : State) : State :=
  let slot := s.pldmSlot false
  if s.nvs.pldm.comp == 1 && s.slotVerified slot then
    match s.activation slot with
    | some ch => s.appendDesc ch
    | none => s
  else s

/-- ActivateFirmware (R467, R469): FW_ACTIVATE's effect and a chip reset with cause 4. In recovery the image received is run
(R455). -/
def execPldmActivateFirmware (s : State) : Res :=
  .next (
    if s.boot == .off then s
    else if s.nvs.pldm.st != 6 then s.answerCode 0x84
    else if s.boot == .recovery then
      (s.setNvs fun n => { n with sideImage := some s.pldmContent, pldm := {} }).answerCode 0
    else (s.answerCode 0).pldmSelect.chipReset 4)

/-! SPDM 1.2. -/

/-- The certificate chain of sector 548: its first two bytes are its length. -/
def State.certChain (s : State) : List Byte :=
  let a := 548 * sectorBytes
  s.readFlash a (min sectorBytes (u16 (s.readFlash a 2) 0))

/-- A SHA-384 value as bytes. -/
def digest (b : List Byte) : List Byte := leBytes 48 (Config.sha384 b).toNat

/-- Measurement `i` (R469). -/
def State.measurement (s : State) (i : Nat) : List Byte :=
  match i with
  | 1 => leBytes 48 Config.romDigest.toNat
  | 2 => s.nvs.header
  | 3 => digest (boardBytes (s.configInForce.elim [] (·.2)))
  | _ => leBytes 4 s.secStatus

/-- An SPDM answer with its code and parameters, and `n` free bytes (a nonce, a signature) behind its data. -/
def State.spdm (s : State) (code p1 p2 : Nat) (b : List Byte) (n : Nat) : State :=
  s.answerFree (leBytes 1 0x12 ++ leBytes 1 code ++ leBytes 1 p1 ++ leBytes 1 p2 ++ b) n

/-- The next step of the connection's start: version, capabilities, algorithms. -/
def State.spdmStart (s : State) (st : Nat) : State := { s with side := { s.side with spdm := st } }

/-- An SPDM error. -/
def State.spdmError (s : State) (e : Nat) : State := s.spdm 0x7F e 0 [] 0

/-- Measurements that GET_MEASUREMENTS asks for: none for 0, which asks for their number, all for 0xFF. -/
def State.measured (s : State) (i : Nat) : List Byte :=
  (if i == 0xFF then [1, 2, 3, 4] else if i == 0 then [] else [i]).flatMap fun k =>
    leBytes 1 k ++ leBytes 2 (s.measurement k).length ++ s.measurement k

/-- An SPDM request (R469). -/
def execSpdmRequest (code p1 p2 : Nat) (data : List Byte) (s : State) : Res :=
  .next (
    if s.boot == .off || s.boot == .recovery then s
    else match code with
      | 0x84 => (s.spdmStart 1).spdm 4 0 0 (leBytes 2 0x100 ++ leBytes 2 0x1200) 0
      | 0xE1 => if s.side.spdm == 1 then (s.spdmStart 2).spdm 0x61 0 0 [] 8 else s.spdmError 4
      | 0xE3 => if s.side.spdm == 2 then (s.spdmStart 3).spdm 0x63 0 0 [] 32 else s.spdmError 4
      | 0x81 => if s.side.spdm == 3 then s.spdm 1 0 1 (digest s.certChain) 0 else s.spdmError 4
      | 0x82 =>
        if s.side.spdm != 3 then s.spdmError 4
        else if p1 != 0 then s.spdmError 1
        else
          let c := s.certChain.drop (u16 data 0)
          let n := min (u16 data 2) c.length
          s.spdm 2 0 0 (leBytes 2 n ++ leBytes 2 (c.length - n) ++ c.take n) 0
      | 0x83 => if s.side.spdm != 3 then s.spdmError 4 else s.spdm 3 p1 1 (digest s.certChain) 176
      | 0xE0 =>
        if s.side.spdm != 3 then s.spdmError 4
        else if 5 ≤ p2 && p2 != 0xFF then s.spdmError 1
        else s.spdm 0x60 (if p2 == 0 then 4 else 0) 0 (s.measured p2) (if bitAt p1 0 then 128 else 0)
      | _ => s.spdmError 7)

/-! Debug and boundary scan. -/

/-- A token opens the private TAP (R469): signed with a Sahold key, slot 0 or 1, and bound to CHIP_ID. -/
def State.tokenGood (s : State) (key : Nat) (token : List Byte) : Bool :=
  decide (key ≤ 1) && bitAt Config.keyValid.toNat key && !bitAt s.keysRevoked key && u64 token 0 == ownId
    && Config.tokenGood key token

/-- A debug token (R469). -/
def execDebugTapToken (key : Nat) (token : List Byte) (s : State) : Res :=
  .next (
    if s.boot != .off && s.tokenGood key token && s.rf adrSecState 16 16 == 0 then
      (s.setRf adrSecState 16 16 1).event 0x600A 0 0xFF
    else s)

/-- The IDCODE (R538). -/
def idcode : Nat := Config.jtagVersion.toNat * 2 ^ 28 + 0x0408 * 2 ^ 12 + Config.jedecId.toNat * 2 + 1

/-- A boundary-scan instruction (R538): 0 BYPASS, 1 IDCODE, 2 SAMPLE/PRELOAD, 3 EXTEST, 4 CLAMP, 5 HIGHZ; any other acts as
BYPASS. No instruction moves an input enable, a coil, or any other state of the block. -/
def execJtagInstruction (instr : Nat) (s : State) : Res :=
  .next (
    if !s.aux then s
    else
      let i := if instr ≤ 5 then instr else 0
      { s with side := { s.side with jtag := i } }.emit (.jtag i (if i == 1 then some idcode else none)))

end Sys2Proof.Machine
end

