-- ==== Sys2Proof/Machine/Streams.lean ====
section
/-! DEFINITION. The commands of the sequence group: lines (R385, R386), streams (R80 to R83, R387), steps and chunks
(R70 to R75, R85 to R90, R95) and gate tables (R388). -/
namespace Sys2Proof.Machine

/-! Line setup (R385). -/

/-- The status after a member's result: the first failure stays. -/
def firstFail (a b : Nat) : Nat := if a == 0 then b else a

/-- U of a layer takes its region in both weight buffers of its shadow anvil (R170). -/
def State.holdShadow (s : State) (line li : Nat) (l : LayerRec) : State :=
  let v : Anvil := tget {} s.anvils l.shadowAnvil
  match v.shadowPlace l with
  | none => s
  | some r => { s with anvils := tset {} s.anvils l.shadowAnvil { v with shadow := v.shadow ++ [(line, li, r)] } }

/-- Program a committed line: its layers with U as supplied, its lightbank blocks, and U on the shadow anvils (R158, R170, R385). -/
def State.commitLine (s : State) (p : Nat) (x : Setup) : State :=
  if x.reroute then
    s.modPart p fun q => { q with lines := q.lines.map fun l => if l.id == x.line.id then { l with broken := false } else l }
  else
    let ls := x.line.layers.map fun r =>
      { r with uCodes := if r.kind == 1 then (let u := s.readHearth p r.u r.uBytes; (List.range (r.r * r.w)).map fun i => u16 u (2 * i)) else [] }
    let s := s.modPart p fun q => { q with
      lines := q.lines ++ [{ x.line with layers := ls }], goneLines := q.goneLines.filter (· != x.line.id) }
    s.each ls.zipIdx fun s (r, i) =>
      if r.kind == 1 && r.recur != 0 then (s.programLayer p x.line.id i r).holdShadow x.line.id i r else s

/-- EVENT of a setup's completion: that of a poisoned descriptor (R134). -/
def setupEv (st : Nat) : Nat := if st == 0x7F then 0x1103 else 0

/-- End a member's setup: its packet completes with the status and FAIL_POS (R385). -/
def State.endSetup (s : State) (p : Nat) (x : Setup) (st pos : Nat) : State :=
  let s := s.modPart p fun q => { q with setups := q.setups.filter fun y => y.pkt != x.pkt }
  let own := x.result == st && pos == x.line.position
  let pk := ((s.pkt x.pkt).map (·.bytes)).getD []
  let s := if st == 0 then s.commitLine p x else s
  s.completeX x.pkt st 0 (leBytes 2 pos) (if own then setupEv st else 0) (if own then s.lineOff p pk x.reroute else 0xFFFF)

/-- The setup of a line that waits at a member. -/
def State.setup? (s : State) (p id : Nat) : Option Setup := (s.part p).setups.find? fun x => x.line.id == id

/-- The entry member ends the circuit: COMMIT or UNDO to every other member, and its own packet (R385). DEDUCED (log
entry 22): they go straight to each member. -/
def State.endCircuit (s : State) (p : Nat) (x : Setup) (st pos : Nat) : State :=
  let s := s.each (x.line.members.drop 1) fun s a =>
    s.sendFrame p 4 4 a 0 0 (lineBody (if st == 0 then 0x11 else 0x12) st pos x.line.id (s.partAddr p))
  s.endSetup p x st (if st == 0 then 0xFFFF else pos)

/-- Start a line-setup or line-reroute packet (R385): the entry member sends SETUP round the line, another member waits
for it. A partition in procession mode and a chip without an address take none (R24, R223). -/
def State.startSetup (s : State) (k : Nat) (x : Pkt) (reroute : Bool) : State :=
  let p := x.part
  let l := s.lineOf p x.bytes
  let e : Setup := ⟨k, l, reroute, 0, l.entry, 0⟩
  let s := if l.entry then s.noteDesc p x.bytes reroute else s
  if (s.part p).procession || !s.addrValid then s.completeX k 0x14 0 (leBytes 2 0xFFFF) 0 0xFFFF
  else if !l.entry then s.modPart p fun q => { q with setups := q.setups ++ [e] }
  else
    let st := s.lineCheck p x.bytes reroute
    if !s.lineShape p x.bytes || st == 0x13 || !s.hopCredits l then
      s.completeX k st 0 (leBytes 2 0) (setupEv st) (s.lineOff p x.bytes reroute)
    else
      let s := s.modPart p fun q => { q with setups := q.setups ++ [{ e with result := st }] }
      s.sendLine p l (lineBody 0x10 st (if st == 0 then 0xFFFF else 0) l.id (s.partAddr p))

/-- LINE_SETUP (R384, R385). -/
def execLineSetup (k : Nat) (s : State) : Res := runOp 0x40 k (fun x s => s.startSetup k x false) s

/-- LINE_REROUTE (R385). -/
def execLineReroute (k : Nat) (s : State) : Res := runOp 0x41 k (fun x s => s.startSetup k x true) s

/-- A SETUP frame at a member whose packet waits, or back at the entry member (R385). -/
def State.setupFrame (s : State) (p : Nat) (b : List Byte) : State :=
  let st := u8 b 0x21
  let pos := u16 b 0x22
  let id := u16 b 0x24
  match s.setup? p id with
  | none => s
  | some x =>
    if x.line.entry then s.endCircuit p x st pos
    else
      let bytes := ((s.pkt x.pkt).map (·.bytes)).getD []
      let s := s.noteDesc p bytes x.reroute
      let own := s.lineCheck p bytes x.reroute
      let st' := firstFail st own
      let pos' := if st == 0 && own != 0 then x.line.position else pos
      let s := s.modPart p fun q =>
        { q with setups := q.setups.map fun y => if y.pkt == x.pkt then { y with passed := true, result := own } else y }
      let body := lineBody 0x10 st' pos' id (u32 b 0x28)
      if s.lineShape p bytes then s.sendLine p x.line body else s.sendFrame p 4 4 (u32 b 0x28) 0 0 body

/-- SETUP_FRAME_RECEIVED (R385): the frame waits while the member's own packet has not been fetched. -/
def execSetupFrameReceived (p : Nat) (frame : List Byte) (s : State) : Res :=
  if u8 frame 0x20 != 0x10 then .next s
  else if lineFrameGood frame && (s.setup? p (u16 frame 0x24)).isNone then .next s
  else onFrame 4 p frame (fun s => if lineFrameGood frame then s.setupFrame p frame else s) s

/-- SETUP_COMMIT_RECEIVED (R385). -/
def execSetupCommitReceived (p : Nat) (frame : List Byte) (s : State) : Res :=
  if u8 frame 0x20 != 0x11 then .next s
  else onFrame 4 p frame (fun s =>
    match (if lineFrameGood frame then s.setup? p (u16 frame 0x24) else none) with
    | some x => if x.passed && !x.line.entry then s.endSetup p x 0 0xFFFF else s
    | none => s) s

/-- SETUP_UNDO_RECEIVED (R385). -/
def execSetupUndoReceived (p : Nat) (frame : List Byte) (s : State) : Res :=
  if u8 frame 0x20 != 0x12 then .next s
  else onFrame 4 p frame (fun s =>
    match (if lineFrameGood frame then s.setup? p (u16 frame 0x24) else none) with
    | some x => if x.line.entry then s else s.endSetup p x (u8 frame 0x21) (u16 frame 0x22)
    | none => s) s

/-- SETUP_FETCH_TIMEOUT (R385): no packet of the line was fetched within 100 ms; the result is TIMEOUT and the frame
goes back to the entry member that its ENTRY_TAG names. -/
def execSetupFetchTimeout (p : Nat) (frame : List Byte) (s : State) : Res :=
  if u8 frame 0x20 != 0x10 || (s.setup? p (u16 frame 0x24)).isSome then .next s
  else onFrame 4 p frame (fun s =>
    s.sendFrame p 4 4 (u32 frame 0x28) 0 0
      (lineBody 0x10 (firstFail (u8 frame 0x21) 0x20) (if u8 frame 0x21 == 0 then 0xFFFE else u16 frame 0x22)
        (u16 frame 0x24) (u32 frame 0x28))) s

/-- SETUP_FRAME_WAIT_TIMEOUT (R385): a member's packet waited 1 s without a SETUP frame. -/
def execSetupFrameWaitTimeout (k : Nat) (s : State) : Res :=
  .next (match s.pkt k with
    | none => s
    | some x =>
      match (s.part x.part).setups.find? fun y => y.pkt == k && !y.passed with
      | none => s
      | some y => s.endSetup x.part y 0x20 0xFFFF)

/-- LINE_TEARDOWN (R386): at the entry member, with no stream of the line admitted, parked or TORN. -/
def execLineTeardown (k : Nat) (s : State) : Res :=
  runOp 0x42 k (fun x s =>
    match s.line? x.part (u16 x.bytes 0x10) with
    | none => s.badParam k 0x10
    | some l =>
      if !l.entry || (s.part x.part).strms.any fun t => t.line == l.id then s.failPkt k 0x14
      else
        let j : Job := ⟨k, 0x42, 0, l.id, 0, 0, true, [], 0, 0⟩
        let s := s.modPart x.part fun q => { q with jobs := q.jobs ++ [j] }
        s.sendLine x.part l (streamBody 0x25 0 0 l.id (k % 2 ^ 32) 0 0 [])) s

/-! Streams (R80 to R83, R387). -/

/-- A stream packet joins the entry member's queue (R23, R75, R83, R387). -/
def State.submit (s : State) (k : Nat) (x : Pkt) (op : Nat) : State :=
  let p := x.part
  let id := u16 x.bytes 0x14
  if (s.part p).procession && op != 0x46 then s.failPkt k 0x14
  else match s.line? p id with
  | none => s.badParam k 0x14
  | some l =>
    if !l.entry then s.failPkt k 0x14
    else
      let n := if op == 0x48 then u16 x.bytes 0x30 else 1
      let len := u32 x.bytes 0x28
      if op ≥ 0x47 && (decide (len < n * l.vec) || decide (n * l.maxPayload < len)) then s.badParam k 0x28
      else if op ≥ 0x47 && decide (u32 x.bytes 0x2C < n * l.vec) then s.badParam k 0x2C
      else if op ≥ 0x47 && decide (l.maxChunk < n) then s.badParam k 0x30
      else
        let j : Job := ⟨k, op, u32 x.bytes 0x10, id, 0, n, false, [], 0, 0⟩
        (s.modPart p fun q => { q with jobs := q.jobs ++ [j] }).settle p

/-- STREAM_ADMIT (R80, R81); like every packet of the entry queue it waits while the queue is full (R75). -/
def execStreamAdmit (k : Nat) (s : State) : Res := runWhen 0x43 k (fun x => !s.queueFull x.part) (fun x s => s.submit k x 0x43) s
/-- STREAM_PARK (R83). -/
def execStreamPark (k : Nat) (s : State) : Res := runWhen 0x44 k (fun x => !s.queueFull x.part) (fun x s => s.submit k x 0x44) s
/-- STREAM_RESUME (R83). -/
def execStreamResume (k : Nat) (s : State) : Res := runWhen 0x45 k (fun x => !s.queueFull x.part) (fun x s => s.submit k x 0x45) s
/-- STREAM_RELEASE (R83). -/
def execStreamRelease (k : Nat) (s : State) : Res := runWhen 0x46 k (fun x => !s.queueFull x.part) (fun x s => s.submit k x 0x46) s
/-- STEP (R85): it joins the entry queue. -/
def execStep (k : Nat) (s : State) : Res := runWhen 0x47 k (fun x => !s.queueFull x.part) (fun x s => s.submit k x 0x47) s
/-- CHUNK (R89): it joins the entry queue. -/
def execChunk (k : Nat) (s : State) : Res := runWhen 0x48 k (fun x => !s.queueFull x.part) (fun x s => s.submit k x 0x48) s

/-- A stream is admitted: slots BOUND, the packet DONE (R80). -/
def State.admitted (s : State) (p : Nat) (l : Line) (j : Job) (len : Nat) : State :=
  let s := s.modPart p fun q => { q with lines := q.lines.map fun x => if x.id == l.id then { x with imgLen := len } else x }
  let (_, _, s) := s.memberPart p l 0x26 0 j.stream []
  let s := match s.strm? p l.id j.stream with
    | some t => s.putStrm p { t with st := .admitted }
    | none => s
  let s := if l.members.length > 1 then s.sendLine p l (streamBody 0x26 0 0 l.id 0xFFFFFFFF j.stream 0 []) else s
  (s.endJob p j 0 0 0).settle p

/-- The data of a stream frame. -/
def strmData (b : List Byte) : List Byte := slice b 56 (b.length - 60)

/-- ADMIT_FRAME_RECEIVED (R80): a member claims a slot and writes the initial state, or turns the frame into UNDO. -/
def execAdmitFrameReceived (p : Nat) (frame : List Byte) (s : State) : Res :=
  if u8 frame 0x20 != 0x20 then .next s
  else onFrame 4 p frame (fun s =>
    match (if lineFrameGood frame then s.line? p (u16 frame 0x24) else none) with
    | none => s.dropGone p (lineFrameGood frame && (s.part p).goneLines.contains (u16 frame 0x24))
    | some l =>
      let ph := u16 frame 0x22
      let tag := u32 frame 0x28
      let strm := u32 frame 0x30
      let len := u32 frame 0x34
      if l.entry then
        match s.jobTag? p tag with
        | some j => s.admitted p l j len
        | none => s
      else
        let (st, d, s) := s.memberPart p l 0x20 ph strm (strmData frame)
        if st == 0 then s.sendLine p l (streamBody 0x20 0 ph l.id tag strm (len + l.partLen) d)
        else s.sendLine p l (streamBody 0x21 st 0 l.id tag strm 0 [])) s

/-- UNDO_FRAME_RECEIVED (R80): CLAIMED slots return to FREE; the entry member sends the frame round once more and then
completes the packet. -/
def execUndoFrameReceived (p : Nat) (frame : List Byte) (s : State) : Res :=
  if u8 frame 0x20 != 0x21 then .next s
  else onFrame 4 p frame (fun s =>
    match (if lineFrameGood frame then s.line? p (u16 frame 0x24) else none) with
    | none => s.dropGone p (lineFrameGood frame && (s.part p).goneLines.contains (u16 frame 0x24))
    | some l =>
      let ph := u16 frame 0x22
      let st := u8 frame 0x21
      let tag := u32 frame 0x28
      let strm := u32 frame 0x30
      let (_, _, s) := s.memberPart p l 0x21 ph strm []
      if l.entry && ph == 1 then
        match s.jobTag? p tag with
        | some j => (((s.dropStrm p l.id strm).noteNoSlot p l.id st).endJob p j st 0 0).settle p
        | none => s
      else s.sendLine p l (streamBody 0x21 st (if l.entry then 1 else ph) l.id tag strm 0 [])) s

/-- A lifecycle circuit has come back to the entry member (R83). -/
def State.circuitBack (s : State) (p : Nat) (l : Line) (j : Job) (op ph st len : Nat) (d : List Byte) : State :=
  let setSt := fun (s : State) (x : StrmSt) => match s.strm? p l.id j.stream with
    | some t => s.putStrm p { t with st := x }
    | none => s
  let fin := fun (s : State) => (s.endJob p j 0 0 0).settle p
  if ph == 2 then (s.endJob p j st 0 0).settle p
  else if st != 0 then
    let (_, _, s) := s.memberPart p l op 2 j.stream []
    s.sendLine p l (streamBody op st 2 l.id (j.pkt % 2 ^ 32) j.stream 0 [])
  else
    match op, ph with
    | 0x22, 0 => s.launch p l j 0x22 1 []
    | 0x22, 1 => fin (setSt s .parked)
    | 0x22, _ =>
      let s := s.modPart p fun q => { q with lines := q.lines.map fun x => if x.id == l.id then { x with imgLen := len } else x }
      let a := ((s.pkt j.pkt).map fun x => u64 x.bytes 0x18).getD 0
      fin (setSt (s.hostWrite p (s.proxied p) a d false (.input p j.pkt)) .parked)
    | 0x23, 0 => s.launch p l j 0x23 1 []
    | 0x23, 4 => s.launch p l j 0x23 5 j.input
    | 0x23, _ => fin (setSt s .admitted)
    | 0x24, _ => fin (s.dropStrm p l.id j.stream)
    | 0x25, _ => (s.endJob p j 0 0 0).releaseLine p l.id
    | _, _ => s

/-- STREAM_STATE_FRAME_RECEIVED (R83): a park, resume or release frame, or that of a line being torn down (R386). A frame for a stream
whose slot is BUSY waits: the slot is not taken away (R79). -/
def execStreamStateFrameReceived (p : Nat) (frame : List Byte) (s : State) : Res :=
  let op := u8 frame 0x20
  if op < 0x22 || op > 0x26 || s.slotBusy p (u16 frame 0x24) (u32 frame 0x30) then .next s
  else onFrame 4 p frame (fun s =>
    match (if lineFrameGood frame then s.line? p (u16 frame 0x24) else none) with
    | none => s.dropGone p (lineFrameGood frame && (s.part p).goneLines.contains (u16 frame 0x24))
    | some l =>
      let st := u8 frame 0x21
      let ph := u16 frame 0x22
      let tag := u32 frame 0x28
      let strm := u32 frame 0x30
      let len := u32 frame 0x34
      if l.entry then
        match s.jobTag? p tag with
        | some j => s.circuitBack p l j op ph st len (strmData frame)
        | none => s
      else if st != 0 && ph != 2 then s.sendLine p l (streamBody op st ph l.id tag strm (len + l.partLen) (strmData frame))
      else
        let (e, d, s) := s.memberPart p l op ph strm (strmData frame)
        let s := s.sendLine p l (streamBody op (if ph == 2 then st else e) ph l.id tag strm (len + l.partLen) d)
        if op == 0x25 then s.releaseLine p l.id else s) s

/-! Steps and chunks. -/

/-- STEP_DISPATCH (R74, R75, R83, R88): the entry member dispatches a queued step or chunk in its stream's order once
MAX_INFLIGHT allows; a chunk longer than that runs alone (DEDUCED, log entry 23). The step deadline starts. -/
def execStepDispatch (p k : Nat) (s : State) : Res :=
  .next (match s.job? p k, s.pkt k with
    | some j, some x =>
      let js := (s.part p).jobs
      let same := fun (e : Job) => e.line == j.line && e.stream == j.stream
      let before := js.takeWhile fun e => e.pkt != k
      let n := s.inFlight p j.line j.stream
      if j.inFlight || (j.op != 0x47 && j.op != 0x48) || before.any (fun e => same e && (!e.inFlight || e.op < 0x47))
          || (n != 0 && decide (s.rf (adrSeqStepCfg p) 22 16 < n + j.count)) then s
      else
        match s.line? p j.line, s.strm? p j.line j.stream with
        | some l, some t =>
          if l.broken then (s.endJob p j 0x30 0 0).settle p
          else if t.st != .admitted then (s.endJob p j 0x14 0 0).settle p
          else if t.sq != x.sq then (s.endJobX p j 0x11 0 0 0 0x10).settle p
          else
            let j := { j with inFlight := true, first := t.next }
            let s := (s.modJob p k fun _ => j).putStrm p { t with next := (t.next + j.count) % 2 ^ 32 }
            (s.gather p j (bitAt (u8 x.bytes 0x16) 0) (u64 x.bytes 0x18) (u32 x.bytes 0x28)).jobReady p k
        | some l, none => (s.endJob p j (if l.broken then 0x30 else 0x14) 0 0).settle p
        | _, _ => s
    | _, _ => s)

/-- A step's frame is back at the entry member (R71, R72, R88, R387): its output is written and the packet completes. A frame whose
packet has completed is late and counts in LATE_RETURNS, whatever its status was. DEDUCED (log entry 78): R88 names TIMEOUT only. -/
def State.stepBack (s : State) (p : Nat) (l : Line) (h pay : List Byte) (bad : Bool) : State :=
  match s.jobTag? p (u32 h 0x18) with
  | none => (s.bump (adrLateReturns p)).seqEvent 0x1202 p l.id
  | some j =>
    let fl := u16 h 0x14
    let st := if bad then 0x7F else u8 h 0xF
    if bad || bitAt fl 1 then (s.endJob p j st 0 0).settle p
    else
      let b := ((s.pkt j.pkt).map (·.bytes)).getD []
      let s := if bitAt (u8 b 0x16) 1 then s.writeHearth p (u64 b 0x20 % 2 ^ 32) pay
               else s.hostWrite p (s.proxied p) (u64 b 0x20) pay false (.input p j.pkt)
      let (st, note) := if bitAt fl 0 then (0x32, 0) else if bitAt fl 2 then (1, 3) else (0, 0)
      let s := if st == 1 then s else s.bumpBy (adrStepsDone p) j.count
      (s.endJob p j st note pay.length).settle p

/-- A frame that this member cannot apply: no slot, another layer, format or length (R72). -/
def actFits (l : Line) (h : List Byte) (slot : Bool) (pay : Nat) : Bool :=
  slot && u16 h 0xA == l.firstLayer && u8 h 0x16 == l.actFmt && decide (u8 h 0xE ≤ 1) && decide (1 ≤ u16 h 0xC)
    && pay == u16 h 0xC * l.vec && u32 h 0x10 == pay

/-- An activation frame's header, payload, and whether its CRCs are good (R70). -/
def actParts (f : List Byte) : List Byte × List Byte × Bool :=
  let h := slice f 32 32
  let pay := slice f 64 (f.length - 68)
  (h, pay, u32 h 0x1C == crc32c (slice h 0 0x1C) && u32 f (f.length - 4) == crc32c pay)

/-- The line of an activation frame: the one that its header names. A header that fails its CRC may name another or none, so the frame
then goes on along the line on which its sender precedes this member. DEDUCED (log entry 77). -/
def State.actLine (s : State) (p : Nat) (f : List Byte) : Option Line :=
  let (h, _, good) := actParts f
  let named := s.line? p (u16 h 8)
  if good then named
  else
    let pred := fun (l : Line) => l.members.getD ((l.position + l.members.length - 1) % l.members.length) 0 == (parseHdr f).src
    if (named.map pred).getD false then named else ((s.part p).lines.find? pred).orElse fun _ => named

/-- The frame is the oldest activation frame that its port has delivered to the partition: frames are taken in order (R73, R149). -/
def State.actFirst (s : State) (p : Nat) (f : List Byte) : Bool :=
  match s.delivered.find? fun d => d.part == p && d.bytes == f with
  | none => true
  | some d => (s.delivered.find? fun e => e.part == p && e.port == d.port && (parseHdr e.bytes).typ == 3).map (·.bytes) == some f

/-- The frame has drained into its buffer already (R229). -/
def State.actDrained (s : State) (p : Nat) (f : List Byte) : Bool :=
  s.delivered.any fun d => d.part == p && d.bytes == f && d.port != 8 && d.flits == 0

/-- The payload of a good frame goes to the line's next activation buffer (R66, R149). -/
def State.fillBuf (s : State) (p : Nat) (l : Line) (pay : List Byte) : State :=
  if pay.isEmpty || decide (l.bufBytes < pay.length) then s
  else (s.writeHearth p (l.actBuf + l.nextBuf * l.bufBytes) pay).modPart p fun q =>
    { q with lines := q.lines.map fun x => if x.id == l.id then { x with nextBuf := (x.nextBuf + 1) % 4 } else x }

/-- A good activation frame at a member of its line (R72, R73); PARK turns it into a FAIL frame (R412). -/
def State.actTake (s : State) (p : Nat) (l : Line) (h pay : List Byte) : State :=
  let h := if s.parked && !bitAt (u16 h 0x14) 1 then reAct h (u16 h 0xA) 0x50 0 2 else h
  if l.entry then s.stepBack p l h pay false
  else if bitAt (u16 h 0x14) 1 then s.sendFail p l h (u8 h 0xF)
  else if actFits l h (s.slot? p l.id (u32 h 0)).isSome pay.length then
    s.addWork p l h (payloadRows l (u16 h 0xC) pay) (u16 h 0x14) true
  else s.sendFail p l h 0x7F

/-- ACTIVATION_FRAME_RECEIVED (R70 to R73): frames are taken in order, and one waits in the link buffer while the line's 4 buffers are in
use (R149). A frame whose CRC fails is recorded and goes on as a FAIL frame (R71). -/
def execActivationFrameReceived (p : Nat) (frame : List Byte) (s : State) : Res :=
  let (h, pay, good) := actParts frame
  if !s.actFirst p frame then .next s
  else match s.actLine p frame with
  | none =>
    onFrame 3 p frame (fun s => if good then s.dropGone p ((s.part p).goneLines.contains (u16 h 8)) else s.seqEvent 0x1208 p (u16 h 8)) s
  | some l =>
    if !l.entry && !s.actDrained p frame && !s.bufFree p l.id 8 then .next s
    else onFrame 3 p frame (fun s =>
      if good then (s.fillBuf p l pay).actTake p l h pay
      else
        let s := s.seqEvent 0x1208 p l.id
        if l.entry then s.stepBack p l h pay true else s.sendBroken p l h) s

/-- One step of a work at a layer (R68, R73, R86): none while its recurrent term is not ready. -/
def State.layerStep (s : State) (p : Nat) (l : Line) (r : LayerRec) (e : LayerEnv) (w : Work) : Option (Work × State) :=
  let strm := u32 w.hdr 0
  match (s.slot? p l.id strm).bind fun x => x.layers[w.layer]? with
  | none => none
  | some y =>
    match (if r.kind == 0 then some [] else y.u) with
    | none => none
    | some u =>
      let x := w.xs.getD w.pos []
      let zs := preGates r (e.z r x) u
      let h := newState e.tabs r zs y.h
      let o := layerOut e.tabs r zs h
      let s := s.modLayer p l.id strm w.layer fun y =>
        { y with last := (u32 w.hdr 4 + w.pos) % 2 ^ 32, h := h, u := none, diverged := false, fellBack := false }
      let fl := putBits (putBits w.flags 0 0 (b2n (bitAt w.flags 0 || y.diverged))) 2 2 (b2n (bitAt w.flags 2 || y.fellBack))
      some ({ w with xs := w.xs.set w.pos (e.out r x o), pos := w.pos + 1, flags := fl, tally := e.count r x o zs w.tally },
            s.startTerm p l.id strm w.layer r h)

/-- Steps of a work at its layer, as far as recurrent terms are ready (R89). -/
def State.layerSteps : Nat → State → Nat → Line → LayerRec → LayerEnv → Work → Work × State
  | 0, s, _, _, _, _, w => (w, s)
  | n + 1, s, p, l, r, e, w =>
    if w.pos ≥ w.xs.length then (w, s) else
    match s.layerStep p l r e w with
    | none => (w, s)
    | some (w, s) => State.layerSteps n s p l r e w

/-- A DIAG_LINEAR layer over a chunk (R89, R90). -/
def State.layerChunk (s : State) (p : Nat) (l : Line) (r : LayerRec) (e : LayerEnv) (w : Work) : Work × State :=
  let strm := u32 w.hdr 0
  let h := ((s.slot? p l.id strm).bind fun x => x.layers[w.layer]?).elim [] (·.h)
  let (outs, hs, t) := diagChunk e r w.xs h
  let s := s.modLayer p l.id strm w.layer fun y =>
    { y with last := (u32 w.hdr 4 + w.xs.length - 1) % 2 ^ 32, h := hs.getLastD h }
  ({ w with xs := outs, pos := outs.length, tally := t }, s)

/-- A work, taken out of the member's list, that finished its layer waits at the next layer or, after the last one, goes to the next
member (R70, R73). -/
def State.layerDone (s : State) (p : Nat) (l : Line) (w : Work) : State :=
  if w.layer + 1 < l.layers.length then
    s.modPart p fun q => { q with works := q.works ++ [{ w with layer := w.layer + 1, pos := 0, ready := false, tally := {} }] }
  else (s.leaveWork p w).handOff p l { w with layer := w.layer + 1 }

/-- Step `a` of a stream comes before step `b`. -/
def stepBefore (a b : Nat) : Bool := a != b && decide ((b + 2 ^ 32 - a) % 2 ^ 32 < 2 ^ 31)

/-- No earlier step of the same stream is still at or before this layer, or waits for its input at the entry member (R73). -/
def State.workFree (s : State) (p : Nat) (w : Work) : Bool :=
  let st := u32 w.hdr 4
  !((s.part p).works.any fun v =>
      v.line == w.line && u32 v.hdr 0 == u32 w.hdr 0 && decide (v.layer ≤ w.layer) && stepBefore (u32 v.hdr 4) st)
    && !((s.part p).jobs.any fun j => j.line == w.line && j.stream == u32 w.hdr 0 && j.inFlight && decide (0x47 ≤ j.op)
      && decide (j.op ≤ 0x48) && j.need != 0 && stepBefore j.first st)

/-- The next step of a work can be applied to its layer: its recurrent term is ready (R86). -/
def State.termReady (s : State) (p : Nat) (w : Work) (r : LayerRec) : Bool :=
  match (s.slot? p w.line (u32 w.hdr 0)).bind fun x => x.layers[w.layer]? with
  | none => false
  | some y => r.kind == 0 || y.u.isSome

/-- The works that wait at layer `li` of a line and could be applied, by their places in the list, in the order in which they came to the
layer (R95). -/
def State.waiting (s : State) (p line li : Nat) (r : LayerRec) : List (Nat × Work) :=
  ((s.part p).works.zipIdx.filter fun (w, _) => w.line == line && w.layer == li && s.workFree p w && s.termReady p w r).map fun (w, i) => (i, w)

/-- The works that the engine takes together with the `i`-th one (R95): nothing unless that one has waited longest at its layer. A chunk
goes alone; of steps, BATCH_MAX at most, and once BATCH_WINDOW has ended or BATCH_MAX of them wait. In PARK and at TRIP no running work
is left and no new one starts (R408, R412, R437). -/
def State.batch (s : State) (p i : Nat) (w : Work) (r : LayerRec) : List (Nat × Work) :=
  let ws := s.waiting p w.line w.layer r
  let top := s.rf (adrSeqBatchCfg p) 9 0
  if s.parked || s.tripped || (ws.head?.map (·.1)) != some i then []
  else if u8 w.hdr 0xE == 1 then ws.take 1
  else
    let ws := ws.filter fun x => u8 x.2.hdr 0xE != 1
    if w.ready || s.rf (adrSeqBatchCfg p) 25 16 == 0 || top ≤ ws.length then ws.take top else []

/-- A batch of steps at a layer (R95, R96): each is computed as it would be alone, and what they count is that of one pass for each
projection. -/
def State.runSteps (p : Nat) (l : Line) (r : LayerRec) (e : LayerEnv) : List (Nat × Work) → State → Tally × State
  | [], s => ({}, s)
  | (_, w) :: ws, s =>
    match s.layerStep p l r e w with
    | none => State.runSteps p l r e ws (s.modPart p fun q => { q with works := q.works ++ [w] })
    | some (w, s) =>
      let (t, s) := State.runSteps p l r e ws (s.layerDone p l w)
      (w.tally.add t, s)

/-- A chunk at a layer (R89): it stays at its place until its last step is applied. -/
def State.runChunk (s : State) (p i : Nat) (l : Line) (r : LayerRec) (e : LayerEnv) (w : Work) : State :=
  let (w, s) := if r.kind == 0 then s.layerChunk p l r e w else s.layerSteps w.xs.length p l r e w
  if w.pos < w.xs.length then s.modPart p fun q => { q with works := q.works.set i w }
  else ((s.takeWorks p [i]).noteTally p l.id r w.tally).layerDone p l w

/-- LAYER_COMPUTE_DONE (R68, R85, R89, R90, R95): the `i`-th work at a member, with those batched with it, is applied to its layer. -/
def execLayerComputeDone (p i : Nat) (s : State) : Res :=
  .next (match (s.part p).works[i]? with
    | none => s
    | some w =>
      match s.line? p w.line with
      | none => s
      | some l =>
        match l.layers[w.layer]? with
        | none => s
        | some r =>
          let ws := s.batch p i w r
          if ws.isEmpty then s
          else
            match s.layerEnv p l r with
            | (.error st, s) => ((s.takeWorks p (ws.map (·.1))).failWorks p l st ws).settle p
            | (.ok e, s) =>
              (if u8 w.hdr 0xE == 1 then s.runChunk p i l r e w
               else
                let (t, s) := State.runSteps p l r e ws (s.takeWorks p (ws.map (·.1)))
                s.noteTally p l.id r t).settle p)

/-- STEP_DEADLINE_EXPIRY (R88): TIMEOUT, and the stream becomes TORN. -/
def execStepDeadlineExpiry (k : Nat) (s : State) : Res :=
  .next (match s.pkt k with
    | none => s
    | some x =>
      match s.job? x.part k with
      | none => s
      | some j =>
        if !j.inFlight || (j.op != 0x47 && j.op != 0x48) then s
        else
          let s := (s.seqEvent 0x1201 x.part j.line).tear x.part j.line j.stream
          (s.endJobX x.part j 0x20 0 0 0x1201 0xFFFF).settle x.part)

/-- LINE_BROKEN_NOTICE_RECEIVED (the chapter's Edges): the entry member completes the line's packets in flight with
LINK_LOST; a line whose member was reset dissolves. -/
def execLineBrokenNoticeReceived (p : Nat) (frame : List Byte) (s : State) : Res :=
  onFrame 5 p frame (fun s =>
    let id := u16 frame 0x20
    match (if u32 frame 0x24 == crc32c (slice frame 0x20 4) then s.line? p id else none) with
    | none => s
    | some l =>
      if u8 frame 0x22 == 1 then s.dissolveHere p id
      else if l.entry then
        let s := s.modPart p fun q => { q with lines := q.lines.map fun x => if x.id == id then { x with broken := true } else x }
        (s.lineLost p id 0x30).settle p
      else s) s

/-- BATCH_WINDOW_EXPIRY (R95): the steps that wait at a layer for others are taken. -/
def execBatchWindowExpiry (p line : Nat) (s : State) (li : Nat := 0) : Res :=
  .next (s.modPart p fun q => { q with
    works := q.works.map fun w => if w.line == line && w.layer == li then { w with ready := true } else w })

/-- TABLE_LOAD (R94, R388): the whole table is replaced between two evaluations. -/
def execTableLoad (k : Nat) (s : State) : Res :=
  runOp 0x49 k (fun x s =>
    let p := x.part
    let t := u8 x.bytes 0x10
    if s.tableBusy p t then s.failPkt k 0x14
    else
      let j : Job := ⟨k, 0x49, t, 0x10000, 0, 0, true, [], 0, 0⟩
      let s := s.modPart p fun q => { q with jobs := q.jobs ++ [j] }
      (s.gather p j (bitAt (u8 x.bytes 0x11) 0) (u64 x.bytes 0x18) 272).jobReady p k) s

end Sys2Proof.Machine
end

