-- ==== Sys2Proof/Machine/Writes.lean ====
section
/-! DEFINITION. The commands that the host's requests make: reads of its BARs, writes of BAR2 and of configuration space (R291,
R294 to R296, R299, R303, R317), and those that write a register (R124, R139, R148, R150, R203, R209, R226, R275, R278, R295, R329, R333,
R337, R343, R344, R362, R363, R403, R417, R435, R438, R445, R488 to R490, R504, R518, R548, R550). Each names its register's
own operands and writes the 4-byte word that they spell; a VF writes only its own partition's instance. -/
namespace Sys2Proof.Machine

/-- A write of partition `p`'s instance by the PF or by its own VF. -/
def State.partWrite (s : State) (fn p a v : Nat) : State :=
  if p < 8 && (fn == 0 || fn == p + 1) then s.hostWrites fn a v else s

/-- A new tail is written to a submission doorbell. -/
def execSqDoorbell (fn p i v : Nat) (s : State) : Res :=
  .next (if i < 16 then s.partWrite fn p (adrCmdSqDb p i) v else s)

/-- A new head is written to a completion doorbell. -/
def execCqDoorbell (fn p j v : Nat) (s : State) : Res :=
  .next (if j < 16 then s.partWrite fn p (adrCmdCqDb p j) v else s)

/-- CMD_PROXY_DB_LO and then CMD_PROXY_DB_HI are written: the doorbell goes out as a management frame. -/
def execProxyDoorbellWrite (fn p lo hi : Nat) (s : State) : Res :=
  .next ((s.partWrite fn p (adrCmdProxyDbLo p) lo).partWrite fn p (adrCmdProxyDbHi p) hi)

/-- CMD_SQ_CTRL.STOP. -/
def execSqStop (fn p i : Nat) (s : State) : Res := .next (if i < 16 then s.partWrite fn p (adrCmdSqCtrl p i) 1 else s)

/-- CMD_SQ_CTRL.RESTART. -/
def execSqRestart (fn p i : Nat) (s : State) : Res := .next (if i < 16 then s.partWrite fn p (adrCmdSqCtrl p i) 2 else s)

/-- Address of a ring's CFG register. -/
def ringCfg (cq : Bool) (p i : Nat) : Nat := if cq then adrCmdCqCfg p i else adrCmdSqCfg p i

/-- A CFG word with ENABLE = 1 is written; `v` holds its other fields. -/
def execRingEnable (fn p : Nat) (cq : Bool) (i v : Nat) (s : State) : Res :=
  .next (if i < 16 then s.partWrite fn p (ringCfg cq p i) (putBits v 31 31 1) else s)

/-- A CFG word with ENABLE = 0 is written; `v` holds its other fields. -/
def execRingDisable (fn p : Nat) (cq : Bool) (i v : Nat) (s : State) : Res :=
  .next (if i < 16 then s.partWrite fn p (ringCfg cq p i) (putBits v 31 31 0) else s)

/-- PRT_CTRL.LOCK. -/
def execPrtLock (fn p : Nat) (s : State) : Res := .next (s.partWrite fn p (adrPrtCtrl p) 1)

/-- PRT_CTRL.RESET, written by the PF. -/
def execPrtReset (p : Nat) (s : State) : Res := .next (s.partWrite 0 p (adrPrtCtrl p) 2)

/-- PRT_CTRL.RELEASE, written by the PF. -/
def execPrtRelease (p : Nat) (s : State) : Res := .next (s.partWrite 0 p (adrPrtCtrl p) 4)

/-- HRT_GRANULE_OWNER of granule `g`. -/
def execGranuleOwnerWrite (g v : Nat) (s : State) : Res :=
  .next (if g < 128 then s.hostWrites 0 (adrHrtGranuleOwner g) v else s)

/-- PRT_ANVILS of partition `p`. -/
def execAnvilOwnerWrite (p mask : Nat) (s : State) : Res := .next (s.partWrite 0 p (adrPrtAnvils p) mask)

/-- SEQ_SLOT_CFG. -/
def execSlotQuotaWrite (fn p v : Nat) (s : State) : Res := .next (s.partWrite fn p (adrSeqSlotCfg p) v)

/-- SEQ_POOL, written by the PF. -/
def execPoolLimitWrite (v : Nat) (s : State) : Res := .next (s.hostWrites 0 adrSeqPool v)

/-- VEC_SR_SEED. -/
def execVecSrSeedWrite (fn p v : Nat) (s : State) : Res := .next (s.partWrite fn p (adrVecSrSeed p) v)

/-- SEM_VALUE of semaphore `i`. -/
def execSemValueWrite (fn p i v : Nat) (s : State) : Res :=
  .next (if i < 256 then s.partWrite fn p (adrSemValue p i) v else s)

/-- SEM_SIGNAL of semaphore `i`. -/
def execSemSignalWrite (fn p i v : Nat) (s : State) : Res :=
  .next (if i < 256 then s.partWrite fn p (adrSemSignal p i) v else s)

/-- SEM_BARRIER of barrier `j`. -/
def execSemBarrierWrite (fn p j v : Nat) (s : State) : Res :=
  .next (if j < 64 then s.partWrite fn p (adrSemBarrier p j) v else s)

/-- A write of `len` bytes, 4 or 8, at a BAR0 offset of a function (R295, R518): 8 bytes are two 4-byte writes, low word
first, each judged on its own. -/
def execRegisterWrite (fn addr len val : Nat) (s : State) : Res :=
  .next (
    if !s.fnExists fn then s
    else if len == 4 && addr % 4 == 0 then s.hostReq (.wordWrite fn addr (val % 2 ^ 32))
    else if len == 8 && addr % 8 == 0 then
      (s.hostReq (.wordWrite fn addr (val % 2 ^ 32))).hostReq (.wordWrite fn (addr + 4) (val / 2 ^ 32 % 2 ^ 32))
    else s)

/-- LNK_CTRL.RETRAIN, with TARGET_QUADS as it stands. -/
def execLnkCtrlRetrain (d : Nat) (s : State) : Res :=
  .next (if d < 8 then s.hostWrites 0 (adrLnkCtrl d) (s.rf (adrLnkCtrl d) 3 0 + 2 ^ 4) else s)

/-- LNK_CTRL.DOWN, with TARGET_QUADS as it stands. -/
def execLnkCtrlDown (d : Nat) (s : State) : Res :=
  .next (if d < 8 then s.hostWrites 0 (adrLnkCtrl d) (s.rf (adrLnkCtrl d) 3 0 + 2 ^ 5) else s)

/-- LNK_CTRL.TARGET_QUADS. -/
def execLnkTargetQuadsWrite (d n : Nat) (s : State) : Res :=
  .next (if d < 8 then s.hostWrites 0 (adrLnkCtrl d) (n % 16) else s)

/-- ANT_PORT_CFG.FENCE, with OWNER and OWNED as they stand. -/
def execAntFenceWrite (d : Nat) (fence : Bool) (s : State) : Res :=
  .next (if d < 8 then s.hostWrites 0 (adrAntPortCfg d) (s.rf (adrAntPortCfg d) 3 0 + 2 ^ 4 * b2n fence) else s)

/-- CLK_RT_LOAD_LO and then CLK_RT_LOAD_HI with ARM: the tick number to load. -/
def execRtLoadArm (tick : Nat) (s : State) : Res :=
  .next ((s.hostWrites 0 adrClkRtLoadLo (tick % 2 ^ 32)).hostWrites 0 adrClkRtLoadHi (bits tick 43 32 + 2 ^ 31))

/-- CLK_MT_ARM.ARM. -/
def execMtOffsetArm (s : State) : Res := .next (s.hostWrites 0 adrClkMtArm 1)

/-- BEL_CAP. -/
def execBelCapWrite (watts : Nat) (s : State) : Res := .next (s.hostWrites 0 adrBelCap watts)

/-- BEL_ACLK. -/
def execBelAclkWrite (steps : Nat) (s : State) : Res := .next (s.hostWrites 0 adrBelAclk steps)

/-- QCH_CTRL.CALIBRATE. -/
def execQchCalibrate (s : State) : Res := .next (s.hostWrites 0 adrQchCtrl 1)

/-- QCH_VALVE_CFG.CLEAR, with the other fields as they stand. -/
def execValveClear (v : Nat) (s : State) : Res :=
  .next (if v < 8 then s.hostWrites 0 (adrQchValveCfg v) (s.rf (adrQchValveCfg v) 27 0 + 2 ^ 28) else s)

/-- GLB_CTRL.CHIP_RESET. -/
def execGlbChipReset (s : State) : Res := .next (s.hostWrites 0 adrGlbCtrl 1)

/-- GLB_FAULT_CTRL.RELEASE. -/
def execGlbFaultRelease (s : State) : Res := .next (s.hostWrites 0 adrGlbFaultCtrl 1)

/-- EVR_CTRL.CLEAR, with or without FORCE. -/
def execEvrCtrlClear (force : Bool) (s : State) : Res := .next (s.hostWrites 0 adrEvrCtrl (1 + 2 * b2n force))

/-- EVR_CTRL.PERSIST. -/
def execEvrCtrlPersist (s : State) : Res := .next (s.hostWrites 0 adrEvrCtrl 4)

/-- EVR_CURSOR.FIRST of a function. -/
def execEvrCursorFirst (fn : Nat) (s : State) : Res := .next (s.hostWrites fn adrEvrCursor (2 ^ 13))

/-- EVR_CURSOR.NEXT of a function, with an INDEX. -/
def execEvrCursorNext (fn idx : Nat) (s : State) : Res := .next (s.hostWrites fn adrEvrCursor (idx % 4096 + 2 ^ 14))

/-! Other requests of the host (R291, R294 to R296, R299, R303, R317). -/

/-- A host read of Hearth through BAR2. The command carries the errors that its reads find (R133). -/
def execHostBar2Read (fn addr len : Nat) (ecc : List (Nat × Bool)) (s : State) : Res :=
  .next (if !s.fnExists fn || len == 0 then s else s.hostReq (.bar2Read fn addr len ecc))

/-- A host posted write to Hearth through BAR2. The command carries the errors that the reads of its partial writes find (R133). -/
def execHostBar2Write (fn addr : Nat) (data : List Byte) (s : State) (ecc : List (Nat × Bool) := []) : Res :=
  .next (if !s.fnExists fn || data.isEmpty then s else s.hostReq (.bar2Write fn addr data ecc))

/-- A register read of `len` bytes, 4 or 8 (R269, R295, R519). -/
def execLowWordRead (fn addr len : Nat) (s : State) : Res :=
  .next (if s.fnExists fn then s.hostReq (.wordRead fn addr len) else s)

/-- A BAR0 access of an illegal size or alignment, or to a reserved offset (R295); a legal access changes nothing here. -/
def execBar0IllegalAccess (fn addr len : Nat) (write : Bool) (s : State) : Res :=
  .next (if s.fnExists fn then s.hostReq (.refused fn addr len write) else s)

/-- A vector becomes unmasked (R299). -/
def execMsixUnmask (fn v : Nat) (s : State) : Res := .next (s.hostReq (.unmask fn v))

/-- A PCIe configuration write (R291, R298, R306, R308, R549). -/
def execPciConfigWrite (fn field val : Nat) (s : State) : Res := .next (s.hostReq (.config fn field val))

/-- A write of VF Enable and NumVFs (R296). -/
def execVfEnableWrite (enable : Bool) (num : Nat) (s : State) : Res := .next (s.hostReq (.vfs enable num))

/-- A function-level reset of VF `v` (R317). -/
def execFunctionLevelReset (v : Nat) (s : State) : Res := .next (s.hostReq (.flr v))

end Sys2Proof.Machine
end

