-- ==== Sys2Proof/Machine/Dispatch.lean ====
section
/-! DEFINITION. What a command does: one arm per constructor, each a direct call of the command's meaning. -/
namespace Sys2Proof.Machine

def exec (i : Instr) (s : State) : Host.Outcome State Fault Refusal :=
  match i with
  | .nop k => Sys2Proof.Machine.execNop k s
  | .setMode k => Sys2Proof.Machine.execSetMode k s
  | .identify k => Sys2Proof.Machine.execIdentify k s
  | .tongDesc k => Sys2Proof.Machine.execTongDesc k s
  | .tongList k => Sys2Proof.Machine.execTongList k s
  | .tongDescriptorStart t => Sys2Proof.Machine.execTongDescriptorStart t s
  | .tongDescriptorDone t ecc => Sys2Proof.Machine.execTongDescriptorDone t ecc s
  | .tongWaitTimeout t => Sys2Proof.Machine.execTongWaitTimeout t s
  | .fill k => Sys2Proof.Machine.execFill k s
  | .fillDone t => Sys2Proof.Machine.execFillDone t s
  | .bulkReceive k => Sys2Proof.Machine.execBulkReceive k s
  | .bulkUnbind k => Sys2Proof.Machine.execBulkUnbind k s
  | .weightLoad k => Sys2Proof.Machine.execWeightLoad k s
  | .weightLoadDone a ecc => Sys2Proof.Machine.execWeightLoadDone a ecc s
  | .pass k => Sys2Proof.Machine.execPass k s
  | .passDone a parity ecc acc => Sys2Proof.Machine.execPassDone a parity ecc acc s
  | .epilogue k => Sys2Proof.Machine.execEpilogue k s
  | .epilogueDone a acc => Sys2Proof.Machine.execEpilogueDone a acc s
  | .vecOp k => Sys2Proof.Machine.execVecOp k s
  | .vecOpDone a ecc => Sys2Proof.Machine.execVecOpDone a ecc s
  | .cqInterruptTimer p j => Sys2Proof.Machine.execCqInterruptTimer p j s
  | .lapStart k => Sys2Proof.Machine.execLapStart k s
  | .lapOpen p r => Sys2Proof.Machine.execLapOpen p r s
  | .lapResolve k => Sys2Proof.Machine.execLapResolve k s
  | .rehome k => Sys2Proof.Machine.execRehome k s
  | .billetDepart p r n unused => Sys2Proof.Machine.execBilletDepart p r n unused s
  | .billetReceived p frame => Sys2Proof.Machine.execBilletReceived p frame s
  | .gradientAdmit p r n => Sys2Proof.Machine.execGradientAdmit p r n s
  | .verdictReceived p frame => Sys2Proof.Machine.execVerdictReceived p frame s
  | .notOpenResendTimer p r tok n => Sys2Proof.Machine.execNotOpenResendTimer p r tok n s
  | .custodyDeadlineExpiry p r tok n => Sys2Proof.Machine.execCustodyDeadlineExpiry p r tok n s
  | .hopRecoveryExpiry p r tok n => Sys2Proof.Machine.execHopRecoveryExpiry p r tok n s
  | .landingSlotGrant d p r => Sys2Proof.Machine.execLandingSlotGrant d p r s
  | .memberPrepared p r => Sys2Proof.Machine.execMemberPrepared p r s
  | .prepareTokenReceived p frame => Sys2Proof.Machine.execPrepareTokenReceived p frame s
  | .commitTokenReceived p frame => Sys2Proof.Machine.execCommitTokenReceived p frame s
  | .abortTokenReceived p frame => Sys2Proof.Machine.execAbortTokenReceived p frame s
  | .commitWindowExpiry p r => Sys2Proof.Machine.execCommitWindowExpiry p r s
  | .relayWindowExpiry p r => Sys2Proof.Machine.execRelayWindowExpiry p r s
  | .lineSetup k => Sys2Proof.Machine.execLineSetup k s
  | .lineReroute k => Sys2Proof.Machine.execLineReroute k s
  | .lineTeardown k => Sys2Proof.Machine.execLineTeardown k s
  | .setupFrameReceived p frame => Sys2Proof.Machine.execSetupFrameReceived p frame s
  | .setupCommitReceived p frame => Sys2Proof.Machine.execSetupCommitReceived p frame s
  | .setupUndoReceived p frame => Sys2Proof.Machine.execSetupUndoReceived p frame s
  | .setupFetchTimeout p frame => Sys2Proof.Machine.execSetupFetchTimeout p frame s
  | .setupFrameWaitTimeout k => Sys2Proof.Machine.execSetupFrameWaitTimeout k s
  | .streamAdmit k => Sys2Proof.Machine.execStreamAdmit k s
  | .admitFrameReceived p frame => Sys2Proof.Machine.execAdmitFrameReceived p frame s
  | .undoFrameReceived p frame => Sys2Proof.Machine.execUndoFrameReceived p frame s
  | .streamPark k => Sys2Proof.Machine.execStreamPark k s
  | .streamResume k => Sys2Proof.Machine.execStreamResume k s
  | .streamRelease k => Sys2Proof.Machine.execStreamRelease k s
  | .streamStateFrameReceived p frame => Sys2Proof.Machine.execStreamStateFrameReceived p frame s
  | .step k => Sys2Proof.Machine.execStep k s
  | .chunk k => Sys2Proof.Machine.execChunk k s
  | .stepDispatch p k => Sys2Proof.Machine.execStepDispatch p k s
  | .activationFrameReceived p frame => Sys2Proof.Machine.execActivationFrameReceived p frame s
  | .layerComputeDone p ix => Sys2Proof.Machine.execLayerComputeDone p ix s
  | .stepDeadlineExpiry k => Sys2Proof.Machine.execStepDeadlineExpiry k s
  | .lineBrokenNoticeReceived p frame => Sys2Proof.Machine.execLineBrokenNoticeReceived p frame s
  | .batchWindowExpiry p line layer => Sys2Proof.Machine.execBatchWindowExpiry p line s layer
  | .tableLoad k => Sys2Proof.Machine.execTableLoad k s
  | .lbkProductDone p ix c0 c1 cmp0 cmp1 => Sys2Proof.Machine.execLbkProductDone p ix c0 c1 cmp0 cmp1 s
  | .shadowVerdict p ix => Sys2Proof.Machine.execShadowVerdict p ix s
  | .lbkTempSample b t => Sys2Proof.Machine.execLbkTempSample b t s
  | .lbkSweepTimer b => Sys2Proof.Machine.execLbkSweepTimer b s
  | .lbkSweep k => Sys2Proof.Machine.execLbkSweep k s
  | .rowSettled b r => Sys2Proof.Machine.execRowSettled b r s
  | .rowFitDone b residual inputs => Sys2Proof.Machine.execRowFitDone b residual inputs s
  | .lbkTablesStale b => Sys2Proof.Machine.execLbkTablesStale b s
  | .lbkStagePowerLoss b stage idx => Sys2Proof.Machine.execLbkStagePowerLoss b stage idx s
  | .lbkLaserChangeDone b => Sys2Proof.Machine.execLbkLaserChangeDone b s
  | .lbkBlockStatus k => Sys2Proof.Machine.execLbkBlockStatus k s
  | .lbkForceFallback k => Sys2Proof.Machine.execLbkForceFallback k s
  | .linkConfig k => Sys2Proof.Machine.execLinkConfig k s
  | .addressAssign k => Sys2Proof.Machine.execAddressAssign k s
  | .linkMeasure k => Sys2Proof.Machine.execLinkMeasure k s
  | .semSet k => Sys2Proof.Machine.execSemSet k s
  | .semSignal k => Sys2Proof.Machine.execSemSignal k s
  | .semWaitTimeout p ix j => Sys2Proof.Machine.execSemWaitTimeout p ix j s
  | .barrierSet k => Sys2Proof.Machine.execBarrierSet k s
  | .barrierArrive k => Sys2Proof.Machine.execBarrierArrive k s
  | .powerCap k => Sys2Proof.Machine.execPowerCap k s
  | .thermalHint k => Sys2Proof.Machine.execThermalHint k s
  | .powerRead k => Sys2Proof.Machine.execPowerRead k s
  | .evrCopy k => Sys2Proof.Machine.execEvrCopy k s
  | .evrClear k => Sys2Proof.Machine.execEvrClear k s
  | .evrPersist k => Sys2Proof.Machine.execEvrPersist k s
  | .fwStage k => Sys2Proof.Machine.execFwStage k s
  | .fwActivate k => Sys2Proof.Machine.execFwActivate k s
  | .configWrite k => Sys2Proof.Machine.execConfigWrite k s
  | .flashRead k => Sys2Proof.Machine.execFlashRead k s
  | .bulkFrameReceived p frame => Sys2Proof.Machine.execBulkFrameReceived p frame s
  | .managementFrameReceived p frame => Sys2Proof.Machine.execManagementFrameReceived p frame s
  | .sqDoorbell fn p ix v => Sys2Proof.Machine.execSqDoorbell fn p ix v s
  | .cqDoorbell fn p j v => Sys2Proof.Machine.execCqDoorbell fn p j v s
  | .proxyDoorbellWrite fn p lo hi => Sys2Proof.Machine.execProxyDoorbellWrite fn p lo hi s
  | .sqStop fn p ix => Sys2Proof.Machine.execSqStop fn p ix s
  | .sqRestart fn p ix => Sys2Proof.Machine.execSqRestart fn p ix s
  | .ringEnable fn p cq ix v => Sys2Proof.Machine.execRingEnable fn p cq ix v s
  | .ringDisable fn p cq ix v => Sys2Proof.Machine.execRingDisable fn p cq ix v s
  | .fetchBurstIssue => Sys2Proof.Machine.execFetchBurstIssue s
  | .fetchBurstArrive p ix => Sys2Proof.Machine.execFetchBurstArrive p ix s
  | .packetDispatch p ix => Sys2Proof.Machine.execPacketDispatch p ix s
  | .packetTimeout k => Sys2Proof.Machine.execPacketTimeout k s
  | .prtLock fn p => Sys2Proof.Machine.execPrtLock fn p s
  | .prtReset p => Sys2Proof.Machine.execPrtReset p s
  | .prtRelease p => Sys2Proof.Machine.execPrtRelease p s
  | .partitionResetDone p => Sys2Proof.Machine.execPartitionResetDone p s
  | .partitionStateLost p => Sys2Proof.Machine.execPartitionStateLost p s
  | .granuleOwnerWrite g v => Sys2Proof.Machine.execGranuleOwnerWrite g v s
  | .granuleZeroingDone g => Sys2Proof.Machine.execGranuleZeroingDone g s
  | .anvilOwnerWrite p mask => Sys2Proof.Machine.execAnvilOwnerWrite p mask s
  | .slotQuotaWrite fn p v => Sys2Proof.Machine.execSlotQuotaWrite fn p v s
  | .poolLimitWrite v => Sys2Proof.Machine.execPoolLimitWrite v s
  | .vecSrSeedWrite fn p v => Sys2Proof.Machine.execVecSrSeedWrite fn p v s
  | .semValueWrite fn p ix v => Sys2Proof.Machine.execSemValueWrite fn p ix v s
  | .semSignalWrite fn p ix v => Sys2Proof.Machine.execSemSignalWrite fn p ix v s
  | .semBarrierWrite fn p j v => Sys2Proof.Machine.execSemBarrierWrite fn p j v s
  | .registerWrite fn addr len val => Sys2Proof.Machine.execRegisterWrite fn addr len val s
  | .lowWordRead fn addr len => Sys2Proof.Machine.execLowWordRead fn addr len s
  | .bar0IllegalAccess fn addr len write => Sys2Proof.Machine.execBar0IllegalAccess fn addr len write s
  | .hostBar2Read fn addr len ecc => Sys2Proof.Machine.execHostBar2Read fn addr len ecc s
  | .hostBar2Write fn addr data ecc => Sys2Proof.Machine.execHostBar2Write fn addr data s ecc
  | .pciConfigWrite fn field val => Sys2Proof.Machine.execPciConfigWrite fn field val s
  | .vfEnableWrite enable num => Sys2Proof.Machine.execVfEnableWrite enable num s
  | .hostPortReset kind => Sys2Proof.Machine.execHostPortReset kind s
  | .perstDeassert => Sys2Proof.Machine.execPerstDeassert s
  | .hostLinkSettled rate width flit => Sys2Proof.Machine.execHostLinkSettled rate width flit s
  | .functionLevelReset v => Sys2Proof.Machine.execFunctionLevelReset v s
  | .hostRequestIssue r => Sys2Proof.Machine.execHostRequestIssue r s
  | .hostCompletionReceived tag fn status poison data => Sys2Proof.Machine.execHostCompletionReceived tag fn status poison data s
  | .completionTimeout tag => Sys2Proof.Machine.execCompletionTimeout tag s
  | .tagQuarantineExpiry tag => Sys2Proof.Machine.execTagQuarantineExpiry tag s
  | .msixUnmask fn v => Sys2Proof.Machine.execMsixUnmask fn v s
  | .proxyRequestReceived p frame => Sys2Proof.Machine.execProxyRequestReceived p frame s
  | .proxyResponseReceived p frame => Sys2Proof.Machine.execProxyResponseReceived p frame s
  | .proxyDeadlineExpiry p tag => Sys2Proof.Machine.execProxyDeadlineExpiry p tag s
  | .proxyTagQuarantineExpiry p tag => Sys2Proof.Machine.execProxyTagQuarantineExpiry p tag s
  | .linkTrainingStart d => Sys2Proof.Machine.execLinkTrainingStart d s
  | .trainingStepTimeout d passed => Sys2Proof.Machine.execTrainingStepTimeout d passed s
  | .linkInitReceived d os => Sys2Proof.Machine.execLinkInitReceived d os s
  | .configFlitReceived d flit fec cor => Sys2Proof.Machine.execConfigFlitReceived d flit fec s cor
  | .dataFlitReceived d flit fec cor => Sys2Proof.Machine.execDataFlitReceived d flit fec s cor
  | .controlFlitReceived d flit fec cor => Sys2Proof.Machine.execControlFlitReceived d flit fec s cor
  | .ackReportDue d => Sys2Proof.Machine.execAckReportDue d s
  | .nakRepeatTimer d => Sys2Proof.Machine.execNakRepeatTimer d s
  | .replayTimerExpiry d tie => Sys2Proof.Machine.execReplayTimerExpiry d s tie
  | .linkReqReceived d os => Sys2Proof.Machine.execLinkReqReceived d os s
  | .linkAckReceived d os => Sys2Proof.Machine.execLinkAckReceived d os s
  | .linkReqResendTimer d => Sys2Proof.Machine.execLinkReqResendTimer d s
  | .linkReqTimeout d => Sys2Proof.Machine.execLinkReqTimeout d s
  | .pauseReceived d => Sys2Proof.Machine.execPauseReceived d s
  | .quadsReady d => Sys2Proof.Machine.execQuadsReady d s
  | .resumeReceived d os => Sys2Proof.Machine.execResumeReceived d os s
  | .pauseLimitExpiry d => Sys2Proof.Machine.execPauseLimitExpiry d s
  | .linkSilenceExpiry d => Sys2Proof.Machine.execLinkSilenceExpiry d s
  | .quadFault d quads => Sys2Proof.Machine.execQuadFault d quads s
  | .failedQuadRetrain d => Sys2Proof.Machine.execFailedQuadRetrain d s
  | .quadPrbsPassed d k => Sys2Proof.Machine.execQuadPrbsPassed d k s
  | .lnkCtrlRetrain d => Sys2Proof.Machine.execLnkCtrlRetrain d s
  | .lnkCtrlDown d => Sys2Proof.Machine.execLnkCtrlDown d s
  | .lnkTargetQuadsWrite d n => Sys2Proof.Machine.execLnkTargetQuadsWrite d n s
  | .helloSendTimer d => Sys2Proof.Machine.execHelloSendTimer d s
  | .helloReceived d frame => Sys2Proof.Machine.execHelloReceived d frame s
  | .neighbourLostTimer d => Sys2Proof.Machine.execNeighbourLostTimer d s
  | .assignReceived d frame => Sys2Proof.Machine.execAssignReceived d frame s
  | .frameIngress d v => Sys2Proof.Machine.execFrameIngress d v s
  | .antFenceWrite d fence => Sys2Proof.Machine.execAntFenceWrite d fence s
  | .lineFrameReceived d c frame fec => Sys2Proof.Machine.execLineFrameReceived d c frame s fec
  | .swapReqReceived d os => Sys2Proof.Machine.execSwapReqReceived d os s
  | .swapToVerified d ok => Sys2Proof.Machine.execSwapToVerified d ok s
  | .swapAckReceived d os => Sys2Proof.Machine.execSwapAckReceived d os s
  | .swapDoneReceived d os => Sys2Proof.Machine.execSwapDoneReceived d os s
  | .swapTimeLimit d => Sys2Proof.Machine.execSwapTimeLimit d s
  | .channelCalVisit d => Sys2Proof.Machine.execChannelCalVisit d s
  | .channelCalDone d pass m => Sys2Proof.Machine.execChannelCalDone d pass s m
  | .laserFailed ix bias power => Sys2Proof.Machine.execLaserFailed ix s bias power
  | .laserWorn ix bias power => Sys2Proof.Machine.execLaserWorn ix bias s power
  | .ringLockLost d c rx err => Sys2Proof.Machine.execRingLockLost d c rx err s
  | .lightMonitorLow d stage c reading => Sys2Proof.Machine.execLightMonitorLow d stage c s reading
  | .signalAbsent d => Sys2Proof.Machine.execSignalAbsent d s
  | .aprProbeTimer d => Sys2Proof.Machine.execAprProbeTimer d s
  | .signalRestored d => Sys2Proof.Machine.execSignalRestored d s
  | .tclkPresent => Sys2Proof.Machine.execTclkPresent s
  | .tclkLost => Sys2Proof.Machine.execTclkLost s
  | .rtsyncPulse => Sys2Proof.Machine.execRtsyncPulse s
  | .rtsyncMissDecision => Sys2Proof.Machine.execRtsyncMissDecision s
  | .rackTick => Sys2Proof.Machine.execRackTick s
  | .rtLoadArm tick => Sys2Proof.Machine.execRtLoadArm tick s
  | .mtOffsetArm => Sys2Proof.Machine.execMtOffsetArm s
  | .aclkPllLockLost => Sys2Proof.Machine.execAclkPllLockLost s
  | .aclkChangeDone => Sys2Proof.Machine.execAclkChangeDone s
  | .timeMeasureStart d => Sys2Proof.Machine.execTimeMeasureStart d s
  | .timeReqSend d => Sys2Proof.Machine.execTimeReqSend d s
  | .timeReqReceived d os => Sys2Proof.Machine.execTimeReqReceived d os s
  | .timeRspReceived d os => Sys2Proof.Machine.execTimeRspReceived d os s
  | .timeMeasureEnd d => Sys2Proof.Machine.execTimeMeasureEnd d s
  | .inputOut bus vb vr vn => Sys2Proof.Machine.execInputOut bus vb vr vn s
  | .inputQualified bus vb vr vn => Sys2Proof.Machine.execInputQualified bus vb vr vn s
  | .fetDeadtimeExpiry => Sys2Proof.Machine.execFetDeadtimeExpiry s
  | .nodeSettled vb vr vn => Sys2Proof.Machine.execNodeSettled vb vr vn s
  | .nodeAt32v vn => Sys2Proof.Machine.execNodeAt32v vn s
  | .railPowerGood r vout straps => Sys2Proof.Machine.execRailPowerGood r vout straps s
  | .railRampTimeout r => Sys2Proof.Machine.execRailRampTimeout r s
  | .railRetryTimer r => Sys2Proof.Machine.execRailRetryTimer r s
  | .railFault r status comm => Sys2Proof.Machine.execRailFault r status comm s
  | .bellowsControlPeriod pout est seqEst steps hearth flits banks status vb vr vn => Sys2Proof.Machine.execBellowsControlPeriod pout est seqEst steps hearth flits banks status vb vr vn s
  | .vcoreDroop => Sys2Proof.Machine.execVcoreDroop s
  | .vcoreDroopRecovery => Sys2Proof.Machine.execVcoreDroopRecovery s
  | .belCapWrite watts => Sys2Proof.Machine.execBelCapWrite watts s
  | .belAclkWrite steps => Sys2Proof.Machine.execBelAclkWrite steps s
  | .valveCycleStart v duty meas => Sys2Proof.Machine.execValveCycleStart v duty meas s
  | .forecastTick heat meas => Sys2Proof.Machine.execForecastTick heat meas s
  | .pullTimeEnd v closing => Sys2Proof.Machine.execPullTimeEnd v closing s
  | .profileEnd v closing => Sys2Proof.Machine.execProfileEnd v closing s
  | .releaseWaitEnd v => Sys2Proof.Machine.execReleaseWaitEnd v s
  | .forcedOffEnd v => Sys2Proof.Machine.execForcedOffEnd v s
  | .pullInLimit v => Sys2Proof.Machine.execPullInLimit v s
  | .onTimeLimit v => Sys2Proof.Machine.execOnTimeLimit v s
  | .coilFault v => Sys2Proof.Machine.execCoilFault v s
  | .sectionTempSample x t ma => Sys2Proof.Machine.execSectionTempSample x t ma s
  | .tempSourceFault x => Sys2Proof.Machine.execTempSourceFault x s
  | .forecastSilence => Sys2Proof.Machine.execForecastSilence s
  | .throttleStepPeriod => Sys2Proof.Machine.execThrottleStepPeriod s
  | .stopHoldTimeout k => Sys2Proof.Machine.execStopHoldTimeout k s
  | .qchCalibrate => Sys2Proof.Machine.execQchCalibrate s
  | .qchCalibrationDone closing opening transit idle => Sys2Proof.Machine.execQchCalibrationDone closing opening transit idle s
  | .valveClear v => Sys2Proof.Machine.execValveClear v s
  | .auxRise => Sys2Proof.Machine.execAuxRise s
  | .chipReset cause => Sys2Proof.Machine.execChipReset cause s
  | .glbChipReset => Sys2Proof.Machine.execGlbChipReset s
  | .chipReady => Sys2Proof.Machine.execChipReady s
  | .smithWatchdogExpiry k => Sys2Proof.Machine.execSmithWatchdogExpiry k s
  | .flashOpDone blank => Sys2Proof.Machine.execFlashOpDone blank s
  | .flashBusyTimeout => Sys2Proof.Machine.execFlashBusyTimeout s
  | .calibrationSaveTimer => Sys2Proof.Machine.execCalibrationSaveTimer s
  | .mctpControlMessage cmd data => Sys2Proof.Machine.execMctpControlMessage cmd data s
  | .pldmMonitorRequest typ cmd data => Sys2Proof.Machine.execPldmMonitorRequest typ cmd data s
  | .pldmUpdateCommand cmd data => Sys2Proof.Machine.execPldmUpdateCommand cmd data s
  | .pldmActivateFirmware => Sys2Proof.Machine.execPldmActivateFirmware s
  | .spdmRequest code p1 p2 data => Sys2Proof.Machine.execSpdmRequest code p1 p2 data s
  | .debugTapToken key token => Sys2Proof.Machine.execDebugTapToken key token s
  | .jtagInstruction instr => Sys2Proof.Machine.execJtagInstruction instr s
  | .evrEventTaken => Sys2Proof.Machine.execEvrEventTaken s
  | .evrTokenRefill code => Sys2Proof.Machine.execEvrTokenRefill code s
  | .evrCtrlClear force => Sys2Proof.Machine.execEvrCtrlClear force s
  | .evrCtrlPersist => Sys2Proof.Machine.execEvrCtrlPersist s
  | .evrCursorFirst fn => Sys2Proof.Machine.execEvrCursorFirst fn s
  | .evrCursorNext fn idx => Sys2Proof.Machine.execEvrCursorNext fn idx s
  | .archiveRecord => Sys2Proof.Machine.execArchiveRecord s
  | .chipFatalFault cause book => Sys2Proof.Machine.execChipFatalFault cause book s
  | .fatalResetTimeout => Sys2Proof.Machine.execFatalResetTimeout s
  | .fatalCountExpiry => Sys2Proof.Machine.execFatalCountExpiry s
  | .glbFaultRelease => Sys2Proof.Machine.execGlbFaultRelease s
  | .scrubRead find => Sys2Proof.Machine.execScrubRead find s
  | .flitSlot d => Sys2Proof.Machine.execFlitSlot d s
  | .trainingLockAchieved d => Sys2Proof.Machine.execTrainingLockAchieved d s
  | .retrainAdvanceTimeout d => Sys2Proof.Machine.execRetrainAdvanceTimeout d s
  | .aclkPllLockRestored => Sys2Proof.Machine.execAclkPllLockRestored s
  | .anvilClearingDone a => Sys2Proof.Machine.execAnvilClearingDone a s
  | .auxFall => Sys2Proof.Machine.execAuxFall s
  | .laserSectionOutOfRange => Sys2Proof.Machine.execLaserSectionOutOfRange s
  | .pciRefclkRestored => Sys2Proof.Machine.execPciRefclkRestored s
  | .bootImageLoaded fit => Sys2Proof.Machine.execBootImageLoaded fit s
  | .hostPortStage => Sys2Proof.Machine.execHostPortStage s
  | .vcoreSettled => Sys2Proof.Machine.execVcoreSettled s
  | .armatureNoMotion v => Sys2Proof.Machine.execArmatureNoMotion v s

end Sys2Proof.Machine
end

