-- ==== Sys2Proof/Machine/Idle.lean ====
section
/-! DEFINITION. What passes with time alone: one cycle of the OSC domain. -/
namespace Sys2Proof.Machine

/-- Two TCLK cycles of 10 ns (R272, R274): rack time advances but for the cycles that it holds. -/
def Clk.advance (c : Clk) : Clk :=
  if c.running then
    { c with cycles := c.cycles + 2, rack := (c.rack + 2 - min 2 c.hold) % 2 ^ 64, hold := c.hold - 2 }
  else c

/-- One OSC cycle of 20 ns (R264), in which rack time counts two TCLK cycles while it runs (R271, R272). -/
def State.idle (s : State) : State := { s with osc := s.osc + 1, clk := s.clk.advance }

end Sys2Proof.Machine
end

