-- ==== Sys2Proof/WellFormed.lean ====
section
/-! DEFINITION. Well-formed commands: each names units that the block has, and words and addresses in range. A command's
meaning does not rely on it: an operand out of range changes nothing or meets the range check that its rule gives. -/
namespace Sys2Proof

/-- A number names a partition. -/
def isPart (n : Nat) : Bool := decide (n < 8)
/-- A number names a port. -/
def isPort (n : Nat) : Bool := decide (n < 8)
/-- A number names an anvil. -/
def isAnvil (n : Nat) : Bool := decide (n < 8)
/-- A number names a lightbank. -/
def isBank (n : Nat) : Bool := decide (n < 2)
/-- A number names a function or requester. -/
def isFn (n : Nat) : Bool := decide (n < 9)
/-- A number names a quad of a port. -/
def isQuad (n : Nat) : Bool := decide (n < 8)
/-- A mask of one or more quads. -/
def isQuadMask (n : Nat) : Bool := decide (0 < n) && decide (n < 256)
/-- What a calibration finds fits its fields; PAM4 codes are 6-bit and belong to rack ports (R240). -/
def isChanCal (d : Nat) (m : ChanCal) : Bool :=
  decide (m.bias < 256) && decide (m.power < 65536) && decide (m.quality < 65536) && decide (m.heat < 65536)
    && (if d < 6 then m.dac.length == 4 && m.dac.all (fun c => decide (c < 64)) && m.coef.length == 6 && m.coef.all (fun c => decide (c < 65536))
        else m.dac.isEmpty && m.coef.isEmpty)
/-- A number names a smith. -/
def isSmith (n : Nat) : Bool := decide (n < 4)
/-- A number names a granule. -/
def isGran (n : Nat) : Bool := decide (n < 128)
/-- A number names a laser. -/
def isLaser (n : Nat) : Bool := decide (n < 50)
/-- A number names an event code index. -/
def isCodeIdx (n : Nat) : Bool := decide (n < 4096)
/-- A number names a boundary-scan instruction. -/
def isJtag (n : Nat) : Bool := decide (n < 6)
/-- A number names a virtual channel. -/
def isVc (n : Nat) : Bool := decide (n < 8)
/-- A number names a physical row. -/
def isRow (n : Nat) : Bool := decide (n < 68)
/-- A number names what the scrubber finds. -/
def isFind (n : Nat) : Bool := decide (n < 3)
/-- A number names a kind of host port reset. -/
def isReset (n : Nat) : Bool := decide (n < 4)
/-- A number names a cooling section and its valve. -/
def isSection (n : Nat) : Bool := decide (n < 8)
/-- A number names a Sahold key slot. -/
def isKey (n : Nat) : Bool := decide (n < 2)
/-- A number names an optical stage of a lightbank. -/
def isStage (n : Nat) : Bool := decide (n < 5)
/-- A number names a monitor of a Gleed port. -/
def isLight (n : Nat) : Bool := decide (n < 6)
/-- A number names a Derord ring. -/
def isRing16 (n : Nat) : Bool := decide (n < 16)
/-- A number names a semaphore. -/
def isSem (n : Nat) : Bool := decide (n < 256)
/-- A number names a barrier. -/
def isBarrier (n : Nat) : Bool := decide (n < 64)
/-- A number names a campus carrier. -/
def isCarrier (n : Nat) : Bool := decide (n < 5)
/-- A number names a rack channel. -/
def isChan (n : Nat) : Bool := decide (n < 18)
/-- A number names a tong. -/
def isTong (n : Nat) : Bool := decide (n < 32)
/-- A number names a procession ring. -/
def isRing (n : Nat) : Bool := decide (n < 2)
/-- A number names a rail. -/
def isRail (n : Nat) : Bool := decide (n < 8)
/-- A register word. -/
def isWord (n : Nat) : Bool := decide (n < 2 ^ 32)
/-- A cause of R445 that is a command: 2 to 5. -/
def isCause (n : Nat) : Bool := decide (2 ≤ n) && decide (n ≤ 5)
/-- A cause of R501 that is observed: 1 to 4. -/
def isFatal (n : Nat) : Bool := decide (1 ≤ n) && decide (n ≤ 4)
/-- A virtual function, 1 to 8. -/
def isVf (n : Nat) : Bool := decide (1 ≤ n) && decide (n ≤ 8)
/-- An offset in BAR0, which is 64 MiB for the PF (R287). -/
def isBar0 (n : Nat) : Bool := decide (n < 2 ^ 26)
/-- An access of 4 or 8 bytes (R295). -/
def isLen (n : Nat) : Bool := n == 4 || n == 8
/-- A frame has at least its 32-byte header (R215). -/
def isFrame (b : List Byte) : Bool := decide (32 ≤ b.length)
/-- An ordered set has 16 bytes (R183). -/
def isOs (b : List Byte) : Bool := b.length == 16
/-- A flit has 128 bytes (R187). -/
def isFlit (b : List Byte) : Bool := b.length == 128

/-- A command is well-formed. -/
def Instr.wf : Instr → Bool
  | .nop _ => true
  | .setMode _ => true
  | .identify _ => true
  | .tongDesc _ => true
  | .tongList _ => true
  | .tongDescriptorStart t => isTong t
  | .tongDescriptorDone t _ => isTong t
  | .tongWaitTimeout t => isTong t
  | .fill _ => true
  | .fillDone t => isTong t
  | .bulkReceive _ => true
  | .bulkUnbind _ => true
  | .weightLoad _ => true
  | .weightLoadDone a _ => isAnvil a
  | .pass _ => true
  | .passDone a _ _ _ => isAnvil a
  | .epilogue _ => true
  | .epilogueDone a _ => isAnvil a
  | .vecOp _ => true
  | .vecOpDone a _ => isAnvil a
  | .cqInterruptTimer p j => isPart p && isRing16 j
  | .lapStart _ => true
  | .lapOpen p r => isPart p && isRing r
  | .lapResolve _ => true
  | .rehome _ => true
  | .billetDepart p r _ _ => isPart p && isRing r
  | .billetReceived p frame => isPart p && isFrame frame
  | .gradientAdmit p r _ => isPart p && isRing r
  | .verdictReceived p frame => isPart p && isFrame frame
  | .notOpenResendTimer p r _ _ => isPart p && isRing r
  | .custodyDeadlineExpiry p r _ _ => isPart p && isRing r
  | .hopRecoveryExpiry p r _ _ => isPart p && isRing r
  | .landingSlotGrant d p r => isPort d && isPart p && isRing r
  | .memberPrepared p r => isPart p && isRing r
  | .prepareTokenReceived p frame => isPart p && isFrame frame
  | .commitTokenReceived p frame => isPart p && isFrame frame
  | .abortTokenReceived p frame => isPart p && isFrame frame
  | .commitWindowExpiry p r => isPart p && isRing r
  | .relayWindowExpiry p r => isPart p && isRing r
  | .lineSetup _ => true
  | .lineReroute _ => true
  | .lineTeardown _ => true
  | .setupFrameReceived p frame => isPart p && isFrame frame
  | .setupCommitReceived p frame => isPart p && isFrame frame
  | .setupUndoReceived p frame => isPart p && isFrame frame
  | .setupFetchTimeout p frame => isPart p && isFrame frame
  | .setupFrameWaitTimeout _ => true
  | .streamAdmit _ => true
  | .admitFrameReceived p frame => isPart p && isFrame frame
  | .undoFrameReceived p frame => isPart p && isFrame frame
  | .streamPark _ => true
  | .streamResume _ => true
  | .streamRelease _ => true
  | .streamStateFrameReceived p frame => isPart p && isFrame frame
  | .step _ => true
  | .chunk _ => true
  | .stepDispatch p _ => isPart p
  | .activationFrameReceived p frame => isPart p && isFrame frame
  | .layerComputeDone p _ => isPart p
  | .stepDeadlineExpiry _ => true
  | .lineBrokenNoticeReceived p frame => isPart p && isFrame frame
  | .batchWindowExpiry p _ _ => isPart p
  | .tableLoad _ => true
  | .lbkProductDone p _ _ _ _ _ => isPart p
  | .shadowVerdict p _ => isPart p
  | .lbkTempSample b _ => isBank b
  | .lbkSweepTimer b => isBank b
  | .lbkSweep _ => true
  | .rowSettled b r => isBank b && isRow r
  | .rowFitDone b _ _ => isBank b
  | .lbkTablesStale b => isBank b
  | .lbkStagePowerLoss b stage _ => isBank b && isStage stage
  | .lbkLaserChangeDone b => isBank b
  | .lbkBlockStatus _ => true
  | .lbkForceFallback _ => true
  | .linkConfig _ => true
  | .addressAssign _ => true
  | .linkMeasure _ => true
  | .semSet _ => true
  | .semSignal _ => true
  | .semWaitTimeout p i _ => isPart p && isSem i
  | .barrierSet _ => true
  | .barrierArrive _ => true
  | .powerCap _ => true
  | .thermalHint _ => true
  | .powerRead _ => true
  | .evrCopy _ => true
  | .evrClear _ => true
  | .evrPersist _ => true
  | .fwStage _ => true
  | .fwActivate _ => true
  | .configWrite _ => true
  | .flashRead _ => true
  | .bulkFrameReceived p frame => isPart p && isFrame frame
  | .managementFrameReceived p frame => isPart p && isFrame frame
  | .sqDoorbell fn p i v => isFn fn && isPart p && isRing16 i && isWord v
  | .cqDoorbell fn p j v => isFn fn && isPart p && isRing16 j && isWord v
  | .proxyDoorbellWrite fn p lo hi => isFn fn && isPart p && isWord lo && isWord hi
  | .sqStop fn p i => isFn fn && isPart p && isRing16 i
  | .sqRestart fn p i => isFn fn && isPart p && isRing16 i
  | .ringEnable fn p _ i v => isFn fn && isPart p && isRing16 i && isWord v
  | .ringDisable fn p _ i v => isFn fn && isPart p && isRing16 i && isWord v
  | .fetchBurstIssue => true
  | .fetchBurstArrive p i => isPart p && isRing16 i
  | .packetDispatch p i => isPart p && isRing16 i
  | .packetTimeout _ => true
  | .prtLock fn p => isFn fn && isPart p
  | .prtReset p => isPart p
  | .prtRelease p => isPart p
  | .partitionResetDone p => isPart p
  | .partitionStateLost p => isPart p
  | .granuleOwnerWrite g v => isGran g && isWord v
  | .granuleZeroingDone g => isGran g
  | .anvilOwnerWrite p _ => isPart p
  | .slotQuotaWrite fn p v => isFn fn && isPart p && isWord v
  | .poolLimitWrite v => isWord v
  | .vecSrSeedWrite fn p v => isFn fn && isPart p && isWord v
  | .semValueWrite fn p i v => isFn fn && isPart p && isSem i && isWord v
  | .semSignalWrite fn p i v => isFn fn && isPart p && isSem i && isWord v
  | .semBarrierWrite fn p j v => isFn fn && isPart p && isBarrier j && isWord v
  | .registerWrite fn addr len _ => isFn fn && isBar0 addr && isLen len
  | .lowWordRead fn addr len => isFn fn && isBar0 addr && isLen len
  | .bar0IllegalAccess fn addr _ _ => isFn fn && isBar0 addr
  | .hostBar2Read fn _ _ _ => isFn fn
  | .hostBar2Write fn _ _ _ => isFn fn
  | .pciConfigWrite fn _ _ => isFn fn
  | .vfEnableWrite _ _ => true
  | .hostPortReset kind => isReset kind
  | .perstDeassert => true
  | .hostLinkSettled _ _ _ => true
  | .functionLevelReset v => isVf v
  | .hostRequestIssue r => isFn r
  | .hostCompletionReceived _ fn _ _ _ => isFn fn
  | .completionTimeout _ => true
  | .tagQuarantineExpiry _ => true
  | .msixUnmask fn _ => isFn fn
  | .proxyRequestReceived p frame => isPart p && isFrame frame
  | .proxyResponseReceived p frame => isPart p && isFrame frame
  | .proxyDeadlineExpiry p _ => isPart p
  | .proxyTagQuarantineExpiry p _ => isPart p
  | .linkTrainingStart d => isPort d
  | .trainingStepTimeout d _ => isPort d
  | .linkInitReceived d os => isPort d && isOs os
  | .configFlitReceived d flit _ _ => isPort d && isFlit flit
  | .dataFlitReceived d flit _ _ => isPort d && isFlit flit
  | .controlFlitReceived d flit _ _ => isPort d && isFlit flit
  | .ackReportDue d => isPort d
  | .nakRepeatTimer d => isPort d
  | .replayTimerExpiry d _ => isPort d
  | .linkReqReceived d os => isPort d && isOs os
  | .linkAckReceived d os => isPort d && isOs os
  | .linkReqResendTimer d => isPort d
  | .linkReqTimeout d => isPort d
  | .pauseReceived d => isPort d
  | .quadsReady d => isPort d
  | .resumeReceived d os => isPort d && isOs os
  | .pauseLimitExpiry d => isPort d
  | .linkSilenceExpiry d => isPort d
  | .quadFault d quads => isPort d && isQuadMask quads
  | .failedQuadRetrain d => isPort d
  | .quadPrbsPassed d k => isPort d && isQuad k
  | .lnkCtrlRetrain d => isPort d
  | .lnkCtrlDown d => isPort d
  | .lnkTargetQuadsWrite d _ => isPort d
  | .helloSendTimer d => isPort d
  | .helloReceived d frame => isPort d && isFrame frame
  | .neighbourLostTimer d => isPort d
  | .assignReceived d frame => isPort d && isFrame frame
  | .frameIngress d v => isPort d && isVc v
  | .antFenceWrite d _ => isPort d
  | .lineFrameReceived d c frame _ => isPort d && isCarrier c && isFrame frame
  | .swapReqReceived d os => isPort d && isOs os
  | .swapToVerified d _ => isPort d
  | .swapAckReceived d os => isPort d && isOs os
  | .swapDoneReceived d os => isPort d && isOs os
  | .swapTimeLimit d => isPort d
  | .channelCalVisit d => isPort d
  | .channelCalDone d _ m => isPort d && isChanCal d m
  | .laserFailed i _ _ => isLaser i
  | .laserWorn i _ _ => isLaser i
  | .ringLockLost d c _ _ => isPort d && isChan c
  | .lightMonitorLow d stage _ _ => isPort d && isLight stage
  | .signalAbsent d => isPort d
  | .aprProbeTimer d => isPort d
  | .signalRestored d => isPort d
  | .tclkPresent => true
  | .tclkLost => true
  | .rtsyncPulse => true
  | .rtsyncMissDecision => true
  | .rackTick => true
  | .rtLoadArm _ => true
  | .mtOffsetArm => true
  | .aclkPllLockLost => true
  | .aclkChangeDone => true
  | .timeMeasureStart d => isPort d
  | .timeReqSend d => isPort d
  | .timeReqReceived d os => isPort d && isOs os
  | .timeRspReceived d os => isPort d && isOs os
  | .timeMeasureEnd d => isPort d
  | .inputOut _ _ _ _ => true
  | .inputQualified _ _ _ _ => true
  | .fetDeadtimeExpiry => true
  | .nodeSettled _ _ _ => true
  | .nodeAt32v _ => true
  | .railPowerGood r _ _ => isRail r
  | .railRampTimeout r => isRail r
  | .railRetryTimer r => isRail r
  | .railFault r _ _ => isRail r
  | .bellowsControlPeriod _ _ _ _ _ _ _ _ _ _ _ => true
  | .vcoreDroop => true
  | .vcoreDroopRecovery => true
  | .belCapWrite watts => isWord watts
  | .belAclkWrite steps => isWord steps
  | .valveCycleStart v _ _ => isSection v
  | .forecastTick _ _ => true
  | .pullTimeEnd v _ => isSection v
  | .profileEnd v _ => isSection v
  | .releaseWaitEnd v => isSection v
  | .forcedOffEnd v => isSection v
  | .pullInLimit v => isSection v
  | .onTimeLimit v => isSection v
  | .coilFault v => isSection v
  | .sectionTempSample x _ _ => isSection x
  | .tempSourceFault x => isSection x
  | .forecastSilence => true
  | .throttleStepPeriod => true
  | .stopHoldTimeout _ => true
  | .qchCalibrate => true
  | .qchCalibrationDone _ _ _ _ => true
  | .valveClear v => isSection v
  | .auxRise => true
  | .chipReset cause => isCause cause
  | .glbChipReset => true
  | .chipReady => true
  | .smithWatchdogExpiry k => isSmith k
  | .flashOpDone _ => true
  | .flashBusyTimeout => true
  | .calibrationSaveTimer => true
  | .mctpControlMessage _ _ => true
  | .pldmMonitorRequest _ _ _ => true
  | .pldmUpdateCommand _ _ => true
  | .pldmActivateFirmware => true
  | .spdmRequest _ _ _ _ => true
  | .debugTapToken key _ => isKey key
  | .jtagInstruction instr => isJtag instr
  | .evrEventTaken => true
  | .evrTokenRefill code => isCodeIdx code
  | .evrCtrlClear _ => true
  | .evrCtrlPersist => true
  | .evrCursorFirst fn => isFn fn
  | .evrCursorNext fn _ => isFn fn
  | .archiveRecord => true
  | .chipFatalFault cause _ => isFatal cause
  | .fatalResetTimeout => true
  | .fatalCountExpiry => true
  | .glbFaultRelease => true
  | .scrubRead find => isFind find
  | .flitSlot d => isPort d
  | .trainingLockAchieved d => isPort d
  | .retrainAdvanceTimeout d => isPort d
  | .aclkPllLockRestored => true
  | .anvilClearingDone a => isAnvil a
  | .auxFall => true
  | .laserSectionOutOfRange => true
  | .pciRefclkRestored => true
  | .bootImageLoaded _ => true
  | .hostPortStage => true
  | .vcoreSettled => true
  | .armatureNoMotion v => isSection v

end Sys2Proof
end

