-- ==== Sys2Proof/Safety.lean ====
section
/-! DEFINITION. The terms that claims about the whole machine use: the canonical form of its memories and registers, the
invariant that every step keeps, and what any command leaves behind of the state that it met. -/
namespace Sys2Proof.Machine

/-- Hearth in canonical form: addresses strictly rising, and no entry equal to what an unlisted address reads as, 0. -/
def Memory.wf (m : List Host.Cell) : Bool := twf (fun _ b => b != 0#8) m

/-- The flash in canonical form: an unlisted byte is blank, 0xFF. -/
def Flash.wf (m : List Host.Cell) : Bool := twf (fun _ b => b != 0xFF#8) m

/-- The stored registers in canonical form: an unlisted register holds its reset word. -/
def Regs.wf (t : Tbl Word) : Bool := twf (fun a w => w != resetWord a) t

/-- The invariant of the machine: every addressed store is in its canonical form, so that equal contents are equal data. -/
def State.Inv (s : State) : Prop := Memory.wf s.hrt.mem = true ∧ Flash.wf s.nvs.flash = true ∧ Regs.wf s.regs = true

/-- Packet `k` of opcode `op` may start at its unit: it is `x`, and `t` is the state in which it has started (R353). -/
def Starts (s : State) (op k : Nat) (x : Pkt) (t : State) : Prop := s.startable k op = some x ∧ t = s.startPkt k x

/-- A write of function `fn` reaches partition `p`'s own registers: the PF's, or its VF's, while `p` is not RESETTING (R516, R517,
R526) and no earlier posted write of the host still waits (R303). -/
def Reaches (s : State) (fn p : Nat) : Prop :=
  p < 8 ∧ s.fnExists fn = true ∧ (fn = 0 ∨ fn = p + 1) ∧ s.inReset p = false ∧ s.hostHeld = false

/-- What the fields of the register at `a` make of a written word when no lock holds them (R518), for the PF or for a VF. -/
def State.written (s : State) (pf : Bool) (a v : Nat) : RegWrite :=
  match locate a with
  | some (d, _, _) => regWrite pf false d (s.reg a).toNat v
  | none => { new := (s.reg a).toNat }

/-- Command `c` keeps `r`: every next state that it answers stands in that relation to the state that it met. -/
def Keeps (c : Instr) (r : State → State → Prop) : Prop := ∀ s t, exec c s = .next t → r s t

/-- Every byte of Hearth is as before, and so is every register outside the blocks listed but for the count of lost events. -/
def SameOutside (blocks : List Nat) (s t : State) : Prop :=
  (∀ a, t.byteAt a = s.byteAt a) ∧ ∀ a, a / 0x100000 ∉ blocks → a ≠ adrEvrOverflow → t.reg a = s.reg a

/-- Only Quench's own state, registers of QCH, events and outputs differ. -/
def QuenchOnly (s t : State) : Prop :=
  t = { s with qch := t.qch, regs := t.regs, evr := t.evr, out := t.out } ∧ SameOutside [17] s t

/-- Only the links, what Gleed ports keep, time measurements, registers of LNK, events and outputs differ, and of the links and ports only
link `d` and port `d`. -/
def LinkOnly (d : Nat) (s t : State) : Prop :=
  t = { s with links := t.links, gleeds := t.gleeds, measures := t.measures, regs := t.regs, evr := t.evr, out := t.out }
    ∧ SameOutside [12] s t ∧ (∀ e, e ≠ d → t.link e = s.link e) ∧ ∀ e, 4 ≤ e → e ≠ d → t.gleed e = s.gleed e

/-- Only the clock's state, registers of CLK and events differ. -/
def ClockOnly (s t : State) : Prop := t = { s with clk := t.clk, regs := t.regs, evr := t.evr } ∧ SameOutside [15] s t

/-- Only what the device keeps for partition `p`, satisfied waits, registers of CMD, events and the host's waiting requests differ. -/
def PartOnly (p : Nat) (s t : State) : Prop :=
  t = { s with parts := t.parts, grants := t.grants, regs := t.regs, evr := t.evr, hrt := { s.hrt with hostWait := t.hrt.hostWait } }
    ∧ SameOutside [3] s t
    ∧ ∀ q, q ≠ p → t.part q = s.part q

/-- Only the sideband's state, outputs and the position in the free values differ. -/
def SidebandOnly (s t : State) : Prop := t = { s with side := t.side, out := t.out, freeCtr := t.freeCtr }

/-- What every command keeps of the state that it met: the queue and the model's clock stand still, outputs are only
appended, free values and packet handles are not used twice, canonical forms stay canonical, and fuses only blow (R451,
R454). -/
structure Follows (s t : State) : Prop where
  pending : t.pending = s.pending
  osc : t.osc = s.osc
  free : s.freeCtr ≤ t.freeCtr
  pkts : s.nextPkt ≤ t.nextPkt
  out : s.out <+: t.out
  mem : Memory.wf s.hrt.mem = true → Memory.wf t.hrt.mem = true
  flash : Flash.wf s.nvs.flash = true → Flash.wf t.nvs.flash = true
  regs : Regs.wf s.regs = true → Regs.wf t.regs = true
  svn : s.nvs.svn ≤ t.nvs.svn
  revoked : ∀ i, s.nvs.revoked.testBit i = true → t.nvs.revoked.testBit i = true

end Sys2Proof.Machine
end

