-- ==== Sys2Proof/Certificates/Slice0/Obligations.lean ====
section
/-! DEFINITION. The statements for the provers. Each names the rules of the manual that it rests on. A clause gives what a
command answers under hypotheses on the state and its operands alone; where its conclusion is the whole next state, that state
says what the command leaves unchanged as well. -/

open Sys2Proof Sys2Proof.Machine

/-! Derord: admin, semaphore and barrier opcodes (R21, R369, R391). -/

/-- R21, R369: the admin opcodes complete. NOP and IDENTIFY complete with DONE; SET_MODE of the present mode completes
with it, whether or not a change is pending; a change to procession without a stream slot held takes place and completes; a change to
resident waits for the open laps, and ends the lap-start packets that have opened none (the model's choice, log entry 66). -/
def Obligations.AdminOpcodesComplete : Prop :=
  (∀ k s x t, Starts s 0x00 k x t → exec (.nop k) s = .next (t.done k []))
  ∧ (∀ k s x t, Starts s 0x02 k x t →
      exec (.identify k) s = .next (t.done k (leBytes 8 ownId ++ leBytes 4 (s.reg adrGlbFwVersion).toNat)))
  ∧ (∀ k s x t, Starts s 0x01 k x t → ((s.part x.part).modePend = none ∨ (u8 x.bytes 0x10 == 1) = (s.part x.part).procession) →
      (u8 x.bytes 0x10 == 1) = (t.part x.part).procession →
      exec (.setMode k) s = .next (t.done k (leBytes 1 (u8 x.bytes 0x10))))
  ∧ (∀ k s x t, Starts s 0x01 k x t → (s.part x.part).modePend = none → u8 x.bytes 0x10 = 1 →
      (t.part x.part).procession = false → (t.part x.part).slots = [] →
      exec (.setMode k) s = .next ((t.setPart x.part { t.part x.part with procession := true }).done k (leBytes 1 1)))
  ∧ (∀ k s x t, Starts s 0x01 k x t → (s.part x.part).modePend = none → u8 x.bytes 0x10 = 0 →
      (t.part x.part).procession = true →
      exec (.setMode k) s = .next (State.modeSettle (State.dropUnopened (State.dropUnopened
        (t.setPart x.part { t.part x.part with modePend := some k }) x.part 0 0x14) x.part 1 0x14) x.part))

/-- R391: SEM_SET replaces the value of a semaphore without waiters and returns the old one; SEM_SIGNAL adds its count and
returns the new value; BARRIER_SET writes the barrier's word; BARRIER_ARRIVE counts its arrivals and returns the generation. -/
def Obligations.SemaphoreOpcodesComplete : Prop :=
  (∀ k s x t i, Starts s 0x70 k x t → i = u16 x.bytes 0x10 → (t.sem x.part i).waiters = [] →
      exec (.semSet k) s = .next ((t.semWrite x.part i (u32 x.bytes 0x14)).done k (leBytes 4 (t.sem x.part i).value)))
  ∧ (∀ k s x t i u, Starts s 0x71 k x t → i = u16 x.bytes 0x10 → u = t.semSignal x.part i (u8 x.bytes 0x12) →
      exec (.semSignal k) s = .next (u.done k (leBytes 4 (u.sem x.part i).value)))
  ∧ (∀ k s x t j w, Starts s 0x72 k x t → j = u16 x.bytes 0x10 →
      w = barrierWord (u16 x.bytes 0x12) (u8 x.bytes 0x14) (u8 x.bytes 0x15) →
      ((t.barrier x.part j).arrivals = 0 ∨ w = s.reg (adrSemBarrier x.part j)) →
      exec (.barrierSet k) s = .next ((t.setReg (adrSemBarrier x.part j) w).done k []))
  ∧ (∀ k s x t j u, Starts s 0x73 k x t → j = u16 x.bytes 0x10 → u = t.arrive x.part j (u16 x.bytes 0x12) →
      exec (.barrierArrive k) s = .next (u.done k (leBytes 2 (u.barrier x.part j).gen)))

/-! Fetch, dispatch, timeouts and interrupts (R147, R349 to R360, R362). -/

/-- R350, R353, R358, R360: the fetch engine issues one burst from the ring that the round robin picks; an arrived burst
frees the ring for the next and its entries become packets; the next packet of a ring whose fences allow is dispatched with the
next order number; a packet's timeout, of its own, of a waiter or of a ring's interrupt, is observed. -/
def Obligations.FetchAndDispatchComplete : Prop :=
  (∀ s p i t, s.nextPart 8 (s.fetchRR + 1) = some p → s.pickRing p 288 (s.part p).ringPtr = some (i, t) →
      exec .fetchBurstIssue s = .next { t.issueBurst p i with fetchRR := p })
  ∧ (∀ s p i b t n, (s.sq p i).burst = some b → b.fail = 0 → b.got = 64 * b.count → n = s.sqSize p i →
      t = State.each (s.setSq p i { s.sq p i with burst := none, head := ((s.sq p i).head + b.count) % (2 * n) })
        (entriesOf b.count b.data).zipIdx (fun u e => State.takeEntry State.fetchCheck u p i ((b.start + e.2) % n) e.1) →
      (t.sq p i).stopReq = false → exec (.fetchBurstArrive p i) s = .next t)
  ∧ (∀ s p i k ks x, (s.sq p i).fetched = k :: ks → s.pkt k = some x →
      (x.fence = false ∨ s.fenceClear p i k = true) → (x.pfence = false ∨ s.pfenceClear p = true) →
      exec (.packetDispatch p i) s = .next (State.unitAdvance
        (State.setPkt { s.setSq p i { s.sq p i with fetched := ks } with nextOrder := s.nextOrder + 1 } k
          { x with phase := .dispatched, order := s.nextOrder, dispT := s.osc }) x.unit))
  ∧ (∀ s k x, s.pkt k = some x → s.timeoutOf x ≠ 0 → x.late = false → x.phase ≠ .started → s.granted (.pkt k) = false →
      x.waitMade = false →
      exec (.packetTimeout k) s = .next (((s.bump (adrTimeouts x.part)).event 0x0302 x.sq x.part).withdraw k x))
  ∧ (∀ s p i j k c x, (s.sem p i).waiters[j]? = some (.pkt k, c) → s.pkt k = some x → s.timeoutOf x ≠ 0 → x.phase ≠ .started →
      s.granted (.pkt k) = false → x.waitMade = true →
      exec (.semWaitTimeout p i j) s = .next (State.withdraw
        (((s.bump (adrTimeouts x.part)).event 0x0302 x.sq x.part).event 0x1106 x.waitSem x.part) k x))
  ∧ (∀ s p j, (s.cq p j).timer = true → s.rf (adrCmdCqIrq p j) 6 6 = 1 →
      exec (.cqInterruptTimer p j) s = .next (s.cqMessage p j))
  ∧ (∀ s p f t, s.arrived 8 p f = true → t = s.consume p f → mgmtGood f = true → u8 f 32 = 1 → t.rf (adrPciProxyCfg p) 24 24 = 1 →
      exec (.managementFrameReceived p f) s = .next (if bitAt (u8 f 33) 4 then t.cqDoorbell p (u8 f 33 % 16) (u32 f 36)
        else t.sqDoorbell p (u8 f 33 % 16) (u32 f 36) false))

/-! Tongs and bulk bindings (R140 to R149, R370 to R372, R395). -/

/-- R370, R371: TONG_DESC, TONG_LIST and FILL start at their tong while it runs nothing. -/
def Obligations.TongOpcodesStart : Prop :=
  (∀ k s x t, Starts s 0x10 k x t → s.tongFree (u8 x.bytes 0x40) = true →
      exec (.tongDesc k) s =
        .next (t.setTong (u8 x.bytes 0x40) { st := .running, pkt := some k, desc := slice x.bytes 0x10 48 }))
  ∧ (∀ k s x t, Starts s 0x11 k x t → s.tongFree (u8 x.bytes 0x10) = true →
      exec (.tongList k) s = .next ((t.setTong (u8 x.bytes 0x10) { st := .running, pkt := some k }).loadDesc x.part
        (u8 x.bytes 0x10) (u32 x.bytes 0x14)))
  ∧ (∀ k s x t, Starts s 0x12 k x t → s.tongFree (u8 x.bytes 0x10) = true →
      exec (.fill k) s = .next (t.setTong (u8 x.bytes 0x10) { st := .running, pkt := some k, fill := true }))

/-- R141, R147, R371: a checked descriptor of a tong waits and copies; its last byte becomes visible once its host reads
have ended; its wait runs out; a fill writes its pattern, frees the tong and completes. -/
def Obligations.TongEngineCompletes : Prop :=
  (∀ s n k x, (s.tong n).pkt = some k → s.pkt k = some x → (s.tong n).copying = false → (s.tong n).fill = false →
      s.issueOn x.part = true → s.descBad x.part (s.tong n).desc = 0 →
      exec (.tongDescriptorStart n) s = .next (s.descAdvance x.part n))
  ∧ (∀ s n k x ecc t, (s.tong n).pkt = some k → (s.tong n).copying = true → (s.tong n).reads = 0 → (s.tong n).acking = false →
      t = s.eccFinds ecc → t.pkt k = some x → exec (.tongDescriptorDone n ecc) s = .next (t.moveRows x.part n k))
  ∧ (∀ s n k x, (s.tong n).pkt = some k → s.pkt k = some x → (s.tong n).waitMade = true → s.granted (.tong n) = false →
      u32 (s.tong n).desc 0x28 ≠ 0 →
      exec (.tongWaitTimeout n) s = .next ((s.event 0x1106 (dWaitSem (s.tong n).desc) x.part).failTong x.part n 0x20))
  ∧ (∀ s n k x, (s.tong n).pkt = some k → s.pkt k = some x → (s.tong n).fill = true →
      exec (.fillDone n) s = .next
        (((s.writeHearth x.part (u32 x.bytes 0x14) (fillBytes (u32 x.bytes 0x1C) (u32 x.bytes 0x18))).setTong n {}).done k []))

/-- R149, R372, R395: a free binding is bound, with FULL at zero and EMPTY at its number of slots; it is unbound; a good frame
takes EMPTY, fills the next slot, frees its buffer and signals FULL. -/
def Obligations.BulkCommandsComplete : Prop :=
  (∀ k s x t y, Starts s 0x13 k x t → tfind (t.part x.part).bulk (u8 x.bytes 0x10) = none →
      y = { slots := u8 x.bytes 0x11, full := u8 x.bytes 0x12, empty := u8 x.bytes 0x13, base := u32 x.bytes 0x14,
            size := u32 x.bytes 0x18 : Bulk } →
      exec (.bulkReceive k) s = .next
        (((((t.modPart x.part fun q => { q with goneBulk := q.goneBulk.filter (· != u8 x.bytes 0x10) }).setBulk x.part
          (u8 x.bytes 0x10) y).semWrite x.part y.full 0).semWrite x.part y.empty y.slots).done k []))
  ∧ (∀ k s x t b, Starts s 0x14 k x t → tfind (t.part x.part).bulk (u8 x.bytes 0x10) = some b →
      s.bulkFilling x.part (u8 x.bytes 0x10) 8 = false →
      exec (.bulkUnbind k) s = .next
        (((((t.semDrop x.part b.empty (.bulk x.part (u8 x.bytes 0x10))).takeGrant (.bulk x.part (u8 x.bytes 0x10))).modPart x.part
          fun q => { q with bulk := tdel q.bulk (u8 x.bytes 0x10) })).done k []))
  ∧ (∀ s p f j b t u, s.arrived 6 p f = true → j = u8 f 0x20 → tfind (s.part p).bulk j = some b → bulkOk (some b) f = true →
      bulkDataGood f = true → b.taken = false → b.asked = false →
      t = (s.setBulk p j { b with asked := true }).semWait p b.empty 1 (.bulk p j) → t.granted (.bulk p j) = true →
      u = State.setBulk (State.setBulk (t.takeGrant (.bulk p j)) p j { b with asked := false, taken := true }) p j
        { b with asked := false, taken := false, next := (b.next + 1) % b.slots } →
      exec (.bulkFrameReceived p f) s = .next
        (((u.consume p f).writeHearth p (b.base + b.next * b.size) (slice f 48 (u32 f 0x28))).semSignal p b.full 1))

/-! Anvils and vector units (R103 to R126, R373 to R376). -/

/-- R373 to R376: the four opcodes of an anvil start under the conditions of R103, R367, R408, R416 and R437; a region leaves those
free that hold recurrent matrices (R170). -/
def Obligations.AnvilOpcodesStart : Prop :=
  (∀ k s x t a b, Starts s 0x20 k x t → a = u8 x.bytes 0x10 → (s.anvil a).load = none → s.stopOn a = false →
      loadNew x.bytes = false → (s.anvil a).loading.invalid = false → b = (s.anvil a).loading.drop (loadRegion x.bytes).id →
      b.regions.any (loadRegion x.bytes).overlaps = false →
      (s.anvil a).shadow.any (fun (_, _, q) => q.overlaps (loadRegion x.bytes)) = false →
      b.regions.length + (s.anvil a).shadow.length < 16 →
      exec (.weightLoad k) s = .next (t.setAnvil a { (s.anvil a).setLoading b with load := some k }))
  ∧ (∀ k s x t a, Starts s 0x20 k x t → a = u8 x.bytes 0x10 → (s.anvil a).load = none → s.stopOn a = false →
      loadNew x.bytes = true → (s.anvil a).shadow.any (fun (_, _, q) => q.overlaps (loadRegion x.bytes)) = false →
      (s.anvil a).shadow.length < 16 →
      exec (.weightLoad k) s = .next
        (t.setAnvil a { (s.anvil a).setLoading { (s.anvil a).loading with regions := [] } with load := some k }))
  ∧ (∀ k s x t a, Starts s 0x21 k x t → a = u8 x.bytes 0x10 → s.issueOn x.part = true → s.stopOn a = false →
      passSwap x.bytes = false → t.passBad x.part x.bytes (s.anvil a).activeBuf = none →
      exec (.pass k) s = .next (t.setAnvil a { s.anvil a with passes := (s.anvil a).passes ++ [k] }))
  ∧ (∀ k s x t a, Starts s 0x21 k x t → a = u8 x.bytes 0x10 → s.issueOn x.part = true → s.stopOn a = false →
      passSwap x.bytes = true → (s.anvil a).load = none → (s.anvil a).passes = [] →
      t.passBad x.part x.bytes (s.anvil a).loading = none →
      exec (.pass k) s = .next (t.setAnvil a { s.anvil a with active := 1 - (s.anvil a).active % 2, passes := [k] }))
  ∧ (∀ k s x t a, Starts s 0x22 k x t → a = u8 x.bytes 0x10 → (s.anvil a).vecFree = true → s.issueOn x.part = true → s.stopOn a = false →
      (u8 x.bytes 0x12 = 0xFF ∨ tableValid (t.table x.part (u8 x.bytes 0x12)) = true) →
      exec (.epilogue k) s = .next (t.setAnvil a { s.anvil a with vec := some k }))
  ∧ (∀ k s x t a, Starts s 0x23 k x t → a = u8 x.bytes 0x13 → (s.anvil a).vecFree = true → s.issueOn x.part = true → s.stopOn a = false →
      (u8 x.bytes 0x10 ≠ 0x19 ∨ tableValid (t.table x.part (u8 x.bytes 0x28)) = true) →
      exec (.vecOp k) s = .next (t.setAnvil a { s.anvil a with vec := some k }))

/-- R103 to R105, R375, R376: the work of an anvil ends once its errors are noted: a load's region joins the loading buffer,
the oldest pass writes its rows, an epilogue and a vector operation write Hearth. -/
def Obligations.AnvilWorkEnds : Prop :=
  (∀ s a k x ecc t d v r, (s.anvil a).load = some k → t = s.eccFinds ecc → t.pkt k = some x → r = loadRegion x.bytes →
      r.paired = false → t.load x.part (u32 x.bytes 0x1C) (loadLen x.bytes) = (some d, t) → v = { t.anvil a with load := none } →
      exec (.weightLoadDone a ecc) s = .next ((t.setAnvil a (v.setLoading
        ⟨v.loading.regions ++ [{ r with tile := d, tile2 := [] }], v.loading.invalid && !loadNew x.bytes⟩)).done k
          (leBytes 4 (loadLen x.bytes))))
  ∧ (∀ s a k ks x ecc acc t v r nv d w, (s.anvil a).passes = k :: ks → t = (s.eccFinds ecc).accFinds a acc → t.pkt k = some x →
      v = { t.anvil a with passes := (t.anvil a).passes.filter (· != k) } → v.activeBuf.region? (u8 x.bytes 0x11) = some r →
      nv = u16 x.bytes 0x14 → t.load x.part (u32 x.bytes 0x1C) (nv * vecBytes (u8 x.bytes 0x13) r.rows) = (some d, t) →
      bitAt (u8 x.bytes 0x18) 0 = false →
      passRows v r (u8 x.bytes 0x13) (t.rf (adrVecCvtCfg x.part) 12 8) nv (u16 x.bytes 0x16) false d = (w, 0, 0) →
      exec (.passDone a false ecc acc) s = .next (((((t.setAnvil a w).bumpBy (adrAnvIntSat a) 0).bumpBy (adrAnvNanScale a) 0).bump
        (adrPasses a)).done k (leBytes 4 (passLatency r.rows + nv - 1))))
  ∧ (∀ s a k x acc t v b rows d w, (s.anvil a).vec = some k → t = s.accFinds a acc → t.pkt k = some x → x.opcode = 0x22 →
      v = (t.anvil a).leaveVec → b = x.bytes → v.uncIn (u16 b 0x14) (u16 b 0x16) (u16 b 0x18) (u16 b 0x1A) = false →
      u8 b 0x12 = 0xFF → rows = v.rowsF32 (u16 b 0x14) (u16 b 0x16) (u16 b 0x18) (u16 b 0x1A) →
      convertRows (u8 b 0x11) (t.satOf x.part (u8 b 0x13)) (bitAt (u8 b 0x13) 0) a (u16 b 0x18) rows (t.anvil a) = (d, w) →
      exec (.epilogueDone a acc) s = .next (((((t.setAnvil a w.leaveVec).notePwlNan x.part 0xFF 0).noteNan a x.part (u8 b 0x11) rows).writeHearth
        x.part (u32 b 0x1C) d).done k []))
  ∧ (∀ s a k x ecc t b n da db dc u, (s.anvil a).vec = some k → t = s.eccFinds ecc → t.pkt k = some x → x.opcode = 0x23 →
      b = x.bytes → u8 b 0x10 ≤ 0xC → n = u16 b 0x24 * roundUp (4 * u16 b 0x26) 64 →
      t.vecSrc x.part (vecOpUses (u8 b 0x10)).1 (u32 b 0x14) n = (some da, t) →
      t.vecSrc x.part (vecOpUses (u8 b 0x10)).2.1 (u32 b 0x18) n = (some db, t) →
      t.vecSrc x.part (vecOpUses (u8 b 0x10)).2.2 (u32 b 0x1C) n = (some dc, t) → u = t.setAnvil a (t.anvil a).leaveVec →
      exec (.vecOpDone a ecc) s = .next ((u.writeHearth x.part (u32 b 0x20)
        ((vecRows (u8 b 0x10) (u16 b 0x24) (u16 b 0x26) (u.table x.part (u8 b 0x28)) da db dc).flatMap padRow)).done k []))

/-! Procession: laps, billets, hops and tokens (R21 to R60, R377 to R383). -/

/-- R45, R377, R382, R383: a lap-start or rehome packet whose plan R25 to R60 allow makes its ring OPENING; the epoch opens once
its start time has come; LAP_RESOLVE commits or aborts the lap in doubt, and completes when that lap's epoch closes. -/
def Obligations.LapPacketsComplete : Prop :=
  (∀ k s x t d j, Starts s 0x30 k x t → t.load x.part (u32 x.bytes 0x14) (u32 x.bytes 0x18) = (some d, t) →
      t.lapForbidden x.part (u8 x.bytes 0x10) = false → t.lapBad k x false d = none → j = lapJob k x.bytes (parsePlan d) false → (t.lap x.part (u8 x.bytes 0x10)).phase = .closed →
      exec (.lapStart k) s = .next (t.setLap x.part (u8 x.bytes 0x10)
        { t.lap x.part (u8 x.bytes 0x10) with phase := .opening, job := some j, leader := j.leader == j.plan.self }))
  ∧ (∀ k s x t d j, Starts s 0x32 k x t → t.load x.part (u32 x.bytes 0x14) (u32 x.bytes 0x18) = (some d, t) →
      t.lapForbidden x.part (u8 x.bytes 0x10) = false → t.lapBad k x true d = none → j = lapJob k x.bytes (parsePlan d) true → (t.lap x.part (u8 x.bytes 0x10)).phase = .closed →
      exec (.rehome k) s = .next (t.setLap x.part (u8 x.bytes 0x10)
        { t.lap x.part (u8 x.bytes 0x10) with phase := .opening, job := some j, leader := j.leader == j.plan.self }))
  ∧ (∀ s p r j, (s.lap p r).job = some j → (s.lap p r).phase = .opening → j.start ≤ s.machineTime → j.replay = false →
      exec (.lapOpen p r) s = .next (s.openLap p r j))
  ∧ (∀ k s x t l u, Starts s 0x31 k x t → l = t.lap x.part (u8 x.bytes 0x10) → l.inDoubt = true → u16 x.bytes 0x12 = l.epoch →
      u = t.setLap x.part (u8 x.bytes 0x10) { l with resolver := some k } →
      exec (.lapResolve k) s = .next
        (if u8 x.bytes 0x11 = 1 then u.commitLap x.part (u8 x.bytes 0x10) else u.abortLap x.part (u8 x.bytes 0x10)))

/-- R34, R40, R42, R43, R256, R380: a weight billet HELD and used is staged into a free retain slot and departs; a weight
billet whose last missing segments arrive is taken; a RETURN header retires it at its home, where a retained copy whose verdict is out
stays until that verdict; a waiting gradient billet is admitted; TAKEN releases the retained copy; a campus receiver grants a landing slot after EMPTY 1. -/
def Obligations.BilletCommandsComplete : Prop :=
  (∀ s p r n u j b i t, (s.lap p r).job = some j → (s.lap p r).rec? n = some b → (s.lap p r).isOpen = true →
      s.mayDepart p r n u j b = true → j.plan.returnHop b = false → (s.lap p r).nextRetain j.plan = some i →
      s.stage p r n b (j.plan.retainAddr i) = some t →
      exec (.billetDepart p r n u) s = .next ((t.dropUsed p r n j).depart p r n j b i))
  ∧ (∀ s p f h l j b i u v w port, s.arrived 1 p f = true → h = parseBillet f → l = s.lap p h.ring → billetGood f = true →
      s.relay? p h.ring = none → kindOk h.kind h.format = true → h.segs * 4096 = h.len → 1048576 ≤ h.len → h.len ≤ 8388608 →
      h.epoch = l.epoch → l.isOpen = true → l.job = some j → l.rec? h.order = some b → planAgrees j h = true →
      bitAt h.flags 0 = false → (l.entry h.order).st = .fresh → (l.entry h.order).waiting = false → b.kind = 1 →
      b.home ≠ j.plan.self → port = s.arrivalPort p f → s.recvSlot p h.ring h.order port 1 j.plan = (some i, u) →
      v = (u.consume p f).modLap p h.ring (fun y => y.setEntry h.order { y.entry h.order with
        slot := i, recv := j.plan.recvAddr i, sr := bitAt h.flags 1, hdr := true, from_ := (parseHdr f).src, back := (parseHdr f).back, seq := h.resend }) →
      w = (v.storeSegs p h.ring h.order f h).askAgain p f h → h.segs ≤ ((w.lap p h.ring).entry h.order).segs.length →
      exec (.billetReceived p f) s = .next (w.takeBillet p h.ring h.order b))
  ∧ (∀ s p f h l j b t e, s.arrived 1 p f = true → h = parseBillet f → l = s.lap p h.ring → billetGood f = true →
      s.relay? p h.ring = none → kindOk h.kind h.format = true → h.segs * 4096 = h.len → 1048576 ≤ h.len → h.len ≤ 8388608 →
      h.epoch = l.epoch → l.isOpen = true → l.job = some j → l.rec? h.order = some b → planAgrees j h = true →
      bitAt h.flags 0 = true → b.kind = 1 → b.home = j.plan.self → t = s.discard p f → e = (t.lap p h.ring).entry h.order →
      e.returned = false →
      (e.st = .passed → exec (.billetReceived p f) s = .next (State.verdict
        (t.setLap p h.ring ((t.lap p h.ring).setEntry h.order { e with st := .retired })) p f h 1 0 0))
      ∧ (e.st = .onWire → exec (.billetReceived p f) s = .next (State.verdict
        (t.setLap p h.ring ((t.lap p h.ring).setEntry h.order { e with returned := true })) p f h 1 0 0)))
  ∧ (∀ s p r n j b, (s.lap p r).job = some j → (s.lap p r).rec? n = some b → ((s.lap p r).entry n).waiting = true →
      s.granted (.contrib p r n) = true → exec (.gradientAdmit p r n) s = .next (s.takeBillet p r n b))
  ∧ (∀ s p f v t j n, s.arrived 2 p f = true → v = parseVerdict f → verdictGood f = true → t = s.consume p f → v.id ≠ tokenId →
      v.code = 1 → (t.lap p v.ring).job = some j → j.plan.billets.findIdx? (fun b => b.id == v.id) = some n →
      (t.lap p v.ring).isOpen = true → v.epoch = (t.lap p v.ring).epoch → ((t.lap p v.ring).entry n).st = .onWire →
      exec (.verdictReceived p f) s = .next (t.released p v.ring n .passed))
  ∧ (∀ s d p r j, (s.lap p r).job = some j → (d = 6 ∨ d = 7) → (s.lap p r).isOpen = true →
      s.wiredPort j.plan.pred = some d → exec (.landingSlotGrant d p r) s = .next (s.grantSlot d p r j))

/-- R36, R54, R56, R134: the timers of a hop act on the billet that is ON_WIRE, whose retained copy goes again unless it holds poison,
and on a retained token. -/
def Obligations.HopTimersComplete : Prop :=
  (∀ s p r n l e, l = s.lap p r → e = l.entry n → e.st = .onWire → e.notOpen = true → s.retainPoisoned p r n = false →
      exec (.notOpenResendTimer p r false n) s = .next ((s.setLap p r (l.setEntry n { e with notOpen := false, deadline := false })).sendBillet
        p r n 0 ((l.rec? n).elim 0 fun b => b.len / 4096)))
  ∧ (∀ s p r n e, e = (s.lap p r).entry n → e.st = .onWire → e.notOpen = true → s.retainPoisoned p r n = true →
      exec (.notOpenResendTimer p r false n) s = .next (s.poisonAbort p r n))
  ∧ (∀ s p r n t u, (s.lapTokens p r)[n]? = some t → t.notOpen = true → u = { t with notOpen := false, deadline := false } →
      exec (.notOpenResendTimer p r true n) s = .next ((s.setToken p r n u).tokenFrame p r u))
  ∧ (∀ s p r n e, e = (s.lap p r).entry n → e.st = .onWire → e.deadline = true → e.stopped = false →
      exec (.custodyDeadlineExpiry p r false n) s = .next ((s.event 0x1301 r p).takeDetour p r n))
  ∧ (∀ s p r n t, (s.lapTokens p r)[n]? = some t → t.deadline = true →
      exec (.custodyDeadlineExpiry p r true n) s = .next ((s.event 0x1301 r p).tokenDetour p r n))
  ∧ (∀ s p r n l e, l = s.lap p r → e = l.entry n → e.st = .onWire → e.recovery = true →
      exec (.hopRecoveryExpiry p r false n) s = .next
        (((s.setLap p r (l.setEntry n { e with recovery := false })).event 0x1306 r p).originateAbort p r))
  ∧ (∀ s p r n t u, (s.lapTokens p r)[n]? = some t → t.recovery = true →
      u = (s.setToken p r n { t with recovery := false }).event 0x1306 r p →
      exec (.hopRecoveryExpiry p r true n) s = .next (if t.epoch == (s.lap p r).epoch then u.originateAbort p r else u))

/-- R46 to R50, R59: a member becomes PREPARED; PREPARE that returns makes the leader record COMMIT and send it; COMMIT is
forwarded and applied; ABORT is forwarded and obeyed; the commit window makes the leader abort and leaves another member in
doubt; a relay entry ends after its window, with its tokens. -/
def Obligations.LapTokensComplete : Prop :=
  (∀ s p r, (s.lap p r).phase = .backward → s.preparedNow p r = true →
      exec (.memberPrepared p r) s = .next ((s.modLap p r fun l => { l with phase := .prepared }).sendPrepare p r))
  ∧ (∀ s p f v t u l j, s.arrived 2 p f = true → v = parseVerdict f → v.id = tokenId → v.code = 0x11 → verdictGood f = true →
      t = s.consume p f → t.relay? p v.ring = none → (t.lap p v.ring).isOpen = true → v.epoch = (t.lap p v.ring).epoch →
      u = t.tokenAck p f v 1 → l = u.lap p v.ring → l.job = some j → l.leader = true → l.prepSent = true → l.decision = 0 →
      exec (.prepareTokenReceived p f) s = .next
        ((u.setLap p v.ring { l with decision := 1, window := false }).sendToken p v.ring j.plan 0x12 j.plan.succ))
  ∧ (∀ s p f v t u l j, s.arrived 2 p f = true → v = parseVerdict f → v.id = tokenId → v.code = 0x12 → verdictGood f = true →
      t = s.consume p f → t.relay? p v.ring = none → (t.lap p v.ring).isOpen = true → v.epoch = (t.lap p v.ring).epoch →
      u = t.tokenAck p f v 1 → l = u.lap p v.ring → l.job = some j → l.phase = .prepared → l.deferred = false →
      (l.leader = false →
        exec (.commitTokenReceived p f) s = .next ((u.sendToken p v.ring j.plan 0x12 j.plan.succ).commitLap p v.ring))
      ∧ (l.leader = true → l.decision = 1 → exec (.commitTokenReceived p f) s = .next (u.commitLap p v.ring)))
  ∧ (∀ s p f v t u j, s.arrived 2 p f = true → v = parseVerdict f → v.id = tokenId → v.code = 0x13 → verdictGood f = true →
      t = s.consume p f → t.relay? p v.ring = none → (t.lap p v.ring).isOpen = true → v.epoch = (t.lap p v.ring).epoch →
      u = t.tokenAck p f v 1 → (u.lap p v.ring).job = some j →
      exec (.abortTokenReceived p f) s = .next ((u.sendToken p v.ring j.plan 0x13
        (if v.sender == j.plan.pred then j.plan.succ else j.plan.pred)).abortLap p v.ring))
  ∧ (∀ s p r l, l = s.lap p r → l.window = true → l.leader = true →
      exec (.commitWindowExpiry p r) s = .next ((s.setLap p r { l with window := false }).originateAbort p r))
  ∧ (∀ s p r l, l = s.lap p r → l.window = true → l.leader = false →
      exec (.commitWindowExpiry p r) s = .next
        ((((s.setLap p r { l with window := false }).modLap p r fun y => { y with inDoubt := true }).event 0x1307 r p).lapDone p r 0x30))
  ∧ (∀ s p r, exec (.relayWindowExpiry p r) s = .next { s with relays := s.relays.map fun x =>
      if x.part == p && x.ring == r && !x.ended then { x with ended := true, tokens := [] } else x })

/-! Lines, streams and steps (R65 to R98, R384 to R388). -/

/-- R385: in resident mode and at a valid chip address, the entry member of a line whose own check passes sends SETUP round the line;
another member's packet waits for it. A line-reroute packet does the same. -/
def Obligations.LineSetupStarts : Prop :=
  (∀ k s x t l u, Starts s 0x40 k x t → l = t.lineOf x.part x.bytes → l.entry = true → u = t.noteDesc x.part x.bytes false →
      (u.part x.part).procession = false → u.addrValid = true → u.lineShape x.part x.bytes = true → u.hopCredits l = true →
      u.lineCheck x.part x.bytes false = 0 →
      exec (.lineSetup k) s = .next ((u.modPart x.part fun q => { q with
        setups := q.setups ++ [⟨k, l, false, 0, true, 0⟩] }).sendLine x.part l
          (lineBody 0x10 0 0xFFFF l.id ((u.modPart x.part fun q => { q with
            setups := q.setups ++ [⟨k, l, false, 0, true, 0⟩] }).partAddr x.part))))
  ∧ (∀ k s x t l, Starts s 0x40 k x t → l = t.lineOf x.part x.bytes → l.entry = false → (t.part x.part).procession = false →
      t.addrValid = true →
      exec (.lineSetup k) s = .next (t.modPart x.part fun q => { q with setups := q.setups ++ [⟨k, l, false, 0, false, 0⟩] }))
  ∧ (∀ k s x t l u, Starts s 0x41 k x t → l = t.lineOf x.part x.bytes → l.entry = true → u = t.noteDesc x.part x.bytes true →
      (u.part x.part).procession = false → u.addrValid = true → u.lineShape x.part x.bytes = true → u.hopCredits l = true →
      u.lineCheck x.part x.bytes true = 0 →
      exec (.lineReroute k) s = .next ((u.modPart x.part fun q => { q with
        setups := q.setups ++ [⟨k, l, true, 0, true, 0⟩] }).sendLine x.part l
          (lineBody 0x10 0 0xFFFF l.id ((u.modPart x.part fun q => { q with
            setups := q.setups ++ [⟨k, l, true, 0, true, 0⟩] }).partAddr x.part))))
  ∧ (∀ k s x t l, Starts s 0x42 k x t → t.line? x.part (u16 x.bytes 0x10) = some l → l.entry = true →
      (t.part x.part).strms.any (fun y => y.line == l.id) = false →
      exec (.lineTeardown k) s = .next ((t.modPart x.part fun q => { q with
        jobs := q.jobs ++ [⟨k, 0x42, 0, l.id, 0, 0, true, [], 0, 0⟩] }).sendLine x.part l
          (streamBody 0x25 0 0 l.id (k % 2 ^ 32) 0 0 [])))

/-- R385: SETUP goes on with the member's own result, and ends the circuit at the entry member; COMMIT and UNDO complete the
packets of the other members; a member without the packet, or a packet without the frame, times out. -/
def Obligations.LineSetupCompletes : Prop :=
  (∀ s p f x t, u8 f 0x20 = 0x10 → lineFrameGood f = true → s.arrived 4 p f = true → (s.setup? p (u16 f 0x24)).isSome = true →
      t = s.consume p f → t.setup? p (u16 f 0x24) = some x → x.line.entry = true →
      exec (.setupFrameReceived p f) s = .next (t.endCircuit p x (u8 f 0x21) (u16 f 0x22)))
  ∧ (∀ s p f x t b own, u8 f 0x20 = 0x10 → lineFrameGood f = true → s.arrived 4 p f = true → (s.setup? p (u16 f 0x24)).isSome = true →
      t = s.consume p f → t.setup? p (u16 f 0x24) = some x → x.line.entry = false → b = ((t.pkt x.pkt).map (·.bytes)).getD [] →
      own = (t.noteDesc p b x.reroute).lineCheck p b x.reroute → u8 f 0x21 = 0 → own = 0 →
      State.lineShape ((t.noteDesc p b x.reroute).modPart p fun q => { q with setups := q.setups.map fun y =>
        if y.pkt == x.pkt then { y with passed := true, result := 0 } else y }) p b = true →
      exec (.setupFrameReceived p f) s = .next (((t.noteDesc p b x.reroute).modPart p fun q => { q with setups := q.setups.map fun y =>
        if y.pkt == x.pkt then { y with passed := true, result := 0 } else y }).sendLine p x.line
          (lineBody 0x10 0 (u16 f 0x22) (u16 f 0x24) (u32 f 0x28))))
  ∧ (∀ s p f x t, u8 f 0x20 = 0x11 → lineFrameGood f = true → s.arrived 4 p f = true → t = s.consume p f →
      t.setup? p (u16 f 0x24) = some x → x.passed = true → x.line.entry = false →
      exec (.setupCommitReceived p f) s = .next (t.endSetup p x 0 0xFFFF))
  ∧ (∀ s p f x t, u8 f 0x20 = 0x12 → lineFrameGood f = true → s.arrived 4 p f = true → t = s.consume p f →
      t.setup? p (u16 f 0x24) = some x → x.line.entry = false →
      exec (.setupUndoReceived p f) s = .next (t.endSetup p x (u8 f 0x21) (u16 f 0x22)))
  ∧ (∀ s p f, u8 f 0x20 = 0x10 → s.arrived 4 p f = true → s.setup? p (u16 f 0x24) = none → u8 f 0x21 = 0 →
      exec (.setupFetchTimeout p f) s = .next ((s.consume p f).sendFrame p 4 4 (u32 f 0x28) 0 0
        (lineBody 0x10 0x20 0xFFFE (u16 f 0x24) (u32 f 0x28))))
  ∧ (∀ s k x y, s.pkt k = some x → (s.part x.part).setups.find? (fun y => y.pkt == k && !y.passed) = some y →
      exec (.setupFrameWaitTimeout k) s = .next (s.endSetup x.part y 0x20 0xFFFF))

/-- R23, R75, R80 to R83, R387: in resident mode a stream packet joins the queue of the entry member, unless it is full, and the queue is
settled; STREAM_RELEASE does so in either mode; STEP and CHUNK do so when their buffers hold what their inputs and outputs need. -/
def Obligations.StreamPacketsJoin : Prop :=
  (∀ k s x t l, t.line? x.part (u16 x.bytes 0x14) = some l → l.entry = true → s.queueFull x.part = false →
      (t.part x.part).procession = false →
      ((Starts s 0x43 k x t → exec (.streamAdmit k) s = .next ((t.modPart x.part fun q => { q with
          jobs := q.jobs ++ [⟨k, 0x43, u32 x.bytes 0x10, u16 x.bytes 0x14, 0, 1, false, [], 0, 0⟩] }).settle x.part))
      ∧ (Starts s 0x44 k x t → exec (.streamPark k) s = .next ((t.modPart x.part fun q => { q with
          jobs := q.jobs ++ [⟨k, 0x44, u32 x.bytes 0x10, u16 x.bytes 0x14, 0, 1, false, [], 0, 0⟩] }).settle x.part))
      ∧ (Starts s 0x45 k x t → exec (.streamResume k) s = .next ((t.modPart x.part fun q => { q with
          jobs := q.jobs ++ [⟨k, 0x45, u32 x.bytes 0x10, u16 x.bytes 0x14, 0, 1, false, [], 0, 0⟩] }).settle x.part))))
  ∧ (∀ k s x t l, t.line? x.part (u16 x.bytes 0x14) = some l → l.entry = true → s.queueFull x.part = false →
      (Starts s 0x46 k x t → exec (.streamRelease k) s = .next ((t.modPart x.part fun q => { q with
          jobs := q.jobs ++ [⟨k, 0x46, u32 x.bytes 0x10, u16 x.bytes 0x14, 0, 1, false, [], 0, 0⟩] }).settle x.part)))
  ∧ (∀ k s x t l, Starts s 0x47 k x t → t.line? x.part (u16 x.bytes 0x14) = some l → l.entry = true → s.queueFull x.part = false →
      (t.part x.part).procession = false →
      l.vec ≤ u32 x.bytes 0x28 → u32 x.bytes 0x28 ≤ l.maxPayload → l.vec ≤ u32 x.bytes 0x2C → 1 ≤ l.maxChunk →
      exec (.step k) s = .next ((t.modPart x.part fun q => { q with
        jobs := q.jobs ++ [⟨k, 0x47, u32 x.bytes 0x10, u16 x.bytes 0x14, 0, 1, false, [], 0, 0⟩] }).settle x.part))
  ∧ (∀ k s x t l n, Starts s 0x48 k x t → t.line? x.part (u16 x.bytes 0x14) = some l → l.entry = true → n = u16 x.bytes 0x30 →
      s.queueFull x.part = false → (t.part x.part).procession = false →
      n * l.vec ≤ u32 x.bytes 0x28 → u32 x.bytes 0x28 ≤ n * l.maxPayload → n * l.vec ≤ u32 x.bytes 0x2C → n ≤ l.maxChunk →
      exec (.chunk k) s = .next ((t.modPart x.part fun q => { q with
        jobs := q.jobs ++ [⟨k, 0x48, u32 x.bytes 0x10, u16 x.bytes 0x14, 0, n, false, [], 0, 0⟩] }).settle x.part))
  ∧ (∀ k s x t j, Starts s 0x49 k x t → t.tableBusy x.part (u8 x.bytes 0x10) = false →
      j = ⟨k, 0x49, u8 x.bytes 0x10, 0x10000, 0, 0, true, [], 0, 0⟩ →
      exec (.tableLoad k) s = .next ((State.gather (t.modPart x.part fun q => { q with jobs := q.jobs ++ [j] }) x.part j
        (bitAt (u8 x.bytes 0x11) 0) (u64 x.bytes 0x18) 272).jobReady x.part k))

/-- R80, R83: a member claims a slot for an ADMIT frame and sends it on; ADMIT that returns admits the stream; UNDO frees the
claim and goes on; a state frame is applied and goes on; line-broken completes the entry member's packets of the line. -/
def Obligations.StreamFramesComplete : Prop :=
  (∀ s p f t l d u, u8 f 0x20 = 0x20 → lineFrameGood f = true → s.arrived 4 p f = true → t = s.consume p f →
      t.line? p (u16 f 0x24) = some l → l.entry = false →
      t.memberPart p l 0x20 (u16 f 0x22) (u32 f 0x30) (strmData f) = (0, d, u) →
      exec (.admitFrameReceived p f) s = .next (u.sendLine p l
        (streamBody 0x20 0 (u16 f 0x22) l.id (u32 f 0x28) (u32 f 0x30) (u32 f 0x34 + l.partLen) d)))
  ∧ (∀ s p f t l j, u8 f 0x20 = 0x20 → lineFrameGood f = true → s.arrived 4 p f = true → t = s.consume p f →
      t.line? p (u16 f 0x24) = some l → l.entry = true → t.jobTag? p (u32 f 0x28) = some j →
      exec (.admitFrameReceived p f) s = .next (t.admitted p l j (u32 f 0x34)))
  ∧ (∀ s p f t l, u8 f 0x20 = 0x21 → lineFrameGood f = true → s.arrived 4 p f = true → t = s.consume p f →
      t.line? p (u16 f 0x24) = some l → l.entry = false →
      exec (.undoFrameReceived p f) s = .next ((t.memberPart p l 0x21 (u16 f 0x22) (u32 f 0x30) []).2.2.sendLine p l
        (streamBody 0x21 (u8 f 0x21) (u16 f 0x22) l.id (u32 f 0x28) (u32 f 0x30) 0 [])))
  ∧ (∀ s p f t l e d u op, op = u8 f 0x20 → 0x22 ≤ op → op ≤ 0x24 → lineFrameGood f = true → s.arrived 4 p f = true →
      t = s.consume p f → t.line? p (u16 f 0x24) = some l → l.entry = false → u8 f 0x21 = 0 → u16 f 0x22 ≠ 2 →
      s.slotBusy p (u16 f 0x24) (u32 f 0x30) = false → t.memberPart p l op (u16 f 0x22) (u32 f 0x30) (strmData f) = (e, d, u) →
      exec (.streamStateFrameReceived p f) s = .next (u.sendLine p l
        (streamBody op e (u16 f 0x22) l.id (u32 f 0x28) (u32 f 0x30) (u32 f 0x34 + l.partLen) d)))
  ∧ (∀ s p f t l, s.arrived 5 p f = true → t = s.consume p f → u32 f 0x24 = crc32c (slice f 0x20 4) →
      t.line? p (u16 f 0x20) = some l → u8 f 0x22 = 0 → l.entry = true →
      exec (.lineBrokenNoticeReceived p f) s = .next ((State.lineLost (t.modPart p fun q => { q with lines := q.lines.map fun x =>
        if x.id == (u16 f 0x20) then { x with broken := true } else x }) p (u16 f 0x20) 0x30).settle p))

/-- R70 to R75, R85 to R90, R95: the entry member dispatches a step in its stream's order; the oldest activation frame of a port joins a
member as work once a buffer of its line is free; the steps batched with the work that has waited longest at a layer, or a chunk, are
applied to it; the step deadline tears the stream; the batch window takes the steps that wait at one layer. -/
def Obligations.StepEngineCompletes : Prop :=
  (∀ s p k j x l y z u, s.job? p k = some j → s.pkt k = some x → j.inFlight = false → (j.op = 0x47 ∨ j.op = 0x48) →
      ((s.part p).jobs.takeWhile (fun e => e.pkt != k)).any (fun e => (e.line == j.line && e.stream == j.stream) &&
        (!e.inFlight || e.op < 0x47)) = false →
      (s.inFlight p j.line j.stream = 0 ∨ s.inFlight p j.line j.stream + j.count ≤ s.rf (adrSeqStepCfg p) 22 16) →
      s.line? p j.line = some l → s.strm? p j.line j.stream = some y → l.broken = false → y.st = .admitted → y.sq = x.sq →
      z = { j with inFlight := true, first := y.next } →
      u = (s.modJob p k fun _ => z).putStrm p { y with next := (y.next + j.count) % 2 ^ 32 } →
      exec (.stepDispatch p k) s = .next
        ((u.gather p z (bitAt (u8 x.bytes 0x16) 0) (u64 x.bytes 0x18) (u32 x.bytes 0x28)).jobReady p k))
  ∧ (∀ s p f t l h pay u, s.arrived 3 p f = true → t = s.consume p f → h = slice f 32 32 → pay = slice f 64 (f.length - 68) →
      u32 h 0x1C = crc32c (slice h 0 0x1C) → u32 f (f.length - 4) = crc32c pay → s.line? p (u16 h 8) = some l →
      s.actFirst p f = true → l.entry = false → (s.actDrained p f = true ∨ s.bufFree p l.id 8 = true) → u = t.fillBuf p l pay →
      u.parked = false → bitAt (u16 h 0x14) 1 = false → actFits l h (u.slot? p l.id (u32 h 0)).isSome pay.length = true →
      exec (.activationFrameReceived p f) s = .next (u.addWork p l h (payloadRows l (u16 h 0xC) pay) (u16 h 0x14) true))
  ∧ (∀ s p i w l r e t ws tal u, (s.part p).works[i]? = some w → s.line? p w.line = some l → l.layers[w.layer]? = some r →
      ws = s.batch p i w r → ws ≠ [] → s.layerEnv p l r = (.ok e, t) → u8 w.hdr 0xE ≠ 1 →
      State.runSteps p l r e ws (t.takeWorks p (ws.map (·.1))) = (tal, u) →
      exec (.layerComputeDone p i) s = .next ((u.noteTally p l.id r tal).settle p))
  ∧ (∀ s p i w l r e t, (s.part p).works[i]? = some w → s.line? p w.line = some l → l.layers[w.layer]? = some r →
      s.batch p i w r ≠ [] → s.layerEnv p l r = (.ok e, t) → u8 w.hdr 0xE = 1 →
      exec (.layerComputeDone p i) s = .next ((t.runChunk p i l r e w).settle p))
  ∧ (∀ s k x j, s.pkt k = some x → s.job? x.part k = some j → j.inFlight = true → (j.op = 0x47 ∨ j.op = 0x48) →
      exec (.stepDeadlineExpiry k) s = .next ((((s.seqEvent 0x1201 x.part j.line).tear x.part j.line
        j.stream).endJobX x.part j 0x20 0 0 0x1201 0xFFFF).settle x.part))
  ∧ (∀ s p n i, exec (.batchWindowExpiry p n i) s = .next (s.modPart p fun q => { q with works := q.works.map fun w =>
      if w.line == n && w.layer == i then { w with ready := true } else w }))

/-! Lightbanks (R156 to R173, R246, R389). -/

/-- R127, R163, R165, R170 to R173: a product without a check delivers its rows; a pass of the shadow anvil counts, its value takes the
place of an analog one in fallback, and a check that agrees delivers the analog value. -/
def Obligations.LightbankProductsComplete : Prop :=
  (∀ s p i c0 c1 r b k x, (s.part p).prods[i]? = some r → r.analog = true → r.y = none →
      s.layerBlocks p r.line r.layer = [(b, k, x)] →
      exec (.lbkProductDone p i c0 c1 none none) s = .next (((s.bump (adrProducts b)).bumpBy (adrClips b)
        (clipsOf (if b == 0 then c0 else c1) x.rowCnt)).deliverRows p i r
          (joinRows [x] (ceilLog2 (stateMax r.h)) (if b == 0 then c0 else c1) [])))
  ∧ (∀ s p i r l q, (s.part p).prods[i]? = some r → s.line? p r.line = some l → l.layers[r.layer]? = some q → r.analog = false →
      exec (.shadowVerdict p i) s = .next (((s.bump (adrPasses q.shadowAnvil)).modPart p fun y =>
        { y with prods := y.prods.eraseIdx i }).setTerm p r.line r.stream r.layer
          (digitalTerm q (s.rf (adrVecCvtCfg p) 0 0 == 1) r.h) false (r.h.all isFinite)))
  ∧ (∀ s p i r l q b k x y u, (s.part p).prods[i]? = some r → s.line? p r.line = some l → l.layers[r.layer]? = some q →
      r.analog = true → r.y = some y → u = s.bump (adrPasses q.shadowAnvil) → u.layerBlocks p r.line r.layer = [(b, k, x)] →
      firstDiverging q (ceilLog2 (stateMax r.h)) (joinScales [x]) y (digitalTerm q (s.rf (adrVecCvtCfg p) 0 0 == 1) r.h) = none →
      exec (.shadowVerdict p i) s = .next ((State.modPart ((u.bump (adrShadowChecks b)).setBlock b k { x with divs := 0 }) p
        fun z => { z with prods := z.prods.eraseIdx i }).setTerm p r.line r.stream r.layer y false false))

/-- R161, R162, R166 to R169, R246, R389: temperature samples, which drive the rows anew once they differ enough from the last ones used,
sweeps, settled and fitted rows, stale tables, lost stages and the change to the spare laser act on their bank; the two packets report a
block and force its fallback. -/
def Obligations.LightbankCommandsComplete : Prop :=
  (∀ s b t u, u = s.setRf (adrLbkStatus b) 31 16 t → 4000 ≤ t → t ≤ 7000 → (u.bank b).hot = false →
      gap t (u.bank b).codeTemp ≤ u.rf (adrLbkCalCfg b) 17 12 * 5 → exec (.lbkTempSample b t) s = .next u)
  ∧ (∀ s b t u, u = s.setRf (adrLbkStatus b) 31 16 t → 4000 ≤ t → t ≤ 7000 → (u.bank b).hot = false →
      u.rf (adrLbkCalCfg b) 17 12 * 5 < gap t (u.bank b).codeTemp → (u.bank b).rot = none →
      exec (.lbkTempSample b t) s = .next (u.modBank b fun x => { x.redrive t with rot := none }))
  ∧ (∀ s b t u, u = s.setRf (adrLbkStatus b) 31 16 t → (t < 4000 ∨ 7000 < t) → (u.bank b).hot = false →
      gap t (u.bank b).codeTemp ≤ u.rf (adrLbkCalCfg b) 17 12 * 5 →
      exec (.lbkTempSample b t) s = .next
        (((u.modBank b fun x => { x with hot := true, owes := insNat x.owes 0 }).bankEvent 0x1407 b [t]).bankFall b 0))
  ∧ (∀ s b, (s.bank b).sweep = none → exec (.lbkSweepTimer b) s = .next (s.startSweep b))
  ∧ (∀ k s x t b, Starts s 0x50 k x t → b = u8 x.bytes 0x10 % 2 → (s.bank b).stopped = false → (s.bank b).sweep = none →
      exec (.lbkSweep k) s = .next ((t.modBank b fun y => { y with sweepPkts := y.sweepPkts ++ [k] }).startSweep b))
  ∧ (∀ s b r t, (s.bank b).settling.contains r = false → (s.bank b).rot = some t → t.spare = r → t.phase = .settling →
      exec (.rowSettled b r) s = .next (s.modBank b fun x => { x with rot := some { t with phase := .comparing 0 } }))
  ∧ (∀ s b n inp r u, (s.bank b).rot = some r → r.phase = .fitting → r.retry = false → n ≤ 8 →
      u = State.setHealth (State.modBank (((s.setRf (adrLbkRowHealth b r.spare) 15 8 n).stagesHealthy b inp).refitRow b r.spare) b
        fun x => { x with rot := none }) b r.spare 1 →
      (u.bank b).stopped = false → exec (.rowFitDone b n inp) s = .next (u.nextVisit 80 b))
  ∧ (∀ s b, (s.bank b).stopped = true → exec (.lbkTablesStale b) s = .next
      ((s.modBank b fun x => { x with stale := true }).bankFall b 6))
  ∧ (∀ s b n, exec (.lbkStagePowerLoss b 0 n) s = .next ((s.bankEvent 0x1405 b [0, n]).bankLaser b))
  ∧ (∀ s b n u, u = s.bankEvent 0x1405 b [3, n] → n < 68 → u.rowHealth b n ≠ 3 →
      exec (.lbkStagePowerLoss b 3 n) s = .next (u.rowLost b n))
  ∧ (∀ s b, (s.bank b).laserLost = true → s.rf (adrLbkStatus b) 7 7 = 0 → s.rf (adrGldLaser (47 + 2 * b)) 2 0 ≠ 5 →
      exec (.lbkLaserChangeDone b) s = .next
      ((((s.setRf (adrLbkStatus b) 7 7 1).setRf (adrGldLaser (47 + 2 * b)) 2 0 2).modBank b fun x => { x with laserLost := false }).startSweep
        b))
  ∧ (∀ k s x t y, Starts s 0x51 k x t → tfind (s.bank (u8 x.bytes 0x10 % 2)).blocks (u8 x.bytes 0x11) = some y →
      exec (.lbkBlockStatus k) s = .next (t.done k (leBytes 4 (b2n !y.why.isEmpty) ++ leBytes 4 y.nDiv ++ leBytes 4 y.nFall)))
  ∧ (∀ k s x t y b, Starts s 0x52 k x t → b = u8 x.bytes 0x10 % 2 → tfind (s.bank b).blocks (u8 x.bytes 0x11) = some y →
      u8 x.bytes 0x12 = 1 → exec (.lbkForceFallback k) s = .next
        (((t.setBlock b (u8 x.bytes 0x11) { y with released := false }).blockFall b (u8 x.bytes 0x11) 3).done k []))

/-! Bellows (R266, R267, R397 to R418). -/

/-- R398, R409 to R414: an input that goes out, one that qualifies, the dead time, the settled node and the node at 32 V move
the changeover state machine. -/
def Obligations.ChangeoverCompletes : Prop :=
  (∀ s vb vr vn t, inWithin vb = false → t = s.sampleVolts vb vr vn → t.bel.st = .sourceBus → t.bel.within false = true →
      exec (.inputOut true vb vr vn) s = .next (t.changeover false))
  ∧ (∀ s vb vr vn t, inWithin vb = false → t = s.sampleVolts vb vr vn → t.bel.st = .sourceBus → t.bel.within false = false →
      exec (.inputOut true vb vr vn) s = .next t.enterPark)
  ∧ (∀ s vb vr vn t, inWithin vr = false → t = s.sampleVolts vb vr vn → t.bel.st = .sourceReserve → t.bel.within true = true →
      exec (.inputOut false vb vr vn) s = .next (t.changeover true))
  ∧ (∀ s vb vr vn t, inWithin vb = true → t = s.sampleVolts vb vr vn → t.bel.st = .sourceReserve →
      exec (.inputQualified true vb vr vn) s = .next (t.changeover true))
  ∧ (∀ s b vb vr vn t, inWithin (if b then vb else vr) = true → t = s.sampleVolts vb vr vn → t.bel.st = .dark → t.aux = true →
      t.bel.up = none → t.bel.retry = none → t.bel.tries < 4 → exec (.inputQualified b vb vr vn) s = .next (t.powerUp b))
  ∧ (∀ s b, s.bel.dead = some b → exec .fetDeadtimeExpiry s = .next (s.fets b (!b)))
  ∧ (∀ s vb vr vn, inWithin vn = true → s.bel.st = .toReserve → s.bel.resEn = true →
      exec (.nodeSettled vb vr vn) s = .next ((s.sampleVolts vb vr vn).settleOn false))
  ∧ (∀ s vb vr vn, inWithin vn = true → s.bel.st = .toBus → s.bel.busEn = true →
      exec (.nodeSettled vb vr vn) s = .next ((s.sampleVolts vb vr vn).settleOn true))
  ∧ (∀ s vn, s.parked = true → vn ≤ 320 → exec (.nodeAt32v vn) s = .next
      (((s.sampleVolts s.bel.bus s.bel.res vn).event 0x4007 0 0xFF).powerDown))

/-- R400 to R406, R445: a rail that is good commands the next one on, and VCORE resets the chip from its input; a rail that misses
its ramp or faults takes its course; the retry comes up from an input within limits or restarts its rail. -/
def Obligations.RailsComplete : Prop :=
  (∀ s r v w b, tget 0 s.bel.rails r = 1 → s.voutGood r v = true → s.bel.up = some (b, r) → 1 ≤ r → r < 7 →
      exec (.railPowerGood r v w) s = .next (((s.setRail r 2 (some v)).modBel fun x => { x with up := some (b, r + 1) }).railOn (r + 1)))
  ∧ (∀ s v w b t, tget 0 s.bel.rails 7 = 1 → s.voutGood 7 v = true → s.bel.up = some (b, 7) →
      t = (s.setRail 7 2 (some v)).modBel (fun x => { x with up := none, fresh := false }) →
      exec (.railPowerGood 7 v w) s = .next ((t.belMove (if b then .sourceBus else .sourceReserve)).chipReset
        (if s.bel.fresh then 0 else 1)))
  ∧ (∀ s r b n, tget 0 s.bel.rails r = 1 → s.bel.up = some (b, n) →
      exec (.railRampTimeout r) s = .next ((((s.eventD 0x4008 r 0xFF [r]).setRail r 3 none).powerDown).allowRetry b))
  ∧ (∀ s r b, s.bel.st = .dark → s.bel.retry = some b → s.bel.within b = true →
      exec (.railRetryTimer r) s = .next (s.powerUp b))
  ∧ (∀ s r, s.bel.st ≠ .dark → s.bel.restart.contains r = true → exec (.railRetryTimer r) s = .next
      ((s.modBel fun x => { x with restart := x.restart.filter (· != r), restarted := insNat x.restarted r }).railOn r))
  ∧ (∀ s r w c, r < 8 → s.bel.st ≠ .dark → s.railGood r = true →
      exec (.railFault r w c) s = .next ((s.setRf (adrBelRail r) 31 16 w).railFault r c))

/-- R266, R267, R392, R403, R415 to R418: control periods, droops, the change of N and the power packets. -/
def Obligations.PowerControlCompletes : Prop :=
  (∀ s po es se st he fl ba sw vb vr vn, s.bel.st ≠ .dark → s.boot ≠ .off → s.boot ≠ .rom → s.boot ≠ .recovery →
      exec (.bellowsControlPeriod po es se st he fl ba sw vb vr vn) s =
        .next ((s.sampleVolts vb vr vn).controlPeriod ⟨po, es, se, st, he, fl, ba⟩ sw))
  ∧ (∀ s, s.bel.st ≠ .dark → s.bel.droop = false →
      exec .vcoreDroop s = .next ((s.modBel fun b => { b with droop := true }).event 0x400A 0 0xFF))
  ∧ (∀ s, exec .vcoreDroopRecovery s = .next (s.modBel fun b => { b with droop := false }))
  ∧ (∀ s n, s.bel.rise = some n →
      exec .vcoreSettled s = .next (s.modBel fun b => { b with rise := none, changing := some n }))
  ∧ (∀ s n t, s.bel.changing = some n → t = (s.setRf adrClkAclk 5 0 n).modBel (fun b => { b with changing := none }) →
      exec .aclkChangeDone s = .next (State.aclkGo (if n < s.chipSteps then t.emit (.avs (t.vcoreAt n)) else t)))
  ∧ (∀ k s x t, Starts s 0x80 k x t →
      exec (.powerCap k) s = .next (t.setReg adrBelCap (wd (max 400 (min 1250 (u16 x.bytes 0x10))))))
  ∧ (∀ k s x t, Starts s 0x82 k x t → exec (.powerRead k) s = .next (t.done k (leBytes 2 (s.reg adrBelChipPower).toNat
      ++ leBytes 2 (s.rf (adrBelPartPower x.part) 10 0) ++ leBytes 2 s.bel.cap ++ leBytes 2 (s.reg (adrPrtPowerShare x.part)).toNat
      ++ leBytes 2 (s.lowestAclk x.part))))

/-! Register writes (R124, R139, R148, R203, R226, R295, R326 to R330, R343, R344, R363, R438, R488 to R490, R518, R548, R550). -/

/-- R343, R344, R362, R363, R550: a write of a doorbell, of CMD_SQ_CTRL, of the proxy doorbell words and of a ring's CFG word acts
on its ring; the CFG words act while no configuration lock holds them. -/
def Obligations.RingRegisterWritesComplete : Prop :=
  (∀ s fn p i v, Reaches s fn p → i < 16 → v < 2 ^ 32 → exec (.sqDoorbell fn p i v) s = .next (s.sqDoorbell p i v (fn == 0)))
  ∧ (∀ s fn p j v, Reaches s fn p → j < 16 → v < 2 ^ 32 → exec (.cqDoorbell fn p j v) s = .next (s.cqDoorbell p j v))
  ∧ (∀ s fn p i, Reaches s fn p → i < 16 → exec (.sqStop fn p i) s = .next (s.sqStop p i))
  ∧ (∀ s fn p i, Reaches s fn p → i < 16 → exec (.sqRestart fn p i) s = .next (s.sqRestart p i))
  ∧ (∀ s fn p lo hi t, Reaches s fn p → lo < 2 ^ 32 → hi < 2 ^ 32 →
      t = s.setReg (adrCmdProxyDbLo p) (wd (s.written true (adrCmdProxyDbLo p) lo).new) →
      exec (.proxyDoorbellWrite fn p lo hi) s = .next ((t.setReg (adrCmdProxyDbHi p)
        (wd (t.written true (adrCmdProxyDbHi p) hi).new)).proxyBell p (t.reg (adrCmdProxyDbLo p)).toNat hi))
  ∧ (∀ s fn p i v u, Reaches s fn p → i < 16 → v < 2 ^ 32 → s.hasLock p = false → s.rf (adrCmdSqCfg p i) 31 31 = 0 →
      u = s.written true (adrCmdSqCfg p i) (putBits v 31 31 1) → u.bad = false →
      s.sqCfgOk p i (s.reg (adrCmdSqCfg p i)).toNat u.new = true →
      exec (.ringEnable fn p false i v) s = .next ((s.setReg (adrCmdSqCfg p i) (wd u.new)).setSq p i
        { st := .running, err := (s.sq p i).err }))
  ∧ (∀ s fn p j v u, Reaches s fn p → j < 16 → v < 2 ^ 32 → s.hasLock p = false → s.rf (adrCmdCqCfg p j) 31 31 = 0 →
      u = s.written true (adrCmdCqCfg p j) (putBits v 31 31 1) → u.bad = false →
      s.cqCfgOk p j (s.reg (adrCmdCqCfg p j)).toNat u.new = true →
      exec (.ringEnable fn p true j v) s = .next ((s.setReg (adrCmdCqCfg p j) (wd u.new)).setCq p j {}))
  ∧ (∀ s fn p i v u, Reaches s fn p → i < 16 → v < 2 ^ 32 → s.hasLock p = false → s.rf (adrCmdSqCfg p i) 31 31 = 1 →
      u = s.written true (adrCmdSqCfg p i) (putBits v 31 31 0) → u.bad = false →
      s.sqCfgOk p i (s.reg (adrCmdSqCfg p i)).toNat u.new = true →
      exec (.ringDisable fn p false i v) s = .next ((s.setReg (adrCmdSqCfg p i) (wd u.new)).setSq p i
        { s.sq p i with st := .disabled }))
  ∧ (∀ s fn p j v u, Reaches s fn p → j < 16 → v < 2 ^ 32 → s.hasLock p = false → s.rf (adrCmdCqCfg p j) 31 31 = 1 →
      u = s.written true (adrCmdCqCfg p j) (putBits v 31 31 0) → u.bad = false →
      s.cqCfgOk p j (s.reg (adrCmdCqCfg p j)).toNat u.new = true →
      exec (.ringDisable fn p true j v) s = .next (s.setReg (adrCmdCqCfg p j) (wd u.new)))

/-- R77 to R79, R124, R139, R148, R150, R326, R329, R333, R337, R548: the writes that lock, reset and release a partition, that give
it granules, anvils, slots and the pool, and that set its generators' seed, its semaphores and its barriers. -/
def Obligations.PartitionRegisterWritesComplete : Prop :=
  (∀ s fn p, Reaches s fn p → s.hasLock p = false → s.rf adrGlbStatus 0 0 = 1 → s.lockFails p = none →
      exec (.prtLock fn p) s = .next (State.keptBells (s.modPart p fun q => { q with st := .locked }) p))
  ∧ (∀ s fn p n, Reaches s fn p → s.hasLock p = false → s.rf adrGlbStatus 0 0 = 1 → s.lockFails p = some n →
      exec (.prtLock fn p) s = .next (s.eventD 0x0202 p p [n]))
  ∧ (∀ s p, p < 8 → s.hostHeld = false → exec (.prtReset p) s = .next (s.resetPart p 3 false))
  ∧ (∀ s p, p < 8 → s.hostHeld = false → exec (.prtRelease p) s = .next (s.resetPart p 4 true))
  ∧ (∀ s g v o t, s.hostHeld = false → s.granuleBusy (adrHrtGranuleOwner g) = false → g < 128 → v < 16 → o = (s.reg (adrHrtGranuleOwner g)).toNat → ownerField o ≠ ownerField v →
      s.handBad (ownerField o) (ownerField v) = false → t = State.zeroGranule (s.setRf (adrHrtGranuleOwner g) 3 0 v) g →
      exec (.granuleOwnerWrite g v) s = .next { t with hrt := { t.hrt with zeroing := insNat t.hrt.zeroing g } })
  ∧ (∀ s p m o, p < 8 → s.hostHeld = false → s.inReset p = false → m < 256 → o = (s.reg (adrPrtAnvils p)).toNat → o < 256 → s.frozen p = false →
      (∀ a, a < 8 → bitAt m a = true → s.anvilTaken p a = false) →
      exec (.anvilOwnerWrite p m) s = .next (s.anvilMask p o m))
  ∧ (∀ s fn p v u, Reaches s fn p → v < 2 ^ 32 → s.hasLock p = false → s.frozen p = false →
      u = s.written (fn == 0) (adrSeqSlotCfg p) v → u.carve = false → u.bad = false →
      s.slotCfgOk p (s.reg (adrSeqSlotCfg p)).toNat u.new = true →
      exec (.slotQuotaWrite fn p v) s = .next (s.setReg (adrSeqSlotCfg p) (wd u.new)))
  ∧ (∀ s v, s.hostHeld = false → 8 ≤ v → v ≤ 32 → (∀ p, p < 8 → s.hasLock p = false) → s.backingBut 8 ≤ v →
      exec (.poolLimitWrite v) s = .next (s.setRf adrSeqPool 5 0 v))
  ∧ (∀ s fn p v, Reaches s fn p → v < 2 ^ 32 →
      exec (.vecSrSeedWrite fn p v) s = .next (State.reseed (s.setReg (adrVecSrSeed p) (wd v)) p v))
  ∧ (∀ s fn p i v, Reaches s fn p → i < 256 → v < 2 ^ 32 → (s.sem p i).waiters = [] →
      exec (.semValueWrite fn p i v) s = .next (s.semWrite p i v))
  ∧ (∀ s fn p i v, Reaches s fn p → i < 256 → 0 < v → v < 256 → exec (.semSignalWrite fn p i v) s = .next (s.semSignal p i v))
  ∧ (∀ s fn p j v u, Reaches s fn p → j < 64 → v < 2 ^ 32 → u = s.written true (adrSemBarrier p j) v → u.bad = false →
      (s.barrier p j).arrivals = 0 → exec (.semBarrierWrite fn p j v) s = .next (s.setReg (adrSemBarrier p j) (wd u.new)))

/-- R203, R209, R220, R226, R275, R278, R403, R417, R435, R438: the writes that retrain a link, bring it down, change its target, fence
a port and lift its fence, arm a time load and the mesh offset, set the cap and the clock, and calibrate and clear valves. -/
def Obligations.UnitRegisterWritesComplete : Prop :=
  (∀ s d t, s.hostHeld = false → d < 8 → 1 ≤ s.rf (adrLnkCtrl d) 3 0 → s.rf (adrLnkCtrl d) 3 0 ≤ 8 →
      t = s.setReg (adrLnkCtrl d) (s.reg (adrLnkCtrl d)) → t.flitUp d = true → exec (.lnkCtrlRetrain d) s = .next (State.startReq (t.setRf (adrLnkCtrl d) 4 4 1) d 0))
  ∧ (∀ s d t, s.hostHeld = false → d < 8 → 1 ≤ s.rf (adrLnkCtrl d) 3 0 → s.rf (adrLnkCtrl d) 3 0 ≤ 8 →
      t = s.setReg (adrLnkCtrl d) (s.reg (adrLnkCtrl d)) → t.quiet d = false → (t.link d).st ≠ .fenced →
      exec (.lnkCtrlDown d) s = .next (State.setRf (t.linkDown d) (adrLnkCtrl d) 5 5 1))
  ∧ (∀ s d n t, s.hostHeld = false → d < 8 → 1 ≤ n → n ≤ 8 → n ≠ s.rf (adrLnkCtrl d) 3 0 → t = s.setRf (adrLnkCtrl d) 3 0 n →
      exec (.lnkTargetQuadsWrite d n) s = .next (t.startReq d (if t.desired d < popcount 8 (t.link d).active then 1 else 2)))
  ∧ (∀ s d, s.hostHeld = false → d < 8 → s.rf (adrAntPortCfg d) 4 4 = 0 →
      exec (.antFenceWrite d true) s = .next (State.fencePort (s.setRf (adrAntPortCfg d) 4 4 1) d))
  ∧ (∀ s d, s.hostHeld = false → d < 8 → s.rf (adrAntPortCfg d) 4 4 = 1 → (s.link d).st = .fenced →
      exec (.antFenceWrite d false) s =
        .next ((s.setRf (adrAntPortCfg d) 4 4 0).setLink d { s.link d with st := .down }))
  ∧ (∀ s n, s.hostHeld = false → n < 2 ^ 44 → exec (.rtLoadArm n) s = .next ((s.setReg adrClkRtLoadLo (wd (n % 2 ^ 32))).setReg adrClkRtLoadHi
      (wd (putBits (putBits (s.reg adrClkRtLoadHi).toNat 11 0 (n / 2 ^ 32)) 31 31 1))))
  ∧ (∀ s, s.hostHeld = false → exec .mtOffsetArm s = .next (s.setRf adrClkMtArm 0 0 1))
  ∧ (∀ s n, s.hostHeld = false → 400 ≤ n → n ≤ 1250 → exec (.belCapWrite n) s = .next (s.setRf adrBelCap 10 0 n))
  ∧ (∀ s n, s.hostHeld = false → 24 ≤ n → n ≤ 56 → exec (.belAclkWrite n) s = .next (s.setTarget n))
  ∧ (∀ s, s.hostHeld = false → (∀ p, p < 8 → s.locked p = false) → exec .qchCalibrate s = .next s.calibrate)
  ∧ (∀ s v o u, s.hostHeld = false → v < 8 → o = (s.reg (adrQchValveCfg v)).toNat → u = s.written true (adrQchValveCfg v) (bits o 27 0 + 2 ^ 28) →
      u.bad = false → exec (.valveClear v) s =
        .next (State.clearValve (s.setReg (adrQchValveCfg v) (wd (putBits u.new 28 28 0))) v))

/-- R295, R445, R488 to R490, R504: a write of a register of a function's BAR0, of 4 bytes or of 8 as two; the chip reset, the release
of a held chip, and the recorder's clear, persist and cursor. -/
def Obligations.ChipRegisterWritesComplete : Prop :=
  (∀ s fn a v b, s.hostHeld = false → s.granuleBusy b = false → s.fnExists fn = true → a % 4 = 0 → v < 2 ^ 32 →
      s.place fn a = .reg b →
      exec (.registerWrite fn a 4 v) s = .next (s.writeAt fn b v))
  ∧ (∀ s fn a v t, s.fnExists fn = true → a % 8 = 0 → v < 2 ^ 64 → s.hostWaits (.wordWrite fn a (v % 2 ^ 32)) = false →
      t = s.writeWord fn a (v % 2 ^ 32) → t.hostWaits (.wordWrite fn (a + 4) (v / 2 ^ 32)) = false →
      exec (.registerWrite fn a 8 v) s = .next (t.writeWord fn (a + 4) (v / 2 ^ 32)))
  ∧ (∀ s fn a v, s.fnExists fn = true → a % 4 = 0 → v < 2 ^ 32 → s.hostWaits (.wordWrite fn a v) = true →
      exec (.registerWrite fn a 4 v) s =
        .next { s with hrt := { s.hrt with hostWait := s.hrt.hostWait ++ [.wordWrite fn a v] } })
  ∧ (∀ s, s.hostHeld = false → exec .glbChipReset s = .next (s.chipReset 2))
  ∧ (∀ s t, s.hostHeld = false → s.rf adrGlbFaultStatus 20 20 = 1 → s.boot = .stage →
      t = (s.setRf adrGlbFaultStatus 20 20 0).setRf adrGlbFaultStatus 19 16 0 → exec .glbFaultRelease s = .next t.goReady)
  ∧ (∀ s f, s.hostHeld = false → s.clearRefused f = false → exec (.evrCtrlClear f) s = .next s.clearRecorder)
  ∧ (∀ s, s.hostHeld = false → exec .evrCtrlPersist s = .next ((s.startPersist 2 []).setRf adrEvrCtrl 2 2 1))
  ∧ (∀ s fn k, s.hostHeld = false → s.fnExists fn = true → s.seekRec fn 0 = some k →
      exec (.evrCursorFirst fn) s = .next (s.setReg (cursorAt fn) (wd k)))
  ∧ (∀ s fn, s.hostHeld = false → s.fnExists fn = true → s.seekRec fn 0 = none →
      exec (.evrCursorFirst fn) s = .next (s.setReg (cursorAt fn) (wd (2 ^ 12))))
  ∧ (∀ s fn i k, s.hostHeld = false → s.fnExists fn = true → i < 4096 → s.seekRec fn (i + 1) = some k →
      exec (.evrCursorNext fn i) s = .next (s.setReg (cursorAt fn) (wd k)))
  ∧ (∀ s fn i, s.hostHeld = false → s.fnExists fn = true → i < 4096 → s.seekRec fn (i + 1) = none →
      exec (.evrCursorNext fn i) s = .next (s.setReg (cursorAt fn) (wd (i + 2 ^ 12))))

/-! Partitions and faults (R133, R135, R139, R333, R334, R337, R499 to R504, R548). -/

/-- R133, R135, R139, R334, R337, R499, R501 to R504, R548: the ends of a partition reset, of a granule's zeroing and of an anvil's
clearing, the scrubber's reads, and the chip's faults. -/
def Obligations.PartitionCommandsComplete : Prop :=
  (∀ s p x, p < 8 → (s.part p).st = .resetting x → x.release = false →
      exec (.partitionResetDone p) s = .next (State.serveHost ((s.clearPart p).eventD 0x0201 p p [x.cause])))
  ∧ (∀ s p x, p < 8 → (s.part p).st = .resetting x → x.release = true →
      exec (.partitionResetDone p) s = .next (State.serveHost (((s.clearPart p).freeCarve p).eventD 0x0201 p p [x.cause])))
  ∧ (∀ s p, p < 8 → exec (.partitionStateLost p) s = .next (s.faultPartition p 2))
  ∧ (∀ s g, s.hrt.zeroing.contains g = true → exec (.granuleZeroingDone g) s =
      .next (State.serveHost { s with hrt := { s.hrt with zeroing := s.hrt.zeroing.filter (· != g) } }))
  ∧ (∀ s a o t, a < 8 → (s.anvil a).clearing = some o → o < 8 →
      t = s.each allParts (fun u p => u.setRf (adrPrtAnvils p) a a (b2n (p == o))) →
      exec (.anvilClearingDone a) s = .next (t.setAnvil a { clearedAnvil with seed := (t.reg (adrVecSrSeed o)).toNat }))
  ∧ (∀ s n t, s.boot ≠ .off → t = { s with hrt := { s.hrt with scrubPos := (s.hrt.scrubPos + 1) % hearthWords } } →
      exec (.scrubRead n) s = .next (if n = 1 then t.eccHearth s.hrt.scrubPos false
        else if n = 2 then t.eccHearth s.hrt.scrubPos true else t))
  ∧ (∀ s c b, s.boot ≠ .off → 1 ≤ c → c ≤ 4 → exec (.chipFatalFault c b) s = .next (s.chipFatal c b))
  ∧ (∀ s c, s.fatal = some c → exec .fatalResetTimeout s = .next (State.fatalStep { s with fatalDue := true }))
  ∧ (∀ s, exec .fatalCountExpiry s = .next (s.setRf adrGlbFaultStatus 19 16 0))

/-! The host port (R134, R287 to R321, R336, R448, R549). -/

/-- R294, R295, R303, R334, R336: reads of registers and of Hearth answer with data, illegal BAR0 accesses are refused, and writes of
Hearth are carried out or are dropped for a RESETTING owner; a request waits behind an earlier posted write and for the zeroing of its
granule. -/
def Obligations.HostAccessesComplete : Prop :=
  (∀ s fn a v t, s.hostHeld = false → s.fnExists fn = true → a % 4 = 0 → s.readWord fn a = (some v, t) →
      exec (.lowWordRead fn a 4) s = .next (t.emit (.hostData fn (leBytes 4 v.toNat) false)))
  ∧ (∀ s fn a v u t r, s.hostHeld = false → s.fnExists fn = true → a % 8 = 0 → s.readWord fn a = (some v, t) → t.readWord fn (a + 4) = (some u, r) →
      exec (.lowWordRead fn a 8) s = .next (r.emit (.hostData fn (leBytes 4 v.toNat ++ leBytes 4 u.toNat) false)))
  ∧ (∀ s fn a n w, s.hostHeld = false → s.fnExists fn = true → ¬(n = 4 ∧ a % 4 = 0 ∨ n = 8 ∧ a % 8 = 0) →
      exec (.bar0IllegalAccess fn a n w) s = .next (s.bar0Refused fn w))
  ∧ (∀ s fn a, s.hostHeld = false → s.fnExists fn = true → s.place fn a = .none →
      exec (.bar0IllegalAccess fn a 4 false) s = .next (s.bar0Refused fn false))
  ∧ (∀ s fn a n e, s.fnExists fn = true → 0 < n → s.hostWaits (.bar2Read fn a n e) = false →
      exec (.hostBar2Read fn a n e) s = .next ((s.eccFinds e).barRead fn a n))
  ∧ (∀ s fn a n e, s.fnExists fn = true → 0 < n → s.hostWaits (.bar2Read fn a n e) = true →
      exec (.hostBar2Read fn a n e) s =
        .next { s with hrt := { s.hrt with hostWait := s.hrt.hostWait ++ [.bar2Read fn a n e] } })
  ∧ (∀ s fn a d e, s.fnExists fn = true → d ≠ [] → s.barReset fn a d.length = none → s.hostWaits (.bar2Write fn a d e) = false →
      exec (.hostBar2Write fn a d e) s = .next (s.barWrite fn a d e))
  ∧ (∀ s fn a d e, s.fnExists fn = true → d ≠ [] → s.hostWaits (.bar2Write fn a d e) = true →
      exec (.hostBar2Write fn a d e) s =
        .next { s with hrt := { s.hrt with hostWait := s.hrt.hostWait ++ [.bar2Write fn a d e] } })
  ∧ (∀ s fn a d e p, s.fnExists fn = true → d ≠ [] → s.hostHeld = false → s.barReset fn a d.length = some p →
      exec (.hostBar2Write fn a d e) s = .next (s.event 0x0206 p p))

/-- R289 to R292, R296, R298, R299, R317, R318, R448, R549: configuration writes, VF Enable, resets of the port and of a function,
its link and its reference clock, and the firmware's host stage. -/
def Obligations.HostPortCommandsComplete : Prop :=
  (∀ s fn f v, s.hostHeld = false → s.fnExists fn = true → s.hostStage = true → (fn = 0 ∨ vfReserved f = false) → f ≠ 14 →
      cfgBad f v = false →
      exec (.pciConfigWrite fn f v) s = .next (State.pumpFn ((s.setFn fn ((s.fn fn).put f v)).flushMsix fn) fn))
  ∧ (∀ s v, s.hostHeld = false → s.hostStage = true →
      exec (.pciConfigWrite 0 14 v) s = .next (s.setHost fun h => { h with vfTag10 := v % 2 == 1 }))
  ∧ (∀ s fn f v, s.hostHeld = false → s.fnExists fn = true → s.hostStage = false → exec (.pciConfigWrite fn f v) s = .next (s.emit (.hostRrs fn)))
  ∧ (∀ s e n, s.hostHeld = false → s.hostStage = true → s.allFree = true → n ≤ 8 → exec (.vfEnableWrite e n) s =
      .next (s.setHost fun h => { h with vfEnable := e, numVfs := n, fns := h.fns.filter fun (f, _) => f == 0 }))
  ∧ (∀ s, s.host.perst = false → s.host.refclk = true → s.boot ≠ .off → exec (.hostPortReset 0) s =
      .next (State.hostReset (s.setHost fun h => { h with perst := true, training := false })))
  ∧ (∀ s k, s.host.perst = false → s.host.refclk = true → s.boot ≠ .off → 1 ≤ k → k ≤ 2 →
      exec (.hostPortReset k) s = .next s.hostReset)
  ∧ (∀ s, s.host.perst = false → s.host.refclk = true → s.boot ≠ .off → exec (.hostPortReset 3) s =
      .next (State.hostReset (s.setHost fun h => { h with refclk := false, training := false })))
  ∧ (∀ s, s.host.perst = true →
      exec .perstDeassert s = .next (s.setHost fun h => { h with perst := false, training := h.refclk }))
  ∧ (∀ s, s.host.refclk = false →
      exec .pciRefclkRestored s = .next (s.setHost fun h => { h with refclk := true, training := !h.perst }))
  ∧ (∀ s r w f t, linkForm r w f = true → s.host.training = true → s.boot ≠ .off → s.railGood 3 = true → s.railGood 4 = true →
      t = s.setHost (fun h => { h with training := false, rate := r, width := w, flit := f, degraded := decide (r < 4) || decide (w < 4) }) →
      exec (.hostLinkSettled r w f) s = .next (if r < 4 ∨ w < 4 then t.event 0x0107 8 0xFF else t))
  ∧ (∀ s v, s.hostHeld = false → s.hostStage = true → 0 < v → s.fnExists v = true → exec (.functionLevelReset v) s =
      .next (((s.event 0x0109 (v - 1) (v - 1)).resetPart (v - 1) 1 false).setFn v {}))
  ∧ (∀ s fn v, s.hostHeld = false → s.fnExists fn = true → v < vectors fn → exec (.msixUnmask fn v) s =
      .next (State.flushMsix (s.setFn fn { s.fn fn with unmasked := insNat (s.fn fn).unmasked v }) fn))
  ∧ (∀ s t, s.boot = .firmware → t = State.setRf (State.emit (((s.applyConfig).applyRole).lightBanks)
        (.avs (State.vcoreAt (((s.applyConfig).applyRole).lightBanks) (State.chipSteps (((s.applyConfig).applyRole).lightBanks)))))
        adrGlbStatus 2 2 1 → t.rf adrGlbFaultStatus 19 16 < 3 →
      exec .hostPortStage s = .next { t with boot := .stage })

/-- R298, R305 to R316: a waiting request goes out, and what waited for it goes on; a completion acts on the tag whose request carried
its value and Requester ID, a timeout and the end of a quarantine on theirs. -/
def Obligations.HostRequestsComplete : Prop :=
  (∀ s r t, s.issueNext r = some t → exec (.hostRequestIssue r) s = .next (t.afterIssue r))
  ∧ (∀ s v t f d u, s.tagOf f v = some (t, u) → u.quarantined = false → u.got + d.length < u.len →
      exec (.hostCompletionReceived v f 0 false d) s = .next (State.readData (s.setHost fun h =>
        { h with tags := tput h.tags t { u with got := u.got + d.length } }) u.iss (u.dst + u.got) d))
  ∧ (∀ s v t f d u, s.tagOf f v = some (t, u) → u.quarantined = false → u.got + d.length = u.len →
      exec (.hostCompletionReceived v f 0 false d) s =
        .next (State.readEnd ((s.freeTag t).readData u.iss (u.dst + u.got) d) u.iss))
  ∧ (∀ s v t f x d u, s.tagOf f v = some (t, u) → u.quarantined = false →
      exec (.hostCompletionReceived v f 0 true d) s =
        .next (State.readFail ((((s.freeTag t).aer u.fn true 12 1).pciCount 4 u.req).event 0x0105 u.req (reqPart u.req)) u.iss 0x7F)
      ∧ (x = 1 ∨ x = 2 → ∀ po, exec (.hostCompletionReceived v f x po d) s =
        .next (State.readFail (((s.freeTag t).pciCount 3 u.req).event 0x0104 u.req (reqPart u.req)) u.iss 0x14)))
  ∧ (∀ s v f x po d, x < 3 → s.tagOf f v = none → exec (.hostCompletionReceived v f x po d) s = .next (s.unexpected f))
  ∧ (∀ s n u t, tfind s.host.tags n = some u → u.quarantined = false →
      t = State.event (State.pciCount (s.setHost fun h => { h with tags := tput h.tags n { u with quarantined := true, iss := .other } })
        0 u.req) 0x0101 u.req (reqPart u.req) →
      exec (.completionTimeout n) s =
        .next (State.readFail (t.aer u.fn true 14 (if bitAt (t.fn u.fn).aerSev 14 then 3 else 1)) u.iss 0x21))
  ∧ (∀ s t u, tfind s.host.tags t = some u → u.quarantined = true → exec (.tagQuarantineExpiry t) s = .next (s.freeTag t))

/-- R319 to R321, R362: a proxy request that is the oldest of its source is served or refused, a response ends its request, and the deadline and the quarantine of
a proxy tag end. -/
def Obligations.ProxyCommandsComplete : Prop :=
  (∀ s p f, s.arrived 7 p f = true → proxyGood f = true → u8 f 32 ≤ 2 → s.proxyBehind p f = false →
      exec (.proxyRequestReceived p f) s = .next ((s.consume p f).serveProxy p f))
  ∧ (∀ s p f, s.arrived 7 p f = true → proxyGood f = false →
      (s.proxyBehind p f = false → exec (.proxyRequestReceived p f) s = .next ((s.consume p f).event 0x010C p p))
      ∧ exec (.proxyResponseReceived p f) s = .next ((s.consume p f).event 0x010C p p))
  ∧ (∀ s p f r t, s.arrived 7 p f = true → proxyGood f = true → u8 f 32 = 3 → t = s.consume p f →
      tfind (t.part p).proxy (u32 f 36) = some r → r.quarantined = false → r.write = false → u8 f 33 ≠ 0 →
      exec (.proxyResponseReceived p f) s = .next (t.proxyEnd p (u32 f 36) r (u8 f 33) (proxyData f)))
  ∧ (∀ s p f r t, s.arrived 7 p f = true → proxyGood f = true → u8 f 32 = 4 → t = s.consume p f →
      tfind (t.part p).proxy (u32 f 36) = some r → r.quarantined = false → r.write = true →
      exec (.proxyResponseReceived p f) s = .next (t.proxyEnd p (u32 f 36) r (u8 f 33) []))
  ∧ (∀ s p n r t, tfind (s.part p).proxy n = some r → r.quarantined = false → r.sent = true →
      t = s.modPart p (fun q => { q with proxy := tput q.proxy n { r with quarantined := true, iss := .other } }) →
      exec (.proxyDeadlineExpiry p n) s =
        .next (State.flushIrqs (if r.write then t.writeEnd r.iss 0x20 else t.readFail r.iss 0x21) p))
  ∧ (∀ s p n r t, tfind (s.part p).proxy n = some r → r.quarantined = true →
      t = s.modPart p (fun q => { q with proxy := tdel q.proxy n }) →
      exec (.proxyTagQuarantineExpiry p n) s = .next (State.proxyPump (t.part p).proxyQ.length t p))

/-! Links (R183 to R210, R227, R247, R253, R280, R390). -/

/-- R184, R190, R194: the commands of training: an attempt starts, its quads lock or fail, its limits end it, LINK_INIT agrees the active
set, and CONFIG brings the link up once one that says SEEN has come and one has gone, and is answered on a link that is up. -/
def Obligations.LinkTrainingCompletes : Prop :=
  (∀ s d, d < 8 → (s.link d).st = .down → 0 < (s.link d).allot → (s.link d).heldDown = false → s.fenced d = false →
      s.portPowered d = true → (d < 4 ∨ (s.gleed d).apr = false) → exec (.linkTrainingStart d) s = .next (s.startTraining d))
  ∧ (∀ s d m u, (s.link d).st = .training → (s.link d).step = 1 → Nat.land m (s.link d).allotMask ≠ 0 →
      u = s.each (onesOf 8 (s.link d).allotMask) (fun t k => if bitAt (Nat.land m (s.link d).allotMask) k
        then t.modLink d fun l => { l with fails := tset 0 l.fails k 0 } else t.failQuad d k) →
      exec (.trainingStepTimeout d m) s = .next (u.startInit d (Nat.land m (s.link d).allotMask)))
  ∧ (∀ s d m u, (s.link d).st = .training → (s.link d).step = 1 → Nat.land m (s.link d).allotMask = 0 →
      u = State.modLink (s.each (onesOf 8 (s.link d).allotMask) (fun t k => t.failQuad d k)) d
        (fun l => { l with st := .down, step := 0 }) →
      exec (.trainingStepTimeout d m) s = .next (if d < 6 then u else u.portEvent 0x220B d []))
  ∧ (∀ s d m, (s.link d).st = .training → ((s.link d).step = 5 ∨ (s.link d).step = 6) → exec (.trainingStepTimeout d m) s =
      .next (State.dropMeasure (s.setLink d { s.link d with st := .down, step := 0, active := 0, timeQ := [] }) d))
  ∧ (∀ s d, (s.link d).st = .training → (s.link d).step = 1 → exec (.trainingLockAchieved d) s =
      .next (State.startInit (s.modLink d fun l => { l with fails := [] }) d (s.link d).allotMask))
  ∧ (∀ s d b w, osGood b = true → u8 b 0 = 0xA1 → (s.link d).st = .training → (s.link d).step = 5 → u64 b 4 ≠ ownId →
      bits (u16 b 0xC) 7 4 = (s.link d).allot → w = agree (s.link d).sustain (u8 b 2) (s.desired d) (u8 b 1 / 16) → w ≠ 0 →
      exec (.linkInitReceived d b) s = .next (s.modLink d fun l =>
        { l with active := w, peer := u64 b 4, step := 6, seq := 0, ackd := 0xFFF, last := 0xFFF }))
  ∧ (∀ s d b, osGood b = true → u8 b 0 = 0xA1 → (s.link d).st = .training → (s.link d).step = 5 → u64 b 4 = ownId →
      exec (.linkInitReceived d b) s =
        .next (State.portEvent (s.modLink d fun l => { l with st := .down, step := 0, heldDown := true }) 0x200B d []))
  ∧ (∀ s d b f n u, flitGood b = true → f = parseFlit b → f.kind = 2 → u8 f.pay 0x10 = 1 → (s.link d).step = 6 →
      (s.link d).seen = true → u = s.bumpBy (adrFecCorrected d) n → exec (.configFlitReceived d b false n) s =
        .next (if (s.link d).seenSent then State.linkUp (u.modLink d fun l => { l with peerSeen := true }) d
          else u.modLink d fun l => { l with peerSeen := true }))
  ∧ (∀ s d b n u, flitGood b = true → (parseFlit b).kind = 2 → (s.link d).step ≠ 6 → s.flitUp d = true → (s.link d).seen = true →
      u = s.bumpBy (adrFecCorrected d) n → exec (.configFlitReceived d b false n) s =
        .next (if (s.link d).watch then u.modLink d fun l => { l with config := true } else u))

/-- R187 to R200, R211, R280: flits that arrive are taken or discarded, with their corrected codewords counted; flit slots send replayed
flits, time ordered sets, CONFIG, reports and data in that order; the timers of acknowledgement act, and an advance in the same cycle
wins over the replay timer (R202). -/
def Obligations.FlitCommandsComplete : Prop :=
  (∀ s d b n u, u = s.bumpBy (adrFecCorrected d) n → u.flitUp d = true → flitGood b = true → (parseFlit b).kind = 0 →
      exec (.dataFlitReceived d b false n) s = .next (u.dataFlit d (parseFlit b)))
  ∧ (∀ s d b n u, u = s.bumpBy (adrFecCorrected d) n → u.flitUp d = true → flitGood b = true → (parseFlit b).kind = 1 →
      exec (.controlFlitReceived d b false n) s = .next (u.applyReports d (parseFlit b)))
  ∧ (∀ s d b e n u, u = s.bumpBy (adrFecCorrected d) n → u.flitUp d = true → (e = true ∨ flitGood b = false) →
      exec (.dataFlitReceived d b e n) s = .next (u.badFlit d e ((parseFlit b).kind == 0))
      ∧ exec (.controlFlitReceived d b e n) s = .next (u.badFlit d e false)
      ∧ exec (.configFlitReceived d b e n) s = .next (u.badFlit d e false))
  ∧ (∀ s d f fs, (s.link d).st = .active → (s.link d).step ≠ 6 → (s.link d).replay = f :: fs → exec (.flitSlot d) s =
      .next (State.sendFlit (State.bump (s.setLink d { s.link d with replay := fs }) (adrFlitsTx d)) d
        { vc := f.vc, kind := 0, pos := f.pos, abort := f.abort, seq := f.seq, ack := 0, nak := false, cvc := 0, ctot := 0,
          pay := f.payload }))
  ∧ (∀ s d x xs, ((s.link d).step = 6 ∨ (s.link d).st = .active ∧ (s.link d).replay = []) → (s.link d).timeQ = x :: xs →
      exec (.flitSlot d) s = .next (s.sendTime d x))
  ∧ (∀ s d, (s.link d).step = 6 → (s.link d).timeQ = [] → exec (.flitSlot d) s = .next (s.slotConfig d))
  ∧ (∀ s d, (s.link d).st = .active → (s.link d).step ≠ 6 → (s.link d).replay = [] → (s.link d).timeQ = [] → (s.link d).config = true →
      exec (.flitSlot d) s = .next (State.sendConfig (s.setLink d { s.link d with config := false }) d))
  ∧ (∀ s d, (s.link d).st = .active → (s.link d).step ≠ 6 → (s.link d).replay = [] → (s.link d).timeQ = [] → (s.link d).config = false →
      ((s.link d).due = true ∨ 32 ≤ (s.link d).unacked) → exec (.flitSlot d) s = .next (s.sendFlit d (s.controlFlit d)))
  ∧ (∀ s d v t u, (s.link d).st = .active → (s.link d).step ≠ 6 → (s.link d).replay = [] → (s.link d).timeQ = [] →
      (s.link d).config = false → (s.link d).due = false → (s.link d).unacked < 32 →
      u = s.setLink d { s.link d with share := min 256 ((s.link d).share + s.rf adrAntCfg 22 18) } →
      u.pickVc d = some (v, t) → exec (.flitSlot d) s = .next (State.sendVc (u.modLink d fun l =>
        { l with deficit := t, rrPtr := if 1 ≤ v && v ≤ 5 then v else l.rrPtr }) d v))
  ∧ (∀ s d, (s.link d).owed = true → exec (.ackReportDue d) s = .next (s.modLink d fun l => { l with due := true }))
  ∧ (∀ s d, (s.link d).gap = true → exec (.nakRepeatTimer d) s = .next (s.modLink d fun l => { l with nak := true }))
  ∧ (∀ s d, (s.link d).st = .active → exec (.replayTimerExpiry d false) s = .next (s.startReplay d))
  ∧ (∀ s d, exec (.replayTimerExpiry d true) s = .next s)
  ∧ (∀ s d, (s.link d).escal = 2 → exec (.retrainAdvanceTimeout d) s = .next (s.linkDown d))

/-- R203 to R209: requests, acknowledgements, pauses and resumes of the handshake with what each end first sent, its limits, a PAUSE that
overtakes its acknowledgement, and quads found faulty together. -/
def Obligations.HandshakesComplete : Prop :=
  (∀ s d b, osGood b = true → u8 b 0 = 0xA2 → (s.link d).st = .active → (s.link d).req = none →
      exec (.linkReqReceived d b) s = .next (s.answerReq d b))
  ∧ (∀ s d b r t, osGood b = true → u8 b 0 = 0xA2 → (s.link d).st = .active → (s.link d).req = some r →
      t = s.portEvent 0x200D d [] → exec (.linkReqReceived d b) s = .next (if ownId < u64 b 4 then t
        else State.answerReq (t.modLink d fun l =>
          { l with req := none, need := if l.need.contains r.kind then l.need else l.need ++ [r.kind] }) d b))
  ∧ (∀ s d b p, osGood b = true → u8 b 0 = 0xA2 → (s.link d).st = .paused → (s.link d).pause = some p →
      exec (.linkReqReceived d b) s = .next (if p.lead then s else s.sendOs d (s.link d).osQuad
        (osBytes 0xA3 (u8 b 1 % 4 + 16 * p.ownDesired) p.ownSustain (u8 b 3) 0)))
  ∧ (∀ s d b r, osGood b = true → u8 b 0 = 0xA3 → (s.link d).req = some r → u8 b 3 = r.num →
      exec (.linkAckReceived d b) s = .next (s.beginPause d r.kind true r.desired r.sustain (u8 b 1 / 16) (u8 b 2)))
  ∧ (∀ s d r, (s.link d).req = some r → exec (.linkReqResendTimer d) s =
      .next (s.sendOs d (s.link d).osQuad (osBytes 0xA2 (r.kind + 16 * r.desired) r.sustain r.num 0))
      ∧ exec (.linkReqTimeout d) s = .next (s.linkDown d))
  ∧ (∀ s d p w, (s.link d).pause = some p → p.recv = false → w = agree p.ownSustain p.sustain p.ownDesired p.desired →
      exec (.pauseReceived d) s = .next (if w = 0 then s.linkDown d
        else s.setLink d { s.link d with pause := some { p with recv := true, newMask := w } }))
  ∧ (∀ s d r, (s.link d).pause = none → (s.link d).st = .active → (s.link d).req = some r →
      exec (.pauseReceived d) s = .next (s.setLink d { s.link d with early := true }))
  ∧ (∀ s d p, (s.link d).pause = some p → p.recv = true → p.ready = false → exec (.quadsReady d) s =
      .next (State.endPause (State.sendOsAll
        (s.setLink d { s.link d with active := p.newMask, pause := some { p with ready := true } }) d p.newMask
        (osBytes 0xA5 (p.kind + 16 * p.ownDesired) p.ownSustain 0 (if isGleed d then 0xFFF else (s.link d).last))) d))
  ∧ (∀ s d p b, (s.link d).pause = some p → osGood b = true → u8 b 0 = 0xA5 → exec (.resumeReceived d b) s =
      .next (State.endPause (s.setLink d { s.link d with pause := some { p with resumed := some (u16 b 0xC % 4096) } }) d))
  ∧ (∀ s d p, (s.link d).pause = some p → exec (.pauseLimitExpiry d) s = .next (s.linkDown d))
  ∧ (∀ s d, s.flitUp d = true → exec (.linkSilenceExpiry d) s = .next (s.linkDown d))
  ∧ (∀ s d q ks m t, s.flitUp d = true → ks = onesOf 8 (Nat.land (s.link d).sustain q) → ks ≠ [] → m = (ks.map fun k => 2 ^ k).sum →
      t = State.each (s.setLink d { s.link d with sustain := (s.link d).sustain - m, failed := Nat.lor (s.link d).failed m }) ks
        (fun u k => u.portEvent 0x2005 d [k]) →
      exec (.quadFault d q) s = .next (if Nat.land (s.link d).active ((s.link d).sustain - m) = 0 then t.linkDown d else t.startReq d 1))
  ∧ (∀ s d, ((s.link d).st = .active ∨ (s.link d).st = .down ∧ s.fenced d = false) → exec (.failedQuadRetrain d) s =
      .next (s.setLink d { s.link d with trying := Nat.land (s.link d).failed (s.link d).allotMask }))
  ∧ (∀ s d k, bitAt (s.link d).trying k = true → exec (.quadPrbsPassed d k) s = .next (s.quadBack d k))

/-- R227, R243, R253, R280, R281, R390: frames enter the fabric, campus line frames align and are unpacked or found faulty, and the link
packets act. -/
def Obligations.FabricCommandsComplete : Prop :=
  (∀ s d v f, (s.link d).frames.find? (fun g => g.1 == v) = some f → exec (.frameIngress d v) s =
      .next (State.ingress (s.modLink d fun l => { l with frames := l.frames.erase f }) d v f.2.2 f.2.1))
  ∧ (∀ s d c b e n t u q, (d = 6 ∨ d = 7) → c < 5 → n = Align.next (tget {} (s.gleed d).aligns c) (lineGood b && !e) →
      t = s.modGleed d (fun g => { g with aligns := tset {} g.aligns c n }) →
      u = (if e then t.bump (adrFecUncorrected (d - 4)) else t) → u.rxLaneOf d c = some q → n.locked = true →
      exec (.lineFrameReceived d c b e) s = .next (u.lineRx d q (if lineGood b && !e then b else [])))
  ∧ (∀ s d c b e n t u q, (d = 6 ∨ d = 7) → c < 5 → n = Align.next (tget {} (s.gleed d).aligns c) (lineGood b && !e) →
      t = s.modGleed d (fun g => { g with aligns := tset {} g.aligns c n }) →
      u = (if e then t.bump (adrFecUncorrected (d - 4)) else t) → u.rxLaneOf d c = some q → n.locked = false →
      (tget {} (s.gleed d).aligns c).locked = true → exec (.lineFrameReceived d c b e) s = .next (u.quadFault d (2 ^ q)))
  ∧ (∀ k s x t, Starts s 0x60 k x t → exec (.linkConfig k) s =
      .next (State.done (t.setReg (adrLnkVcWeight (u8 x.bytes 0x10)) (BitVec.ofNat 32 (u32 x.bytes 0x14))) k []))
  ∧ (∀ k s x t u, Starts s 0x61 k x t → newer (u16 x.bytes 0x14) (t.rf adrAntGen 15 0) = true →
      u = t.takeAddress (u16 x.bytes 0x14) (u32 x.bytes 0x10) ownId true 8 →
      exec (.addressAssign k) s = .next (u.done k (leBytes 4 (u.reg adrAntAddr).toNat)))
  ∧ (∀ k s x t, Starts s 0x61 k x t → newer (u16 x.bytes 0x14) (t.rf adrAntGen 15 0) = false →
      exec (.addressAssign k) s = .next (t.badParam k 0x14))
  ∧ (∀ k s x t, Starts s 0x62 k x t → (t.link (u8 x.bytes 0x10)).st = .active →
      exec (.linkMeasure k) s = .next (t.startMeasure (u8 x.bytes 0x10) [k]))
  ∧ (∀ k s x t, Starts s 0x62 k x t → (t.link (u8 x.bytes 0x10)).st ≠ .active →
      exec (.linkMeasure k) s = .next (t.failPkt k 0x30))

/-! Gleed ports and time (R239 to R261, R267, R271 to R283). -/

/-- R249 to R252: requests, verifications, acknowledgements, ends and limits of swaps, and the calibration of a channel in use. -/
def Obligations.SwapsComplete : Prop :=
  (∀ s d b, 4 ≤ d → d < 8 → swapGood d 0xA6 b = true → s.flitUp d = true → (d < 6 ∨ (s.gleed d).tx = none) →
      exec (.swapReqReceived d b) s = .next (s.setGleed d { s.gleed d with rx := some (swapOf b) }))
  ∧ (∀ s d b w, 6 ≤ d → d < 8 → swapGood d 0xA6 b = true → s.flitUp d = true → (s.gleed d).tx = some w → u64 b 4 ≤ ownId → w.mode ≠ 1 →
      exec (.swapReqReceived d b) s =
        .next (s.setGleed d { s.gleed d with tx := none, rx := some (swapOf b), again := some w.lane }))
  ∧ (∀ s d w, 4 ≤ d → d < 8 → (s.gleed d).rx = some w → s.rxChan d w.lane ≠ w.dest →
      exec (.swapToVerified d true) s = .next (State.sendSwap (s.setRx d w.lane w.dest) d 0xA7 w))
  ∧ (∀ s d w, 4 ≤ d → d < 8 → (s.gleed d).rx = some w →
      exec (.swapToVerified d false) s = .next (State.modGleed (s.dropSwap d (some w)) d fun g => { g with rx := none }))
  ∧ (∀ s d b w, 4 ≤ d → d < 8 → (s.gleed d).tx = some w → swapGood d 0xA7 b = true → sameSwap (swapOf b) w = true →
      exec (.swapAckReceived d b) s = .next (s.swapDone d w))
  ∧ (∀ s d b w t, 4 ≤ d → d < 6 → (s.gleed d).rx = some w → swapGood d 0xA8 b = true → sameSwap (swapOf b) w = true →
      t = s.modGleed d (fun g => { g with rx := none }) → exec (.swapDoneReceived d b) s = .next (State.swapNext (t.tryQuad d w) d))
  ∧ (∀ s d w, 4 ≤ d → d < 8 → (s.gleed d).tx = some w → w.mode ≠ 1 →
      exec (.swapTimeLimit d) s = .next (State.modGleed (s.dropSwap d (some w)) d fun g => { g with tx := none }))
  ∧ (∀ s d c l n, 4 ≤ d → d < 8 → (s.gleed d).cal = none → s.swapFree d = true → s.nextChan d = some c → s.laneOf d c = some l →
      s.bestSpare d = some n → exec (.channelCalVisit d) s =
        .next (State.startSwap (s.modGleed d fun g => { g with visited := c + 1 }) d l n 0 true))
  ∧ (∀ s d c, 4 ≤ d → d < 8 → (s.gleed d).cal = none → s.swapFree d = true → s.nextChan d = some c → s.laneOf d c = none →
      exec (.channelCalVisit d) s =
        .next (State.modGleed (s.setChan d c 2) d fun g => { g with cal := some c, visited := c + 1 }))
  ∧ (∀ s d c b m t, 4 ≤ d → d < 8 → (s.gleed d).cal = some c → t = (if b then s.chanCal d c m else s) →
      exec (.channelCalDone d b m) s =
        .next (State.swapNext (State.modGleed (t.setChan d c (if b then 1 else 3)) d fun g => { g with cal := none }) d))

/-- R245, R247, R257, R258, R261: failed and worn lasers, lost rings, low monitors of every stage with what they read, and lost light
act on their port. -/
def Obligations.LightCommandsComplete : Prop :=
  (∀ s i n w, i < 50 → s.rf (adrGldLaser i) 2 0 ≠ 5 → exec (.laserFailed i n w) s = .next (State.laserFail (s.laserReads i n w) i))
  ∧ (∀ s i n w d c t, i < 46 → s.rf (adrGldLaser i) 2 0 ≠ 5 → laserPort i = (d, c) →
      t = State.laserReads (s.setRf (adrGldLaser i) 2 0 4) i n w → exec (.laserWorn i n w) s =
        .next (State.modGleed (t.eventD 0x2204 i ((t.portOwner d).getD 0xFF) []) d fun g => { g with worn := insNat g.worn c }))
  ∧ (∀ s d c e, (d = 4 ∨ d = 5) → c < 18 → exec (.ringLockLost d c false e) s =
      .next (State.chanFail (State.portEvent (s.setRf (adrGldChanHealth (d - 4) c) 15 8 e) 0x2205 d [c]) d c 3))
  ∧ (∀ s d c e, (d = 4 ∨ d = 5) → c < 18 → exec (.ringLockLost d c true e) s =
      .next (State.rxFail (State.portEvent (s.setRf (adrGldChanHealth (d - 4) c) 15 8 e) 0x2205 d [c]) d c 3))
  ∧ (∀ s d c r t i, 4 ≤ d → d < 8 → c < gldChans (d - 4) → t = s.portEvent 0x2206 d [0, c] → i = gldLaser0 (d - 4) + c →
      exec (.lightMonitorLow d 0 c r) s =
        .next (if t.rf (adrGldLaser i) 2 0 = 5 then t else State.laserFail (t.setRf (adrGldLaser i) 31 16 r) i))
  ∧ (∀ s d n c r t, 4 ≤ d → d < 8 → c < gldChans (d - 4) → (n = 3 ∨ n = 1 ∧ 6 ≤ d) → t = s.portEvent 0x2206 d [n, c] →
      exec (.lightMonitorLow d n c r) s = .next (t.chanFail d c 4))
  ∧ (∀ s d c r t, 6 ≤ d → d < 8 → c < gldChans (d - 4) → t = s.portEvent 0x2206 d [2, c] →
      exec (.lightMonitorLow d 2 c r) s = .next (t.rxFail d c 4))
  ∧ (∀ s d c r t, 4 ≤ d → d < 8 → c < gldChans (d - 4) → t = s.portEvent 0x2206 d [4, c] →
      exec (.lightMonitorLow d 4 c r) s = .next (State.rxLow (t.setRf (adrGldChanHealth (d - 4) c) 31 16 r) d c))
  ∧ (∀ s d c r t, 4 ≤ d → d < 8 → c < gldChans (d - 4) → t = s.portEvent 0x2206 d [5, c] →
      exec (.lightMonitorLow d 5 c r) s = .next (t.linkDown d))
  ∧ (∀ s d, 4 ≤ d → d < 8 → (s.gleed d).apr = false → exec (.signalAbsent d) s =
      .next (State.portEvent (State.modGleed (s.linkDown d) d fun g => { g with apr := true }) 0x220A d []))
  ∧ (∀ s d, 4 ≤ d → d < 8 → (s.gleed d).apr = true → exec (.aprProbeTimer d) s = .next (s.emit (.probe d)))
  ∧ (∀ s d t, 4 ≤ d → d < 8 → (s.gleed d).apr = true → t = s.modGleed d (fun g => { g with apr := false }) →
      exec (.signalRestored d) s = .next (if t.mayTrain d then t.startTraining d else t))
  ∧ (∀ s, s.boot ≠ .off → exec .laserSectionOutOfRange s = .next (s.event 0x2208 0xFF 0xFF))

/-- R267, R271 to R275, R278: TCLK, the RTSYNC pulse and its misses, the rack tick and the ACLK PLL. -/
def Obligations.ClockCommandsComplete : Prop :=
  (∀ s t, s.clk.tclk = false → s.boot ≠ .off →
      t = s.modClk (fun c => { c with tclk := true, running := true, holdover := false }) →
      exec .tclkPresent s = .next (if s.clk.holdover then t.event 0x3002 0 0xFF else t))
  ∧ (∀ s t, s.clk.tclk = true → t = s.modClk (fun c => { c with
        tclk := false, holdover := true, synced := false, misses := 0, pulse := none, ignored := none, sampled := false }) →
      exec .tclkLost s = .next (State.each ((t.bump adrTclkLosses).event 0x3001 0 0xFF) (List.range 8) State.linkDown))
  ∧ (∀ s t, s.clk.running = true → s.clk.tclk = true → s.clk.synced = false → s.clk.rack % tickLen = 0 →
      t = s.modClk (fun c => { c with sampled := true, misses := 0 }) → exec .rtsyncPulse s =
        .next (State.modClk (t.modClk fun k => { k with pulse := some s.clk.cycles, ignored := none }) fun k => { k with synced := true }))
  ∧ (∀ s e t, s.clk.running = true → s.clk.tclk = true → s.clk.synced = true → e = sext 20 (s.clk.rack % tickLen) →
      e.natAbs ≤ 16 → t = s.modClk (fun c => { c with sampled := true, misses := 0 }) → exec .rtsyncPulse s =
        .next (State.pulseActs (t.modClk fun k => { k with pulse := some s.clk.cycles, ignored := none }) e))
  ∧ (∀ s e t, s.clk.running = true → s.clk.tclk = true → s.clk.synced = true → e = sext 20 (s.clk.rack % tickLen) →
      16 < e.natAbs → s.clk.ignored = none → t = s.modClk (fun c => { c with sampled := true, misses := 0 }) →
      exec .rtsyncPulse s = .next ((((t.modClk fun k => { k with ignored := some s.clk.cycles }).setRf adrClkSync 19 0 (twos 20 e)).bump
        adrRtsyncIgnored).event 0x3005 0 0xFF))
  ∧ (∀ s n, s.clk.synced = true → s.clk.sampled = false → n = s.clk.misses + 1 → exec .rtsyncMissDecision s =
      .next (((s.modClk fun c => { c with misses := if n ≥ 4 then 0 else n, synced := decide (n < 4) }).bump adrRtsyncMissed).event
        0x3003 0 0xFF))
  ∧ (∀ s, s.clk.synced = true → s.clk.sampled = true →
      exec .rtsyncMissDecision s = .next (s.modClk fun c => { c with sampled := false }))
  ∧ (∀ s, s.clk.running = true → s.clk.rack % tickLen < 2 → exec .rackTick s = .next s.tick)
  ∧ (∀ s, s.clk.aclkLost = false → s.boot ≠ .off → exec .aclkPllLockLost s =
      .next (State.event (s.modClk fun c => { c with aclkLost := true }) 0x300A 0 0xFF))
  ∧ (∀ s, exec .aclkPllLockRestored s = .next (s.modClk fun c => { c with aclkLost := false }))

/-- R280 to R283: a measurement of a link starts, its requests and the answers to the peer's wait for their slots, its pairs are taken and its window ends with
the offset and the delay of the pair whose round trip is smallest. -/
def Obligations.TimeMeasurementsComplete : Prop :=
  (∀ s d, d < 8 → s.timeUp d = true → s.measure d = none → exec (.timeMeasureStart d) s = .next (s.nextReq d { pkts := [] }))
  ∧ (∀ s d m, s.timeUp d = true → s.measure d = some m → m.next < 8 → exec (.timeReqSend d) s = .next (s.nextReq d m))
  ∧ (∀ s d b t, d < 8 → osGood b = true → u8 b 0 = 0xA9 → s.timeUp d = true → t = s.machineTime % 2 ^ 48 →
      exec (.timeReqReceived d b) s = .next (s.modLink d fun l => { l with timeQ := l.timeQ ++ [.rsp (u8 b 1) t] }))
  ∧ (∀ s d b m t1 r o, d < 8 → osGood b = true → u8 b 0 = 0xAA → s.measure d = some m → tfind m.t1 (u8 b 1) = some t1 →
      r = sext 48 ((s.machineTime % 2 ^ 48 + 2 ^ 48 - t1) % 2 ^ 48) - sext 48 ((u48 b 8 + 2 ^ 48 - u48 b 2) % 2 ^ 48) →
      o = sext 48 ((u48 b 2 + 2 ^ 48 - t1) % 2 ^ 48) - sext 48 ((s.machineTime % 2 ^ 48 + 2 ^ 48 - u48 b 8) % 2 ^ 48) →
      exec (.timeRspReceived d b) s =
        .next (s.setMeasure d { m with t1 := tdel m.t1 (u8 b 1), pairs := m.pairs ++ [(u8 b 1, r, o)] }))
  ∧ (∀ s d m, s.measure d = some m → m.pairs.length < 4 → exec (.timeMeasureEnd d) s =
      .next (State.each (State.portEvent { s with measures := tdel s.measures d } 0x3008 d []) m.pkts fun t k => t.failEv k 0x20 0x3008))
  ∧ (∀ s d m g r o t, d < 4 → s.measure d = some m → 4 ≤ m.pairs.length → bestPair m.pairs = some (g, r, o) →
      t = (State.setReg { s with measures := tdel s.measures d } (adrClkPortOffset d) (wd (twos 32 (5 * o)))).setReg
        (adrClkPortDelay d) (wd (twos 31 (5 * r) + 2 ^ 31)) → (5 * o).natAbs ≤ t.rf adrClkTimeCfg 31 16 →
      exec (.timeMeasureEnd d) s =
        .next (t.each m.pkts fun u k => u.done k (leBytes 4 (twos 32 (5 * o)) ++ leBytes 4 (twos 31 (5 * r)))))

/-! Quench (R422 to R439). -/

/-- R424 to R427, R434, R438: a valve's cycle starts, its phases and limits end, and its faults act, each on its coil. -/
def Obligations.ValveCommandsComplete : Prop :=
  (∀ s v du me o t c, v < 8 → s.valveMs % 100 = 12 * v % 100 → s.aux = true → s.bel.st ≠ .dark → v ≠ 5 →
      o = s.openAt v s.valveMs du me → t = s.setSection v { s.section v with openMs := o } → c = t.closedMs v o → 0 < c →
      exec (.valveCycleStart v du me) s = .next (t.energise v s.valveMs (s.valveMs + c)))
  ∧ (∀ s v du me o t, v < 8 → s.valveMs % 100 = 12 * v % 100 → s.aux = true → s.bel.st ≠ .dark → v ≠ 5 →
      o = s.openAt v s.valveMs du me → t = s.setSection v { s.section v with openMs := o } → t.closedMs v o = 0 →
      exec (.valveCycleStart v du me) s = .next t)
  ∧ (∀ s v c t, v < 8 → (s.valve v).phase = .pullIn → t = s.dip v c → (t.valve v).startAt + t.pullTime v < (t.valve v).endAt →
      exec (.pullTimeEnd v c) s = .next ((t.setValve v { t.valve v with phase := .hold }).emit (.coil v 2)))
  ∧ (∀ s v c t, v < 8 → (s.valve v).phase = .pullIn → t = s.dip v c → (t.valve v).endAt ≤ (t.valve v).startAt + t.pullTime v →
      exec (.pullTimeEnd v c) s = .next (t.release v ((t.valve v).startAt + t.pullTime v)))
  ∧ (∀ s v c t, v < 8 → (s.valve v).phase = .hold → t = s.dip v c →
      exec (.profileEnd v c) s = .next (t.release v (t.valve v).endAt))
  ∧ (∀ s v, v < 8 → (s.valve v).phase = .releaseWait → exec (.releaseWaitEnd v) s = .next (s.waitOver v))
  ∧ (∀ s v, v < 8 → (s.valve v).phase = .forcedOff → exec (.forcedOffEnd v) s = .next (s.waitOver v))
  ∧ (∀ s v, v < 8 → (s.valve v).phase = .pullIn → exec (.pullInLimit v) s =
      .next (State.event ((s.setValve v { s.valve v with phase := .hold }).emit (.coil v 2)) 0x4102 v 0xFF))
  ∧ (∀ s v, v < 8 → ((s.valve v).phase = .pullIn ∨ (s.valve v).phase = .hold) →
      exec (.onTimeLimit v) s = .next (((State.emit (s.setValve v
          { s.valve v with phase := .forcedOff, endAt := (s.valve v).startAt + 4200, pend := none }) (.coil v 0)).bump
        adrForcedReleases).event 0x4101 v 0xFF)
      ∧ exec (.coilFault v) s = .next (State.event ((s.setValve v { s.valve v with phase := .failed, pend := none }).emit (.coil v 0))
        0x4103 v 0xFF)
      ∧ exec (.armatureNoMotion v) s = .next (s.event 0x4104 v 0xFF))

/-- R428, R431, R433, R435 to R438: the forecast and its silence, hints, temperature samples and faults, the step cap, held packets
and calibration visits. -/
def Obligations.HeatCommandsComplete : Prop :=
  (∀ s h m t u, s.boot ≠ .off → s.boot ≠ .rom → s.boot ≠ .recovery → t = State.each (s.each allParts State.dropHints) allSections
        (fun y x => y.setSection x (judgeBin (y.section x) (m.getD x 0))) →
      u = t.each allSections (fun y x =>
        y.setSection x { y.section x with bins := (allSections.map fun z => (List.range 64).map (t.binHeat h z)).getD x [] }) →
      exec (.forecastTick h m) s =
        .next (State.each (u.modQch fun q => { q with silent := false, forecastAt := u.valveMs }) allSections State.runSettle))
  ∧ (∀ s, s.aux = true → exec .forecastSilence s =
      .next (State.each (s.modQch fun h => { h with silent := true }) allSections State.runSettle))
  ∧ (∀ k s x t d u n, Starts s 0x81 k x t → (t.dropHints x.part).load x.part (u32 x.bytes 0x10) (16 * u16 x.bytes 0x14) = (some d, u) →
      n = u.takeHints x.part ((List.range (u16 x.bytes 0x14)).map fun i => slice d (16 * i) 16) 0 →
      exec (.thermalHint k) s = .next (n.2.done k (leBytes 2 n.1)))
  ∧ (∀ s x t ma c, x < 8 → s.aux = true →
      c = [1, 2, 3].map (fun j => if t + 200 ≤ 100 * s.limit x j then min 100 ((s.section x).cool.getD (j - 1) 0 + 1) else 0) →
      exec (.sectionTempSample x t ma) s = .next (State.toLevel ((s.setSection x { s.section x with temp := t, cool := c }).setRf
        (adrQchValveStatus x) 14 3 (min ma 4095)) x (levelAfter (s.reached x t) (s.section x).level c)))
  ∧ (∀ s x t, x < 8 → s.level x ≠ 4 → t = s.event 0x410A x 0xFF → (t.section x).level < 2 →
      exec (.tempSourceFault x) s = .next (t.setSection x { t.section x with level := 4, cool := [] }))
  ∧ (∀ s, exec .throttleStepPeriod s = .next (s.each allSections fun t x => if x == 5 then t
      else t.setSection x { t.section x with
        drop := if (t.section x).level != 0 then min (t.chipSteps - 24) ((t.section x).drop + 2) else (t.section x).drop - 1 }))
  ∧ (∀ s k x a, s.startable k x.opcode = some x → s.pkt k = some x → stopAnvil x = some a → s.stopOn a = true →
      exec (.stopHoldTimeout k) s = .next ((s.failPkt k 0x60).bump adrThermalStops))
  ∧ (∀ s c o tr id x t, s.qch.cal = some x → x < 7 → 8 ≤ c → c ≤ 60 → o ≤ c → 5 ≤ tr → tr ≤ 96 →
      t = s.setReg (adrQchValveCal x) (wd (c + 2 ^ 7 * tr + 2 ^ 14)) → exec (.qchCalibrationDone c o tr id) s =
        .next (State.modQch ((t.setValve x { t.valve x with closing := [c], opening := some o }).setSection x
          { State.section (t.setValve x { t.valve x with closing := [c], opening := some o }) x with idle := id })
          fun h => { h with cal := some (x + 1) }))

/-! Bring-up (R397, R399, R444 to R464, R472). -/

/-- R397, R399, R444 to R455, R472, R504: AUX power, the chip resets, the boot ROM and READY. -/
def Obligations.BringUpCompletes : Prop :=
  (∀ s, s.aux = false → exec .auxRise s = .next s.auxRise)
  ∧ (∀ s, s.aux = true → s.nvs.busy = none → exec .auxFall s = .next { s.auxRise with aux := false })
  ∧ (∀ s o, s.aux = true → s.nvs.busy = some o →
      exec .auxFall s = .next { State.auxRise (s.nvCut o) with aux := false })
  ∧ (∀ s c, s.boot ≠ .off → 2 ≤ c → c ≤ 5 → exec (.chipReset c) s = .next (s.chipReset c))
  ∧ (∀ s, s.boot ≠ .off → exec (.smithWatchdogExpiry 0) s = .next (s.chipReset 3))
  ∧ (∀ s k, s.boot ≠ .off → 1 ≤ k → k ≤ 3 →
      exec (.smithWatchdogExpiry k) s = .next (State.chipReset (s.event 0x6008 k 0xFF) 3))
  ∧ (∀ s, s.boot = .rom → exec (.bootImageLoaded true) s = .next (State.bootImage s.romScan)
      ∧ exec (.bootImageLoaded false) s = .next (State.toRecovery (s.event 0x5006 0 0xFF)))
  ∧ (∀ s f b, s.boot = .recovery → s.nvs.sideImage = some b → exec (.bootImageLoaded f) s =
      .next (State.startFirmware (s.setNvs fun n => { n with sideImage := none, pldm := {} }) b))
  ∧ (∀ s, s.rf adrGlbFaultStatus 20 20 = 0 → s.boot = .stage → s.valvesOpen = false → exec .chipReady s = .next s.goReady)
  ∧ (∀ s, s.rf adrGlbFaultStatus 20 20 = 0 → s.boot = .stage → s.valvesOpen = true →
      exec .chipReady s = .next { s with qch := { s.qch with cal := some 0 }, boot := .calibrating })
  ∧ (∀ s, s.rf adrGlbFaultStatus 20 20 = 0 → s.boot = .calibrating → s.qch.cal = none → exec .chipReady s = .next s.goReady)

/-! Antennation, the recorder, the flash and the sideband. -/

/-- R217 to R222: a HELLO leaves, HELLO and ASSIGN frames are taken from the chip's store, and a silent neighbour is lost. -/
def Obligations.AntennationCompletes : Prop :=
  (∀ s d, s.flitUp d = true → exec (.helloSendTimer d) s =
      .next (State.modLink (s.sendAnt d (s.helloBody d)) d fun l => { l with hello := (l.hello + 1) % 256 }))
  ∧ (∀ s d b x, s.delivered.find? (fun y => y.part == 8 && y.port == d && y.bytes == b) = some x → u8 b 32 = 1 →
      exec (.helloReceived d b) s = .next (State.hello (State.freeFlits { s with delivered := s.delivered.erase x } d x.vc x.flits) d
        (slice b 32 48)))
  ∧ (∀ s d b x, s.delivered.find? (fun y => y.part == 8 && y.port == d && y.bytes == b) = some x → u8 b 32 = 2 →
      exec (.assignReceived d b) s = .next (State.assign (State.freeFlits { s with delivered := s.delivered.erase x } d x.vc x.flits) d
        (slice b 32 48)))
  ∧ (∀ s d n, (s.link d).st = .active → n = s.rf (adrAntPortState d) 1 0 → (n = 1 ∨ n = 2) → exec (.neighbourLostTimer d) s =
      .next (State.portEvent (s.setRf (adrAntPortState d) 1 0 3) 0x2102 d []))

/-- R393, R472, R482 to R492: the oldest event is taken, a bucket is filled, a record and the mark are archived, and the recorder's
packets copy, clear and persist. -/
def Obligations.RecorderCompletes : Prop :=
  (∀ s e q, s.boot ≠ .off → s.evr.queue = e :: q →
      exec .evrEventTaken s = .next (State.record (s.setEvr fun v => { v with queue := q }) e))
  ∧ (∀ s c, exec (.evrTokenRefill c) s = .next (s.setEvr fun v => { v with spent := tset 0 v.spent c (tget 0 v.spent c - 1) }))
  ∧ (∀ s i r, s.boot ≠ .off → s.nvs.running = none → s.nvs.host = none → s.unarchived = some (i, r) →
      exec .archiveRecord s = .next (s.archive i r))
  ∧ (∀ s x, s.boot ≠ .off → s.nvs.running = none → s.unarchived = none → s.evr.persist = some x → s.evr.queue = [] →
      exec .archiveRecord s = .next (s.writeMark x))
  ∧ (∀ k s x t rs, Starts s 0x90 k x t → bitAt (u8 x.bytes 0x14) 0 = true →
      rs = (t.evr.slots.filter fun (i, r) => decide (u16 x.bytes 0x10 ≤ i) && sees x.fn r).take (u16 x.bytes 0x12) →
      rs.length = u16 x.bytes 0x12 → exec (.evrCopy k) s =
        .next (State.done (t.writeHearth x.part (u64 x.bytes 0x18) (rs.flatMap fun (_, r) => recBytes r 0xA5)) k
          (leBytes 2 rs.length ++ leBytes 2 (((rs.getLast?).map (·.1 + 1)).getD (u16 x.bytes 0x10)) ++ leBytes 4
            (State.reg (t.writeHearth x.part (u64 x.bytes 0x18) (rs.flatMap fun (_, r) => recBytes r 0xA5)) adrEvrOverflow).toNat)))
  ∧ (∀ k s x t, Starts s 0x91 k x t → t.clearRefused false = false → exec (.evrClear k) s = .next (t.clearRecorder.done k []))
  ∧ (∀ k s x t, Starts s 0x91 k x t → t.clearRefused false = true → exec (.evrClear k) s = .next (t.failPkt k 0x14))
  ∧ (∀ k s x t, Starts s 0x92 k x t → exec (.evrPersist k) s = .next (t.startPersist 2 [k]))

/-- R394, R457 to R468: the flash packets stage, activate and read, and flash operations end or time out. -/
def Obligations.FlashCommandsComplete : Prop :=
  (∀ k s x t o, Starts s 0xA0 k x t → t.flashBusy = false → t.slotInUse false ≠ some (u8 x.bytes 0x10) →
      u32 x.bytes 0x20 ≤ slotBytesMax false → o = t.readOps 8 (u64 x.bytes 0x18) (u32 x.bytes 0x20) (.firmware k) 0 → o ≠ [] →
      exec (.fwStage k) s =
        .next (State.enq (t.setNvs fun n => { n with stage := some (k, List.replicate (u32 x.bytes 0x20) 0, o.length, 0) }) 8 o))
  ∧ (∀ k s x t o, Starts s 0xA2 k x t → t.flashBusy = false → t.slotInUse true ≠ some (u8 x.bytes 0x10) →
      u32 x.bytes 0x20 ≤ slotBytesMax true → o = t.readOps 8 (u64 x.bytes 0x18) (u32 x.bytes 0x20) (.firmware k) 0 → o ≠ [] →
      exec (.configWrite k) s =
        .next (State.enq (t.setNvs fun n => { n with stage := some (k, List.replicate (u32 x.bytes 0x20) 0, o.length, 0) }) 8 o))
  ∧ (∀ k s x t, Starts s 0xA1 k x t → t.flashBusy = false → t.activateRefused (u8 x.bytes 0x10) = false →
      exec (.fwActivate k) s = .next ((t.activation (u8 x.bytes 0x10)).elim (t.done k []) fun c =>
        t.hostJob ⟨4, k, u8 x.bytes 0x10, t.runningSlot == some (u8 x.bytes 0x10), 0, [], [.desc c], true⟩))
  ∧ (∀ k s x t, Starts s 0xA3 k x t → t.flashBusy = false → exec (.flashRead k) s = .next (State.done
      (t.hostWrite x.part (t.proxied x.part) (u64 x.bytes 0x18) (t.readFlash (u32 x.bytes 0x10) (u32 x.bytes 0x14)) false
        (.input x.part k)) k []))
  ∧ (∀ s h j n c w o, s.nvs.current = some (h, j) → j.ops = .erase n c w :: o →
      exec (.flashOpDone true) s = .next (State.nvLeave (s.eraseSector n) h j o)
      ∧ exec (.flashOpDone false) s = .next (s.eraseFails h j n c w o))
  ∧ (∀ s h j a d o b, s.nvs.current = some (h, j) → j.ops = .prog a d :: o →
      exec (.flashOpDone b) s = .next (State.nvLeave (s.programFlash a d) h j o))
  ∧ (∀ s h j n c w o t, s.nvs.current = some (h, j) → j.ops = .erase n c w :: o → 4 ≤ n →
      t = State.bump (s.nvCut (.erase n c w)) adrFlashFaults →
      exec .flashBusyTimeout s = .next (State.nvFail (t.setNvs fun v => { v with half := insNat v.half n }) h j))
  ∧ (∀ s, s.boot = .ready → exec .calibrationSaveTimer s = .next (s.ownAsk 2))

/-- R452, R455, R466, R467, R469, R538: the sideband's requests are answered, an update moves on and is activated, a debug token is
taken, and a boundary-scan instruction is loaded. The command codes and the layouts are the model's (log entry 29). -/
def Obligations.SidebandCompletes : Prop :=
  (∀ s d t, s.boot ≠ .off → t = { s with side := { s.side with eid := u8 d 1 } } →
      exec (.mctpControlMessage 1 d) s = .next (t.reply (leBytes 1 0 ++ leBytes 1 0 ++ leBytes 1 (u8 d 1) ++ leBytes 1 0)))
  ∧ (∀ s d v, s.boot ≠ .off → s.boot ≠ .recovery → s.sensor (u16 d 0) = some v → u16 d 0 ≠ 17 →
      exec (.pldmMonitorRequest 2 0x11 d) s = .next (s.reply (leBytes 1 0 ++ leBytes 4 v)))
  ∧ (∀ s d v, s.boot ≠ .off → s.boot ≠ .recovery → s.sensor 17 = some v → u16 d 0 = 17 →
      exec (.pldmMonitorRequest 2 0x21 d) s = .next (s.reply (leBytes 1 0 ++ leBytes 4 v)))
  ∧ (∀ s d, s.boot ≠ .off → s.flashBusy = false →
      exec (.pldmUpdateCommand 0x10 d) s = .next (State.answerCode (s.setPldm fun _ => { st := 1 }) 0))
  ∧ (∀ s d, s.boot ≠ .off → s.nvs.pldm.st = 3 → exec (.pldmUpdateCommand 0x15 d) s =
      .next (State.answerCode (s.setPldm fun p => { p with data := (p.data ++ d).take p.size }) 0))
  ∧ (∀ s d, s.boot ≠ .off → s.nvs.pldm.st = 4 → exec (.pldmUpdateCommand 0x17 d) s = .next s.pldmVerify)
  ∧ (∀ s d, s.boot ≠ .off → s.nvs.pldm.st = 5 → s.nvs.host = none → exec (.pldmUpdateCommand 0x18 d) s = .next s.pldmApply)
  ∧ (∀ s, s.boot ≠ .off → s.boot ≠ .recovery → s.nvs.pldm.st = 6 →
      exec .pldmActivateFirmware s = .next (State.chipReset (State.pldmSelect (s.answerCode 0)) 4))
  ∧ (∀ s, s.boot = .recovery → s.nvs.pldm.st = 6 → exec .pldmActivateFirmware s =
      .next (State.answerCode (s.setNvs fun n => { n with sideImage := some s.pldmContent, pldm := {} }) 0))
  ∧ (∀ s a b d, s.boot ≠ .off → s.boot ≠ .recovery → exec (.spdmRequest 0x84 a b d) s =
      .next (State.spdm (s.spdmStart 1) 4 0 0 (leBytes 2 0x100 ++ leBytes 2 0x1200) 0))
  ∧ (∀ s p d, s.boot ≠ .off → s.boot ≠ .recovery → s.side.spdm = 3 → 1 ≤ p → p ≤ 4 →
      exec (.spdmRequest 0xE0 0 p d) s = .next (s.spdm 0x60 0 0 (s.measured p) 0))
  ∧ (∀ s k b, s.boot ≠ .off → s.rf adrSecState 16 16 = 0 → exec (.debugTapToken k b) s = .next (if s.tokenGood k b
        then State.event (s.setRf adrSecState 16 16 1) 0x600A 0 0xFF else s))
  ∧ (∀ s i, s.aux = true → i ≤ 5 → exec (.jtagInstruction i) s =
      .next (State.emit { s with side := { s.side with jtag := i } } (.jtag i (if i = 1 then some idcode else none))))

/-! What commands leave unchanged. -/

/-- R424 to R427, R431, R434, R437, R438: the commands of valves, and those of Quench that stop no work, change nothing beyond
Quench. -/
def Obligations.ValveCommandsFrame : Prop :=
  (∀ v d m, Keeps (.valveCycleStart v d m) QuenchOnly) ∧ (∀ v c, Keeps (.pullTimeEnd v c) QuenchOnly)
  ∧ (∀ v c, Keeps (.profileEnd v c) QuenchOnly) ∧ (∀ v, Keeps (.releaseWaitEnd v) QuenchOnly)
  ∧ (∀ v, Keeps (.forcedOffEnd v) QuenchOnly) ∧ (∀ v, Keeps (.pullInLimit v) QuenchOnly)
  ∧ (∀ v, Keeps (.onTimeLimit v) QuenchOnly) ∧ (∀ v, Keeps (.coilFault v) QuenchOnly)
  ∧ (∀ v, Keeps (.armatureNoMotion v) QuenchOnly) ∧ Keeps .forecastSilence QuenchOnly
  ∧ (∀ x, Keeps (.tempSourceFault x) QuenchOnly) ∧ Keeps .throttleStepPeriod QuenchOnly

/-- R184, R192, R198 to R204, R208: training, the flit slot, acknowledgement and the handshake of a link change nothing beyond that
link, what its port keeps, its measurement, and what the book of its block counts. Left to their own statements are the ends of a
measurement's packets (a limit of step 5 or 6), the departure of a frame, which may set others going, and a pause whose PAUSE has come
already, which may take the link down. -/
def Obligations.LinkCommandsFrame : Prop :=
  (∀ d m s t, d < 8 → (s.link d).step = 1 → exec (.trainingStepTimeout d m) s = .next t → LinkOnly d s t)
  ∧ (∀ d, d < 8 → Keeps (.trainingLockAchieved d) (LinkOnly d))
  ∧ (∀ d s t, d < 8 → (s.link d).txq = [] → exec (.flitSlot d) s = .next t → LinkOnly d s t)
  ∧ (∀ d, d < 8 → Keeps (.ackReportDue d) (LinkOnly d)) ∧ (∀ d, d < 8 → Keeps (.nakRepeatTimer d) (LinkOnly d))
  ∧ (∀ d e, d < 8 → Keeps (.replayTimerExpiry d e) (LinkOnly d))
  ∧ (∀ d b s t, d < 8 → (s.link d).early = false → exec (.linkReqReceived d b) s = .next t → LinkOnly d s t)
  ∧ (∀ d b s t, d < 8 → (s.link d).early = false → exec (.linkAckReceived d b) s = .next t → LinkOnly d s t)
  ∧ (∀ d, d < 8 → Keeps (.linkReqResendTimer d) (LinkOnly d)) ∧ (∀ d, d < 8 → Keeps (.quadsReady d) (LinkOnly d))
  ∧ (∀ d b, d < 8 → Keeps (.resumeReceived d b) (LinkOnly d)) ∧ (∀ d, d < 8 → Keeps (.failedQuadRetrain d) (LinkOnly d))
  ∧ (∀ d k, d < 8 → Keeps (.quadPrbsPassed d k) (LinkOnly d))

/-- R267, R271 to R275, R278: TCLK's return, the RTSYNC pulse and its misses, the rack tick and the ACLK PLL's lock change nothing
beyond the clock. -/
def Obligations.ClockCommandsFrame : Prop :=
  Keeps .tclkPresent ClockOnly ∧ Keeps .rtsyncPulse ClockOnly ∧ Keeps .rtsyncMissDecision ClockOnly
  ∧ Keeps .rackTick ClockOnly ∧ Keeps .aclkPllLockLost ClockOnly ∧ Keeps .aclkPllLockRestored ClockOnly

/-- R143 to R148, R343, R344, R363: a write of a doorbell, of a ring's control or of a semaphore changes nothing of another
partition, and nothing of Hearth; a write that is refused does not either. -/
def Obligations.RingAndSemaphoreFrame : Prop :=
  (∀ fn p i v, Keeps (.sqDoorbell fn p i v) (PartOnly p)) ∧ (∀ fn p j v, Keeps (.cqDoorbell fn p j v) (PartOnly p))
  ∧ (∀ fn p i, Keeps (.sqStop fn p i) (PartOnly p)) ∧ (∀ fn p i, Keeps (.sqRestart fn p i) (PartOnly p))
  ∧ (∀ fn p i v, Keeps (.semValueWrite fn p i v) (PartOnly p)) ∧ (∀ fn p i v, Keeps (.semSignalWrite fn p i v) (PartOnly p))

/-- R469, R538: MCTP control, PLDM monitoring, SPDM and boundary-scan requests change nothing but the sideband's own state. The
command codes are the model's (log entry 29). -/
def Obligations.SidebandFrame : Prop :=
  (∀ c d, Keeps (.mctpControlMessage c d) SidebandOnly) ∧ (∀ y c d, Keeps (.pldmMonitorRequest y c d) SidebandOnly)
  ∧ (∀ c a b d, Keeps (.spdmRequest c a b d) SidebandOnly) ∧ (∀ i, Keeps (.jtagInstruction i) SidebandOnly)

/-- R133, R294, R303: a write of the PF through BAR2 that waits for nothing, and whose partial words' internal reads find no
uncorrectable error, stores its bytes at their physical addresses, and every other byte of Hearth reads as before. -/
def Obligations.PfHearthWrite : Prop :=
  ∀ s a d e, d ≠ [] → a + d.length ≤ 128 * granBytes → s.barReset 0 a d.length = none → (∀ x ∈ e, x.2 = false) →
    s.hostWaits (.bar2Write 0 a d e) = false →
    ∃ t, exec (.hostBar2Write 0 a d e) s = .next t
      ∧ ∀ y, t.byteAt y = if a ≤ y ∧ y < a + d.length then d.getD (y - a) 0 else s.byteAt y

/-! Rules of single registers. -/

/-- R526: a 4-byte write that names a register of a RESETTING partition's instances, from the PF or from its VF, is dropped and
records event 0x0206; a write of PRT_CTRL follows its own rules. One that must wait (R139, R303) joins the host's waiting requests, and
is dropped so when it acts. -/
def Obligations.WritesWhileResettingDrop : Prop :=
  (∀ s fn o a v d i j p, s.fnExists fn = true → o % 4 = 0 → s.place fn o = .reg a → locate a = some (d, i, j) →
      instPart d i = some p → s.inReset p = true → d.name ≠ "PRT_CTRL" → s.hostHeld = false → s.granuleBusy a = false →
      exec (.registerWrite fn o 4 v) s = .next (s.event 0x0206 p p))
  ∧ (∀ s fn o a v d i j p, s.fnExists fn = true → o % 4 = 0 → s.place fn o = .reg a → locate a = some (d, i, j) →
      instPart d i = some p → s.inReset p = true → d.name = "PRT_CTRL" → s.hostHeld = false → s.granuleBusy a = false →
      exec (.registerWrite fn o 4 v) s = .next (s.applyWrite fn d i j a (v % 2 ^ 32)))
  ∧ (∀ s fn o v, s.fnExists fn = true → o % 4 = 0 → v < 2 ^ 32 → s.hostWaits (.wordWrite fn o v) = true →
      exec (.registerWrite fn o 4 v) s =
        .next { s with hrt := { s.hrt with hostWait := s.hrt.hostWait ++ [.wordWrite fn o v] } })
  ∧ (∀ (s : State) fn o a v d i j p, s.place fn o = .reg a → locate a = some (d, i, j) → instPart d i = some p → s.inReset p = true →
      d.name ≠ "PRT_CTRL" → s.hostAct (.wordWrite fn o v) = s.event 0x0206 p p)

/-- R146, R148: a write of SEM_VALUE acts only without a waiter, and a write of SEM_SIGNAL signals by a COUNT from 1 to 255; any
other is ignored and records event 0x1108. A signal that would carry the value above 0xFFFF_FFFF leaves it there, sets OVERFLOW
and records event 0x1105. -/
def Obligations.SemaphoreRegisterWrites : Prop :=
  (∀ s fn p i v, Reaches s fn p → i < 256 → v < 2 ^ 32 → (s.sem p i).waiters = [] →
      exec (.semValueWrite fn p i v) s = .next (s.semWrite p i v) ∧ (State.sem (s.semWrite p i v) p i).value = v)
  ∧ (∀ s fn p i v, Reaches s fn p → i < 256 → v < 2 ^ 32 → (s.sem p i).waiters ≠ [] →
      exec (.semValueWrite fn p i v) s = .next (s.event 0x1108 0 p))
  ∧ (∀ s fn p i v, Reaches s fn p → i < 256 → 1 ≤ v → v ≤ 255 → exec (.semSignalWrite fn p i v) s = .next (s.semSignal p i v))
  ∧ (∀ s fn p i v, Reaches s fn p → i < 256 → v < 2 ^ 32 → (v % 256 = 0 ∨ 255 < v) →
      exec (.semSignalWrite fn p i v) s = .next (s.event 0x1108 0 p))
  ∧ (∀ s fn p i v, Reaches s fn p → i < 256 → 1 ≤ v → v ≤ 255 → (s.sem p i).waiters = [] → (s.sem p i).value + v ≤ 0xFFFFFFFF →
      ∃ t, exec (.semSignalWrite fn p i v) s = .next t ∧ (t.sem p i).value = (s.sem p i).value + v
        ∧ (t.sem p i).ovf = (s.sem p i).ovf ∧ t.evr = s.evr ∧ t.regs = s.regs)
  ∧ (∀ s fn p i v, Reaches s fn p → i < 256 → 1 ≤ v → v ≤ 255 → (s.sem p i).waiters = [] → 0xFFFFFFFF < (s.sem p i).value + v →
      ∃ t, exec (.semSignalWrite fn p i v) s = .next t ∧ (t.sem p i).value = 0xFFFFFFFF ∧ (t.sem p i).ovf = true
        ∧ t.evr = (s.event 0x1105 i p).evr ∧ t.regs = (s.event 0x1105 i p).regs)

/-- R449: while READY is 0, a write of PRT_CTRL.LOCK by the PF or by the partition's VF is ignored and records event 0x0202; behind an
earlier posted write it waits (R303), and does so when it acts. -/
def Obligations.LockNeedsReady : Prop :=
  (∀ s fn p, p < 8 → s.fnExists fn = true → (fn = 0 ∨ fn = p + 1) → s.hostHeld = false → s.rf adrGlbStatus 0 0 = 0 →
      exec (.prtLock fn p) s = .next (s.event 0x0202 p p))
  ∧ (∀ s fn p, p < 8 → s.fnExists fn = true → (fn = 0 ∨ fn = p + 1) → s.hostHeld = true → exec (.prtLock fn p) s =
      .next { s with hrt := { s.hrt with hostWait := s.hrt.hostWait ++ [.regWrite fn (adrPrtCtrl p) 1] } })
  ∧ (∀ (s : State) fn p, p < 8 → (fn = 0 ∨ fn = p + 1) → s.rf adrGlbStatus 0 0 = 0 →
      s.hostAct (.regWrite fn (adrPrtCtrl p) 1) = s.event 0x0202 p p)

/-- R329: a LOCK bit that reads 0 is set, once the chip is READY, when the partition is CONFIGURED, owns a granule, owns those that
its slots and park entries need, has 50 W for its anvils and a slice other than 0xFFF; otherwise event 0x0202 carries the first
condition that fails. Another function's write does nothing (R517), and neither does a write of a bit that reads 1 (R520). -/
def Obligations.LockConditions : Prop :=
  (∀ s fn p n, Reaches s fn p → s.hasLock p = false → s.rf adrGlbStatus 0 0 = 1 → n = (s.granules p).length → s.partState p = 1 →
      1 ≤ n → backing (s.reg (adrSeqSlotCfg p)).toNat ≤ n →
      ((s.reg (adrPrtAnvils p)).toNat = 0 ∨ 50 ≤ (s.reg (adrPrtPowerShare p)).toNat) → s.sliceOf p ≠ 0xFFF →
      ∃ t, exec (.prtLock fn p) s = .next t ∧ t.hasLock p = true)
  ∧ (∀ s fn p, Reaches s fn p → s.hasLock p = false → s.rf adrGlbStatus 0 0 = 1 → s.partState p ≠ 1 →
      exec (.prtLock fn p) s = .next (s.eventD 0x0202 p p [1]))
  ∧ (∀ s fn p, Reaches s fn p → s.hasLock p = false → s.rf adrGlbStatus 0 0 = 1 → s.partState p = 1 → s.granules p = [] →
      exec (.prtLock fn p) s = .next (s.eventD 0x0202 p p [2]))
  ∧ (∀ s fn p, Reaches s fn p → s.hasLock p = false → s.rf adrGlbStatus 0 0 = 1 → s.partState p = 1 → s.granules p ≠ [] →
      (s.granules p).length < backing (s.reg (adrSeqSlotCfg p)).toNat → exec (.prtLock fn p) s = .next (s.eventD 0x0202 p p [3]))
  ∧ (∀ s fn p, Reaches s fn p → s.hasLock p = false → s.rf adrGlbStatus 0 0 = 1 → s.partState p = 1 → s.granules p ≠ [] →
      backing (s.reg (adrSeqSlotCfg p)).toNat ≤ (s.granules p).length → (s.reg (adrPrtAnvils p)).toNat ≠ 0 →
      (s.reg (adrPrtPowerShare p)).toNat < 50 → exec (.prtLock fn p) s = .next (s.eventD 0x0202 p p [4]))
  ∧ (∀ s fn p, Reaches s fn p → s.hasLock p = false → s.rf adrGlbStatus 0 0 = 1 → s.partState p = 1 → s.granules p ≠ [] →
      backing (s.reg (adrSeqSlotCfg p)).toNat ≤ (s.granules p).length →
      ((s.reg (adrPrtAnvils p)).toNat = 0 ∨ 50 ≤ (s.reg (adrPrtPowerShare p)).toNat) → s.sliceOf p = 0xFFF →
      exec (.prtLock fn p) s = .next (s.eventD 0x0202 p p [5]))
  ∧ (∀ s fn p, Reaches s fn p → s.hasLock p = true → s.rf adrGlbStatus 0 0 = 1 → exec (.prtLock fn p) s = .next s)
  ∧ (∀ s fn p, fn ≠ 0 → fn ≠ p + 1 → exec (.prtLock fn p) s = .next s)

/-! The whole machine. -/

/-- A step runs the command at the front of the queue on the machine with the queue's rest, and every command answers a next state;
on an empty queue one cycle of the OSC domain passes (the model's choice, log entry 2). -/
def Obligations.StepTakesTheFront : Prop :=
  (∀ (s : State) c q, step { s with pending := c :: q } = exec c { s with pending := q })
  ∧ (∀ s : State, step { s with pending := [] } = .next (State.idle { s with pending := [] }))
  ∧ (∀ c s, ∃ t, exec c s = .next t)

/-- R139, R397, R448, R472, R524: after an AUX rise every register reads its reset word, Hearth is zero, no partition is locked,
Bellows is DARK, nothing is recorded or queued, and the machine's stores are in their canonical forms. -/
def Obligations.ResetState : Prop :=
  State.reset.Inv ∧ (∀ a, State.reset.reg a = resetWord a) ∧ (∀ a, State.reset.byteAt a = 0#8)
  ∧ (∀ p, (State.reset.part p).st = .unlocked) ∧ State.reset.bel.st = .dark ∧ State.reset.boot = .off ∧ State.reset.evr.queue = []
  ∧ State.reset.evr.slots = [] ∧ State.reset.pkts = [] ∧ State.reset.pending = [] ∧ State.reset.out = []

/-- R451, R454: whatever a command does, the queue and the model's clock stand still, outputs are only appended, free values and
packet handles are not used twice, the stores stay in canonical form, the SVN floor never falls and no revocation is undone. -/
def Obligations.EveryCommandFollows : Prop :=
  ∀ c s t, exec c s = .next t →
    t.pending = s.pending ∧ t.osc = s.osc ∧ s.freeCtr ≤ t.freeCtr ∧ s.nextPkt ≤ t.nextPkt ∧ s.out <+: t.out
    ∧ (s.Inv → t.Inv) ∧ s.nvs.svn ≤ t.nvs.svn ∧ ∀ i, s.nvs.revoked.testBit i = true → t.nvs.revoked.testBit i = true

/-- From every state whose Hearth, flash and registers are in canonical form, a step leads to such a state. -/
def Obligations.StepKeepsInv : Prop := ∀ s t, s.Inv → step s = .next t → t.Inv
end

