-- ==== Sys2Proof/Laws/Bits.lean ====
section
/-! SUPPORT. Reading bit fields of numbers with a field replaced. -/
namespace Sys2Proof.Machine

/-- A number is its part above a bit field, the field and its part below it. -/
theorem bits_split (w hi lo : Nat) (h : lo ≤ hi + 1) :
    w = w / 2 ^ (hi + 1) * 2 ^ (hi + 1) + bits w hi lo * 2 ^ lo + w % 2 ^ lo := by
  obtain ⟨n, hn⟩ := Nat.exists_eq_add_of_le h
  have e : hi + 1 - lo = n := by omega
  unfold bits
  rw [e, hn, Nat.pow_add]
  have h1 := Nat.div_add_mod w (2 ^ lo)
  have h2 := Nat.div_add_mod (w / 2 ^ lo) (2 ^ n)
  rw [Nat.div_div_eq_div_mul] at h2
  calc w = 2 ^ lo * (w / 2 ^ lo) + w % 2 ^ lo := h1.symm
    _ = 2 ^ lo * (2 ^ n * (w / (2 ^ lo * 2 ^ n)) + w / 2 ^ lo % 2 ^ n) + w % 2 ^ lo := by rw [h2]
    _ = _ := by ring

/-- A number with a field replaced is the same outside the field. -/
theorem putBits_eq (w hi lo v : Nat) (h : lo ≤ hi + 1) :
    putBits w hi lo v = w / 2 ^ (hi + 1) * 2 ^ (hi + 1) + v % 2 ^ (hi + 1 - lo) * 2 ^ lo + w % 2 ^ lo := by
  have := bits_split w hi lo h
  unfold putBits
  omega

theorem bits_lt (w hi lo : Nat) : bits w hi lo < 2 ^ (hi + 1 - lo) := Nat.mod_lt _ (by positivity)

/-- Reading the field that was replaced. -/
theorem bits_putBits_same (w hi lo v : Nat) (h : lo ≤ hi + 1) :
    bits (putBits w hi lo v) hi lo = v % 2 ^ (hi + 1 - lo) := by
  rw [putBits_eq w hi lo v h]
  obtain ⟨n, hn⟩ := Nat.exists_eq_add_of_le h
  have e : hi + 1 - lo = n := by omega
  unfold bits
  rw [e, hn, Nat.pow_add]
  have e2 : w / (2 ^ lo * 2 ^ n) * (2 ^ lo * 2 ^ n) + v % 2 ^ n * 2 ^ lo + w % 2 ^ lo
      = w % 2 ^ lo + 2 ^ lo * (v % 2 ^ n + 2 ^ n * (w / (2 ^ lo * 2 ^ n))) := by ring
  rw [e2, Nat.add_mul_div_left _ _ (by positivity), Nat.div_eq_of_lt (Nat.mod_lt _ (by positivity)), Nat.zero_add,
    Nat.add_mul_mod_self_left, Nat.mod_mod]

/-- Reading a field below the one that was replaced. -/
theorem bits_putBits_below (w hi lo v hi' lo' : Nat) (h : lo ≤ hi + 1) (hb : hi' < lo) :
    bits (putBits w hi lo v) hi' lo' = bits w hi' lo' := by
  by_cases hl : lo' ≤ hi' + 1
  · have hd : 2 ^ (hi' + 1) ∣ 2 ^ lo := Nat.pow_dvd_pow 2 (by omega)
    have hd2 : 2 ^ (hi' + 1) ∣ 2 ^ (hi + 1) := Nat.pow_dvd_pow 2 (by omega)
    have key : ∀ x, bits x hi' lo' = x % 2 ^ (hi' + 1) / 2 ^ lo' := by
      intro x
      unfold bits
      have e : 2 ^ (hi' + 1) = 2 ^ lo' * 2 ^ (hi' + 1 - lo') := by rw [← Nat.pow_add]; congr 1; omega
      rw [e, Nat.mod_mul_right_div_self]
    rw [key, key, putBits_eq w hi lo v h]
    congr 1
    obtain ⟨c, hc⟩ := hd
    obtain ⟨d, hd'⟩ := hd2
    conv_rhs => rw [← Nat.mod_mod_of_dvd w (Dvd.intro c hc.symm)]
    rw [hd']
    have : w / (2 ^ (hi' + 1) * d) * (2 ^ (hi' + 1) * d) + v % 2 ^ (hi + 1 - lo) * 2 ^ lo + w % 2 ^ lo
        = w % 2 ^ lo + 2 ^ (hi' + 1) * (w / (2 ^ (hi' + 1) * d) * d + v % 2 ^ (hi + 1 - lo) * c) := by
      conv_lhs => rw [show v % 2 ^ (hi + 1 - lo) * 2 ^ lo = v % 2 ^ (hi + 1 - lo) * (2 ^ (hi' + 1) * c) by rw [← hc]]
      ring
    rw [this, Nat.add_mul_mod_self_left]
  · have : hi' + 1 - lo' = 0 := by omega
    simp [bits, this, Nat.mod_one]

/-- Reading a field above the one that was replaced. -/
theorem bits_putBits_above (w hi lo v hi' lo' : Nat) (h : lo ≤ hi + 1) (hb : hi < lo') :
    bits (putBits w hi lo v) hi' lo' = bits w hi' lo' := by
  have key : ∀ x, x / 2 ^ lo' = x / 2 ^ (hi + 1) / 2 ^ (lo' - (hi + 1)) := by
    intro x
    rw [Nat.div_div_eq_div_mul, ← Nat.pow_add]
    congr 2; omega
  unfold bits
  rw [key, key w, putBits_eq w hi lo v h]
  congr 2
  have hlt : v % 2 ^ (hi + 1 - lo) * 2 ^ lo + w % 2 ^ lo < 2 ^ (hi + 1) := by
    have a := Nat.mod_lt v (show 0 < 2 ^ (hi + 1 - lo) by positivity)
    have b := Nat.mod_lt w (show 0 < 2 ^ lo by positivity)
    have e : 2 ^ (hi + 1) = 2 ^ (hi + 1 - lo) * 2 ^ lo := by rw [← Nat.pow_add]; congr 1; omega
    have m := Nat.mul_le_mul_right (2 ^ lo) (Nat.succ_le_of_lt a)
    rw [Nat.succ_mul] at m
    rw [e]; omega
  rw [Nat.add_assoc, Nat.add_comm, Nat.add_mul_div_right _ _ (by positivity), Nat.div_eq_of_lt hlt, Nat.zero_add]

/-- A single bit as a field. -/
theorem bitAt_bits (w i : Nat) : bitAt w i = (bits w i i == 1) := by simp [bitAt, bits]

theorem bits_mod (w n hi lo : Nat) (h : hi < n) : bits (w % 2 ^ n) hi lo = bits w hi lo := by
  by_cases hl : lo ≤ hi + 1
  · have key : ∀ x, bits x hi lo = x % 2 ^ (hi + 1) / 2 ^ lo := by
      intro x
      unfold bits
      have e : 2 ^ (hi + 1) = 2 ^ lo * 2 ^ (hi + 1 - lo) := by rw [← Nat.pow_add]; congr 1; omega
      rw [e, Nat.mod_mul_right_div_self]
    rw [key, key, Nat.mod_mod_of_dvd _ (Nat.pow_dvd_pow 2 (by omega))]
  · have : hi + 1 - lo = 0 := by omega
    simp [bits, this, Nat.mod_one]

/-- Writing a field with its own value. -/
theorem putBits_self (w hi lo : Nat) (h : lo ≤ hi + 1) : putBits w hi lo (bits w hi lo) = w := by
  rw [putBits_eq _ _ _ _ h, Nat.mod_eq_of_lt (bits_lt w hi lo)]
  exact (bits_split w hi lo h).symm

end Sys2Proof.Machine
end

