-- ==== Sys2Proof/Laws/Tables.lean ====
section
/-! SUPPORT. Tables: read after write, and the canonical form that every write keeps. -/
namespace Sys2Proof.Machine

variable {α : Type}

theorem tfind_tput_same (t : Tbl α) (i : Nat) (x : α) : tfind (tput t i x) i = some x := by
  induction t with
  | nil => simp [tput, tfind]
  | cons e t ih =>
    obtain ⟨k, v⟩ := e
    simp only [tput]
    split
    · simp [tfind]
    · split
      · rename_i h; simp [tfind, h]
      · rename_i h1 h2
        have : k ≠ i := fun e => h2 e.symm
        simp [tfind, this, ih]

theorem tfind_tput_other (t : Tbl α) (i j : Nat) (x : α) (h : j ≠ i) : tfind (tput t i x) j = tfind t j := by
  induction t with
  | nil => simp [tput, tfind, h.symm]
  | cons e t ih =>
    obtain ⟨k, v⟩ := e
    simp only [tput]
    split
    · simp [tfind, h.symm]
    · split
      · rename_i e; subst e; simp [tfind, h.symm]
      · simp [tfind, ih]

theorem tfind_tdel_same (t : Tbl α) (i : Nat) : tfind (tdel t i) i = none := by
  induction t with
  | nil => rfl
  | cons e t ih =>
    obtain ⟨k, v⟩ := e
    simp only [tdel]
    split
    · exact ih
    · rename_i h; simp [tfind, h, ih]

theorem tfind_tdel_other (t : Tbl α) (i j : Nat) (h : j ≠ i) : tfind (tdel t i) j = tfind t j := by
  induction t with
  | nil => rfl
  | cons e t ih =>
    obtain ⟨k, v⟩ := e
    simp only [tdel]
    split
    · rename_i e; subst e; simp [tfind, h.symm, ih]
    · simp [tfind, ih]

/-- Reading the entry just set gives the value set. -/
@[simp] theorem tget_tset_same [DecidableEq α] (d : α) (t : Tbl α) (i : Nat) (x : α) : tget d (tset d t i x) i = x := by
  unfold tset tget
  split
  · rename_i h; simp [tfind_tdel_same, h]
  · simp [tfind_tput_same]

/-- Setting an entry leaves every other one alone. -/
theorem tget_tset_other [DecidableEq α] (d d' : α) (t : Tbl α) (i j : Nat) (x : α) (h : j ≠ i) :
    tget d (tset d' t i x) j = tget d t j := by
  unfold tset tget
  split
  · rw [tfind_tdel_other _ _ _ h]
  · rw [tfind_tput_other _ _ _ _ h]

/-! Canonical forms. -/

theorem twfFrom_mono {ok : Nat → α → Bool} {t : Tbl α} {lo hi : Nat} (h : lo ≤ hi) (w : twfFrom ok hi t = true) :
    twfFrom ok lo t = true := by
  cases t with
  | nil => rfl
  | cons e t =>
    obtain ⟨k, v⟩ := e
    simp only [twfFrom, Bool.and_eq_true, decide_eq_true_eq] at w ⊢
    exact ⟨⟨by omega, w.1.2⟩, w.2⟩

theorem twfFrom_tdel {ok : Nat → α → Bool} (t : Tbl α) (lo i : Nat) (w : twfFrom ok lo t = true) :
    twfFrom ok lo (tdel t i) = true := by
  induction t generalizing lo with
  | nil => rfl
  | cons e t ih =>
    obtain ⟨k, v⟩ := e
    simp only [twfFrom, Bool.and_eq_true, decide_eq_true_eq] at w
    simp only [tdel]
    split
    · exact twfFrom_mono (by omega) (ih _ w.2)
    · simp only [twfFrom, Bool.and_eq_true, decide_eq_true_eq]
      exact ⟨w.1, ih _ w.2⟩

theorem twfFrom_tput {ok : Nat → α → Bool} (t : Tbl α) (lo i : Nat) (x : α) (hl : lo ≤ i) (hx : ok i x = true)
    (w : twfFrom ok lo t = true) : twfFrom ok lo (tput t i x) = true := by
  induction t generalizing lo with
  | nil => simp [tput, twfFrom, hl, hx]
  | cons e t ih =>
    obtain ⟨k, v⟩ := e
    simp only [twfFrom, Bool.and_eq_true, decide_eq_true_eq] at w
    simp only [tput]
    split
    · rename_i h
      simp only [twfFrom, Bool.and_eq_true, decide_eq_true_eq]
      exact ⟨⟨hl, hx⟩, ⟨by omega, w.1.2⟩, w.2⟩
    · split
      · rename_i e; subst e
        simp only [twfFrom, Bool.and_eq_true, decide_eq_true_eq]
        exact ⟨⟨w.1.1, hx⟩, w.2⟩
      · simp only [twfFrom, Bool.and_eq_true, decide_eq_true_eq]
        exact ⟨w.1, ih _ (by omega) w.2⟩

/-- Setting an entry keeps the canonical form. -/
theorem twf_tset [DecidableEq α] {ok : Nat → α → Bool} (d : α) (t : Tbl α) (i : Nat) (x : α) (hx : x ≠ d → ok i x = true)
    (w : twf ok t = true) : twf ok (tset d t i x) = true := by
  unfold tset
  split
  · exact twfFrom_tdel t 0 i w
  · rename_i h; exact twfFrom_tput t 0 i x (Nat.zero_le _) (hx h) w

theorem twfFrom_filter {ok : Nat → α → Bool} (t : Tbl α) (lo : Nat) (p : Nat × α → Bool) (w : twfFrom ok lo t = true) :
    twfFrom ok lo (t.filter p) = true := by
  induction t generalizing lo with
  | nil => rfl
  | cons e t ih =>
    obtain ⟨k, v⟩ := e
    simp only [twfFrom, Bool.and_eq_true, decide_eq_true_eq] at w
    simp only [List.filter_cons]
    split
    · simp only [twfFrom, Bool.and_eq_true, decide_eq_true_eq]
      exact ⟨w.1, ih _ w.2⟩
    · exact twfFrom_mono (by omega) (ih _ w.2)

/-- Dropping entries keeps the canonical form. -/
theorem twf_filter {ok : Nat → α → Bool} (t : Tbl α) (p : Nat × α → Bool) (w : twf ok t = true) : twf ok (t.filter p) = true :=
  twfFrom_filter t 0 p w

theorem twfFrom_mapFilter (ok : Nat → α → Bool) (f : Nat → α → α) (t : Tbl α) (lo : Nat) (w : twfFrom ok lo t = true) :
    twfFrom ok lo ((t.map fun e => (e.1, f e.1 e.2)).filter fun e => ok e.1 e.2) = true := by
  induction t generalizing lo with
  | nil => rfl
  | cons e t ih =>
    obtain ⟨k, v⟩ := e
    simp only [twfFrom, Bool.and_eq_true, decide_eq_true_eq] at w
    simp only [List.map_cons, List.filter_cons]
    split
    · rename_i h
      simp only [twfFrom, Bool.and_eq_true, decide_eq_true_eq]
      exact ⟨⟨w.1.1, h⟩, ih _ w.2⟩
    · exact twfFrom_mono (by omega) (ih _ w.2)

/-! Hearth, flash and registers. -/

theorem Memory.wf_tset {m : List Host.Cell} (a : Nat) (b : Byte) (w : Memory.wf m = true) : Memory.wf (tset 0#8 m a b) = true :=
  twf_tset _ _ _ _ (by simp) w

/-- A write of bytes keeps Hearth in its canonical form. -/
theorem Memory.wf_memWrite (bs : List Byte) {m : List Host.Cell} (a : Nat) (w : Memory.wf m = true) :
    Memory.wf (memWrite m a bs) = true := by
  induction bs generalizing m a with
  | nil => exact w
  | cons b bs ih => exact ih _ (Memory.wf_tset a b w)

/-- Zeroing a granule, or any other removal, keeps Hearth in its canonical form. -/
theorem Memory.wf_filter {m : List Host.Cell} (p : Host.Cell → Bool) (w : Memory.wf m = true) : Memory.wf (m.filter p) = true :=
  twf_filter m p w

theorem Flash.wf_tset {m : List Host.Cell} (a : Nat) (b : Byte) (w : Flash.wf m = true) : Flash.wf (tset 0xFF#8 m a b) = true :=
  twf_tset _ _ _ _ (by simp) w

/-- Programming keeps the flash in its canonical form. -/
theorem Flash.wf_progBytes (bs : List Byte) {m : List Host.Cell} (a : Nat) (w : Flash.wf m = true) :
    Flash.wf (progBytes m a bs) = true := by
  induction bs generalizing m a with
  | nil => exact w
  | cons b bs ih => exact ih _ (Flash.wf_tset a _ w)

theorem Flash.wf_filter {m : List Host.Cell} (p : Host.Cell → Bool) (w : Flash.wf m = true) : Flash.wf (m.filter p) = true :=
  twf_filter m p w

/-- A register write keeps the stored registers in their canonical form. -/
theorem Regs.wf_tset {t : Tbl Word} (a : Nat) (x : Word) (w : Regs.wf t = true) : Regs.wf (tset (resetWord a) t a x) = true :=
  twf_tset _ _ _ _ (by simp) w

/-- A reset of fields keeps the stored registers in their canonical form. -/
theorem Regs.wf_resetRegs (dom : Dom) (sel : RegDesc → Nat → Nat → Bool) {t : Tbl Word} (w : Regs.wf t = true) :
    Regs.wf (resetRegs dom sel t) = true :=
  twfFrom_mapFilter (fun a w => w != resetWord a) (resetEntry dom sel) t 0 w

/-- A chip reset keeps the stored registers in their canonical form. -/
theorem Regs.wf_clearRegs {t : Tbl Word} (w : Regs.wf t = true) : Regs.wf (clearRegs t) = true := by
  unfold clearRegs
  simp only [List.foldl_cons, List.foldl_nil]
  exact Regs.wf_resetRegs _ _ (Regs.wf_resetRegs _ _ (Regs.wf_resetRegs _ _ (Regs.wf_resetRegs _ _ w)))

/-- A byte just written reads back; every other byte is as before. -/
theorem memWrite_out (bs : List Byte) (m : List Host.Cell) (a x : Nat) (h : x < a ∨ a + bs.length ≤ x) :
    tget 0#8 (memWrite m a bs) x = tget 0#8 m x := by
  induction bs generalizing m a with
  | nil => rfl
  | cons b bs ih =>
    simp only [List.length_cons] at h
    rw [memWrite, ih _ _ (by omega), tget_tset_other _ _ _ _ _ _ (by omega)]

theorem memWrite_in (bs : List Byte) (m : List Host.Cell) (a i : Nat) (h : i < bs.length) :
    tget 0#8 (memWrite m a bs) (a + i) = bs[i] := by
  induction bs generalizing m a i with
  | nil => simp at h
  | cons b bs ih =>
    cases i with
    | zero => rw [memWrite, memWrite_out _ _ _ _ (by omega)]; simp
    | succ i =>
      have := ih (tset 0#8 m a b) (a + 1) i (by simpa using h)
      simpa [memWrite, Nat.add_assoc, Nat.add_comm 1 i] using this

end Sys2Proof.Machine
end

