-- ==== Sys2Proof/Laws/Follows.lean ====
section
/-! SUPPORT. Follow lemmas: what a command keeps of the state it met: base lemmas over the elementary changes of state. -/
namespace Sys2Proof.Machine

theorem Follows.rfl' (s : State) : Follows s s :=
  ⟨rfl, rfl, Nat.le_refl _, Nat.le_refl _, List.prefix_rfl, id, id, id, Nat.le_refl _, fun _ h => h⟩

theorem Follows.trans {a b c : State} (h : Follows a b) (k : Follows b c) : Follows a c :=
  ⟨k.pending.trans h.pending, k.osc.trans h.osc, Nat.le_trans h.free k.free, Nat.le_trans h.pkts k.pkts, h.out.trans k.out,
    fun w => k.mem (h.mem w), fun w => k.flash (h.flash w), fun w => k.regs (h.regs w), Nat.le_trans h.svn k.svn,
    fun i w => k.revoked i (h.revoked i w)⟩

/-- A change of fields that the relation leaves free. -/
theorem Follows.rec_ {s₀ t : State} {la hr pa pk np no gr fe tn eg an re ba ho li de ev fa fd ft cl me gl og be qc bo nv si au aa st}
    (h : Follows s₀ t) (e0 : t.nextPkt ≤ np) (e1 : Hrt.mem hr = t.hrt.mem) (e2 : Nvs.flash nv = t.nvs.flash)
    (e3 : nv.svn = t.nvs.svn) (e4 : nv.revoked = t.nvs.revoked) :
    Follows s₀ (State.mk t.pending t.osc t.freeCtr t.out t.regs la hr pa pk np no gr fe tn eg an re ba ho li de ev fa fd ft cl me gl
      og be qc bo nv si au aa st) :=
  ⟨h.pending, h.osc, h.free, Nat.le_trans h.pkts e0, h.out, fun w => e1 ▸ h.mem w, fun w => e2 ▸ h.flash w, h.regs,
    by show _ ≤ nv.svn; rw [e3]; exact h.svn, fun i w => by show nv.revoked.testBit i = true; rw [e4]; exact h.revoked i w⟩

/-- A change of fields that the relation leaves free, as an equation. -/
theorem Follows.keep {s₀ t : State} {la hr pa pk no gr fe tn eg an re ba ho li de ev fa fd ft cl me gl og be qc bo nv si au aa st}
    (e1 : Hrt.mem hr = t.hrt.mem) (e2 : Nvs.flash nv = t.nvs.flash) (e3 : nv.svn = t.nvs.svn) (e4 : nv.revoked = t.nvs.revoked) :
    Follows s₀ (State.mk t.pending t.osc t.freeCtr t.out t.regs la hr pa pk t.nextPkt no gr fe tn eg an re ba ho li de ev fa fd ft
      cl me gl og be qc bo nv si au aa st) = Follows s₀ t := by
  refine propext ⟨fun h => ⟨h.pending, h.osc, h.free, h.pkts, h.out, ?_, ?_, h.regs, ?_, ?_⟩,
    fun h => Follows.rec_ h (Nat.le_refl _) e1 e2 e3 e4⟩
  · rw [← e1]; exact h.mem
  · rw [← e2]; exact h.flash
  · rw [← e3]; exact h.svn
  · rw [← e4]; exact h.revoked

/-- Free values are passed over. -/
theorem Follows.skip {s₀ t : State} {n : Nat} (h : Follows s₀ t) (hn : t.freeCtr ≤ n) : Follows s₀ { t with freeCtr := n } :=
  ⟨h.pending, h.osc, Nat.le_trans h.free hn, h.pkts, h.out, h.mem, h.flash, h.regs, h.svn, h.revoked⟩

theorem Follows.pair {α : Type} {s₀ t : State} {p : α × State} {a : α} (e : p = (a, t)) (h : Follows s₀ p.2) : Follows s₀ t := by
  subst e; exact h

theorem Follows.pairL {α : Type} {s₀ t : State} {p : State × α} {a : α} (e : p = (t, a)) (h : Follows s₀ p.1) : Follows s₀ t := by
  subst e; exact h

theorem Follows.triple {α β : Type} {s₀ t : State} {p : α × β × State} {a : α} {b : β} (e : p = (a, b, t))
    (h : Follows s₀ p.2.2) : Follows s₀ t := by
  subst e; exact h

theorem Follows.elim {α : Type} {s₀ s : State} {o : Option α} {f : α → State} (h : Follows s₀ s) (hf : ∀ a, Follows s₀ (f a)) :
    Follows s₀ (o.elim s f) := by
  cases o with
  | none => exact h
  | some a => exact hf a

theorem Follows.ite {s₀ a b : State} {c : Prop} [Decidable c] (ha : Follows s₀ a) (hb : Follows s₀ b) :
    Follows s₀ (if c then a else b) := by
  split <;> assumption

/-- A change that a condition makes. -/
theorem Follows.opt {s₀ a b : State} {c : Prop} [Decidable c] (hb : Follows s₀ b) (ha : Follows s₀ b → Follows s₀ a) :
    Follows s₀ (if c then a else b) := Follows.ite (ha hb) hb

/-- A fold of changes. -/
theorem State.each_follows {s₀ s : State} {α : Type} (l : List α) {f : State → α → State} (h : Follows s₀ s)
    (hf : ∀ t a, Follows s₀ t → Follows s₀ (f t a)) : Follows s₀ (s.each l f) := by
  unfold State.each
  induction l generalizing s with
  | nil => exact h
  | cons a l ih => exact ih (hf s a h)

/-- A fold of changes that also gathers a value. -/
theorem Follows.foldl2 {α β : Type} {s₀ : State} (l : List β) {f : α × State → β → α × State} {a : α × State} (h : Follows s₀ a.2)
    (hf : ∀ a b, Follows s₀ a.2 → Follows s₀ (f a b).2) : Follows s₀ (l.foldl f a).2 := by
  induction l generalizing a with
  | nil => exact h
  | cons b l ih => exact ih (hf a b h)

theorem State.emit_follows {s₀ s : State} (o : Out) (h : Follows s₀ s) : Follows s₀ (s.emit o) :=
  ⟨h.pending, h.osc, h.free, h.pkts, h.out.trans (List.prefix_append _ _), h.mem, h.flash, h.regs, h.svn, h.revoked⟩

theorem State.free_follows {s₀ s : State} (h : Follows s₀ s) : Follows s₀ s.free.2 :=
  ⟨h.pending, h.osc, Nat.le_trans h.free (Nat.le_succ _), h.pkts, h.out, h.mem, h.flash, h.regs, h.svn, h.revoked⟩

theorem State.setReg_follows {s₀ s : State} (a : Nat) (w : Word) (h : Follows s₀ s) : Follows s₀ (s.setReg a w) :=
  ⟨h.pending, h.osc, h.free, h.pkts, h.out, h.mem, h.flash, fun k => Regs.wf_tset a w (h.regs k), h.svn, h.revoked⟩

theorem State.resetDom_follows {s₀ s : State} (dom : Dom) (sel : RegDesc → Nat → Nat → Bool) (h : Follows s₀ s) :
    Follows s₀ (s.resetDom dom sel) :=
  ⟨h.pending, h.osc, h.free, h.pkts, h.out, h.mem, h.flash, fun k => Regs.wf_resetRegs dom sel (h.regs k), h.svn, h.revoked⟩

theorem State.writePhys_follows {s₀ s : State} (a : Nat) (bs : List Byte) (h : Follows s₀ s) : Follows s₀ (s.writePhys a bs) :=
  ⟨h.pending, h.osc, h.free, h.pkts, h.out, fun k => Memory.wf_memWrite bs a (h.mem k), h.flash, h.regs, h.svn, h.revoked⟩

theorem State.zeroGranule_follows {s₀ s : State} (g : Nat) (h : Follows s₀ s) : Follows s₀ (s.zeroGranule g) :=
  ⟨h.pending, h.osc, h.free, h.pkts, h.out, fun k => Memory.wf_filter _ (h.mem k), h.flash, h.regs, h.svn, h.revoked⟩

/-- A change of the flash store's work that leaves its bytes and the fuses alone. -/
theorem State.setNvs_follows {s₀ s : State} {f : Nvs → Nvs} (h : Follows s₀ s)
    (hf : ∀ n, (f n).flash = n.flash ∧ (f n).svn = n.svn ∧ (f n).revoked = n.revoked) :
    Follows s₀ (s.setNvs f) :=
  have hf := hf s.nvs
  ⟨h.pending, h.osc, h.free, h.pkts, h.out, h.mem, fun w => by show Flash.wf (f s.nvs).flash = true; rw [hf.1]; exact h.flash w,
    h.regs, by show _ ≤ (f s.nvs).svn; rw [hf.2.1]; exact h.svn,
    fun i w => by show (f s.nvs).revoked.testBit i = true; rw [hf.2.2]; exact h.revoked i w⟩

/-- A change of the flash's bytes that keeps their canonical form. -/
theorem State.setFlash_follows {s₀ s : State} {g : List Host.Cell → List Host.Cell} (h : Follows s₀ s)
    (hg : ∀ m, Flash.wf m = true → Flash.wf (g m) = true) :
    Follows s₀ (s.setNvs fun n => { n with flash := g n.flash }) :=
  ⟨h.pending, h.osc, h.free, h.pkts, h.out, h.mem, fun w => hg _ (h.flash w), h.regs, h.svn, h.revoked⟩

theorem State.bumpBy_follows {s₀ s : State} (a n : Nat) (h : Follows s₀ s) : Follows s₀ (s.bumpBy a n) :=
  State.setReg_follows _ _ h

theorem State.bump_follows {s₀ s : State} (a : Nat) (h : Follows s₀ s) : Follows s₀ (s.bump a) := State.bumpBy_follows _ _ h

theorem State.programFlash_follows {s₀ s : State} (a : Nat) (bs : List Byte) (h : Follows s₀ s) :
    Follows s₀ (s.programFlash a bs) :=
  State.bump_follows _ (State.setFlash_follows h fun _ w => Flash.wf_progBytes bs a w)

theorem State.eraseSector_follows {s₀ s : State} (n : Nat) (h : Follows s₀ s) : Follows s₀ (s.eraseSector n) :=
  State.bump_follows _ (State.setFlash_follows h fun _ w => Flash.wf_filter _ w)

theorem State.freeFlash_follows {s₀ s : State} (a : Nat) (l : List (Byte → Byte)) (h : Follows s₀ s) :
    Follows s₀ (s.freeFlash a l) := by
  induction l generalizing s a with
  | nil => exact h
  | cons f fs ih => exact ih _ (State.setFlash_follows (State.free_follows h) fun _ w => Flash.wf_tset _ _ w)

/-- What a command answers follows the state that it met. -/
def ResFollows (s : State) (r : Res) : Prop := ∀ t, r = .next t → Follows s t

theorem ResFollows.next {s t : State} (h : Follows s t) : ResFollows s (.next t) := by
  intro u e; cases e; exact h

theorem Nvs.setJob_keeps (n : Nvs) (host : Bool) (x : Option NvJob) :
    (n.setJob host x).flash = n.flash ∧ (n.setJob host x).svn = n.svn ∧ (n.setJob host x).revoked = n.revoked := by
  cases host <;> exact ⟨rfl, rfl, rfl⟩

end Sys2Proof.Machine
end

