-- ==== Sys2Proof/Laws/FollowPackets.lean ====
section
/-! SUPPORT. Follow lemmas: register file, frames, recording, packets, custody and gates: each shared operation follows (see Laws/Follows). -/
namespace Sys2Proof.Machine

theorem State.setRf_follows {s₀ : State} {s : State} (a : Nat) (hi : Nat) (lo : Nat) (v : Nat) (h₀ : Follows s₀ s) :
    Follows s₀ (State.setRf s a hi lo v) := by
  unfold State.setRf
  with_reducible repeat' (first
    | assumption | apply setReg_follows
    | intro _ | split)

theorem State.eventD_follows {s₀ : State} {s : State} (code : Nat) (src : Nat) (part : Nat) (det : List Nat) (h₀ : Follows s₀ s) :
    Follows s₀ (State.eventD s code src part det) := by
  unfold State.eventD
  with_reducible repeat' (first
    | assumption | apply bump_follows
    | (intro (x : State); have hx : Follows s₀ x := (by dsimp only [x]; repeat' (first | assumption | apply bump_follows | intro _ | split | simp only [Follows.keep] | simp +zetaDelta only [Follows.keep])))
    | lift_lets | (intro (x : Option _); clear_value x)
    | intro _ | split | simp only [Follows.keep] | simp +zetaDelta only [Follows.keep])

theorem State.event_follows {s₀ : State} {s : State} (code : Nat) (src : Nat) (part : Nat) (h₀ : Follows s₀ s) :
    Follows s₀ (State.event s code src part) := by
  unfold State.event
  with_reducible repeat' (first
    | assumption | apply eventD_follows
    | intro _ | split)

theorem State.setPart_follows {s₀ : State} {s : State} (p : Nat) (x : Part) (h₀ : Follows s₀ s) :
    Follows s₀ (State.setPart s p x) := by
  unfold State.setPart
  with_reducible repeat' (first
    | assumption
    | intro _ | split | simp only [Follows.keep] | simp +zetaDelta only [Follows.keep])

theorem State.modPart_follows {s₀ : State} {s : State} (p : Nat) (f : Part → Part) (h₀ : Follows s₀ s) :
    Follows s₀ (State.modPart s p f) := by
  unfold State.modPart
  with_reducible repeat' (first
    | assumption | apply setPart_follows
    | intro _ | split)

theorem State.writeHearth_follows {s₀ : State} {s : State} (p : Nat) (a : Nat) (bs : List Byte) (h₀ : Follows s₀ s) :
    Follows s₀ (State.writeHearth s p a bs) := by
  unfold State.writeHearth
  with_reducible repeat' (first
    | assumption | intro (_ : State) _ (_ : Follows _ _) | apply each_follows | apply writePhys_follows
    | intro _ | split | simp only [Follows.keep] | simp +zetaDelta only [Follows.keep])

theorem State.notePoison_follows {s₀ : State} {s : State} (part : Nat) (ws : List Nat) (h₀ : Follows s₀ s) :
    Follows s₀ (State.notePoison s part ws) := by
  unfold State.notePoison
  with_reducible repeat' (first
    | assumption | intro (_ : State) _ (_ : Follows _ _) | intro _ (_ : State) (_ : Follows _ _) | apply each_follows | apply event_follows | apply bump_follows
    | (intro (x : State); have hx : Follows s₀ x := (by dsimp only [x]; repeat' (first | assumption | intro (_ : State) _ (_ : Follows _ _) | intro _ (_ : State) (_ : Follows _ _) | apply each_follows | apply event_follows | apply bump_follows | intro _ | split | simp only [Follows.keep] | simp +zetaDelta only [Follows.keep])))
    | lift_lets | (intro (x : Option _); clear_value x)
    | intro _ | split | simp only [Follows.keep] | simp +zetaDelta only [Follows.keep])

theorem State.load_follows {s₀ : State} {s : State} (p : Nat) (a : Nat) (n : Nat) (h₀ : Follows s₀ s) :
    Follows s₀ (State.load s p a n).2 := by
  unfold State.load
  with_reducible repeat' (first
    | assumption | apply notePoison_follows
    | (intro (x : State); have hx : Follows s₀ x := (by dsimp only [x]; repeat' (first | assumption | apply notePoison_follows | intro _ | split | dsimp -zeta only)))
    | lift_lets | (intro (x : Option _); clear_value x)
    | intro _ | split | dsimp -zeta only)

theorem State.setSem_follows {s₀ : State} {s : State} (p : Nat) (i : Nat) (x : Sem) (h₀ : Follows s₀ s) :
    Follows s₀ (State.setSem s p i x) := by
  unfold State.setSem
  with_reducible repeat' (first
    | assumption | apply modPart_follows
    | intro _ | split | simp only [Follows.keep] | simp +zetaDelta only [Follows.keep])

theorem State.semServe_follows {s₀ : State} {s : State} (p : Nat) (i : Nat) (h₀ : Follows s₀ s) :
    Follows s₀ (State.semServe s p i) := by
  unfold State.semServe
  with_reducible repeat' (first
    | assumption | apply setSem_follows
    | (intro (x : State); have hx : Follows s₀ x := (by dsimp only [x]; repeat' (first | assumption | apply setSem_follows | intro _ | split | simp only [Follows.keep] | simp +zetaDelta only [Follows.keep])))
    | lift_lets | (intro (x : Option _); clear_value x)
    | intro _ | split | simp only [Follows.keep] | simp +zetaDelta only [Follows.keep])

theorem State.semSignal_follows {s₀ : State} {s : State} (p : Nat) (i : Nat) (c : Nat) (h₀ : Follows s₀ s) :
    Follows s₀ (State.semSignal s p i c) := by
  unfold State.semSignal
  with_reducible repeat' (first
    | assumption | apply setSem_follows | apply event_follows | apply semServe_follows
    | (intro (x : State); have hx : Follows s₀ x := (by dsimp only [x]; repeat' (first | assumption | apply setSem_follows | apply event_follows | apply semServe_follows | intro _ | split | simp only [Follows.keep] | simp +zetaDelta only [Follows.keep])))
    | lift_lets | (intro (x : Option _); clear_value x)
    | intro _ | split | simp only [Follows.keep] | simp +zetaDelta only [Follows.keep])

theorem State.semWait_follows {s₀ : State} {s : State} (p : Nat) (i : Nat) (c : Nat) (w : Waiter) (h₀ : Follows s₀ s) :
    Follows s₀ (State.semWait s p i c w) := by
  unfold State.semWait
  with_reducible repeat' (first
    | assumption | apply setSem_follows | apply semServe_follows
    | (intro (x : State); have hx : Follows s₀ x := (by dsimp only [x]; repeat' (first | assumption | apply setSem_follows | apply semServe_follows | intro _ | split | simp only [Follows.keep] | simp +zetaDelta only [Follows.keep])))
    | lift_lets | (intro (x : Option _); clear_value x)
    | intro _ | split | simp only [Follows.keep] | simp +zetaDelta only [Follows.keep])

theorem State.semDrop_follows {s₀ : State} {s : State} (p : Nat) (i : Nat) (w : Waiter) (h₀ : Follows s₀ s) :
    Follows s₀ (State.semDrop s p i w) := by
  unfold State.semDrop
  with_reducible repeat' (first
    | assumption | apply setSem_follows | apply semServe_follows
    | (intro (x : State); have hx : Follows s₀ x := (by dsimp only [x]; repeat' (first | assumption | apply setSem_follows | apply semServe_follows | intro _ | split | simp only [Follows.keep] | simp +zetaDelta only [Follows.keep])))
    | lift_lets | (intro (x : Option _); clear_value x)
    | intro _ | split | simp only [Follows.keep] | simp +zetaDelta only [Follows.keep])

theorem State.takeGrant_follows {s₀ : State} {s : State} (w : Waiter) (h₀ : Follows s₀ s) :
    Follows s₀ (State.takeGrant s w) := by
  unfold State.takeGrant
  with_reducible repeat' (first
    | assumption
    | intro _ | split | simp only [Follows.keep] | simp +zetaDelta only [Follows.keep])

theorem State.semWrite_follows {s₀ : State} {s : State} (p : Nat) (i : Nat) (v : Nat) (h₀ : Follows s₀ s) :
    Follows s₀ (State.semWrite s p i v) := by
  unfold State.semWrite
  with_reducible repeat' (first
    | assumption | apply setSem_follows | apply semServe_follows
    | intro _ | split | simp only [Follows.keep] | simp +zetaDelta only [Follows.keep])

theorem State.setBarrier_follows {s₀ : State} {s : State} (p : Nat) (j : Nat) (x : Barrier) (h₀ : Follows s₀ s) :
    Follows s₀ (State.setBarrier s p j x) := by
  unfold State.setBarrier
  with_reducible repeat' (first
    | assumption | apply modPart_follows
    | intro _ | split | simp only [Follows.keep] | simp +zetaDelta only [Follows.keep])

theorem State.arrive_follows {s₀ : State} {s : State} (p : Nat) (j : Nat) (c : Nat) (h₀ : Follows s₀ s) :
    Follows s₀ (State.arrive s p j c) := by
  unfold State.arrive
  with_reducible repeat' (first
    | assumption | apply setBarrier_follows | apply semSignal_follows
    | (intro (x : State); have hx : Follows s₀ x := (by dsimp only [x]; repeat' (first | assumption | apply setBarrier_follows | apply semSignal_follows | intro _ | split | simp only [Follows.keep] | simp +zetaDelta only [Follows.keep])))
    | lift_lets | (intro (x : Option _); clear_value x)
    | intro _ | split | simp only [Follows.keep] | simp +zetaDelta only [Follows.keep])

theorem State.setFn_follows {s₀ : State} {s : State} (f : Nat) (c : FnCfg) (h₀ : Follows s₀ s) :
    Follows s₀ (State.setFn s f c) := by
  unfold State.setFn
  with_reducible repeat' (first
    | assumption
    | intro _ | split | simp only [Follows.keep] | simp +zetaDelta only [Follows.keep])

theorem State.setHost_follows {s₀ : State} {s : State} (f : HostPort → HostPort) (h₀ : Follows s₀ s) :
    Follows s₀ (State.setHost s f) := by
  unfold State.setHost
  with_reducible repeat' (first
    | assumption
    | intro _ | split | simp only [Follows.keep] | simp +zetaDelta only [Follows.keep])

theorem State.msg_follows {s₀ : State} {s : State} (f : Nat) (v : Nat) (h₀ : Follows s₀ s) :
    Follows s₀ (State.msg s f v) := by
  unfold State.msg
  with_reducible repeat' (first
    | assumption | apply emit_follows | apply setFn_follows
    | (intro (x : State); have hx : Follows s₀ x := (by dsimp only [x]; repeat' (first | assumption | apply emit_follows | apply setFn_follows | intro _ | split | simp only [Follows.keep] | simp +zetaDelta only [Follows.keep])))
    | lift_lets | (intro (x : Option _); clear_value x)
    | intro _ | split | simp only [Follows.keep] | simp +zetaDelta only [Follows.keep])

theorem State.aerFirst_follows {s₀ : State} {s : State} (f : Nat) (bit : Nat) (h₀ : Follows s₀ s) :
    Follows s₀ (State.aerFirst s f bit) := by
  unfold State.aerFirst
  with_reducible repeat' (first
    | assumption | apply free_follows | apply setFn_follows | apply Follows.pair ‹_ = (_, _)›
    | (intro (x : State); have hx : Follows s₀ x := (by dsimp only [x]; repeat' (first | assumption | apply free_follows | apply setFn_follows | apply Follows.pair ‹_ = (_, _)› | intro _ | split | dsimp -zeta only | simp only [Follows.keep] | simp +zetaDelta only [Follows.keep])))
    | lift_lets | (intro (x : Option _); clear_value x)
    | intro _ | split | dsimp -zeta only | simp only [Follows.keep] | simp +zetaDelta only [Follows.keep])

theorem State.aer_follows {s₀ : State} {s : State} (f : Nat) (uncorr : Bool) (bit : Nat) (kind : Nat) (h₀ : Follows s₀ s) :
    Follows s₀ (State.aer s f uncorr bit kind) := by
  unfold State.aer
  with_reducible repeat' (first
    | assumption | apply aerFirst_follows | apply setFn_follows | apply emit_follows | apply eventD_follows
    | (intro (x : State); have hx : Follows s₀ x := (by dsimp only [x]; repeat' (first | assumption | apply aerFirst_follows | apply setFn_follows | apply emit_follows | apply eventD_follows | intro _ | split | simp only [Follows.keep] | simp +zetaDelta only [Follows.keep])))
    | lift_lets | (intro (x : Option _); clear_value x)
    | intro _ | split | simp only [Follows.keep] | simp +zetaDelta only [Follows.keep])

theorem State.setReqs_follows {s₀ : State} {s : State} (r : Nat) (l : List HostOp) (h₀ : Follows s₀ s) :
    Follows s₀ (State.setReqs s r l) := by
  unfold State.setReqs
  with_reducible repeat' (first
    | assumption | apply setHost_follows
    | intro _ | split | simp only [Follows.keep] | simp +zetaDelta only [Follows.keep])

theorem State.issueOne_follows {s₀ s t : State} (r : Nat) (h : Follows s₀ s) (e : s.issueOne r = some t) : Follows s₀ t := by
  unfold State.issueOne at e
  dsimp only at e
  split at e
  · cases e
  · split at e
    · cases e
    · split at e
      · cases e; exact State.emit_follows _ (State.setReqs_follows _ _ h)
      · cases e; exact State.msg_follows _ _ (State.setReqs_follows _ _ h)
      · cases e
      · split at e
        · cases e
        · cases e; exact State.emit_follows _ (State.setHost_follows _ (State.setReqs_follows _ _ h))

theorem State.noteWait_follows {s₀ : State} {s : State} (r : Nat) (h₀ : Follows s₀ s) :
    Follows s₀ (State.noteWait s r) := by
  unfold State.noteWait
  with_reducible repeat' (first
    | assumption | apply setHost_follows
    | (intro (x : State); have hx : Follows s₀ x := (by dsimp only [x]; repeat' (first | assumption | apply setHost_follows | intro _ | split | simp only [Follows.keep] | simp +zetaDelta only [Follows.keep])))
    | lift_lets | (intro (x : Option _); clear_value x)
    | intro _ | split | simp only [Follows.keep] | simp +zetaDelta only [Follows.keep])

theorem State.pump_follows {s₀ : State} (n : Nat) {s : State} (r : Nat) (h : Follows s₀ s) : Follows s₀ (State.pump n s r) := by
  induction n generalizing s with
  | zero => exact h
  | succ n ih =>
    unfold State.pump
    split
    · exact h
    · rename_i e; exact ih (State.issueOne_follows r h e)

theorem State.enq_follows {s₀ : State} {s : State} (r : Nat) (ops : List HostOp) (h₀ : Follows s₀ s) :
    Follows s₀ (State.enq s r ops) := by
  unfold State.enq
  with_reducible repeat' (first
    | assumption | apply setReqs_follows | apply pump_follows | apply noteWait_follows
    | (intro (x : State); have hx : Follows s₀ x := (by dsimp only [x]; repeat' (first | assumption | apply setReqs_follows | apply pump_follows | apply noteWait_follows | intro _ | split | simp only [Follows.keep] | simp +zetaDelta only [Follows.keep])))
    | lift_lets | (intro (x : Option _); clear_value x)
    | intro _ | split | simp only [Follows.keep] | simp +zetaDelta only [Follows.keep])

theorem State.pciCount_follows {s₀ : State} {s : State} (n : Nat) (r : Nat) (h₀ : Follows s₀ s) :
    Follows s₀ (State.pciCount s n r) := by
  unfold State.pciCount
  with_reducible repeat' (first
    | assumption | apply bump_follows | apply setHost_follows
    | (intro (x : State); have hx : Follows s₀ x := (by dsimp only [x]; repeat' (first | assumption | apply bump_follows | apply setHost_follows | intro _ | split | simp only [Follows.keep] | simp +zetaDelta only [Follows.keep])))
    | lift_lets | (intro (x : Option _); clear_value x)
    | intro _ | split | simp only [Follows.keep] | simp +zetaDelta only [Follows.keep])

theorem State.setLink_follows {s₀ : State} {s : State} (d : Nat) (l : Link) (h₀ : Follows s₀ s) :
    Follows s₀ (State.setLink s d l) := by
  unfold State.setLink
  with_reducible repeat' (first
    | assumption
    | intro _ | split | simp only [Follows.keep] | simp +zetaDelta only [Follows.keep])

theorem State.modLink_follows {s₀ : State} {s : State} (d : Nat) (f : Link → Link) (h₀ : Follows s₀ s) :
    Follows s₀ (State.modLink s d f) := by
  unfold State.modLink
  with_reducible repeat' (first
    | assumption | apply setLink_follows
    | intro _ | split)

theorem State.setLap_follows {s₀ : State} {s : State} (p : Nat) (r : Nat) (l : Lap) (h₀ : Follows s₀ s) :
    Follows s₀ (State.setLap s p r l) := by
  unfold State.setLap
  with_reducible repeat' (first
    | assumption | apply modPart_follows
    | intro _ | split | simp only [Follows.keep] | simp +zetaDelta only [Follows.keep])

theorem State.modLap_follows {s₀ : State} {s : State} (p : Nat) (r : Nat) (f : Lap → Lap) (h₀ : Follows s₀ s) :
    Follows s₀ (State.modLap s p r f) := by
  unfold State.modLap
  with_reducible repeat' (first
    | assumption | apply setLap_follows
    | intro _ | split)

theorem State.releaseLanding_follows {s₀ : State} {s : State} (d : Nat) (v : Nat) (h₀ : Follows s₀ s) :
    Follows s₀ (State.releaseLanding s d v) := by
  unfold State.releaseLanding
  with_reducible repeat' (first
    | assumption | apply setLap_follows | apply semSignal_follows
    | (intro (x : State); have hx : Follows s₀ x := (by dsimp only [x]; repeat' (first | assumption | apply setLap_follows | apply semSignal_follows | intro _ | split | simp only [Follows.keep] | simp +zetaDelta only [Follows.keep])))
    | lift_lets | (intro (x : Option _); clear_value x)
    | intro _ | split | simp only [Follows.keep] | simp +zetaDelta only [Follows.keep])

theorem State.billetLeft_follows {s₀ : State} {s : State} (p : Nat) (r : Nat) (o : Nat) (epoch : Nat) (seq : Nat) (h₀ : Follows s₀ s) :
    Follows s₀ (State.billetLeft s p r o epoch seq) := by
  unfold State.billetLeft
  with_reducible repeat' (first
    | assumption | apply setLap_follows | apply semSignal_follows | apply Follows.elim
    | (intro (x : State); have hx : Follows s₀ x := (by dsimp only [x]; repeat' (first | assumption | apply setLap_follows | apply semSignal_follows | apply Follows.elim | intro _ | split | simp only [Follows.keep] | simp +zetaDelta only [Follows.keep])))
    | lift_lets | (intro (x : Option _); clear_value x)
    | intro _ | split | simp only [Follows.keep] | simp +zetaDelta only [Follows.keep])

theorem State.left_follows {s₀ : State} {s : State} (y0 : TxNote) (h₀ : Follows s₀ s) :
    Follows s₀ (State.left s y0) := by
  unfold State.left
  with_reducible repeat' (first
    | assumption | apply billetLeft_follows | apply modLap_follows | apply modPart_follows | apply releaseLanding_follows
    | (intro (x : State); have hx : Follows s₀ x := (by dsimp only [x]; repeat' (first | assumption | apply billetLeft_follows | apply modLap_follows | apply modPart_follows | apply releaseLanding_follows | intro _ | split | simp only [Follows.keep] | simp +zetaDelta only [Follows.keep])))
    | lift_lets | (intro (x : Option _); clear_value x)
    | intro _ | split | simp only [Follows.keep] | simp +zetaDelta only [Follows.keep])

theorem State.freeFlits_follows {s₀ : State} {s : State} (d : Nat) (v : Nat) (n : Nat) (h₀ : Follows s₀ s) :
    Follows s₀ (State.freeFlits s d v n) := by
  unfold State.freeFlits
  with_reducible repeat' (first
    | assumption | apply modLink_follows
    | intro _ | split | simp only [Follows.keep] | simp +zetaDelta only [Follows.keep])

theorem State.dropFrame_follows {s₀ : State} {s : State} (port : Nat) (vc : Nat) (p : Nat) (n : Nat) (h₀ : Follows s₀ s) :
    Follows s₀ (State.dropFrame s port vc p n) := by
  unfold State.dropFrame
  with_reducible repeat' (first
    | assumption | apply bump_follows | apply event_follows | apply freeFlits_follows
    | intro _ | split | simp only [Follows.keep] | simp +zetaDelta only [Follows.keep])

theorem State.deliver_follows {s₀ : State} {s : State} (port : Nat) (vc : Nat) (p : Nat) (b : List Byte) (n : Nat) (h₀ : Follows s₀ s) :
    Follows s₀ (State.deliver s port vc p b n) := by
  unfold State.deliver
  with_reducible repeat' (first
    | assumption | apply dropFrame_follows
    | intro _ | split | simp only [Follows.keep] | simp +zetaDelta only [Follows.keep])

theorem State.dropGone_follows {s₀ : State} {s : State} (p : Nat) (gone : Bool) (h₀ : Follows s₀ s) :
    Follows s₀ (State.dropGone s p gone) := by
  unfold State.dropGone
  with_reducible repeat' (first
    | assumption | apply bump_follows | apply event_follows
    | intro _ | split)

theorem State.egressPut_follows {s₀ : State} {s : State} (d : Nat) (f : TxFrame) (h₀ : Follows s₀ s) :
    Follows s₀ (State.egressPut s d f) := by
  unfold State.egressPut
  with_reducible repeat' (first
    | assumption | apply modLink_follows
    | intro _ | split | simp only [Follows.keep] | simp +zetaDelta only [Follows.keep])

theorem State.portEvent_follows {s₀ : State} {s : State} (code : Nat) (d : Nat) (det : List Nat) (h₀ : Follows s₀ s) :
    Follows s₀ (State.portEvent s code d det) := by
  unfold State.portEvent
  with_reducible repeat' (first
    | assumption | apply eventD_follows
    | intro _ | split)

theorem State.forward_follows {s₀ : State} {s : State} (b : List Byte) (ingress : Nat) (flits : Nat) (note : TxNote) (h₀ : Follows s₀ s) :
    Follows s₀ (State.forward s b ingress flits note) := by
  unfold State.forward
  with_reducible repeat' (first
    | assumption | apply freeFlits_follows | apply left_follows | apply deliver_follows | apply bump_follows | apply portEvent_follows | apply egressPut_follows
    | (intro (x : State); have hx : Follows s₀ x := (by dsimp only [x]; repeat' (first | assumption | apply freeFlits_follows | apply left_follows | apply deliver_follows | apply bump_follows | apply portEvent_follows | apply egressPut_follows | intro _ | split | simp only [Follows.keep] | simp +zetaDelta only [Follows.keep])))
    | lift_lets | (intro (x : Option _); clear_value x)
    | intro _ | split | simp only [Follows.keep] | simp +zetaDelta only [Follows.keep])

theorem State.sendNoted_follows {s₀ : State} {s : State} (p : Nat) (typ : Nat) (vc : Nat) (dst : Nat) (way : Nat) (back : Nat) (body : List Byte) (note : TxNote) (h₀ : Follows s₀ s) :
    Follows s₀ (State.sendNoted s p typ vc dst way back body note) := by
  unfold State.sendNoted
  with_reducible repeat' (first
    | assumption | apply forward_follows
    | (intro (x : State); have hx : Follows s₀ x := (by dsimp only [x]; repeat' (first | assumption | apply forward_follows | intro _ | split | simp only [Follows.keep] | simp +zetaDelta only [Follows.keep])))
    | lift_lets | (intro (x : Option _); clear_value x)
    | intro _ | split | simp only [Follows.keep] | simp +zetaDelta only [Follows.keep])

theorem State.sendFrame_follows {s₀ : State} {s : State} (p : Nat) (typ : Nat) (vc : Nat) (dst : Nat) (way : Nat) (back : Nat) (body : List Byte) (h₀ : Follows s₀ s) :
    Follows s₀ (State.sendFrame s p typ vc dst way back body) := by
  unfold State.sendFrame
  with_reducible repeat' (first
    | assumption | apply sendNoted_follows
    | intro _ | split | simp only [Follows.keep] | simp +zetaDelta only [Follows.keep])

theorem State.consume_follows {s₀ : State} {s : State} (p : Nat) (b : List Byte) (h₀ : Follows s₀ s) :
    Follows s₀ (State.consume s p b) := by
  unfold State.consume
  with_reducible repeat' (first
    | assumption | apply freeFlits_follows
    | intro _ | split | simp only [Follows.keep] | simp +zetaDelta only [Follows.keep])

theorem State.discard_follows {s₀ : State} {s : State} (p : Nat) (b : List Byte) (h₀ : Follows s₀ s) :
    Follows s₀ (State.discard s p b) := by
  unfold State.discard
  with_reducible repeat' (first
    | assumption | apply consume_follows | apply releaseLanding_follows
    | intro _ | split | simp only [Follows.keep] | simp +zetaDelta only [Follows.keep])

theorem onFrame_follows {s₀ : State} {s : State} (typ : Nat) (p : Nat) (b : List Byte) (f : State → State) (h₀ : Follows s₀ s) (hf : ∀ x0, Follows s₀ x0 → Follows s₀ (f x0)) :
    ResFollows s₀ (onFrame typ p b f s) := by
  unfold onFrame
  with_reducible repeat' (first
    | assumption | apply State.consume_follows | apply hf | apply ResFollows.next
    | intro _ | split)

theorem State.setEvr_follows {s₀ : State} {s : State} (f : Evr → Evr) (h₀ : Follows s₀ s) :
    Follows s₀ (State.setEvr s f) := by
  unfold State.setEvr
  with_reducible repeat' (first
    | assumption
    | intro _ | split | simp only [Follows.keep] | simp +zetaDelta only [Follows.keep])

theorem State.noticePf_follows {s₀ : State} {s : State} (h₀ : Follows s₀ s) :
    Follows s₀ (State.noticePf s) := by
  unfold State.noticePf
  with_reducible repeat' (first
    | assumption | apply enq_follows | apply msg_follows
    | intro _ | split)

theorem State.noticeVf_follows {s₀ : State} {s : State} (p : Nat) (h₀ : Follows s₀ s) :
    Follows s₀ (State.noticeVf s p) := by
  unfold State.noticeVf
  with_reducible repeat' (first
    | assumption | apply enq_follows | apply msg_follows
    | intro _ | split)

theorem State.startPersist_follows {s₀ : State} {s : State} (trig : Nat) (pkts : List Nat) (h₀ : Follows s₀ s) :
    Follows s₀ (State.startPersist s trig pkts) := by
  unfold State.startPersist
  with_reducible repeat' (first
    | assumption | apply setEvr_follows
    | intro _ | split | simp only [Follows.keep] | simp +zetaDelta only [Follows.keep])

theorem State.limitNotice_follows {s₀ : State} {s : State} (p : Nat) (h₀ : Follows s₀ s) :
    Follows s₀ (State.limitNotice s p) := by
  unfold State.limitNotice
  with_reducible repeat' (first
    | assumption | apply setEvr_follows | apply noticeVf_follows
    | intro _ | split | simp only [Follows.keep] | simp +zetaDelta only [Follows.keep])

theorem State.loseRecord_follows {s₀ : State} {s : State} (p : Nat) (h₀ : Follows s₀ s) :
    Follows s₀ (State.loseRecord s p) := by
  unfold State.loseRecord
  with_reducible repeat' (first
    | assumption | apply bump_follows | apply limitNotice_follows
    | (intro (x : State); have hx : Follows s₀ x := (by dsimp only [x]; repeat' (first | assumption | apply bump_follows | apply limitNotice_follows | intro _ | split)))
    | lift_lets | (intro (x : Option _); clear_value x)
    | intro _ | split)

theorem State.slotNotices_follows {s₀ : State} {s : State} (p : Nat) (h₀ : Follows s₀ s) :
    Follows s₀ (State.slotNotices s p) := by
  unfold State.slotNotices
  with_reducible repeat' (first
    | assumption | apply setEvr_follows | apply noticePf_follows | apply limitNotice_follows
    | (intro (x : State); have hx : Follows s₀ x := (by dsimp only [x]; repeat' (first | assumption | apply setEvr_follows | apply noticePf_follows | apply limitNotice_follows | intro _ | split | simp only [Follows.keep] | simp +zetaDelta only [Follows.keep])))
    | lift_lets | (intro (x : Option _); clear_value x)
    | intro _ | split | simp only [Follows.keep] | simp +zetaDelta only [Follows.keep])

theorem State.storeRecord_follows {s₀ : State} {s : State} (e : Ev) (snap : List (Nat × Nat)) (h₀ : Follows s₀ s) :
    Follows s₀ (State.storeRecord s e snap) := by
  unfold State.storeRecord
  with_reducible repeat' (first
    | assumption | apply setEvr_follows | apply slotNotices_follows | apply noticePf_follows | apply noticeVf_follows | apply startPersist_follows
    | (intro (x : State); have hx : Follows s₀ x := (by dsimp only [x]; repeat' (first | assumption | apply setEvr_follows | apply slotNotices_follows | apply noticePf_follows | apply noticeVf_follows | apply startPersist_follows | intro _ | split | simp only [Follows.keep] | simp +zetaDelta only [Follows.keep])))
    | lift_lets | (intro (x : Option _); clear_value x)
    | intro _ | split | simp only [Follows.keep] | simp +zetaDelta only [Follows.keep])

theorem State.clearRecorder_follows {s₀ : State} {s : State} (h₀ : Follows s₀ s) :
    Follows s₀ (State.clearRecorder s) := by
  unfold State.clearRecorder
  with_reducible repeat' (first
    | assumption | intro (_ : State) _ (_ : Follows _ _) | apply setEvr_follows | apply setReg_follows | apply each_follows
    | (intro (x : State); have hx : Follows s₀ x := (by dsimp only [x]; repeat' (first | assumption | intro (_ : State) _ (_ : Follows _ _) | apply setEvr_follows | apply setReg_follows | apply each_follows | intro _ | split | simp only [Follows.keep] | simp +zetaDelta only [Follows.keep])))
    | lift_lets | (intro (x : Option _); clear_value x)
    | intro _ | split | simp only [Follows.keep] | simp +zetaDelta only [Follows.keep])

theorem State.proxyOne_follows {s₀ : State} {s : State} (p : Nat) (op : HostOp) (h₀ : Follows s₀ s) :
    Follows s₀ (State.proxyOne s p op) := by
  unfold State.proxyOne
  with_reducible repeat' (first
    | assumption | apply setPart_follows | apply sendNoted_follows
    | (intro (x : State); have hx : Follows s₀ x := (by dsimp only [x]; repeat' (first | assumption | apply setPart_follows | apply sendNoted_follows | intro _ | split | simp only [Follows.keep] | simp +zetaDelta only [Follows.keep])))
    | lift_lets | (intro (x : Option _); clear_value x)
    | intro _ | split | simp only [Follows.keep] | simp +zetaDelta only [Follows.keep])

theorem State.proxyPump_follows {s₀ : State} (n : Nat) {s : State} (p : Nat) (h : Follows s₀ s) :
    Follows s₀ (State.proxyPump n s p) := by
  induction n generalizing s with
  | zero => exact h
  | succ n ih =>
    unfold State.proxyPump
    split
    · exact h
    · split
      · exact ih (proxyOne_follows _ _ (modPart_follows _ _ h))
      · exact h

theorem State.proxyEnq_follows {s₀ : State} {s : State} (p : Nat) (ops : List HostOp) (h₀ : Follows s₀ s) :
    Follows s₀ (State.proxyEnq s p ops) := by
  unfold State.proxyEnq
  with_reducible repeat' (first
    | assumption | apply modPart_follows | apply proxyPump_follows
    | (intro (x : State); have hx : Follows s₀ x := (by dsimp only [x]; repeat' (first | assumption | apply modPart_follows | apply proxyPump_follows | intro _ | split | simp only [Follows.keep] | simp +zetaDelta only [Follows.keep])))
    | lift_lets | (intro (x : Option _); clear_value x)
    | intro _ | split | simp only [Follows.keep] | simp +zetaDelta only [Follows.keep])

theorem State.hostRead_follows {s₀ : State} {s : State} (p : Nat) (viaProxy : Bool) (a : Nat) (n : Nat) (iss : Issuer) (dst : Nat) (h₀ : Follows s₀ s) :
    Follows s₀ (State.hostRead s p viaProxy a n iss dst) := by
  unfold State.hostRead
  with_reducible repeat' (first
    | assumption | apply proxyEnq_follows | apply enq_follows
    | intro _ | split)

theorem State.hostWrite_follows {s₀ : State} {s : State} (p : Nat) (viaProxy : Bool) (a : Nat) (d : List Byte) (ro : Bool) (iss : Issuer) (h₀ : Follows s₀ s) :
    Follows s₀ (State.hostWrite s p viaProxy a d ro iss) := by
  unfold State.hostWrite
  with_reducible repeat' (first
    | assumption | apply proxyEnq_follows | apply enq_follows
    | intro _ | split)

theorem State.setSq_follows {s₀ : State} {s : State} (p : Nat) (i : Nat) (x : Sq) (h₀ : Follows s₀ s) :
    Follows s₀ (State.setSq s p i x) := by
  unfold State.setSq
  with_reducible repeat' (first
    | assumption | apply modPart_follows
    | intro _ | split | simp only [Follows.keep] | simp +zetaDelta only [Follows.keep])

theorem State.setCq_follows {s₀ : State} {s : State} (p : Nat) (j : Nat) (x : Cq) (h₀ : Follows s₀ s) :
    Follows s₀ (State.setCq s p j x) := by
  unfold State.setCq
  with_reducible repeat' (first
    | assumption | apply modPart_follows
    | intro _ | split | simp only [Follows.keep] | simp +zetaDelta only [Follows.keep])

theorem State.setPkt_follows {s₀ : State} {s : State} (k : Nat) (x : Pkt) (h₀ : Follows s₀ s) :
    Follows s₀ (State.setPkt s k x) := by
  unfold State.setPkt
  with_reducible repeat' (first
    | assumption
    | intro _ | split | simp only [Follows.keep] | simp +zetaDelta only [Follows.keep])

theorem State.unitAdvance_follows {s₀ : State} {s : State} (u : Nat) (h₀ : Follows s₀ s) :
    Follows s₀ (State.unitAdvance s u) := by
  unfold State.unitAdvance
  with_reducible repeat' (first
    | assumption | apply setPkt_follows | apply semWait_follows
    | intro _ | split | simp only [Follows.keep] | simp +zetaDelta only [Follows.keep])

theorem State.startPkt_follows {s₀ : State} {s : State} (k : Nat) (x : Pkt) (h₀ : Follows s₀ s) :
    Follows s₀ (State.startPkt s k x) := by
  unfold State.startPkt
  with_reducible repeat' (first
    | assumption | apply setPkt_follows | apply takeGrant_follows | apply unitAdvance_follows
    | intro _ | split | simp only [Follows.keep] | simp +zetaDelta only [Follows.keep])

theorem runOp_follows {s₀ : State} {s : State} (op : Nat) (k : Nat) (f : Pkt → State → State) (h₀ : Follows s₀ s) (hf : ∀ x0 x1, Follows s₀ x1 → Follows s₀ (f x0 x1)) :
    ResFollows s₀ (runOp op k f s) := by
  unfold runOp
  with_reducible repeat' (first
    | assumption | apply State.startPkt_follows | apply hf | apply ResFollows.next
    | intro _ | split | simp only [Follows.keep] | simp +zetaDelta only [Follows.keep])

theorem runWhen_follows {s₀ : State} {s : State} (op : Nat) (k : Nat) (ready : Pkt → Bool) (f : Pkt → State → State) (h₀ : Follows s₀ s) (hf : ∀ x0 x1, Follows s₀ x1 → Follows s₀ (f x0 x1)) :
    ResFollows s₀ (runWhen op k ready f s) := by
  unfold runWhen
  with_reducible repeat' (first
    | assumption | intro _ (_ : State) (_ : Follows _ _) | apply runOp_follows | apply hf | apply ResFollows.next
    | intro _ | split | simp only [Follows.keep] | simp +zetaDelta only [Follows.keep])

theorem State.cqMessage_follows {s₀ : State} {s : State} (p : Nat) (j : Nat) (h₀ : Follows s₀ s) :
    Follows s₀ (State.cqMessage s p j) := by
  unfold State.cqMessage
  with_reducible repeat' (first
    | assumption | apply setCq_follows | apply modPart_follows | apply sendFrame_follows | apply enq_follows | apply msg_follows
    | (intro (x : State); have hx : Follows s₀ x := (by dsimp only [x]; repeat' (first | assumption | apply setCq_follows | apply modPart_follows | apply sendFrame_follows | apply enq_follows | apply msg_follows | intro _ | split | simp only [Follows.keep] | simp +zetaDelta only [Follows.keep])))
    | lift_lets | (intro (x : Option _); clear_value x)
    | intro _ | split | simp only [Follows.keep] | simp +zetaDelta only [Follows.keep])

theorem State.cqNotify_follows {s₀ : State} {s : State} (p : Nat) (j : Nat) (covered : Bool) (urgent : Bool) (h₀ : Follows s₀ s) :
    Follows s₀ (State.cqNotify s p j covered urgent) := by
  unfold State.cqNotify
  with_reducible repeat' (first
    | assumption | apply cqMessage_follows | apply setCq_follows
    | (intro (x : State); have hx : Follows s₀ x := (by dsimp only [x]; repeat' (first | assumption | apply cqMessage_follows | apply setCq_follows | intro _ | split | simp only [Follows.keep] | simp +zetaDelta only [Follows.keep])))
    | lift_lets | (intro (x : Option _); clear_value x)
    | intro _ | split | simp only [Follows.keep] | simp +zetaDelta only [Follows.keep])

theorem State.cqWrite_follows {s₀ : State} {s : State} (p : Nat) (j : Nat) (body : List Byte) (h₀ : Follows s₀ s) :
    Follows s₀ (State.cqWrite s p j body) := by
  unfold State.cqWrite
  with_reducible repeat' (first
    | assumption | apply setCq_follows | apply hostWrite_follows | apply writeHearth_follows
    | (intro (x : State); have hx : Follows s₀ x := (by dsimp only [x]; repeat' (first | assumption | apply setCq_follows | apply hostWrite_follows | apply writeHearth_follows | intro _ | split | simp only [Follows.keep] | simp +zetaDelta only [Follows.keep])))
    | lift_lets | (intro (x : Option _); clear_value x)
    | intro _ | split | simp only [Follows.keep] | simp +zetaDelta only [Follows.keep])

theorem State.completeNow_follows {s₀ s : State} (k status note : Nat) (result : List Byte) (ev off : Nat) (h : Follows s₀ s) :
    Follows s₀ (s.completeNow k status note result ev off) := by
  unfold State.completeNow
  split
  · exact h
  · rename_i x _
    generalize (if status == 0 && _ then (1, 2) else (status, note)) = p
    obtain ⟨a, b⟩ := p
    have h : Follows s₀ { s with pkts := tdel s.pkts k } := Follows.rec_ h (Nat.le_refl _) rfl rfl rfl rfl
    dsimp -zeta only
    lift_lets
    intro q s1 s2 s3 s4 s5 s6 s7 bad s8 ev j
    have h2 : Follows s₀ s2 := Follows.opt h fun k => takeGrant_follows _ (semDrop_follows _ _ _ k)
    have h4 : Follows s₀ s4 := Follows.opt (Follows.opt h2 fun k => semSignal_follows _ _ _ k) fun k => arrive_follows _ _ _ k
    have h6 : Follows s₀ s6 := Follows.opt (bump_follows _ h4) fun k => bump_follows _ k
    have h8 : Follows s₀ s8 := Follows.opt (Follows.opt h6 fun k => bump_follows _ k) fun k => event_follows _ _ _ k
    clear_value s8
    intros
    exact unitAdvance_follows _ (Follows.ite (setCq_follows _ _ _ h8) (cqNotify_follows _ _ _ _ (cqWrite_follows _ _ _ h8)))

theorem State.completeX_follows {s₀ : State} {s : State} (k : Nat) (status : Nat) (note : Nat) (result : List Byte) (ev : Nat) (off : Nat) (h₀ : Follows s₀ s) :
    Follows s₀ (State.completeX s k status note result ev off) := by
  unfold State.completeX
  with_reducible repeat' (first
    | assumption | apply modPart_follows | apply completeNow_follows
    | intro _ | split | simp only [Follows.keep] | simp +zetaDelta only [Follows.keep])

theorem State.complete_follows {s₀ : State} {s : State} (k : Nat) (status : Nat) (note : Nat) (result : List Byte) (h₀ : Follows s₀ s) :
    Follows s₀ (State.complete s k status note result) := by
  unfold State.complete
  with_reducible repeat' (first
    | assumption | apply completeX_follows
    | intro _ | split)

theorem State.done_follows {s₀ : State} {s : State} (k : Nat) (result : List Byte) (h₀ : Follows s₀ s) :
    Follows s₀ (State.done s k result) := by
  unfold State.done
  with_reducible repeat' (first
    | assumption | apply complete_follows
    | intro _ | split)

theorem State.failPkt_follows {s₀ : State} {s : State} (k : Nat) (status : Nat) (h₀ : Follows s₀ s) :
    Follows s₀ (State.failPkt s k status) := by
  unfold State.failPkt
  with_reducible repeat' (first
    | assumption | apply complete_follows
    | intro _ | split)

theorem State.failEv_follows {s₀ : State} {s : State} (k : Nat) (status : Nat) (ev : Nat) (h₀ : Follows s₀ s) :
    Follows s₀ (State.failEv s k status ev) := by
  unfold State.failEv
  with_reducible repeat' (first
    | assumption | apply completeX_follows
    | intro _ | split)

theorem State.badParam_follows {s₀ : State} {s : State} (k : Nat) (off : Nat) (h₀ : Follows s₀ s) :
    Follows s₀ (State.badParam s k off) := by
  unfold State.badParam
  with_reducible repeat' (first
    | assumption | apply completeX_follows
    | intro _ | split)

theorem State.addPacket_follows {s₀ s : State} (check : State → Pkt → Option (Nat × Nat)) (p i slot : Nat) (b : List Byte) (pf : Bool)
    (h : Follows s₀ s) : Follows s₀ (State.addPacket check s p i slot b pf) := by
  have k : Follows s₀ { s with nextPkt := s.nextPkt + 1 } := Follows.rec_ h (Nat.le_succ _) rfl rfl rfl rfl
  unfold State.addPacket
  lift_lets
  intro k x t
  have ht : Follows s₀ t := bump_follows _ (setPkt_follows _ _ ‹Follows s₀ { s with nextPkt := _ }›)
  clear_value t
  split
  · exact completeX_follows _ _ _ _ _ _ ht
  · exact setSq_follows _ _ _ ht

theorem State.takeEntry_follows {s₀ : State} {s : State} (check : State → Pkt → Option (Nat × Nat)) (p : Nat) (i : Nat) (slot : Nat) (e : List Byte) (h₀ : Follows s₀ s) :
    Follows s₀ (State.takeEntry check s p i slot e) := by
  unfold State.takeEntry
  with_reducible repeat' (first
    | assumption | apply setSq_follows | apply setCq_follows | apply addPacket_follows
    | (intro (x : State); have hx : Follows s₀ x := (by dsimp only [x]; repeat' (first | assumption | apply setSq_follows | apply setCq_follows | apply addPacket_follows | intro _ | split | simp only [Follows.keep] | simp +zetaDelta only [Follows.keep])))
    | lift_lets | (intro (x : Option _); clear_value x)
    | intro _ | split | simp only [Follows.keep] | simp +zetaDelta only [Follows.keep])

theorem State.stopRing_follows {s₀ : State} {s : State} (p : Nat) (i : Nat) (status : Nat) (h₀ : Follows s₀ s) :
    Follows s₀ (State.stopRing s p i status) := by
  unfold State.stopRing
  with_reducible repeat' (first
    | assumption | apply setSq_follows | apply setCq_follows | apply event_follows | apply cqWrite_follows | apply cqNotify_follows
    | (intro (x : State); have hx : Follows s₀ x := (by dsimp only [x]; repeat' (first | assumption | apply setSq_follows | apply setCq_follows | apply event_follows | apply cqWrite_follows | apply cqNotify_follows | intro _ | split | simp only [Follows.keep] | simp +zetaDelta only [Follows.keep])))
    | lift_lets | (intro (x : Option _); clear_value x)
    | intro _ | split | simp only [Follows.keep] | simp +zetaDelta only [Follows.keep])

theorem State.burstArrived_follows {s₀ : State} {s : State} (check : State → Pkt → Option (Nat × Nat)) (p : Nat) (i : Nat) (h₀ : Follows s₀ s) :
    Follows s₀ (State.burstArrived check s p i) := by
  unfold State.burstArrived
  with_reducible repeat' (first
    | assumption | intro (_ : State) _ (_ : Follows _ _) | intro _ (_ : State) (_ : Follows _ _) | apply stopRing_follows | apply setSq_follows | apply each_follows | apply takeEntry_follows
    | (intro (x : State); have hx : Follows s₀ x := (by dsimp only [x]; repeat' (first | assumption | intro (_ : State) _ (_ : Follows _ _) | intro _ (_ : State) (_ : Follows _ _) | apply stopRing_follows | apply setSq_follows | apply each_follows | apply takeEntry_follows | intro _ | split | simp only [Follows.keep] | simp +zetaDelta only [Follows.keep])))
    | lift_lets | (intro (x : Option _); clear_value x)
    | intro _ | split | simp only [Follows.keep] | simp +zetaDelta only [Follows.keep])

theorem State.burstData_follows {s₀ : State} {s : State} (p : Nat) (i : Nat) (off : Nat) (d : List Byte) (h₀ : Follows s₀ s) :
    Follows s₀ (State.burstData s p i off d) := by
  unfold State.burstData
  with_reducible repeat' (first
    | assumption | apply setSq_follows
    | (intro (x : State); have hx : Follows s₀ x := (by dsimp only [x]; repeat' (first | assumption | apply setSq_follows | intro _ | split | simp only [Follows.keep] | simp +zetaDelta only [Follows.keep])))
    | lift_lets | (intro (x : Option _); clear_value x)
    | intro _ | split | simp only [Follows.keep] | simp +zetaDelta only [Follows.keep])

theorem State.burstFail_follows {s₀ : State} {s : State} (p : Nat) (i : Nat) (status : Nat) (h₀ : Follows s₀ s) :
    Follows s₀ (State.burstFail s p i status) := by
  unfold State.burstFail
  with_reducible repeat' (first
    | assumption | apply setSq_follows
    | (intro (x : State); have hx : Follows s₀ x := (by dsimp only [x]; repeat' (first | assumption | apply setSq_follows | intro _ | split | simp only [Follows.keep] | simp +zetaDelta only [Follows.keep])))
    | lift_lets | (intro (x : Option _); clear_value x)
    | intro _ | split | simp only [Follows.keep] | simp +zetaDelta only [Follows.keep])

theorem State.issueBurst_follows {s₀ : State} {s : State} (p : Nat) (i : Nat) (h₀ : Follows s₀ s) :
    Follows s₀ (State.issueBurst s p i) := by
  unfold State.issueBurst
  with_reducible repeat' (first
    | assumption | apply setSq_follows | apply setCq_follows | apply load_follows | apply burstData_follows | apply burstFail_follows | apply hostRead_follows | apply Follows.pair ‹_ = (_, _)›
    | (intro (x : State); have hx : Follows s₀ x := (by dsimp only [x]; repeat' (first | assumption | apply setSq_follows | apply setCq_follows | apply load_follows | apply burstData_follows | apply burstFail_follows | apply hostRead_follows | apply Follows.pair ‹_ = (_, _)› | intro _ | split | simp only [Follows.keep] | simp +zetaDelta only [Follows.keep])))
    | lift_lets | (intro (x : Option _); clear_value x)
    | intro _ | split | simp only [Follows.keep] | simp +zetaDelta only [Follows.keep])

theorem State.turn_follows {s₀ : State} {s : State} (p : Nat) (i : Nat) (h₀ : Follows s₀ s) :
    Follows s₀ (State.turn s p i) := by
  unfold State.turn
  with_reducible repeat' (first
    | assumption | apply setSq_follows
    | (intro (x : State); have hx : Follows s₀ x := (by dsimp only [x]; repeat' (first | assumption | apply setSq_follows | intro _ | split | simp only [Follows.keep] | simp +zetaDelta only [Follows.keep])))
    | lift_lets | (intro (x : Option _); clear_value x)
    | intro _ | split | simp only [Follows.keep] | simp +zetaDelta only [Follows.keep])

theorem State.pickRing_follows {s₀ : State} (p n : Nat) {s t : State} (i j : Nat) (h : Follows s₀ s)
    (e : s.pickRing p n i = some (j, t)) : Follows s₀ t := by
  induction n generalizing s i with
  | zero => cases e
  | succ n ih =>
    unfold State.pickRing at e
    split at e
    · cases e; exact modPart_follows _ _ h
    · exact ih _ (turn_follows _ _ h) e

theorem State.fetchIssue_follows {s₀ s : State} (h : Follows s₀ s) : Follows s₀ s.fetchIssue := by
  unfold State.fetchIssue
  split
  · exact h
  · split
    · exact h
    · rename_i e
      exact Follows.rec_ (issueBurst_follows _ _ (pickRing_follows _ _ _ _ h e)) (Nat.le_refl _) rfl rfl rfl rfl

theorem State.dispatchNext_follows {s₀ : State} {s : State} (p : Nat) (i : Nat) (h₀ : Follows s₀ s) :
    Follows s₀ (State.dispatchNext s p i) := by
  unfold State.dispatchNext
  with_reducible repeat' (first
    | assumption | apply setSq_follows | apply setPkt_follows | apply unitAdvance_follows
    | (intro (x : State); have hx : Follows s₀ x := (by dsimp only [x]; repeat' (first | assumption | apply setSq_follows | apply setPkt_follows | apply unitAdvance_follows | intro _ | split | simp only [Follows.keep] | simp +zetaDelta only [Follows.keep])))
    | lift_lets | (intro (x : Option _); clear_value x)
    | intro _ | split | simp only [Follows.keep] | simp +zetaDelta only [Follows.keep])

theorem State.lapDone_follows {s₀ : State} {s : State} (p : Nat) (r : Nat) (status : Nat) (h₀ : Follows s₀ s) :
    Follows s₀ (State.lapDone s p r status) := by
  unfold State.lapDone
  with_reducible repeat' (first
    | assumption | apply setLap_follows | apply complete_follows | apply completeX_follows
    | (intro (x : State); have hx : Follows s₀ x := (by dsimp only [x]; repeat' (first | assumption | apply setLap_follows | apply complete_follows | apply completeX_follows | intro _ | split | simp only [Follows.keep] | simp +zetaDelta only [Follows.keep])))
    | lift_lets | (intro (x : Option _); clear_value x)
    | intro _ | split | simp only [Follows.keep] | simp +zetaDelta only [Follows.keep])

theorem State.dropUnopened_follows {s₀ : State} {s : State} (p : Nat) (r : Nat) (status : Nat) (h₀ : Follows s₀ s) :
    Follows s₀ (State.dropUnopened s p r status) := by
  unfold State.dropUnopened
  with_reducible repeat' (first
    | assumption | intro (_ : State) _ (_ : Follows _ _) | intro _ (_ : State) (_ : Follows _ _) | apply setLap_follows | apply each_follows | apply failPkt_follows
    | (intro (x : State); have hx : Follows s₀ x := (by dsimp only [x]; repeat' (first | assumption | intro (_ : State) _ (_ : Follows _ _) | intro _ (_ : State) (_ : Follows _ _) | apply setLap_follows | apply each_follows | apply failPkt_follows | intro _ | split | simp only [Follows.keep] | simp +zetaDelta only [Follows.keep])))
    | lift_lets | (intro (x : Option _); clear_value x)
    | intro _ | split | simp only [Follows.keep] | simp +zetaDelta only [Follows.keep])

theorem State.modeSettle_follows {s₀ : State} {s : State} (p : Nat) (h₀ : Follows s₀ s) :
    Follows s₀ (State.modeSettle s p) := by
  unfold State.modeSettle
  with_reducible repeat' (first
    | assumption | apply modPart_follows | apply done_follows
    | intro _ | split | simp only [Follows.keep] | simp +zetaDelta only [Follows.keep])

theorem State.dropLapWaits_follows {s₀ : State} {s : State} (p : Nat) (r : Nat) (h₀ : Follows s₀ s) :
    Follows s₀ (State.dropLapWaits s p r) := by
  unfold State.dropLapWaits
  with_reducible repeat' (first
    | assumption | intro (_ : State) _ (_ : Follows _ _) | apply each_follows | apply setSem_follows | apply semServe_follows
    | (intro (x : State); have hx : Follows s₀ x := (by dsimp only [x]; repeat' (first | assumption | intro (_ : State) _ (_ : Follows _ _) | apply each_follows | apply setSem_follows | apply semServe_follows | intro _ | split | simp only [Follows.keep] | simp +zetaDelta only [Follows.keep])))
    | lift_lets | (intro (x : Option _); clear_value x)
    | intro _ | split | simp only [Follows.keep] | simp +zetaDelta only [Follows.keep])

theorem State.closeLap_follows {s₀ : State} {s : State} (p : Nat) (r : Nat) (h₀ : Follows s₀ s) :
    Follows s₀ (State.closeLap s p r) := by
  unfold State.closeLap
  with_reducible repeat' (first
    | assumption | apply dropLapWaits_follows | apply setLap_follows | apply modeSettle_follows
    | (intro (x : State); have hx : Follows s₀ x := (by dsimp only [x]; repeat' (first | assumption | apply dropLapWaits_follows | apply setLap_follows | apply modeSettle_follows | intro _ | split | simp only [Follows.keep] | simp +zetaDelta only [Follows.keep])))
    | lift_lets | (intro (x : Option _); clear_value x)
    | intro _ | split | simp only [Follows.keep] | simp +zetaDelta only [Follows.keep])

theorem State.sendBillet_follows {s₀ : State} {s : State} (p : Nat) (r : Nat) (o : Nat) (i : Nat) (n : Nat) (h₀ : Follows s₀ s) :
    Follows s₀ (State.sendBillet s p r o i n) := by
  unfold State.sendBillet
  with_reducible repeat' (first
    | assumption | apply sendNoted_follows
    | (intro (x : State); have hx : Follows s₀ x := (by dsimp only [x]; repeat' (first | assumption | apply sendNoted_follows | intro _ | split | simp only [Follows.keep] | simp +zetaDelta only [Follows.keep])))
    | lift_lets | (intro (x : Option _); clear_value x)
    | intro _ | split | simp only [Follows.keep] | simp +zetaDelta only [Follows.keep])

theorem State.answer_follows {s₀ : State} {s : State} (p : Nat) (dst : Nat) (back : Nat) (id : Nat) (epoch : Nat) (resend : Nat) (code : Nat) (first : Nat) (span : Nat) (ring : Nat) (h₀ : Follows s₀ s) :
    Follows s₀ (State.answer s p dst back id epoch resend code first span ring) := by
  unfold State.answer
  with_reducible repeat' (first
    | assumption | apply sendFrame_follows
    | intro _ | split)

theorem State.tokenFrame_follows {s₀ : State} {s : State} (p : Nat) (r : Nat) (t : Token) (h₀ : Follows s₀ s) :
    Follows s₀ (State.tokenFrame s p r t) := by
  unfold State.tokenFrame
  with_reducible repeat' (first
    | assumption | apply sendNoted_follows
    | (intro (x : State); have hx : Follows s₀ x := (by dsimp only [x]; repeat' (first | assumption | apply sendNoted_follows | intro _ | split | simp only [Follows.keep] | simp +zetaDelta only [Follows.keep])))
    | lift_lets | (intro (x : Option _); clear_value x)
    | intro _ | split | simp only [Follows.keep] | simp +zetaDelta only [Follows.keep])

theorem State.sendToken_follows {s₀ : State} {s : State} (p : Nat) (r : Nat) (pl : Plan) (code : Nat) (dst : Nat) (h₀ : Follows s₀ s) :
    Follows s₀ (State.sendToken s p r pl code dst) := by
  unfold State.sendToken
  with_reducible repeat' (first
    | assumption | apply setLap_follows | apply tokenFrame_follows
    | (intro (x : State); have hx : Follows s₀ x := (by dsimp only [x]; repeat' (first | assumption | apply setLap_follows | apply tokenFrame_follows | intro _ | split | simp only [Follows.keep] | simp +zetaDelta only [Follows.keep])))
    | lift_lets | (intro (x : Option _); clear_value x)
    | intro _ | split | simp only [Follows.keep] | simp +zetaDelta only [Follows.keep])

theorem State.resolved_follows {s₀ : State} {s : State} (l : Lap) (h₀ : Follows s₀ s) :
    Follows s₀ (State.resolved s l) := by
  unfold State.resolved
  with_reducible repeat' (first
    | assumption | apply done_follows | apply Follows.elim
    | intro _ | split | simp only [Follows.keep] | simp +zetaDelta only [Follows.keep])

theorem State.abortLap_follows {s₀ : State} {s : State} (p : Nat) (r : Nat) (h₀ : Follows s₀ s) :
    Follows s₀ (State.abortLap s p r) := by
  unfold State.abortLap
  with_reducible repeat' (first
    | assumption | apply setLap_follows | apply bump_follows | apply lapDone_follows | apply closeLap_follows | apply resolved_follows
    | (intro (x : State); have hx : Follows s₀ x := (by dsimp only [x]; repeat' (first | assumption | apply setLap_follows | apply bump_follows | apply lapDone_follows | apply closeLap_follows | apply resolved_follows | intro _ | split | simp only [Follows.keep] | simp +zetaDelta only [Follows.keep])))
    | lift_lets | (intro (x : Option _); clear_value x)
    | intro _ | split | simp only [Follows.keep] | simp +zetaDelta only [Follows.keep])

theorem State.originateAbort_follows {s₀ : State} {s : State} (p : Nat) (r : Nat) (h₀ : Follows s₀ s) :
    Follows s₀ (State.originateAbort s p r) := by
  unfold State.originateAbort
  with_reducible repeat' (first
    | assumption | apply sendToken_follows | apply abortLap_follows
    | (intro (x : State); have hx : Follows s₀ x := (by dsimp only [x]; repeat' (first | assumption | apply sendToken_follows | apply abortLap_follows | intro _ | split | simp only [Follows.keep] | simp +zetaDelta only [Follows.keep])))
    | lift_lets | (intro (x : Option _); clear_value x)
    | intro _ | split | simp only [Follows.keep] | simp +zetaDelta only [Follows.keep])

theorem State.poisonAbort_follows {s₀ : State} {s : State} (p : Nat) (r : Nat) (o : Nat) (h₀ : Follows s₀ s) :
    Follows s₀ (State.poisonAbort s p r o) := by
  unfold State.poisonAbort
  with_reducible repeat' (first
    | assumption | apply notePoison_follows | apply originateAbort_follows | apply Follows.elim
    | (intro (x : State); have hx : Follows s₀ x := (by dsimp only [x]; repeat' (first | assumption | apply notePoison_follows | apply originateAbort_follows | apply Follows.elim | intro _ | split | simp only [Follows.keep] | simp +zetaDelta only [Follows.keep])))
    | lift_lets | (intro (x : Option _); clear_value x)
    | intro _ | split | simp only [Follows.keep] | simp +zetaDelta only [Follows.keep])

theorem State.takeDetour_follows {s₀ : State} {s : State} (p : Nat) (r : Nat) (o : Nat) (h₀ : Follows s₀ s) :
    Follows s₀ (State.takeDetour s p r o) := by
  unfold State.takeDetour
  with_reducible repeat' (first
    | assumption | apply setLap_follows | apply poisonAbort_follows | apply event_follows | apply bump_follows | apply sendBillet_follows | apply Follows.elim
    | (intro (x : State); have hx : Follows s₀ x := (by dsimp only [x]; repeat' (first | assumption | apply setLap_follows | apply poisonAbort_follows | apply event_follows | apply bump_follows | apply sendBillet_follows | apply Follows.elim | intro _ | split | simp only [Follows.keep] | simp +zetaDelta only [Follows.keep])))
    | lift_lets | (intro (x : Option _); clear_value x)
    | intro _ | split | simp only [Follows.keep] | simp +zetaDelta only [Follows.keep])

theorem State.setToken_follows {s₀ : State} {s : State} (p : Nat) (r : Nat) (i : Nat) (t : Token) (h₀ : Follows s₀ s) :
    Follows s₀ (State.setToken s p r i t) := by
  unfold State.setToken
  with_reducible repeat' (first
    | assumption | apply modLap_follows
    | (intro (x : State); have hx : Follows s₀ x := (by dsimp only [x]; repeat' (first | assumption | apply modLap_follows | intro _ | split | simp only [Follows.keep] | simp +zetaDelta only [Follows.keep])))
    | lift_lets | (intro (x : Option _); clear_value x)
    | intro _ | split | simp only [Follows.keep] | simp +zetaDelta only [Follows.keep])

theorem State.tokenDetour_follows {s₀ : State} {s : State} (p : Nat) (r : Nat) (i : Nat) (h₀ : Follows s₀ s) :
    Follows s₀ (State.tokenDetour s p r i) := by
  unfold State.tokenDetour
  with_reducible repeat' (first
    | assumption | apply setToken_follows | apply modLap_follows | apply event_follows | apply bump_follows | apply tokenFrame_follows
    | (intro (x : State); have hx : Follows s₀ x := (by dsimp only [x]; repeat' (first | assumption | apply setToken_follows | apply modLap_follows | apply event_follows | apply bump_follows | apply tokenFrame_follows | intro _ | split | simp only [Follows.keep] | simp +zetaDelta only [Follows.keep])))
    | lift_lets | (intro (x : Option _); clear_value x)
    | intro _ | split | simp only [Follows.keep] | simp +zetaDelta only [Follows.keep])

theorem State.hopsDown_follows {s₀ : State} {s : State} (d : Nat) (h₀ : Follows s₀ s) :
    Follows s₀ (State.hopsDown s d) := by
  unfold State.hopsDown
  with_reducible repeat' (first
    | assumption | intro (_ : State) _ (_ : Follows _ _) | apply each_follows | apply tokenDetour_follows | apply takeDetour_follows
    | (intro (x : State); have hx : Follows s₀ x := (by dsimp only [x]; repeat' (first | assumption | intro (_ : State) _ (_ : Follows _ _) | apply each_follows | apply tokenDetour_follows | apply takeDetour_follows | intro _ | split | simp only [Follows.keep] | simp +zetaDelta only [Follows.keep])))
    | lift_lets | (intro (x : Option _); clear_value x)
    | intro _ | split | simp only [Follows.keep] | simp +zetaDelta only [Follows.keep])

theorem State.gradWrite_follows {s₀ : State} {s : State} (p : Nat) (b : BRec) (epoch : Nat) (loc : Nat) (sr : Bool) (f : State → Nat → List Nat) (h₀ : Follows s₀ s) :
    Follows s₀ (State.gradWrite s p b epoch loc sr f) := by
  unfold State.gradWrite
  with_reducible repeat' (first
    | assumption | intro (_ : State) _ (_ : Follows _ _) | intro _ (_ : State) (_ : Follows _ _) | apply each_follows | apply writeHearth_follows
    | (intro (x : State); have hx : Follows s₀ x := (by dsimp only [x]; repeat' (first | assumption | intro (_ : State) _ (_ : Follows _ _) | intro _ (_ : State) (_ : Follows _ _) | apply each_follows | apply writeHearth_follows | intro _ | split | simp only [Follows.keep] | simp +zetaDelta only [Follows.keep])))
    | lift_lets | (intro (x : Option _); clear_value x)
    | intro _ | split | simp only [Follows.keep] | simp +zetaDelta only [Follows.keep])

theorem State.gradAdd_follows {s₀ : State} {s : State} (p : Nat) (b : BRec) (epoch : Nat) (loc : Nat) (sr : Bool) (h₀ : Follows s₀ s) :
    Follows s₀ (State.gradAdd s p b epoch loc sr) := by
  unfold State.gradAdd
  with_reducible repeat' (first
    | assumption | apply gradWrite_follows
    | (intro (x : State); have hx : Follows s₀ x := (by dsimp only [x]; repeat' (first | assumption | apply gradWrite_follows | intro _ | split | simp only [Follows.keep] | simp +zetaDelta only [Follows.keep])))
    | lift_lets | (intro (x : Option _); clear_value x)
    | intro _ | split | simp only [Follows.keep] | simp +zetaDelta only [Follows.keep])

theorem State.gradSeed_follows {s₀ : State} {s : State} (p : Nat) (b : BRec) (epoch : Nat) (loc : Nat) (sr : Bool) (h₀ : Follows s₀ s) :
    Follows s₀ (State.gradSeed s p b epoch loc sr) := by
  unfold State.gradSeed
  with_reducible repeat' (first
    | assumption | apply gradWrite_follows
    | intro _ | split | simp only [Follows.keep] | simp +zetaDelta only [Follows.keep])

theorem State.optBillet_follows {s₀ : State} {s : State} (p : Nat) (j : LapJob) (b : BRec) (g : BRec) (gloc : Nat) (h₀ : Follows s₀ s) :
    Follows s₀ (State.optBillet s p j b g gloc) := by
  unfold State.optBillet
  with_reducible repeat' (first
    | assumption | intro (_ : State) _ (_ : Follows _ _) | apply writeHearth_follows | apply each_follows
    | (intro (x : State); have hx : Follows s₀ x := (by dsimp only [x]; repeat' (first | assumption | intro (_ : State) _ (_ : Follows _ _) | apply writeHearth_follows | apply each_follows | intro _ | split)))
    | lift_lets | (intro (x : Option _); clear_value x)
    | intro _ | split)

theorem State.applyCommit_follows {s₀ : State} {s : State} (p : Nat) (r : Nat) (h₀ : Follows s₀ s) :
    Follows s₀ (State.applyCommit s p r) := by
  unfold State.applyCommit
  with_reducible repeat' (first
    | assumption | intro (_ : State) _ (_ : Follows _ _) | apply modLap_follows | apply each_follows | apply optBillet_follows
    | (intro (x : State); have hx : Follows s₀ x := (by dsimp only [x]; repeat' (first | assumption | intro (_ : State) _ (_ : Follows _ _) | apply modLap_follows | apply each_follows | apply optBillet_follows | intro _ | split | simp only [Follows.keep] | simp +zetaDelta only [Follows.keep])))
    | lift_lets | (intro (x : Option _); clear_value x)
    | intro _ | split | simp only [Follows.keep] | simp +zetaDelta only [Follows.keep])

theorem State.commitLap_follows {s₀ : State} {s : State} (p : Nat) (r : Nat) (h₀ : Follows s₀ s) :
    Follows s₀ (State.commitLap s p r) := by
  unfold State.commitLap
  with_reducible repeat' (first
    | assumption | apply modLap_follows | apply applyCommit_follows | apply lapDone_follows | apply closeLap_follows | apply resolved_follows
    | (intro (x : State); have hx : Follows s₀ x := (by dsimp only [x]; repeat' (first | assumption | apply modLap_follows | apply applyCommit_follows | apply lapDone_follows | apply closeLap_follows | apply resolved_follows | intro _ | split | simp only [Follows.keep] | simp +zetaDelta only [Follows.keep])))
    | lift_lets | (intro (x : Option _); clear_value x)
    | intro _ | split | simp only [Follows.keep] | simp +zetaDelta only [Follows.keep])

theorem State.phaseSettle_follows {s₀ : State} {s : State} (p : Nat) (r : Nat) (h₀ : Follows s₀ s) :
    Follows s₀ (State.phaseSettle s p r) := by
  unfold State.phaseSettle
  with_reducible repeat' (first
    | assumption | apply forward_follows | apply setLap_follows
    | (intro (x : State); have hx : Follows s₀ x := (by dsimp only [x]; repeat' (first | assumption | apply forward_follows | apply setLap_follows | intro _ | split | simp only [Follows.keep] | simp +zetaDelta only [Follows.keep])))
    | lift_lets | (intro (x : Option _); clear_value x)
    | intro _ | split | simp only [Follows.keep] | simp +zetaDelta only [Follows.keep])

theorem State.sendPrepare_follows {s₀ : State} {s : State} (p : Nat) (r : Nat) (h₀ : Follows s₀ s) :
    Follows s₀ (State.sendPrepare s p r) := by
  unfold State.sendPrepare
  with_reducible repeat' (first
    | assumption | apply setLap_follows | apply sendToken_follows
    | (intro (x : State); have hx : Follows s₀ x := (by dsimp only [x]; repeat' (first | assumption | apply setLap_follows | apply sendToken_follows | intro _ | split | simp only [Follows.keep] | simp +zetaDelta only [Follows.keep])))
    | lift_lets | (intro (x : Option _); clear_value x)
    | intro _ | split | simp only [Follows.keep] | simp +zetaDelta only [Follows.keep])

theorem State.setTable_follows {s₀ : State} {s : State} (p : Nat) (i : Nat) (b : List Byte) (h₀ : Follows s₀ s) :
    Follows s₀ (State.setTable s p i b) := by
  unfold State.setTable
  with_reducible repeat' (first
    | assumption | apply modPart_follows
    | intro _ | split | simp only [Follows.keep] | simp +zetaDelta only [Follows.keep])

theorem State.notePwlNan_follows {s₀ : State} {s : State} (p : Nat) (src : Nat) (n : Nat) (h₀ : Follows s₀ s) :
    Follows s₀ (State.notePwlNan s p src n) := by
  unfold State.notePwlNan
  with_reducible repeat' (first
    | assumption | apply bumpBy_follows | apply event_follows
    | intro _ | split)

theorem State.onceEvent_follows {s₀ : State} {s : State} (code : Nat) (src : Nat) (p : Nat) (n : Nat) (h₀ : Follows s₀ s) :
    Follows s₀ (State.onceEvent s code src p n) := by
  unfold State.onceEvent
  with_reducible repeat' (first
    | assumption | apply event_follows
    | intro _ | split)

end Sys2Proof.Machine
end

