-- ==== Sys2Proof/Laws/FollowUnits.lean ====
section
/-! SUPPORT. Follow lemmas: lightbank, sequence, tong, fault, anvil and flash operations follow. -/
namespace Sys2Proof.Machine

theorem State.setBank_follows {s₀ : State} {s : State} (b : Nat) (x : Bank) (h₀ : Follows s₀ s) :
    Follows s₀ (State.setBank s b x) := by
  unfold State.setBank
  with_reducible repeat' (first
    | assumption
    | intro _ | split | simp only [Follows.keep] | simp +zetaDelta only [Follows.keep])

theorem State.modBank_follows {s₀ : State} {s : State} (b : Nat) (f : Bank → Bank) (h₀ : Follows s₀ s) :
    Follows s₀ (State.modBank s b f) := by
  unfold State.modBank
  with_reducible repeat' (first
    | assumption | apply setBank_follows
    | intro _ | split)

theorem State.setBlock_follows {s₀ : State} {s : State} (b : Nat) (k : Nat) (x : LBlock) (h₀ : Follows s₀ s) :
    Follows s₀ (State.setBlock s b k x) := by
  unfold State.setBlock
  with_reducible repeat' (first
    | assumption | apply modBank_follows | apply setRf_follows
    | intro _ | split | simp only [Follows.keep] | simp +zetaDelta only [Follows.keep])

theorem State.bankEvent_follows {s₀ : State} {s : State} (code : Nat) (b : Nat) (det : List Nat) (h₀ : Follows s₀ s) :
    Follows s₀ (State.bankEvent s code b det) := by
  unfold State.bankEvent
  with_reducible repeat' (first
    | assumption | apply eventD_follows
    | intro _ | split)

theorem State.freeCodes_follows {s₀ : State} (n : Nat) {s : State} (h : Follows s₀ s) : Follows s₀ (State.freeCodes n s).2 := by
  induction n generalizing s with
  | zero => exact h
  | succ n ih => exact ih (free_follows h)

theorem State.encodeRow_follows {s₀ : State} {s : State} (us : List Nat) (h₀ : Follows s₀ s) :
    Follows s₀ (State.encodeRow s us).2 := by
  unfold State.encodeRow
  split
  · exact h₀
  · exact freeCodes_follows _ (free_follows h₀)

theorem State.refitRow_follows {s₀ s : State} (b r : Nat) (h : Follows s₀ s) : Follows s₀ (s.refitRow b r) := by
  have k : ∀ f : Bank → Bank, Follows s₀ (s.modBank b f) := fun f => modBank_follows _ f h
  unfold State.refitRow
  exact Follows.skip (k _) (by show s.freeCtr ≤ _; omega)

theorem State.blockFall_follows {s₀ : State} {s : State} (b : Nat) (k : Nat) (reason : Nat) (h₀ : Follows s₀ s) :
    Follows s₀ (State.blockFall s b k reason) := by
  unfold State.blockFall
  with_reducible repeat' (first
    | assumption | apply setBlock_follows | apply bankEvent_follows
    | (intro (x : State); have hx : Follows s₀ x := (by dsimp only [x]; repeat' (first | assumption | apply setBlock_follows | apply bankEvent_follows | intro _ | split | simp only [Follows.keep] | simp +zetaDelta only [Follows.keep])))
    | lift_lets | (intro (x : Option _); clear_value x)
    | intro _ | split | simp only [Follows.keep] | simp +zetaDelta only [Follows.keep])

theorem State.blockLift_follows {s₀ : State} {s : State} (b : Nat) (k : Nat) (reasons : List Nat) (h₀ : Follows s₀ s) :
    Follows s₀ (State.blockLift s b k reasons) := by
  unfold State.blockLift
  with_reducible repeat' (first
    | assumption | apply setBlock_follows | apply released_follows
    | (intro (x : State); have hx : Follows s₀ x := (by dsimp only [x]; repeat' (first | assumption | apply setBlock_follows | apply released_follows | intro _ | split | simp only [Follows.keep] | simp +zetaDelta only [Follows.keep])))
    | lift_lets | (intro (x : Option _); clear_value x)
    | intro _ | split | simp only [Follows.keep] | simp +zetaDelta only [Follows.keep])

theorem State.bankFall_follows {s₀ : State} {s : State} (b : Nat) (reason : Nat) (h₀ : Follows s₀ s) :
    Follows s₀ (State.bankFall s b reason) := by
  unfold State.bankFall
  with_reducible repeat' (first
    | assumption | intro (_ : State) _ (_ : Follows _ _) | apply each_follows | apply blockFall_follows
    | intro _ | split)

theorem State.setHealth_follows {s₀ : State} {s : State} (b : Nat) (r : Nat) (h : Nat) (h₀ : Follows s₀ s) :
    Follows s₀ (State.setHealth s b r h) := by
  unfold State.setHealth
  with_reducible repeat' (first
    | assumption | apply setRf_follows
    | intro _ | split)

theorem State.sweepDone_follows {s₀ : State} {s : State} (b : Nat) (h₀ : Follows s₀ s) :
    Follows s₀ (State.sweepDone s b) := by
  unfold State.sweepDone
  with_reducible repeat' (first
    | assumption | intro (_ : State) _ (_ : Follows _ _) | apply modBank_follows | apply each_follows | apply complete_follows
    | (intro (x : State); have hx : Follows s₀ x := (by dsimp only [x]; repeat' (first | assumption | intro (_ : State) _ (_ : Follows _ _) | apply modBank_follows | apply each_follows | apply complete_follows | intro _ | split | simp only [Follows.keep] | simp +zetaDelta only [Follows.keep])))
    | lift_lets | (intro (x : Option _); clear_value x)
    | intro _ | split | simp only [Follows.keep] | simp +zetaDelta only [Follows.keep])

theorem State.spareCheck_follows {s₀ : State} {s : State} (b : Nat) (h₀ : Follows s₀ s) :
    Follows s₀ (State.spareCheck s b) := by
  unfold State.spareCheck
  with_reducible repeat' (first
    | assumption | apply bankEvent_follows | apply modBank_follows | apply sweepDone_follows
    | (intro (x : State); have hx : Follows s₀ x := (by dsimp only [x]; repeat' (first | assumption | apply bankEvent_follows | apply modBank_follows | apply sweepDone_follows | intro _ | split | simp only [Follows.keep] | simp +zetaDelta only [Follows.keep])))
    | lift_lets | (intro (x : Option _); clear_value x)
    | intro _ | split | simp only [Follows.keep] | simp +zetaDelta only [Follows.keep])

theorem State.stopRotation_follows {s₀ : State} {s : State} (b : Nat) (h₀ : Follows s₀ s) :
    Follows s₀ (State.stopRotation s b) := by
  unfold State.stopRotation
  with_reducible repeat' (first
    | assumption | apply setHealth_follows | apply modBank_follows
    | (intro (x : State); have hx : Follows s₀ x := (by dsimp only [x]; repeat' (first | assumption | apply setHealth_follows | apply modBank_follows | intro _ | split | simp only [Follows.keep] | simp +zetaDelta only [Follows.keep])))
    | lift_lets | (intro (x : Option _); clear_value x)
    | intro _ | split | simp only [Follows.keep] | simp +zetaDelta only [Follows.keep])

theorem State.sweepEnd_follows {s₀ : State} {s : State} (b : Nat) (h₀ : Follows s₀ s) :
    Follows s₀ (State.sweepEnd s b) := by
  unfold State.sweepEnd
  with_reducible repeat' (first
    | assumption | intro (_ : State) _ (_ : Follows _ _) | intro _ (_ : State) (_ : Follows _ _) | apply each_follows | apply blockLift_follows | apply modBank_follows | apply sweepDone_follows
    | (intro (x : State); have hx : Follows s₀ x := (by dsimp only [x]; repeat' (first | assumption | intro (_ : State) _ (_ : Follows _ _) | intro _ (_ : State) (_ : Follows _ _) | apply each_follows | apply blockLift_follows | apply modBank_follows | apply sweepDone_follows | intro _ | split | simp only [Follows.keep] | simp +zetaDelta only [Follows.keep])))
    | lift_lets | (intro (x : Option _); clear_value x)
    | intro _ | split | simp only [Follows.keep] | simp +zetaDelta only [Follows.keep])

theorem State.programRow_follows {s₀ : State} {s : State} (b : Nat) (r : Nat) (l : Nat) (h₀ : Follows s₀ s) :
    Follows s₀ (State.programRow s b r l) := by
  unfold State.programRow
  with_reducible repeat' (first
    | assumption | apply modBank_follows
    | (intro (x : State); have hx : Follows s₀ x := (by dsimp only [x]; repeat' (first | assumption | apply modBank_follows | intro _ | split | simp only [Follows.keep] | simp +zetaDelta only [Follows.keep])))
    | lift_lets | (intro (x : Option _); clear_value x)
    | intro _ | split | simp only [Follows.keep] | simp +zetaDelta only [Follows.keep])

theorem State.rotate_follows {s₀ : State} {s : State} (b : Nat) (r : Nat) (sp : Nat) (h₀ : Follows s₀ s) :
    Follows s₀ (State.rotate s b r sp) := by
  unfold State.rotate
  with_reducible repeat' (first
    | assumption | apply programRow_follows | apply modBank_follows
    | (intro (x : State); have hx : Follows s₀ x := (by dsimp only [x]; repeat' (first | assumption | apply programRow_follows | apply modBank_follows | intro _ | split | simp only [Follows.keep] | simp +zetaDelta only [Follows.keep])))
    | lift_lets | (intro (x : Option _); clear_value x)
    | intro _ | split | simp only [Follows.keep] | simp +zetaDelta only [Follows.keep])

theorem State.visitRow_follows {s₀ : State} {s : State} (b : Nat) (r : Nat) (h₀ : Follows s₀ s) :
    Follows s₀ (State.visitRow s b r) := by
  unfold State.visitRow
  with_reducible repeat' (first
    | assumption | apply rotate_follows | apply setHealth_follows | apply modBank_follows
    | intro _ | split | simp only [Follows.keep] | simp +zetaDelta only [Follows.keep])

theorem State.nextVisit_follows {s₀ : State} (n : Nat) {s : State} (b : Nat) (h : Follows s₀ s) :
    Follows s₀ (State.nextVisit n s b) := by
  induction n generalizing s with
  | zero => exact h
  | succ n ih =>
    unfold State.nextVisit
    with_reducible repeat' (first
      | assumption | apply ih | apply setBank_follows | apply visitRow_follows | apply sweepEnd_follows | lift_lets | intro _ | split)

theorem State.startSweep_follows {s₀ : State} {s : State} (b : Nat) (h₀ : Follows s₀ s) :
    Follows s₀ (State.startSweep s b) := by
  unfold State.startSweep
  with_reducible repeat' (first
    | assumption | apply modBank_follows | apply nextVisit_follows
    | (intro (x : State); have hx : Follows s₀ x := (by dsimp only [x]; repeat' (first | assumption | apply modBank_follows | apply nextVisit_follows | intro _ | split | simp only [Follows.keep] | simp +zetaDelta only [Follows.keep])))
    | lift_lets | (intro (x : Option _); clear_value x)
    | intro _ | split | simp only [Follows.keep] | simp +zetaDelta only [Follows.keep])

theorem State.programBlock_follows {s₀ s : State} (p line li : Nat) (l : LayerRec) (x : Place) (h : Follows s₀ s) :
    Follows s₀ (s.programBlock p line li l x) := by
  obtain ⟨b, ib, ic, io, rb, rc, ro⟩ := x
  refine each_follows _ (setReg_follows _ _ (setReg_follows _ _ (setBlock_follows _ _ _ (Follows.foldl2 _ ?_ ?_)))) ?_
  · exact h
  · intro a us k; exact encodeRow_follows us k
  · intro t i k; exact programRow_follows _ _ _ k

theorem State.programLayer_follows {s₀ : State} {s : State} (p : Nat) (line : Nat) (li : Nat) (l : LayerRec) (h₀ : Follows s₀ s) :
    Follows s₀ (State.programLayer s p line li l) := by
  unfold State.programLayer
  with_reducible repeat' (first
    | assumption | intro (_ : State) _ (_ : Follows _ _) | apply each_follows | apply programBlock_follows | apply startSweep_follows
    | intro _ | split | simp only [Follows.keep] | simp +zetaDelta only [Follows.keep])

theorem State.clearBlocks_follows {s₀ : State} {s : State} (sel : LBlock → Bool) (h₀ : Follows s₀ s) :
    Follows s₀ (State.clearBlocks s sel) := by
  unfold State.clearBlocks
  with_reducible repeat' (first
    | assumption | intro (_ : State) _ (_ : Follows _ _) | apply each_follows | apply modBank_follows | apply setReg_follows
    | intro _ | split | simp only [Follows.keep] | simp +zetaDelta only [Follows.keep])

theorem State.noteDesc_follows {s₀ : State} {s : State} (p : Nat) (pk : List Byte) (reroute : Bool) (h₀ : Follows s₀ s) :
    Follows s₀ (State.noteDesc s p pk reroute) := by
  unfold State.noteDesc
  with_reducible repeat' (first
    | assumption | apply notePoison_follows
    | intro _ | split | simp only [Follows.keep] | simp +zetaDelta only [Follows.keep])

theorem State.sendLine_follows {s₀ : State} {s : State} (p : Nat) (l : Line) (body : List Byte) (h₀ : Follows s₀ s) :
    Follows s₀ (State.sendLine s p l body) := by
  unfold State.sendLine
  with_reducible repeat' (first
    | assumption | apply sendFrame_follows
    | intro _ | split)

theorem State.seqEvent_follows {s₀ : State} {s : State} (code : Nat) (p : Nat) (line : Nat) (h₀ : Follows s₀ s) :
    Follows s₀ (State.seqEvent s code p line) := by
  unfold State.seqEvent
  with_reducible repeat' (first
    | assumption | apply event_follows
    | intro _ | split)

theorem State.noticeBroken_follows {s₀ : State} {s : State} (p : Nat) (l : Line) (h₀ : Follows s₀ s) :
    Follows s₀ (State.noticeBroken s p l) := by
  unfold State.noticeBroken
  with_reducible repeat' (first
    | assumption | apply sendFrame_follows | apply seqEvent_follows
    | intro _ | split)

theorem State.noticeAll_follows {s₀ : State} {s : State} (p : Nat) (h₀ : Follows s₀ s) :
    Follows s₀ (State.noticeAll s p) := by
  unfold State.noticeAll
  with_reducible repeat' (first
    | assumption | intro (_ : State) _ (_ : Follows _ _) | apply each_follows | apply noticeBroken_follows
    | intro _ | split)

theorem State.linesDown_follows {s₀ : State} {s : State} (d : Nat) (h₀ : Follows s₀ s) :
    Follows s₀ (State.linesDown s d) := by
  unfold State.linesDown
  with_reducible repeat' (first
    | assumption | intro (_ : State) _ (_ : Follows _ _) | apply each_follows | apply noticeBroken_follows
    | intro _ | split)

theorem State.putSlot_follows {s₀ : State} {s : State} (p : Nat) (x : SSlot) (h₀ : Follows s₀ s) :
    Follows s₀ (State.putSlot s p x) := by
  unfold State.putSlot
  with_reducible repeat' (first
    | assumption | apply modPart_follows
    | intro _ | split | simp only [Follows.keep] | simp +zetaDelta only [Follows.keep])

theorem State.freeSlot_follows {s₀ : State} {s : State} (p : Nat) (line : Nat) (stream : Nat) (h₀ : Follows s₀ s) :
    Follows s₀ (State.freeSlot s p line stream) := by
  unfold State.freeSlot
  with_reducible repeat' (first
    | assumption | apply modPart_follows
    | intro _ | split | simp only [Follows.keep] | simp +zetaDelta only [Follows.keep])

theorem State.freePark_follows {s₀ : State} {s : State} (p : Nat) (line : Nat) (stream : Nat) (h₀ : Follows s₀ s) :
    Follows s₀ (State.freePark s p line stream) := by
  unfold State.freePark
  with_reducible repeat' (first
    | assumption | apply modPart_follows
    | intro _ | split | simp only [Follows.keep] | simp +zetaDelta only [Follows.keep])

theorem State.modLayer_follows {s₀ : State} {s : State} (p : Nat) (line : Nat) (stream : Nat) (li : Nat) (f : LayerSt → LayerSt) (h₀ : Follows s₀ s) :
    Follows s₀ (State.modLayer s p line stream li f) := by
  unfold State.modLayer
  with_reducible repeat' (first
    | assumption | apply putSlot_follows
    | intro _ | split | simp only [Follows.keep] | simp +zetaDelta only [Follows.keep])

theorem State.setTerm_follows {s₀ : State} {s : State} (p : Nat) (line : Nat) (stream : Nat) (li : Nat) (u : List Nat) (div : Bool) (fb : Bool) (h₀ : Follows s₀ s) :
    Follows s₀ (State.setTerm s p line stream li u div fb) := by
  unfold State.setTerm
  with_reducible repeat' (first
    | assumption | apply modLayer_follows
    | intro _ | split | simp only [Follows.keep] | simp +zetaDelta only [Follows.keep])

theorem State.countFall_follows {s₀ : State} {s : State} (b : Nat) (k : Nat) (h₀ : Follows s₀ s) :
    Follows s₀ (State.countFall s b k) := by
  unfold State.countFall
  with_reducible repeat' (first
    | assumption | apply setBlock_follows
    | intro _ | split | simp only [Follows.keep] | simp +zetaDelta only [Follows.keep])

theorem State.startTerm_follows {s₀ : State} {s : State} (p : Nat) (line : Nat) (stream : Nat) (li : Nat) (l : LayerRec) (h : List Nat) (h₀ : Follows s₀ s) :
    Follows s₀ (State.startTerm s p line stream li l h) := by
  unfold State.startTerm
  with_reducible repeat' (first
    | assumption | intro (_ : State) _ (_ : Follows _ _) | intro _ (_ : State) (_ : Follows _ _) | apply bump_follows | apply setTerm_follows | apply each_follows | apply setBlock_follows | apply modPart_follows | apply bankEvent_follows | apply countFall_follows
    | (intro (x : State); have hx : Follows s₀ x := (by dsimp only [x]; repeat' (first | assumption | intro (_ : State) _ (_ : Follows _ _) | intro _ (_ : State) (_ : Follows _ _) | apply bump_follows | apply setTerm_follows | apply each_follows | apply setBlock_follows | apply modPart_follows | apply bankEvent_follows | apply countFall_follows | intro _ | split | simp only [Follows.keep] | simp +zetaDelta only [Follows.keep])))
    | lift_lets | (intro (x : Option _); clear_value x)
    | intro _ | split | simp only [Follows.keep] | simp +zetaDelta only [Follows.keep])

theorem State.fillSlot_follows {s₀ : State} {s : State} (p : Nat) (l : Line) (stream : Nat) (st : SlotSt) (ls : List LayerSt) (h₀ : Follows s₀ s) :
    Follows s₀ (State.fillSlot s p l stream st ls) := by
  unfold State.fillSlot
  with_reducible repeat' (first
    | assumption | intro (_ : State) _ (_ : Follows _ _) | apply putSlot_follows | apply each_follows | apply startTerm_follows
    | (intro (x : State); have hx : Follows s₀ x := (by dsimp only [x]; repeat' (first | assumption | intro (_ : State) _ (_ : Follows _ _) | apply putSlot_follows | apply each_follows | apply startTerm_follows | intro _ | split)))
    | lift_lets | (intro (x : Option _); clear_value x)
    | intro _ | split)

theorem State.layerEnv_follows {s₀ : State} {s : State} (p : Nat) (ln : Line) (l : LayerRec) (h₀ : Follows s₀ s) :
    Follows s₀ (State.layerEnv s p ln l).2 := by
  unfold State.layerEnv
  with_reducible repeat' (first
    | assumption | apply load_follows | apply Follows.pair ‹_ = (_, _)›
    | (intro (x : State); have hx : Follows s₀ x := (by dsimp only [x]; repeat' (first | assumption | apply load_follows | apply Follows.pair ‹_ = (_, _)› | intro _ | split | dsimp -zeta only | simp only [Follows.keep] | simp +zetaDelta only [Follows.keep])))
    | lift_lets | (intro (x : Option _); clear_value x)
    | intro _ | split | dsimp -zeta only | simp only [Follows.keep] | simp +zetaDelta only [Follows.keep])

theorem State.sendFail_follows {s₀ : State} {s : State} (p : Nat) (l : Line) (h : List Byte) (st : Nat) (h₀ : Follows s₀ s) :
    Follows s₀ (State.sendFail s p l h st) := by
  unfold State.sendFail
  with_reducible repeat' (first
    | assumption | apply sendFrame_follows
    | intro _ | split | simp only [Follows.keep] | simp +zetaDelta only [Follows.keep])

theorem State.sendBroken_follows {s₀ : State} {s : State} (p : Nat) (l : Line) (h : List Byte) (h₀ : Follows s₀ s) :
    Follows s₀ (State.sendBroken s p l h) := by
  unfold State.sendBroken
  with_reducible repeat' (first
    | assumption | apply sendFrame_follows
    | intro _ | split | simp only [Follows.keep] | simp +zetaDelta only [Follows.keep])

theorem State.noteNanToInt_follows {s₀ : State} {s : State} (p : Nat) (src : Nat) (n : Nat) (h₀ : Follows s₀ s) :
    Follows s₀ (State.noteNanToInt s p src n) := by
  unfold State.noteNanToInt
  with_reducible repeat' (first
    | assumption | apply bumpBy_follows | apply event_follows
    | intro _ | split)

theorem State.handOff_follows {s₀ : State} {s : State} (p : Nat) (l : Line) (w : Work) (h₀ : Follows s₀ s) :
    Follows s₀ (State.handOff s p l w) := by
  unfold State.handOff
  with_reducible repeat' (first
    | assumption | apply noteNanToInt_follows | apply sendFrame_follows
    | (intro (x : State); have hx : Follows s₀ x := (by dsimp only [x]; repeat' (first | assumption | apply noteNanToInt_follows | apply sendFrame_follows | intro _ | split | simp only [Follows.keep] | simp +zetaDelta only [Follows.keep])))
    | lift_lets | (intro (x : Option _); clear_value x)
    | intro _ | split | simp only [Follows.keep] | simp +zetaDelta only [Follows.keep])

theorem State.noteTally_follows {s₀ : State} {s : State} (p : Nat) (line : Nat) (r : LayerRec) (t : Tally) (h₀ : Follows s₀ s) :
    Follows s₀ (State.noteTally s p line r t) := by
  unfold State.noteTally
  with_reducible repeat' (first
    | assumption | intro (_ : State) _ (_ : Follows _ _) | intro _ (_ : State) (_ : Follows _ _) | apply each_follows | apply bump_follows | apply bumpBy_follows | apply onceEvent_follows | apply noteNanToInt_follows | apply notePwlNan_follows
    | (intro (x : State); have hx : Follows s₀ x := (by dsimp only [x]; repeat' (first | assumption | intro (_ : State) _ (_ : Follows _ _) | intro _ (_ : State) (_ : Follows _ _) | apply each_follows | apply bump_follows | apply bumpBy_follows | apply onceEvent_follows | apply noteNanToInt_follows | apply notePwlNan_follows | intro _ | split | simp only [Follows.keep] | simp +zetaDelta only [Follows.keep])))
    | lift_lets | (intro (x : Option _); clear_value x)
    | intro _ | split | simp only [Follows.keep] | simp +zetaDelta only [Follows.keep])

theorem State.addWork_follows {s₀ : State} {s : State} (p : Nat) (l : Line) (hdr : List Byte) (xs : List (List Nat)) (flags : Nat) (buf : Bool) (h₀ : Follows s₀ s) :
    Follows s₀ (State.addWork s p l hdr xs flags buf) := by
  unfold State.addWork
  with_reducible repeat' (first
    | assumption | apply putSlot_follows | apply modPart_follows
    | (intro (x : State); have hx : Follows s₀ x := (by dsimp only [x]; repeat' (first | assumption | apply putSlot_follows | apply modPart_follows | intro _ | split | simp only [Follows.keep] | simp +zetaDelta only [Follows.keep])))
    | lift_lets | (intro (x : Option _); clear_value x)
    | intro _ | split | simp only [Follows.keep] | simp +zetaDelta only [Follows.keep])

theorem State.leaveWork_follows {s₀ : State} {s : State} (p : Nat) (w : Work) (h₀ : Follows s₀ s) :
    Follows s₀ (State.leaveWork s p w) := by
  unfold State.leaveWork
  with_reducible repeat' (first
    | assumption | apply putSlot_follows
    | intro _ | split | simp only [Follows.keep] | simp +zetaDelta only [Follows.keep])

theorem State.putStrm_follows {s₀ : State} {s : State} (p : Nat) (x : Strm) (h₀ : Follows s₀ s) :
    Follows s₀ (State.putStrm s p x) := by
  unfold State.putStrm
  with_reducible repeat' (first
    | assumption | apply modPart_follows
    | intro _ | split | simp only [Follows.keep] | simp +zetaDelta only [Follows.keep])

theorem State.dropStrm_follows {s₀ : State} {s : State} (p : Nat) (line : Nat) (stream : Nat) (h₀ : Follows s₀ s) :
    Follows s₀ (State.dropStrm s p line stream) := by
  unfold State.dropStrm
  with_reducible repeat' (first
    | assumption | apply modPart_follows
    | intro _ | split | simp only [Follows.keep] | simp +zetaDelta only [Follows.keep])

theorem State.tear_follows {s₀ : State} {s : State} (p : Nat) (line : Nat) (stream : Nat) (h₀ : Follows s₀ s) :
    Follows s₀ (State.tear s p line stream) := by
  unfold State.tear
  with_reducible repeat' (first
    | assumption | apply putStrm_follows | apply bump_follows | apply seqEvent_follows
    | intro _ | split | simp only [Follows.keep] | simp +zetaDelta only [Follows.keep])

theorem State.modJob_follows {s₀ : State} {s : State} (p : Nat) (k : Nat) (f : Job → Job) (h₀ : Follows s₀ s) :
    Follows s₀ (State.modJob s p k f) := by
  unfold State.modJob
  with_reducible repeat' (first
    | assumption | apply modPart_follows
    | intro _ | split | simp only [Follows.keep] | simp +zetaDelta only [Follows.keep])

theorem State.dropJob_follows {s₀ : State} {s : State} (p : Nat) (k : Nat) (h₀ : Follows s₀ s) :
    Follows s₀ (State.dropJob s p k) := by
  unfold State.dropJob
  with_reducible repeat' (first
    | assumption | apply modPart_follows
    | intro _ | split | simp only [Follows.keep] | simp +zetaDelta only [Follows.keep])

theorem State.endJobX_follows {s₀ : State} {s : State} (p : Nat) (j : Job) (st : Nat) (note : Nat) (out : Nat) (ev : Nat) (off : Nat) (h₀ : Follows s₀ s) :
    Follows s₀ (State.endJobX s p j st note out ev off) := by
  unfold State.endJobX
  with_reducible repeat' (first
    | assumption | apply dropJob_follows | apply completeX_follows
    | (intro (x : State); have hx : Follows s₀ x := (by dsimp only [x]; repeat' (first | assumption | apply dropJob_follows | apply completeX_follows | intro _ | split)))
    | lift_lets | (intro (x : Option _); clear_value x)
    | intro _ | split)

theorem State.endJob_follows {s₀ : State} {s : State} (p : Nat) (j : Job) (st : Nat) (note : Nat) (out : Nat) (h₀ : Follows s₀ s) :
    Follows s₀ (State.endJob s p j st note out) := by
  unfold State.endJob
  with_reducible repeat' (first
    | assumption | apply endJobX_follows
    | intro _ | split)

theorem State.gather_follows {s₀ : State} {s : State} (p : Nat) (j : Job) (hearth : Bool) (a : Nat) (n : Nat) (h₀ : Follows s₀ s) :
    Follows s₀ (State.gather s p j hearth a n) := by
  unfold State.gather
  with_reducible repeat' (first
    | assumption | apply load_follows | apply modJob_follows | apply hostRead_follows | apply Follows.pair ‹_ = (_, _)›
    | intro _ | split | simp only [Follows.keep] | simp +zetaDelta only [Follows.keep])

theorem State.memberPart_follows {s₀ : State} {s : State} (p : Nat) (l : Line) (op : Nat) (phase : Nat) (stream : Nat) (data : List Byte) (h₀ : Follows s₀ s) :
    Follows s₀ (State.memberPart s p l op phase stream data).2.2 := by
  unfold State.memberPart
  with_reducible repeat' (first
    | assumption | apply fillSlot_follows | apply freeSlot_follows | apply modPart_follows | apply freePark_follows | apply putSlot_follows
    | (intro (x : State); have hx : Follows s₀ x := (by dsimp only [x]; repeat' (first | assumption | apply fillSlot_follows | apply freeSlot_follows | apply modPart_follows | apply freePark_follows | apply putSlot_follows | intro _ | split | dsimp -zeta only | simp only [Follows.keep] | simp +zetaDelta only [Follows.keep])))
    | lift_lets | (intro (x : Option _); clear_value x)
    | intro _ | split | dsimp -zeta only | simp only [Follows.keep] | simp +zetaDelta only [Follows.keep])

theorem State.dropShadows_follows {s₀ : State} {s : State} (p : Nat) (id : Nat) (h₀ : Follows s₀ s) :
    Follows s₀ (State.dropShadows s p id) := by
  unfold State.dropShadows
  with_reducible repeat' (first
    | assumption | intro (_ : State) _ (_ : Follows _ _) | intro _ (_ : State) (_ : Follows _ _) | apply each_follows
    | (intro (x : State); have hx : Follows s₀ x := (by dsimp only [x]; repeat' (first | assumption | intro (_ : State) _ (_ : Follows _ _) | intro _ (_ : State) (_ : Follows _ _) | apply each_follows | intro _ | split | simp only [Follows.keep] | simp +zetaDelta only [Follows.keep])))
    | lift_lets | (intro (x : Option _); clear_value x)
    | intro _ | split | simp only [Follows.keep] | simp +zetaDelta only [Follows.keep])

theorem State.releaseLine_follows {s₀ : State} {s : State} (p : Nat) (id : Nat) (h₀ : Follows s₀ s) :
    Follows s₀ (State.releaseLine s p id) := by
  unfold State.releaseLine
  with_reducible repeat' (first
    | assumption | apply modPart_follows | apply clearBlocks_follows | apply dropShadows_follows
    | intro _ | split | simp only [Follows.keep] | simp +zetaDelta only [Follows.keep])

theorem State.noteNoSlot_follows {s₀ : State} {s : State} (p : Nat) (line : Nat) (st : Nat) (h₀ : Follows s₀ s) :
    Follows s₀ (State.noteNoSlot s p line st) := by
  unfold State.noteNoSlot
  with_reducible repeat' (first
    | assumption | apply seqEvent_follows
    | intro _ | split)

theorem State.launch_follows {s₀ : State} {s : State} (p : Nat) (l : Line) (j : Job) (op : Nat) (phase : Nat) (data : List Byte) (h₀ : Follows s₀ s) :
    Follows s₀ (State.launch s p l j op phase data) := by
  unfold State.launch
  with_reducible repeat' (first
    | assumption | apply memberPart_follows | apply dropStrm_follows | apply noteNoSlot_follows | apply endJob_follows | apply sendLine_follows | apply Follows.triple ‹_ = (_, _, _)›
    | (intro (x : State); have hx : Follows s₀ x := (by dsimp only [x]; repeat' (first | assumption | apply memberPart_follows | apply dropStrm_follows | apply noteNoSlot_follows | apply endJob_follows | apply sendLine_follows | apply Follows.triple ‹_ = (_, _, _)› | intro _ | split)))
    | lift_lets | (intro (x : Option _); clear_value x)
    | intro _ | split)

theorem State.startLife_follows {s₀ : State} {s : State} (p : Nat) (j : Job) (h₀ : Follows s₀ s) :
    Follows s₀ (State.startLife s p j) := by
  unfold State.startLife
  with_reducible repeat' (first
    | assumption | apply modJob_follows | apply endJob_follows | apply endJobX_follows | apply putStrm_follows | apply launch_follows | apply gather_follows | apply load_follows | apply dropStrm_follows | apply admitted_follows | apply Follows.pair ‹_ = (_, _)›
    | (intro (x : State); have hx : Follows s₀ x := (by dsimp only [x]; repeat' (first | assumption | apply modJob_follows | apply endJob_follows | apply endJobX_follows | apply putStrm_follows | apply launch_follows | apply gather_follows | apply load_follows | apply dropStrm_follows | apply admitted_follows | apply Follows.pair ‹_ = (_, _)› | intro _ | split | dsimp -zeta only | simp only [Follows.keep] | simp +zetaDelta only [Follows.keep])))
    | lift_lets | (intro (x : Option _); clear_value x)
    | intro _ | split | dsimp -zeta only | simp only [Follows.keep] | simp +zetaDelta only [Follows.keep])

theorem State.seqSettle_follows {s₀ : State} (n : Nat) {s : State} (p : Nat) (h : Follows s₀ s) :
    Follows s₀ (State.seqSettle n s p) := by
  induction n generalizing s with
  | zero => exact h
  | succ n ih =>
    unfold State.seqSettle
    dsimp only
    split
    · exact h
    · exact ih (startLife_follows _ _ h)

theorem State.settle_follows {s₀ : State} {s : State} (p : Nat) (h₀ : Follows s₀ s) :
    Follows s₀ (State.settle s p) := by
  unfold State.settle
  with_reducible repeat' (first
    | assumption | apply seqSettle_follows
    | intro _ | split)

theorem State.takeWorks_follows {s₀ : State} {s : State} (p : Nat) (is : List Nat) (h₀ : Follows s₀ s) :
    Follows s₀ (State.takeWorks s p is) := by
  unfold State.takeWorks
  with_reducible repeat' (first
    | assumption | apply modPart_follows
    | intro _ | split | simp only [Follows.keep] | simp +zetaDelta only [Follows.keep])

theorem State.failWorks_follows {s₀ : State} {s : State} (p : Nat) (l : Line) (st : Nat) (ws : List (Nat × Work)) (h₀ : Follows s₀ s) :
    Follows s₀ (State.failWorks s p l st ws) := by
  unfold State.failWorks
  with_reducible repeat' (first
    | assumption | intro (_ : State) _ (_ : Follows _ _) | intro _ (_ : State) (_ : Follows _ _) | apply each_follows | apply leaveWork_follows | apply sendFail_follows
    | (intro (x : State); have hx : Follows s₀ x := (by dsimp only [x]; repeat' (first | assumption | intro (_ : State) _ (_ : Follows _ _) | intro _ (_ : State) (_ : Follows _ _) | apply each_follows | apply leaveWork_follows | apply sendFail_follows | intro _ | split | simp only [Follows.keep] | simp +zetaDelta only [Follows.keep])))
    | lift_lets | (intro (x : Option _); clear_value x)
    | intro _ | split | simp only [Follows.keep] | simp +zetaDelta only [Follows.keep])

theorem State.haltWorks_follows {s₀ : State} {s : State} (st : Nat) (h₀ : Follows s₀ s) :
    Follows s₀ (State.haltWorks s st) := by
  unfold State.haltWorks
  with_reducible repeat' (first
    | assumption | intro (_ : State) _ (_ : Follows _ _) | intro _ (_ : State) (_ : Follows _ _) | apply each_follows | apply modPart_follows | apply failWorks_follows | apply settle_follows
    | (intro (x : State); have hx : Follows s₀ x := (by dsimp only [x]; repeat' (first | assumption | intro (_ : State) _ (_ : Follows _ _) | intro _ (_ : State) (_ : Follows _ _) | apply each_follows | apply modPart_follows | apply failWorks_follows | apply settle_follows | intro _ | split | simp only [Follows.keep] | simp +zetaDelta only [Follows.keep])))
    | lift_lets | (intro (x : Option _); clear_value x)
    | intro _ | split | simp only [Follows.keep] | simp +zetaDelta only [Follows.keep])

theorem State.startStep_follows {s₀ : State} {s : State} (p : Nat) (l : Line) (j : Job) (h₀ : Follows s₀ s) :
    Follows s₀ (State.startStep s p l j) := by
  unfold State.startStep
  with_reducible repeat' (first
    | assumption | apply addWork_follows
    | (intro (x : State); have hx : Follows s₀ x := (by dsimp only [x]; repeat' (first | assumption | apply addWork_follows | intro _ | split | simp only [Follows.keep] | simp +zetaDelta only [Follows.keep])))
    | lift_lets | (intro (x : Option _); clear_value x)
    | intro _ | split | simp only [Follows.keep] | simp +zetaDelta only [Follows.keep])

theorem State.jobReady_follows {s₀ : State} {s : State} (p : Nat) (k : Nat) (h₀ : Follows s₀ s) :
    Follows s₀ (State.jobReady s p k) := by
  unfold State.jobReady
  with_reducible repeat' (first
    | assumption | apply endJob_follows | apply setTable_follows | apply endJobX_follows | apply dropStrm_follows | apply settle_follows | apply launch_follows | apply startStep_follows
    | (intro (x : State); have hx : Follows s₀ x := (by dsimp only [x]; repeat' (first | assumption | apply endJob_follows | apply setTable_follows | apply endJobX_follows | apply dropStrm_follows | apply settle_follows | apply launch_follows | apply startStep_follows | intro _ | split | simp only [Follows.keep] | simp +zetaDelta only [Follows.keep])))
    | lift_lets | (intro (x : Option _); clear_value x)
    | intro _ | split | simp only [Follows.keep] | simp +zetaDelta only [Follows.keep])

theorem State.jobData_follows {s₀ : State} {s : State} (p : Nat) (k : Nat) (off : Nat) (d : List Byte) (h₀ : Follows s₀ s) :
    Follows s₀ (State.jobData s p k off d) := by
  unfold State.jobData
  with_reducible repeat' (first
    | assumption | apply modJob_follows | apply jobReady_follows
    | intro _ | split | simp only [Follows.keep] | simp +zetaDelta only [Follows.keep])

theorem State.jobFail_follows {s₀ : State} {s : State} (p : Nat) (k : Nat) (st : Nat) (h₀ : Follows s₀ s) :
    Follows s₀ (State.jobFail s p k st) := by
  unfold State.jobFail
  with_reducible repeat' (first
    | assumption | apply modJob_follows | apply jobReady_follows
    | intro _ | split | simp only [Follows.keep] | simp +zetaDelta only [Follows.keep])

theorem State.lineLost_follows {s₀ : State} {s : State} (p : Nat) (id : Nat) (st : Nat) (h₀ : Follows s₀ s) :
    Follows s₀ (State.lineLost s p id st) := by
  unfold State.lineLost
  with_reducible repeat' (first
    | assumption | intro (_ : State) _ (_ : Follows _ _) | apply each_follows | apply tear_follows | apply endJob_follows
    | (intro (x : State); have hx : Follows s₀ x := (by dsimp only [x]; repeat' (first | assumption | intro (_ : State) _ (_ : Follows _ _) | apply each_follows | apply tear_follows | apply endJob_follows | intro _ | split)))
    | lift_lets | (intro (x : Option _); clear_value x)
    | intro _ | split)

theorem State.dissolveHere_follows {s₀ : State} {s : State} (p : Nat) (id : Nat) (h₀ : Follows s₀ s) :
    Follows s₀ (State.dissolveHere s p id) := by
  unfold State.dissolveHere
  with_reducible repeat' (first
    | assumption | intro (_ : State) _ (_ : Follows _ _) | apply each_follows | apply endJob_follows | apply complete_follows | apply modPart_follows | apply releaseLine_follows
    | (intro (x : State); have hx : Follows s₀ x := (by dsimp only [x]; repeat' (first | assumption | intro (_ : State) _ (_ : Follows _ _) | apply each_follows | apply endJob_follows | apply complete_follows | apply modPart_follows | apply releaseLine_follows | intro _ | split | simp only [Follows.keep] | simp +zetaDelta only [Follows.keep])))
    | lift_lets | (intro (x : Option _); clear_value x)
    | intro _ | split | simp only [Follows.keep] | simp +zetaDelta only [Follows.keep])

theorem State.noticeDissolve_follows {s₀ : State} {s : State} (p : Nat) (h₀ : Follows s₀ s) :
    Follows s₀ (State.noticeDissolve s p) := by
  unfold State.noticeDissolve
  with_reducible repeat' (first
    | assumption | intro (_ : State) _ (_ : Follows _ _) | apply each_follows | apply sendFrame_follows
    | intro _ | split)

theorem State.setTong_follows {s₀ : State} {s : State} (t : Nat) (x : Tong) (h₀ : Follows s₀ s) :
    Follows s₀ (State.setTong s t x) := by
  unfold State.setTong
  with_reducible repeat' (first
    | assumption
    | intro _ | split | simp only [Follows.keep] | simp +zetaDelta only [Follows.keep])

theorem State.orphan_follows {s₀ : State} {s : State} (mine : Issuer → Bool) (h₀ : Follows s₀ s) :
    Follows s₀ (State.orphan s mine) := by
  unfold State.orphan
  with_reducible repeat' (first
    | assumption | apply setHost_follows
    | (intro (x : State); have hx : Follows s₀ x := (by dsimp only [x]; repeat' (first | assumption | apply setHost_follows | intro _ | split | simp only [Follows.keep] | simp +zetaDelta only [Follows.keep])))
    | lift_lets | (intro (x : Option _); clear_value x)
    | intro _ | split | simp only [Follows.keep] | simp +zetaDelta only [Follows.keep])

theorem State.passWrites_follows {s₀ : State} {s : State} (p : Nat) (i : Issuer) (j : Issuer) (h₀ : Follows s₀ s) :
    Follows s₀ (State.passWrites s p i j) := by
  unfold State.passWrites
  with_reducible repeat' (first
    | assumption | apply setReqs_follows | apply modPart_follows
    | intro _ | split | simp only [Follows.keep] | simp +zetaDelta only [Follows.keep])

theorem State.writeRow_follows {s₀ : State} {s : State} (p : Nat) (t : Nat) (d : List Byte) (i : Nat) (b : List Byte) (h₀ : Follows s₀ s) :
    Follows s₀ (State.writeRow s p t d i b) := by
  unfold State.writeRow
  with_reducible repeat' (first
    | assumption | apply writeHearth_follows | apply hostWrite_follows
    | intro _ | split)

theorem State.copyRows_follows {s₀ : State} (p t : Nat) (d : List Byte) (l : List Nat) {s : State} (h : Follows s₀ s) :
    Follows s₀ (State.copyRows p t d l s).1 := by
  induction l generalizing s with
  | nil => exact h
  | cons i is ih =>
    unfold State.copyRows
    dsimp only
    split
    · exact ih (writeRow_follows _ _ _ _ _ h)
    · exact h

theorem State.sendEgress_follows {s₀ : State} {s : State} (p : Nat) (d : List Byte) (b : List Byte) (abort : Bool) (h₀ : Follows s₀ s) :
    Follows s₀ (State.sendEgress s p d b abort) := by
  unfold State.sendEgress
  with_reducible repeat' (first
    | assumption | intro (_ : State) _ (_ : Follows _ _) | intro _ (_ : State) (_ : Follows _ _) | apply each_follows | apply egressPut_follows
    | (intro (x : State); have hx : Follows s₀ x := (by dsimp only [x]; repeat' (first | assumption | intro (_ : State) _ (_ : Follows _ _) | intro _ (_ : State) (_ : Follows _ _) | apply each_follows | apply egressPut_follows | intro _ | split | simp only [Follows.keep] | simp +zetaDelta only [Follows.keep])))
    | lift_lets | (intro (x : Option _); clear_value x)
    | intro _ | split | simp only [Follows.keep] | simp +zetaDelta only [Follows.keep])

theorem State.mixRow_follows {s₀ : State} {s : State} (p : Nat) (d : List Byte) (iss : Issuer) (i : Nat) (h₀ : Follows s₀ s) :
    Follows s₀ (State.mixRow s p d iss i) := by
  unfold State.mixRow
  with_reducible repeat' (first
    | assumption | intro (_ : State) _ (_ : Follows _ _) | intro _ (_ : State) (_ : Follows _ _) | apply each_follows | apply free_follows | apply writeHearth_follows | apply hostWrite_follows | apply Follows.pair ‹_ = (_, _)›
    | (intro (x : State); have hx : Follows s₀ x := (by dsimp only [x]; repeat' (first | assumption | intro (_ : State) _ (_ : Follows _ _) | intro _ (_ : State) (_ : Follows _ _) | apply each_follows | apply free_follows | apply writeHearth_follows | apply hostWrite_follows | apply Follows.pair ‹_ = (_, _)› | intro _ | split | dsimp -zeta only | simp only [Follows.keep] | simp +zetaDelta only [Follows.keep])))
    | lift_lets | (intro (x : Option _); clear_value x)
    | intro _ | split | dsimp -zeta only | simp only [Follows.keep] | simp +zetaDelta only [Follows.keep])

theorem State.mixTong_follows {s₀ : State} {s : State} (p : Nat) (t : Nat) (h₀ : Follows s₀ s) :
    Follows s₀ (State.mixTong s p t) := by
  unfold State.mixTong
  with_reducible repeat' (first
    | assumption | intro (_ : State) _ (_ : Follows _ _) | apply each_follows | apply free_follows | apply writeHearth_follows | apply mixRow_follows | apply Follows.pair ‹_ = (_, _)›
    | (intro (x : State); have hx : Follows s₀ x := (by dsimp only [x]; repeat' (first | assumption | intro (_ : State) _ (_ : Follows _ _) | apply each_follows | apply free_follows | apply writeHearth_follows | apply mixRow_follows | apply Follows.pair ‹_ = (_, _)› | intro _ | split | simp only [Follows.keep] | simp +zetaDelta only [Follows.keep])))
    | lift_lets | (intro (x : Option _); clear_value x)
    | intro _ | split | simp only [Follows.keep] | simp +zetaDelta only [Follows.keep])

theorem State.dropEgress_follows {s₀ : State} {s : State} (t : Nat) (h₀ : Follows s₀ s) :
    Follows s₀ (State.dropEgress s t) := by
  unfold State.dropEgress
  with_reducible repeat' (first
    | assumption
    | intro _ | split | simp only [Follows.keep] | simp +zetaDelta only [Follows.keep])

theorem State.dropTongWait_follows {s₀ : State} {s : State} (p : Nat) (t : Nat) (h₀ : Follows s₀ s) :
    Follows s₀ (State.dropTongWait s p t) := by
  unfold State.dropTongWait
  with_reducible repeat' (first
    | assumption | apply semDrop_follows | apply takeGrant_follows
    | (intro (x : State); have hx : Follows s₀ x := (by dsimp only [x]; repeat' (first | assumption | apply semDrop_follows | apply takeGrant_follows | intro _ | split)))
    | lift_lets | (intro (x : Option _); clear_value x)
    | intro _ | split)

theorem State.stopTong_follows {s₀ : State} {s : State} (p : Nat) (t : Nat) (st : TongSt) (h₀ : Follows s₀ s) :
    Follows s₀ (State.stopTong s p t st) := by
  unfold State.stopTong
  with_reducible repeat' (first
    | assumption | apply mixTong_follows | apply dropTongWait_follows | apply dropEgress_follows | apply passWrites_follows | apply orphan_follows | apply setTong_follows | apply idle_follows | apply Follows.elim
    | (intro (x : State); have hx : Follows s₀ x := (by dsimp only [x]; repeat' (first | assumption | apply mixTong_follows | apply dropTongWait_follows | apply dropEgress_follows | apply passWrites_follows | apply orphan_follows | apply setTong_follows | apply idle_follows | apply Follows.elim | intro _ | split | simp only [Follows.keep] | simp +zetaDelta only [Follows.keep])))
    | lift_lets | (intro (x : Option _); clear_value x)
    | intro _ | split | simp only [Follows.keep] | simp +zetaDelta only [Follows.keep])

theorem State.failTongX_follows {s₀ : State} {s : State} (p : Nat) (t : Nat) (status : Nat) (off : Nat) (h₀ : Follows s₀ s) :
    Follows s₀ (State.failTongX s p t status off) := by
  unfold State.failTongX
  with_reducible repeat' (first
    | assumption | apply stopTong_follows | apply event_follows | apply completeX_follows
    | (intro (x : State); have hx : Follows s₀ x := (by dsimp only [x]; repeat' (first | assumption | apply stopTong_follows | apply event_follows | apply completeX_follows | intro _ | split | simp only [Follows.keep] | simp +zetaDelta only [Follows.keep])))
    | lift_lets | (intro (x : Option _); clear_value x)
    | intro _ | split | simp only [Follows.keep] | simp +zetaDelta only [Follows.keep])

theorem State.failTong_follows {s₀ : State} {s : State} (p : Nat) (t : Nat) (status : Nat) (h₀ : Follows s₀ s) :
    Follows s₀ (State.failTong s p t status) := by
  unfold State.failTong
  with_reducible repeat' (first
    | assumption | apply failTongX_follows
    | intro _ | split)

theorem State.failDesc_follows {s₀ : State} {s : State} (p : Nat) (t : Nat) (op : Nat) (h₀ : Follows s₀ s) :
    Follows s₀ (State.failDesc s p t op) := by
  unfold State.failDesc
  with_reducible repeat' (first
    | assumption | apply failTongX_follows | apply done_follows
    | (intro (x : State); have hx : Follows s₀ x := (by dsimp only [x]; repeat' (first | assumption | apply failTongX_follows | apply done_follows | intro _ | split)))
    | lift_lets | (intro (x : Option _); clear_value x)
    | intro _ | split)

theorem State.loadDesc_follows {s₀ : State} {s : State} (p : Nat) (t : Nat) (a : Nat) (h₀ : Follows s₀ s) :
    Follows s₀ (State.loadDesc s p t a) := by
  unfold State.loadDesc
  with_reducible repeat' (first
    | assumption | apply load_follows | apply setTong_follows | apply failTong_follows | apply Follows.pair ‹_ = (_, _)›
    | (intro (x : State); have hx : Follows s₀ x := (by dsimp only [x]; repeat' (first | assumption | apply load_follows | apply setTong_follows | apply failTong_follows | apply Follows.pair ‹_ = (_, _)› | intro _ | split | simp only [Follows.keep] | simp +zetaDelta only [Follows.keep])))
    | lift_lets | (intro (x : Option _); clear_value x)
    | intro _ | split | simp only [Follows.keep] | simp +zetaDelta only [Follows.keep])

theorem State.progressIrq_follows {s₀ : State} {s : State} (p : Nat) (k : Nat) (h₀ : Follows s₀ s) :
    Follows s₀ (State.progressIrq s p k) := by
  unfold State.progressIrq
  with_reducible repeat' (first
    | assumption | apply sendFrame_follows | apply enq_follows | apply msg_follows
    | (intro (x : State); have hx : Follows s₀ x := (by dsimp only [x]; repeat' (first | assumption | apply sendFrame_follows | apply enq_follows | apply msg_follows | intro _ | split | simp only [Follows.keep] | simp +zetaDelta only [Follows.keep])))
    | lift_lets | (intro (x : Option _); clear_value x)
    | intro _ | split | simp only [Follows.keep] | simp +zetaDelta only [Follows.keep])

theorem State.descDone_follows {s₀ : State} {s : State} (p : Nat) (t : Nat) (k : Nat) (h₀ : Follows s₀ s) :
    Follows s₀ (State.descDone s p t k) := by
  unfold State.descDone
  with_reducible repeat' (first
    | assumption | apply dropEgress_follows | apply semSignal_follows | apply arrive_follows | apply done_follows | apply setTong_follows | apply progressIrq_follows | apply loadDesc_follows
    | (intro (x : State); have hx : Follows s₀ x := (by dsimp only [x]; repeat' (first | assumption | apply dropEgress_follows | apply semSignal_follows | apply arrive_follows | apply done_follows | apply setTong_follows | apply progressIrq_follows | apply loadDesc_follows | intro _ | split | simp only [Follows.keep] | simp +zetaDelta only [Follows.keep])))
    | lift_lets | (intro (x : Option _); clear_value x)
    | intro _ | split | simp only [Follows.keep] | simp +zetaDelta only [Follows.keep])

theorem State.descSent_follows {s₀ : State} {s : State} (p : Nat) (t : Nat) (k : Nat) (h₀ : Follows s₀ s) :
    Follows s₀ (State.descSent s p t k) := by
  unfold State.descSent
  with_reducible repeat' (first
    | assumption | apply setTong_follows | apply descDone_follows
    | intro _ | split | simp only [Follows.keep] | simp +zetaDelta only [Follows.keep])

theorem State.setAnvil_follows {s₀ : State} {s : State} (a : Nat) (x : Anvil) (h₀ : Follows s₀ s) :
    Follows s₀ (State.setAnvil s a x) := by
  unfold State.setAnvil
  with_reducible repeat' (first
    | assumption
    | intro _ | split | simp only [Follows.keep] | simp +zetaDelta only [Follows.keep])

theorem State.stopWork_follows {s₀ : State} {s : State} (p : Nat) (mine : Nat → Bool) (st : TongSt) (h₀ : Follows s₀ s) :
    Follows s₀ (State.stopWork s p mine st) := by
  unfold State.stopWork
  with_reducible repeat' (first
    | assumption | intro (_ : State) _ (_ : Follows _ _) | apply each_follows | apply stopTong_follows | apply setAnvil_follows | apply Follows.elim
    | (intro (x : State); have hx : Follows s₀ x := (by dsimp only [x]; repeat' (first | assumption | intro (_ : State) _ (_ : Follows _ _) | apply each_follows | apply stopTong_follows | apply setAnvil_follows | apply Follows.elim | intro _ | split | simp only [Follows.keep] | simp +zetaDelta only [Follows.keep])))
    | lift_lets | (intro (x : Option _); clear_value x)
    | intro _ | split | simp only [Follows.keep] | simp +zetaDelta only [Follows.keep])

theorem State.failAll_follows {s₀ : State} {s : State} (p : Nat) (st : Nat) (h₀ : Follows s₀ s) :
    Follows s₀ (State.failAll s p st) := by
  unfold State.failAll
  with_reducible repeat' (first
    | assumption | intro (_ : State) _ (_ : Follows _ _) | apply each_follows | apply failPkt_follows
    | intro _ | split)

theorem State.stopFetch_follows {s₀ : State} {s : State} (p : Nat) (h₀ : Follows s₀ s) :
    Follows s₀ (State.stopFetch s p) := by
  unfold State.stopFetch
  with_reducible repeat' (first
    | assumption | intro (_ : State) _ (_ : Follows _ _) | intro _ (_ : State) (_ : Follows _ _) | apply each_follows | apply setCq_follows | apply setSq_follows | apply orphan_follows | apply Follows.elim
    | (intro (x : State); have hx : Follows s₀ x := (by dsimp only [x]; repeat' (first | assumption | intro (_ : State) _ (_ : Follows _ _) | intro _ (_ : State) (_ : Follows _ _) | apply each_follows | apply setCq_follows | apply setSq_follows | apply orphan_follows | apply Follows.elim | intro _ | split | simp only [Follows.keep] | simp +zetaDelta only [Follows.keep])))
    | lift_lets | (intro (x : Option _); clear_value x)
    | intro _ | split | simp only [Follows.keep] | simp +zetaDelta only [Follows.keep])

theorem State.dropDelivered_follows {s₀ : State} {s : State} (p : Nat) (h₀ : Follows s₀ s) :
    Follows s₀ (State.dropDelivered s p) := by
  unfold State.dropDelivered
  with_reducible repeat' (first
    | assumption | intro (_ : State) _ (_ : Follows _ _) | intro _ (_ : State) (_ : Follows _ _) | apply each_follows | apply dropFrame_follows
    | (intro (x : State); have hx : Follows s₀ x := (by dsimp only [x]; repeat' (first | assumption | intro (_ : State) _ (_ : Follows _ _) | intro _ (_ : State) (_ : Follows _ _) | apply each_follows | apply dropFrame_follows | intro _ | split | simp only [Follows.keep] | simp +zetaDelta only [Follows.keep])))
    | lift_lets | (intro (x : Option _); clear_value x)
    | intro _ | split | simp only [Follows.keep] | simp +zetaDelta only [Follows.keep])

theorem State.abortAll_follows {s₀ : State} {s : State} (p : Nat) (h₀ : Follows s₀ s) :
    Follows s₀ (State.abortAll s p) := by
  unfold State.abortAll
  with_reducible repeat' (first
    | assumption | intro (_ : State) _ (_ : Follows _ _) | apply each_follows | apply originateAbort_follows
    | intro _ | split)

theorem State.chipFatal_follows {s₀ : State} {s : State} (cause : Nat) (book : Nat) (h₀ : Follows s₀ s) :
    Follows s₀ (State.chipFatal s cause book) := by
  unfold State.chipFatal
  with_reducible repeat' (first
    | assumption | intro (_ : State) _ (_ : Follows _ _) | apply eventD_follows | apply bump_follows | apply setRf_follows | apply each_follows | apply abortAll_follows | apply noticeAll_follows | apply aer_follows | apply noticePf_follows | apply startPersist_follows
    | (intro (x : State); have hx : Follows s₀ x := (by dsimp only [x]; repeat' (first | assumption | intro (_ : State) _ (_ : Follows _ _) | apply eventD_follows | apply bump_follows | apply setRf_follows | apply each_follows | apply abortAll_follows | apply noticeAll_follows | apply aer_follows | apply noticePf_follows | apply startPersist_follows | intro _ | split | simp only [Follows.keep] | simp +zetaDelta only [Follows.keep])))
    | lift_lets | (intro (x : Option _); clear_value x)
    | intro _ | split | simp only [Follows.keep] | simp +zetaDelta only [Follows.keep])

theorem State.faultPartition_follows {s₀ : State} {s : State} (p : Nat) (cause : Nat) (h₀ : Follows s₀ s) :
    Follows s₀ (State.faultPartition s p cause) := by
  unfold State.faultPartition
  with_reducible repeat' (first
    | assumption | intro (_ : State) _ (_ : Follows _ _) | intro _ (_ : State) (_ : Follows _ _) | apply eventD_follows | apply modPart_follows | apply stopFetch_follows | apply stopWork_follows | apply failAll_follows | apply each_follows | apply modLap_follows | apply abortAll_follows | apply noticeAll_follows | apply dropDelivered_follows | apply noticePf_follows | apply noticeVf_follows | apply chipFatal_follows
    | (intro (x : State); have hx : Follows s₀ x := (by dsimp only [x]; repeat' (first | assumption | intro (_ : State) _ (_ : Follows _ _) | intro _ (_ : State) (_ : Follows _ _) | apply eventD_follows | apply modPart_follows | apply stopFetch_follows | apply stopWork_follows | apply failAll_follows | apply each_follows | apply modLap_follows | apply abortAll_follows | apply noticeAll_follows | apply dropDelivered_follows | apply noticePf_follows | apply noticeVf_follows | apply chipFatal_follows | intro _ | split | simp only [Follows.keep] | simp +zetaDelta only [Follows.keep])))
    | lift_lets | (intro (x : Option _); clear_value x)
    | intro _ | split | simp only [Follows.keep] | simp +zetaDelta only [Follows.keep])

theorem State.countFault_follows {s₀ : State} {s : State} (p : Nat) (h₀ : Follows s₀ s) :
    Follows s₀ (State.countFault s p) := by
  unfold State.countFault
  with_reducible repeat' (first
    | assumption | apply modPart_follows | apply faultPartition_follows
    | (intro (x : State); have hx : Follows s₀ x := (by dsimp only [x]; repeat' (first | assumption | apply modPart_follows | apply faultPartition_follows | intro _ | split | simp only [Follows.keep] | simp +zetaDelta only [Follows.keep])))
    | lift_lets | (intro (x : Option _); clear_value x)
    | intro _ | split | simp only [Follows.keep] | simp +zetaDelta only [Follows.keep])

theorem State.countOwner_follows {s₀ : State} {s : State} (o : Option Nat) (h₀ : Follows s₀ s) :
    Follows s₀ (State.countOwner s o) := by
  unfold State.countOwner
  with_reducible repeat' (first
    | assumption | apply countFault_follows
    | intro _ | split | simp only [Follows.keep] | simp +zetaDelta only [Follows.keep])

theorem State.eccHearth_follows {s₀ : State} {s : State} (w : Nat) (uncorr : Bool) (h₀ : Follows s₀ s) :
    Follows s₀ (State.eccHearth s w uncorr) := by
  unfold State.eccHearth
  with_reducible repeat' (first
    | assumption | apply event_follows | apply bump_follows | apply countOwner_follows
    | (intro (x : State); have hx : Follows s₀ x := (by dsimp only [x]; repeat' (first | assumption | apply event_follows | apply bump_follows | apply countOwner_follows | intro _ | split | simp only [Follows.keep] | simp +zetaDelta only [Follows.keep])))
    | lift_lets | (intro (x : Option _); clear_value x)
    | intro _ | split | simp only [Follows.keep] | simp +zetaDelta only [Follows.keep])

theorem State.eccFinds_follows {s₀ : State} {s : State} (l : List (Nat × Bool)) (h₀ : Follows s₀ s) :
    Follows s₀ (State.eccFinds s l) := by
  unfold State.eccFinds
  with_reducible repeat' (first
    | assumption | intro (_ : State) _ (_ : Follows _ _) | apply each_follows | apply eccHearth_follows
    | intro _ | split)

theorem State.accFinds_follows {s₀ : State} {s : State} (a : Nat) (l : List (Nat × Bool)) (h₀ : Follows s₀ s) :
    Follows s₀ (State.accFinds s a l) := by
  unfold State.accFinds
  with_reducible repeat' (first
    | assumption | intro (_ : State) _ (_ : Follows _ _) | apply each_follows | apply setAnvil_follows | apply bump_follows
    | (intro (x : State); have hx : Follows s₀ x := (by dsimp only [x]; repeat' (first | assumption | intro (_ : State) _ (_ : Follows _ _) | apply each_follows | apply setAnvil_follows | apply bump_follows | intro _ | split | simp only [Follows.keep] | simp +zetaDelta only [Follows.keep])))
    | lift_lets | (intro (x : Option _); clear_value x)
    | intro _ | split | simp only [Follows.keep] | simp +zetaDelta only [Follows.keep])

theorem State.startLoad_follows {s₀ : State} {s : State} (k : Nat) (x : Pkt) (h₀ : Follows s₀ s) :
    Follows s₀ (State.startLoad s k x) := by
  unfold State.startLoad
  with_reducible repeat' (first
    | assumption | apply badParam_follows | apply setAnvil_follows
    | (intro (x : State); have hx : Follows s₀ x := (by dsimp only [x]; repeat' (first | assumption | apply badParam_follows | apply setAnvil_follows | intro _ | split | simp only [Follows.keep] | simp +zetaDelta only [Follows.keep])))
    | lift_lets | (intro (x : Option _); clear_value x)
    | intro _ | split | simp only [Follows.keep] | simp +zetaDelta only [Follows.keep])

theorem State.parityError_follows {s₀ : State} {s : State} (a : Nat) (p : Nat) (h₀ : Follows s₀ s) :
    Follows s₀ (State.parityError s a p) := by
  unfold State.parityError
  with_reducible repeat' (first
    | assumption | apply event_follows | apply countFault_follows
    | intro _ | split)

theorem State.endLoad_follows {s₀ : State} {s : State} (a : Nat) (k : Nat) (x : Pkt) (h₀ : Follows s₀ s) :
    Follows s₀ (State.endLoad s a k x) := by
  unfold State.endLoad
  with_reducible repeat' (first
    | assumption | apply load_follows | apply setAnvil_follows | apply done_follows | apply failEv_follows | apply parityError_follows | apply Follows.pair ‹_ = (_, _)›
    | (intro (x : State); have hx : Follows s₀ x := (by dsimp only [x]; repeat' (first | assumption | apply load_follows | apply setAnvil_follows | apply done_follows | apply failEv_follows | apply parityError_follows | apply Follows.pair ‹_ = (_, _)› | intro _ | split | simp only [Follows.keep] | simp +zetaDelta only [Follows.keep])))
    | lift_lets | (intro (x : Option _); clear_value x)
    | intro _ | split | simp only [Follows.keep] | simp +zetaDelta only [Follows.keep])

theorem State.startPass_follows {s₀ : State} {s : State} (k : Nat) (x : Pkt) (h₀ : Follows s₀ s) :
    Follows s₀ (State.startPass s k x) := by
  unfold State.startPass
  with_reducible repeat' (first
    | assumption | apply badParam_follows | apply setAnvil_follows
    | (intro (x : State); have hx : Follows s₀ x := (by dsimp only [x]; repeat' (first | assumption | apply badParam_follows | apply setAnvil_follows | intro _ | split | simp only [Follows.keep] | simp +zetaDelta only [Follows.keep])))
    | lift_lets | (intro (x : Option _); clear_value x)
    | intro _ | split | simp only [Follows.keep] | simp +zetaDelta only [Follows.keep])

theorem State.endPass_follows {s₀ : State} {s : State} (a : Nat) (k : Nat) (x : Pkt) (parity : Bool) (h₀ : Follows s₀ s) :
    Follows s₀ (State.endPass s a k x parity) := by
  unfold State.endPass
  with_reducible repeat' (first
    | assumption | apply setAnvil_follows | apply badParam_follows | apply load_follows | apply failEv_follows | apply parityError_follows | apply event_follows | apply countFault_follows | apply bumpBy_follows | apply onceEvent_follows | apply bump_follows | apply done_follows | apply Follows.pair ‹_ = (_, _)›
    | (intro (x : State); have hx : Follows s₀ x := (by dsimp only [x]; repeat' (first | assumption | apply setAnvil_follows | apply badParam_follows | apply load_follows | apply failEv_follows | apply parityError_follows | apply event_follows | apply countFault_follows | apply bumpBy_follows | apply onceEvent_follows | apply bump_follows | apply done_follows | apply Follows.pair ‹_ = (_, _)› | intro _ | split | simp only [Follows.keep] | simp +zetaDelta only [Follows.keep])))
    | lift_lets | (intro (x : Option _); clear_value x)
    | intro _ | split | simp only [Follows.keep] | simp +zetaDelta only [Follows.keep])

theorem State.noteNan_follows {s₀ : State} {s : State} (a : Nat) (p : Nat) (fmt : Nat) (rows : List (List Nat)) (h₀ : Follows s₀ s) :
    Follows s₀ (State.noteNan s a p fmt rows) := by
  unfold State.noteNan
  with_reducible repeat' (first
    | assumption | apply bumpBy_follows | apply onceEvent_follows
    | (intro (x : State); have hx : Follows s₀ x := (by dsimp only [x]; repeat' (first | assumption | apply bumpBy_follows | apply onceEvent_follows | intro _ | split)))
    | lift_lets | (intro (x : Option _); clear_value x)
    | intro _ | split)

theorem State.startEpilogue_follows {s₀ : State} {s : State} (k : Nat) (x : Pkt) (h₀ : Follows s₀ s) :
    Follows s₀ (State.startEpilogue s k x) := by
  unfold State.startEpilogue
  with_reducible repeat' (first
    | assumption | apply badParam_follows | apply setAnvil_follows
    | (intro (x : State); have hx : Follows s₀ x := (by dsimp only [x]; repeat' (first | assumption | apply badParam_follows | apply setAnvil_follows | intro _ | split | simp only [Follows.keep] | simp +zetaDelta only [Follows.keep])))
    | lift_lets | (intro (x : Option _); clear_value x)
    | intro _ | split | simp only [Follows.keep] | simp +zetaDelta only [Follows.keep])

theorem State.endEpilogue_follows {s₀ : State} {s : State} (a : Nat) (k : Nat) (x : Pkt) (h₀ : Follows s₀ s) :
    Follows s₀ (State.endEpilogue s a k x) := by
  unfold State.endEpilogue
  with_reducible repeat' (first
    | assumption | intro (_ : State) _ (_ : Follows _ _) | intro _ (_ : State) (_ : Follows _ _) | apply setAnvil_follows | apply failEv_follows | apply event_follows | apply countFault_follows | apply notePwlNan_follows | apply noteNan_follows | apply writeHearth_follows | apply done_follows | apply Follows.foldl2
    | (intro (x : State); have hx : Follows s₀ x := (by dsimp only [x]; repeat' (first | assumption | intro (_ : State) _ (_ : Follows _ _) | intro _ (_ : State) (_ : Follows _ _) | apply setAnvil_follows | apply failEv_follows | apply event_follows | apply countFault_follows | apply notePwlNan_follows | apply noteNan_follows | apply writeHearth_follows | apply done_follows | apply Follows.foldl2 | intro _ | split | simp only [Follows.keep] | simp +zetaDelta only [Follows.keep])))
    | lift_lets | (intro (x : Option _); clear_value x)
    | intro _ | split | simp only [Follows.keep] | simp +zetaDelta only [Follows.keep])

theorem State.startVec_follows {s₀ : State} {s : State} (k : Nat) (x : Pkt) (h₀ : Follows s₀ s) :
    Follows s₀ (State.startVec s k x) := by
  unfold State.startVec
  with_reducible repeat' (first
    | assumption | apply badParam_follows | apply setAnvil_follows
    | (intro (x : State); have hx : Follows s₀ x := (by dsimp only [x]; repeat' (first | assumption | apply badParam_follows | apply setAnvil_follows | intro _ | split | simp only [Follows.keep] | simp +zetaDelta only [Follows.keep])))
    | lift_lets | (intro (x : Option _); clear_value x)
    | intro _ | split | simp only [Follows.keep] | simp +zetaDelta only [Follows.keep])

theorem State.vecSrc_follows {s₀ : State} {s : State} (p : Nat) (used : Bool) (a : Nat) (n : Nat) (h₀ : Follows s₀ s) :
    Follows s₀ (State.vecSrc s p used a n).2 := by
  unfold State.vecSrc
  with_reducible repeat' (first
    | assumption | apply load_follows | apply Follows.pair ‹_ = (_, _)›
    | intro _ | split | dsimp -zeta only)

theorem State.endVec_follows {s₀ : State} {s : State} (a : Nat) (k : Nat) (x : Pkt) (h₀ : Follows s₀ s) :
    Follows s₀ (State.endVec s a k x) := by
  unfold State.endVec
  with_reducible repeat' (first
    | assumption | intro (_ : State) _ (_ : Follows _ _) | intro _ (_ : State) (_ : Follows _ _) | apply vecSrc_follows | apply setAnvil_follows | apply writeHearth_follows | apply done_follows | apply noteNan_follows | apply notePwlNan_follows | apply failEv_follows | apply Follows.pair ‹_ = (_, _)› | apply Follows.foldl2
    | (intro (x : State); have hx : Follows s₀ x := (by dsimp only [x]; repeat' (first | assumption | intro (_ : State) _ (_ : Follows _ _) | intro _ (_ : State) (_ : Follows _ _) | apply vecSrc_follows | apply setAnvil_follows | apply writeHearth_follows | apply done_follows | apply noteNan_follows | apply notePwlNan_follows | apply failEv_follows | apply Follows.pair ‹_ = (_, _)› | apply Follows.foldl2 | intro _ | split | dsimp -zeta only | simp only [Follows.keep] | simp +zetaDelta only [Follows.keep])))
    | lift_lets | (intro (x : Option _); clear_value x)
    | intro _ | split | dsimp -zeta only | simp only [Follows.keep] | simp +zetaDelta only [Follows.keep])

theorem State.withPkt_follows {s₀ : State} {s : State} (k : Nat) (f : Pkt → State → State) (h₀ : Follows s₀ s) (hf : ∀ x0 x1, Follows s₀ x1 → Follows s₀ (f x0 x1)) :
    Follows s₀ (State.withPkt s k f) := by
  unfold State.withPkt
  with_reducible repeat' (first
    | assumption | apply hf
    | intro _ | split | simp only [Follows.keep] | simp +zetaDelta only [Follows.keep])

theorem execWeightLoad_follows {s₀ : State} {s : State} (k : Nat) (h₀ : Follows s₀ s) :
    ResFollows s₀ (execWeightLoad k s) := by
  unfold execWeightLoad
  with_reducible repeat' (first
    | assumption | intro _ (_ : State) (_ : Follows _ _) | apply runWhen_follows | apply State.load_follows | apply State.startLoad_follows | apply ResFollows.next | apply Follows.pair ‹_ = (_, _)›
    | intro _ | split)

theorem execWeightLoadDone_follows {s₀ : State} {s : State} (a : Nat) (ecc : List (Nat × Bool)) (h₀ : Follows s₀ s) :
    ResFollows s₀ (execWeightLoadDone a ecc s) := by
  unfold execWeightLoadDone
  with_reducible repeat' (first
    | assumption | intro _ (_ : State) (_ : Follows _ _) | apply State.load_follows | apply State.eccFinds_follows | apply State.withPkt_follows | apply State.endLoad_follows | apply ResFollows.next | apply Follows.pair ‹_ = (_, _)›
    | intro _ | split | simp only [Follows.keep] | simp +zetaDelta only [Follows.keep])

theorem execPass_follows {s₀ : State} {s : State} (k : Nat) (h₀ : Follows s₀ s) :
    ResFollows s₀ (execPass k s) := by
  unfold execPass
  with_reducible repeat' (first
    | assumption | intro (_ : State) _ (_ : Follows _ _) | intro _ (_ : State) (_ : Follows _ _) | apply runWhen_follows | apply State.load_follows | apply State.startPass_follows | apply Follows.pair ‹_ = (_, _)› | apply ResFollows.next
    | (intro (x : State); have hx : Follows s₀ x := (by dsimp only [x]; repeat' (first | assumption | intro (_ : State) _ (_ : Follows _ _) | intro _ (_ : State) (_ : Follows _ _) | apply runWhen_follows | apply State.load_follows | apply State.startPass_follows | apply Follows.pair ‹_ = (_, _)› | apply ResFollows.next | intro _ | split | dsimp -zeta only | simp only [Follows.keep] | simp +zetaDelta only [Follows.keep])))
    | lift_lets | (intro (x : Option _); clear_value x)
    | intro _ | split | dsimp -zeta only | simp only [Follows.keep] | simp +zetaDelta only [Follows.keep])

theorem execPassDone_follows {s₀ : State} {s : State} (a : Nat) (parity : Bool) (ecc : List (Nat × Bool)) (acc : List (Nat × Bool)) (h₀ : Follows s₀ s) :
    ResFollows s₀ (execPassDone a parity ecc acc s) := by
  unfold execPassDone
  with_reducible repeat' (first
    | assumption | intro _ (_ : State) (_ : Follows _ _) | apply State.eccFinds_follows | apply State.accFinds_follows | apply State.withPkt_follows | apply State.endPass_follows | apply ResFollows.next
    | intro _ | split | simp only [Follows.keep] | simp +zetaDelta only [Follows.keep])

theorem execEpilogue_follows {s₀ : State} {s : State} (k : Nat) (h₀ : Follows s₀ s) :
    ResFollows s₀ (execEpilogue k s) := by
  unfold execEpilogue
  with_reducible repeat' (first
    | assumption | intro (_ : State) _ (_ : Follows _ _) | intro _ (_ : State) (_ : Follows _ _) | apply runWhen_follows | apply State.startEpilogue_follows | apply ResFollows.next
    | intro _ | split | simp only [Follows.keep] | simp +zetaDelta only [Follows.keep])

theorem execEpilogueDone_follows {s₀ : State} {s : State} (a : Nat) (acc : List (Nat × Bool)) (h₀ : Follows s₀ s) :
    ResFollows s₀ (execEpilogueDone a acc s) := by
  unfold execEpilogueDone
  with_reducible repeat' (first
    | assumption | intro _ (_ : State) (_ : Follows _ _) | apply State.accFinds_follows | apply State.withPkt_follows | apply State.endEpilogue_follows | apply ResFollows.next
    | intro _ | split | simp only [Follows.keep] | simp +zetaDelta only [Follows.keep])

theorem execVecOp_follows {s₀ : State} {s : State} (k : Nat) (h₀ : Follows s₀ s) :
    ResFollows s₀ (execVecOp k s) := by
  unfold execVecOp
  with_reducible repeat' (first
    | assumption | intro (_ : State) _ (_ : Follows _ _) | intro _ (_ : State) (_ : Follows _ _) | apply runWhen_follows | apply State.startVec_follows | apply ResFollows.next
    | intro _ | split | simp only [Follows.keep] | simp +zetaDelta only [Follows.keep])

theorem execVecOpDone_follows {s₀ : State} {s : State} (a : Nat) (ecc : List (Nat × Bool)) (h₀ : Follows s₀ s) :
    ResFollows s₀ (execVecOpDone a ecc s) := by
  unfold execVecOpDone
  with_reducible repeat' (first
    | assumption | intro _ (_ : State) (_ : Follows _ _) | apply State.eccFinds_follows | apply State.withPkt_follows | apply State.endVec_follows | apply ResFollows.next
    | intro _ | split | simp only [Follows.keep] | simp +zetaDelta only [Follows.keep])

theorem State.staleSector_follows {s₀ : State} {s : State} (n : Nat) (h₀ : Follows s₀ s) :
    Follows s₀ (State.staleSector s n) := by
  unfold State.staleSector
  with_reducible repeat' (first
    | assumption | apply programFlash_follows
    | intro _ | split)

theorem State.appendLog_follows {s₀ : State} {s : State} (n : Nat) (len : Nat) (count : Nat) (b : List Byte) (h₀ : Follows s₀ s) :
    Follows s₀ (State.appendLog s n len count b) := by
  unfold State.appendLog
  with_reducible repeat' (first
    | assumption | apply programFlash_follows
    | intro _ | split)

theorem State.ledgerPut_follows {s₀ : State} {s : State} (b : List Byte) (h₀ : Follows s₀ s) :
    Follows s₀ (State.ledgerPut s b) := by
  unfold State.ledgerPut
  with_reducible repeat' (first
    | assumption | apply appendLog_follows | apply eraseSector_follows | apply programFlash_follows
    | intro _ | split | simp only [Follows.keep] | simp +zetaDelta only [Follows.keep])

theorem State.eraseLogged_follows {s₀ : State} {s : State} (n : Nat) (purpose : Nat) (h₀ : Follows s₀ s) :
    Follows s₀ (State.eraseLogged s n purpose) := by
  unfold State.eraseLogged
  with_reducible repeat' (first
    | assumption | apply ledgerPut_follows | apply eraseSector_follows
    | (intro (x : State); have hx : Follows s₀ x := (by dsimp only [x]; repeat' (first | assumption | apply ledgerPut_follows | apply eraseSector_follows | intro _ | split)))
    | lift_lets | (intro (x : Option _); clear_value x)
    | intro _ | split)

theorem State.ledgerRoom_follows {s₀ : State} {s : State} (h₀ : Follows s₀ s) :
    Follows s₀ (State.ledgerRoom s) := by
  unfold State.ledgerRoom
  with_reducible repeat' (first
    | assumption | apply eraseLogged_follows | apply programFlash_follows | apply staleSector_follows
    | (intro (x : State); have hx : Follows s₀ x := (by dsimp only [x]; repeat' (first | assumption | apply eraseLogged_follows | apply programFlash_follows | apply staleSector_follows | intro _ | split | simp only [Follows.keep] | simp +zetaDelta only [Follows.keep])))
    | lift_lets | (intro (x : Option _); clear_value x)
    | intro _ | split | simp only [Follows.keep] | simp +zetaDelta only [Follows.keep])

theorem State.appendDesc_follows {s₀ : State} {s : State} (ch : List (Nat × Nat × Nat)) (h₀ : Follows s₀ s) :
    Follows s₀ (State.appendDesc s ch) := by
  unfold State.appendDesc
  with_reducible repeat' (first
    | assumption | apply ledgerRoom_follows | apply eraseLogged_follows | apply programFlash_follows | apply appendLog_follows | apply staleSector_follows
    | (intro (x : State); have hx : Follows s₀ x := (by dsimp only [x]; repeat' (first | assumption | apply ledgerRoom_follows | apply eraseLogged_follows | apply programFlash_follows | apply appendLog_follows | apply staleSector_follows | intro _ | split | simp only [Follows.keep] | simp +zetaDelta only [Follows.keep])))
    | lift_lets | (intro (x : Option _); clear_value x)
    | intro _ | split | simp only [Follows.keep] | simp +zetaDelta only [Follows.keep])

theorem State.verifyImage_follows {s₀ : State} {s : State} (b : List Byte) (h₀ : Follows s₀ s) :
    Follows s₀ (State.verifyImage s b).2 := by
  unfold State.verifyImage
  with_reducible repeat' (first
    | assumption | apply event_follows
    | (intro (x : State); have hx : Follows s₀ x := (by dsimp only [x]; repeat' (first | assumption | apply event_follows | intro _ | split | dsimp -zeta only)))
    | lift_lets | (intro (x : Option _); clear_value x)
    | intro _ | split | dsimp -zeta only)

theorem State.nvEffect_follows {s₀ : State} {s : State} (y0 : NvOp) (h₀ : Follows s₀ s) :
    Follows s₀ (State.nvEffect s y0) := by
  unfold State.nvEffect
  with_reducible repeat' (first
    | assumption | apply programFlash_follows | apply ledgerRoom_follows | apply ledgerPut_follows | apply eraseSector_follows | apply setNvs_follows | apply event_follows | apply appendDesc_follows
    | (intro (x : State); have hx : Follows s₀ x := (by dsimp only [x]; repeat' (first | assumption | apply programFlash_follows | apply ledgerRoom_follows | apply ledgerPut_follows | apply eraseSector_follows | apply setNvs_follows | apply event_follows | apply appendDesc_follows | intro _ | exact ⟨rfl, rfl, rfl⟩ | exact Nvs.setJob_keeps _ _ _ | (refine ⟨?_, ?_, ?_⟩ <;> repeat' (first | rfl | split)) | split | simp only [Follows.keep] | simp +zetaDelta only [Follows.keep])))
    | lift_lets | (intro (x : Option _); clear_value x)
    | intro _ | exact ⟨rfl, rfl, rfl⟩ | exact Nvs.setJob_keeps _ _ _ | (refine ⟨?_, ?_, ?_⟩ <;> repeat' (first | rfl | split)) | split | simp only [Follows.keep] | simp +zetaDelta only [Follows.keep])

theorem State.cutProg_follows {s₀ : State} {s : State} (a : Nat) (d : List Byte) (h₀ : Follows s₀ s) :
    Follows s₀ (State.cutProg s a d) := by
  unfold State.cutProg
  with_reducible repeat' (first
    | assumption | apply freeFlash_follows
    | intro _ | split)

theorem State.nvCut_follows {s₀ : State} {s : State} (y0 : NvOp) (h₀ : Follows s₀ s) :
    Follows s₀ (State.nvCut s y0) := by
  unfold State.nvCut
  with_reducible repeat' (first
    | assumption | apply cutProg_follows | apply freeFlash_follows | apply Follows.elim
    | intro _ | split | simp only [Follows.keep] | simp +zetaDelta only [Follows.keep])

theorem State.confirmTrial_follows {s₀ s : State} (h : Follows s₀ s) : Follows s₀ s.confirmTrial := by
  unfold State.confirmTrial
  refine event_follows _ _ _ (setRf_follows _ _ _ _ ⟨h.pending, h.osc, h.free, h.pkts, h.out, h.mem, h.flash, h.regs, ?_, ?_⟩)
  · exact Nat.le_trans h.svn (Nat.le_trans (Nat.le_max_right _ _) (Nat.le_max_left _ _))
  · intro i k
    show (Nat.lor s.nvs.revoked _).testBit i = true
    rw [show ∀ a b, Nat.lor a b = a ||| b from fun _ _ => rfl, Nat.testBit_or, h.revoked i k]
    rfl

theorem State.settleLedgers_follows {s₀ : State} {s : State} (h₀ : Follows s₀ s) :
    Follows s₀ (State.settleLedgers s) := by
  unfold State.settleLedgers
  with_reducible repeat' (first
    | assumption | apply staleSector_follows
    | intro _ | split)

theorem State.failJob_follows {s₀ : State} {s : State} (j : NvJob) (st : Nat) (h₀ : Follows s₀ s) :
    Follows s₀ (State.failJob s j st) := by
  unfold State.failJob
  with_reducible repeat' (first
    | assumption | apply failPkt_follows | apply setNvs_follows
    | intro _ | exact ⟨rfl, rfl, rfl⟩ | (refine ⟨?_, ?_, ?_⟩ <;> repeat' (first | rfl | split)) | split | simp only [Follows.keep] | simp +zetaDelta only [Follows.keep])

theorem State.slotWritten_follows {s₀ : State} {s : State} (config : Bool) (h₀ : Follows s₀ s) :
    Follows s₀ (State.slotWritten s config) := by
  unfold State.slotWritten
  with_reducible repeat' (first
    | assumption | apply event_follows | apply setNvs_follows
    | (intro (x : State); have hx : Follows s₀ x := (by dsimp only [x]; repeat' (first | assumption | apply event_follows | apply setNvs_follows | intro _ | exact ⟨rfl, rfl, rfl⟩ | (refine ⟨?_, ?_, ?_⟩ <;> repeat' (first | rfl | split)) | split)))
    | lift_lets | (intro (x : Option _); clear_value x)
    | intro _ | exact ⟨rfl, rfl, rfl⟩ | (refine ⟨?_, ?_, ?_⟩ <;> repeat' (first | rfl | split)) | split)

theorem State.contentOk_follows {s₀ : State} {s : State} (config : Bool) (c : List Byte) (h₀ : Follows s₀ s) :
    Follows s₀ (State.contentOk s config c).2 := by
  unfold State.contentOk
  with_reducible repeat' (first
    | assumption | apply verifyImage_follows | apply Follows.pair ‹_ = (_, _)›
    | intro _ | split | dsimp -zeta only)

theorem State.endNvJob_follows {s₀ : State} {s : State} (host : Bool) (j : NvJob) (h₀ : Follows s₀ s) :
    Follows s₀ (State.endNvJob s host j) := by
  unfold State.endNvJob
  with_reducible repeat' (first
    | assumption | apply contentOk_follows | apply setNvs_follows | apply failJob_follows | apply slotWritten_follows | apply done_follows | apply event_follows | apply settleLedgers_follows | apply confirmTrial_follows | apply Follows.pair ‹_ = (_, _)›
    | (intro (x : State); have hx : Follows s₀ x := (by dsimp only [x]; repeat' (first | assumption | apply contentOk_follows | apply setNvs_follows | apply failJob_follows | apply slotWritten_follows | apply done_follows | apply event_follows | apply settleLedgers_follows | apply confirmTrial_follows | apply Follows.pair ‹_ = (_, _)› | intro _ | exact ⟨rfl, rfl, rfl⟩ | exact Nvs.setJob_keeps _ _ _ | (refine ⟨?_, ?_, ?_⟩ <;> repeat' (first | rfl | split)) | split | dsimp -zeta only | simp only [Follows.keep] | simp +zetaDelta only [Follows.keep])))
    | lift_lets | (intro (x : Option _); clear_value x)
    | intro _ | exact ⟨rfl, rfl, rfl⟩ | exact Nvs.setJob_keeps _ _ _ | (refine ⟨?_, ?_, ?_⟩ <;> repeat' (first | rfl | split)) | split | dsimp -zeta only | simp only [Follows.keep] | simp +zetaDelta only [Follows.keep])

theorem State.parkFlash_follows {s₀ : State} {s : State} (h₀ : Follows s₀ s) :
    Follows s₀ (State.parkFlash s) := by
  unfold State.parkFlash
  with_reducible repeat' (first
    | assumption | apply setNvs_follows | apply failPkt_follows | apply failJob_follows | refine stage_follows _ _ _ _ _ ?_ ‹_ = some _›
    | (intro (x : State); have hx : Follows s₀ x := (by dsimp only [x]; repeat' (first | assumption | apply setNvs_follows | apply failPkt_follows | apply failJob_follows | refine stage_follows _ _ _ _ _ ?_ ‹_ = some _› | intro _ | exact ⟨rfl, rfl, rfl⟩ | (refine ⟨?_, ?_, ?_⟩ <;> repeat' (first | rfl | split)) | split | simp only [Follows.keep] | simp +zetaDelta only [Follows.keep])))
    | lift_lets | (intro (x : Option _); clear_value x)
    | intro _ | exact ⟨rfl, rfl, rfl⟩ | (refine ⟨?_, ?_, ?_⟩ <;> repeat' (first | rfl | split)) | split | simp only [Follows.keep] | simp +zetaDelta only [Follows.keep])

theorem State.nvNext_follows {s₀ : State} (n : Nat) {s : State} (h : Follows s₀ s) : Follows s₀ (State.nvNext n s) := by
  induction n generalizing s with
  | zero => exact h
  | succ n ih =>
    unfold State.nvNext
    with_reducible repeat' (first
      | assumption | apply ih | apply parkFlash_follows | apply endNvJob_follows | apply setNvs_follows
      | exact Nvs.setJob_keeps _ _ _ | exact ⟨rfl, rfl, rfl⟩ | lift_lets | intro _ | split)

theorem State.nvGo_follows {s₀ : State} {s : State} (h₀ : Follows s₀ s) :
    Follows s₀ (State.nvGo s) := by
  unfold State.nvGo
  with_reducible repeat' (first
    | assumption | apply nvNext_follows
    | intro _ | split)

theorem State.hostJob_follows {s₀ : State} {s : State} (j : NvJob) (h₀ : Follows s₀ s) :
    Follows s₀ (State.hostJob s j) := by
  unfold State.hostJob
  with_reducible repeat' (first
    | assumption | apply failJob_follows | apply setNvs_follows | apply nvGo_follows
    | intro _ | exact ⟨rfl, rfl, rfl⟩ | (refine ⟨?_, ?_, ?_⟩ <;> repeat' (first | rfl | split)) | split | simp only [Follows.keep] | simp +zetaDelta only [Follows.keep])

theorem State.ownAsk_follows {s₀ : State} {s : State} (kind : Nat) (h₀ : Follows s₀ s) :
    Follows s₀ (State.ownAsk s kind) := by
  unfold State.ownAsk
  with_reducible repeat' (first
    | assumption | apply setNvs_follows | apply nvGo_follows
    | intro _ | exact ⟨rfl, rfl, rfl⟩ | (refine ⟨?_, ?_, ?_⟩ <;> repeat' (first | rfl | split)) | split | simp only [Follows.keep] | simp +zetaDelta only [Follows.keep])

theorem State.stageSettle_follows {s₀ : State} {s : State} (h₀ : Follows s₀ s) :
    Follows s₀ (State.stageSettle s) := by
  unfold State.stageSettle
  with_reducible repeat' (first
    | assumption | apply setNvs_follows | apply failEv_follows | apply contentOk_follows | apply hostJob_follows | apply failPkt_follows | apply Follows.pair ‹_ = (_, _)› | refine stage_follows _ _ _ _ _ ?_ ‹_ = some _›
    | (intro (x : State); have hx : Follows s₀ x := (by dsimp only [x]; repeat' (first | assumption | apply setNvs_follows | apply failEv_follows | apply contentOk_follows | apply hostJob_follows | apply failPkt_follows | apply Follows.pair ‹_ = (_, _)› | refine stage_follows _ _ _ _ _ ?_ ‹_ = some _› | intro _ | exact ⟨rfl, rfl, rfl⟩ | (refine ⟨?_, ?_, ?_⟩ <;> repeat' (first | rfl | split)) | split | simp only [Follows.keep] | simp +zetaDelta only [Follows.keep])))
    | lift_lets | (intro (x : Option _); clear_value x)
    | intro _ | exact ⟨rfl, rfl, rfl⟩ | (refine ⟨?_, ?_, ?_⟩ <;> repeat' (first | rfl | split)) | split | simp only [Follows.keep] | simp +zetaDelta only [Follows.keep])

end Sys2Proof.Machine
end

