-- ==== Sys2Proof/Laws/FollowPorts.lean ====
section
/-! SUPPORT. Follow lemmas: link, partition and host-port operations, register reads, resets, the fold engines, bring-up and clocks follow. -/
namespace Sys2Proof.Machine

theorem State.setGleed_follows {s₀ : State} {s : State} (d : Nat) (g : Gleed) (h₀ : Follows s₀ s) :
    Follows s₀ (State.setGleed s d g) := by
  unfold State.setGleed
  with_reducible repeat' (first
    | assumption
    | intro _ | split | simp only [Follows.keep] | simp +zetaDelta only [Follows.keep])

theorem State.closeLine_follows {s₀ : State} {s : State} (d : Nat) (q : Nat) (h₀ : Follows s₀ s) :
    Follows s₀ (State.closeLine s d q) := by
  unfold State.closeLine
  with_reducible repeat' (first
    | assumption | intro (_ : State) _ (_ : Follows _ _) | intro _ (_ : State) (_ : Follows _ _) | apply setGleed_follows | apply each_follows | apply emit_follows
    | (intro (x : State); have hx : Follows s₀ x := (by dsimp only [x]; repeat' (first | assumption | intro (_ : State) _ (_ : Follows _ _) | intro _ (_ : State) (_ : Follows _ _) | apply setGleed_follows | apply each_follows | apply emit_follows | intro _ | split | simp only [Follows.keep] | simp +zetaDelta only [Follows.keep])))
    | lift_lets | (intro (x : Option _); clear_value x)
    | intro _ | split | simp only [Follows.keep] | simp +zetaDelta only [Follows.keep])

theorem State.fillLine_follows {s₀ : State} {s : State} (d : Nat) (q : Nat) (os : Bool) (b : List Byte) (h₀ : Follows s₀ s) :
    Follows s₀ (State.fillLine s d q os b) := by
  unfold State.fillLine
  with_reducible repeat' (first
    | assumption | apply setGleed_follows | apply closeLine_follows
    | (intro (x : State); have hx : Follows s₀ x := (by dsimp only [x]; repeat' (first | assumption | apply setGleed_follows | apply closeLine_follows | intro _ | split | simp only [Follows.keep] | simp +zetaDelta only [Follows.keep])))
    | lift_lets | (intro (x : Option _); clear_value x)
    | intro _ | split | simp only [Follows.keep] | simp +zetaDelta only [Follows.keep])

theorem State.flushLine_follows {s₀ : State} {s : State} (d : Nat) (q : Nat) (h₀ : Follows s₀ s) :
    Follows s₀ (State.flushLine s d q) := by
  unfold State.flushLine
  with_reducible repeat' (first
    | assumption | apply setGleed_follows | apply closeLine_follows
    | (intro (x : State); have hx : Follows s₀ x := (by dsimp only [x]; repeat' (first | assumption | apply setGleed_follows | apply closeLine_follows | intro _ | split | simp only [Follows.keep] | simp +zetaDelta only [Follows.keep])))
    | lift_lets | (intro (x : Option _); clear_value x)
    | intro _ | split | simp only [Follows.keep] | simp +zetaDelta only [Follows.keep])

theorem State.sendBytes_follows {s₀ : State} {s : State} (d : Nat) (b : List Byte) (h₀ : Follows s₀ s) :
    Follows s₀ (State.sendBytes s d b) := by
  unfold State.sendBytes
  with_reducible repeat' (first
    | assumption | apply fillLine_follows | apply emit_follows | apply modLink_follows
    | (intro (x : State); have hx : Follows s₀ x := (by dsimp only [x]; repeat' (first | assumption | apply fillLine_follows | apply emit_follows | apply modLink_follows | intro _ | split | simp only [Follows.keep] | simp +zetaDelta only [Follows.keep])))
    | lift_lets | (intro (x : Option _); clear_value x)
    | intro _ | split | simp only [Follows.keep] | simp +zetaDelta only [Follows.keep])

theorem State.sendOs_follows {s₀ : State} {s : State} (d : Nat) (q : Nat) (b : List Byte) (h₀ : Follows s₀ s) :
    Follows s₀ (State.sendOs s d q b) := by
  unfold State.sendOs
  with_reducible repeat' (first
    | assumption | apply fillLine_follows | apply flushLine_follows | apply emit_follows
    | (intro (x : State); have hx : Follows s₀ x := (by dsimp only [x]; repeat' (first | assumption | apply fillLine_follows | apply flushLine_follows | apply emit_follows | intro _ | split | simp only [Follows.keep] | simp +zetaDelta only [Follows.keep])))
    | lift_lets | (intro (x : Option _); clear_value x)
    | intro _ | split | simp only [Follows.keep] | simp +zetaDelta only [Follows.keep])

theorem State.sendOsAll_follows {s₀ : State} {s : State} (d : Nat) (mask : Nat) (b : List Byte) (h₀ : Follows s₀ s) :
    Follows s₀ (State.sendOsAll s d mask b) := by
  unfold State.sendOsAll
  with_reducible repeat' (first
    | assumption | intro (_ : State) _ (_ : Follows _ _) | intro _ (_ : State) (_ : Follows _ _) | apply each_follows | apply sendOs_follows
    | (intro (x : State); have hx : Follows s₀ x := (by dsimp only [x]; repeat' (first | assumption | intro (_ : State) _ (_ : Follows _ _) | intro _ (_ : State) (_ : Follows _ _) | apply each_follows | apply sendOs_follows | intro _ | split | simp only [Follows.keep] | simp +zetaDelta only [Follows.keep])))
    | lift_lets | (intro (x : Option _); clear_value x)
    | intro _ | split | simp only [Follows.keep] | simp +zetaDelta only [Follows.keep])

theorem State.sendReq_follows {s₀ : State} {s : State} (d : Nat) (h₀ : Follows s₀ s) :
    Follows s₀ (State.sendReq s d) := by
  unfold State.sendReq
  with_reducible repeat' (first
    | assumption | apply sendOs_follows
    | intro _ | split | simp only [Follows.keep] | simp +zetaDelta only [Follows.keep])

theorem State.startReq_follows {s₀ : State} {s : State} (d : Nat) (kind : Nat) (h₀ : Follows s₀ s) :
    Follows s₀ (State.startReq s d kind) := by
  unfold State.startReq
  with_reducible repeat' (first
    | assumption | apply setLink_follows | apply sendReq_follows
    | (intro (x : State); have hx : Follows s₀ x := (by dsimp only [x]; repeat' (first | assumption | apply setLink_follows | apply sendReq_follows | intro _ | split | simp only [Follows.keep] | simp +zetaDelta only [Follows.keep])))
    | lift_lets | (intro (x : Option _); clear_value x)
    | intro _ | split | simp only [Follows.keep] | simp +zetaDelta only [Follows.keep])

theorem State.loseNeighbour_follows {s₀ : State} {s : State} (d : Nat) (h₀ : Follows s₀ s) :
    Follows s₀ (State.loseNeighbour s d) := by
  unfold State.loseNeighbour
  with_reducible repeat' (first
    | assumption | apply setRf_follows | apply portEvent_follows
    | (intro (x : State); have hx : Follows s₀ x := (by dsimp only [x]; repeat' (first | assumption | apply setRf_follows | apply portEvent_follows | intro _ | split)))
    | lift_lets | (intro (x : Option _); clear_value x)
    | intro _ | split)

theorem State.dropHolds_follows {s₀ : State} {s : State} (d : Nat) (h₀ : Follows s₀ s) :
    Follows s₀ (State.dropHolds s d) := by
  unfold State.dropHolds
  with_reducible repeat' (first
    | assumption
    | intro _ | split | simp only [Follows.keep] | simp +zetaDelta only [Follows.keep])

theorem State.abortTx_follows {s₀ : State} {s : State} (e : Nat) (d : Nat) (v : Nat) (h₀ : Follows s₀ s) :
    Follows s₀ (State.abortTx s e d v) := by
  unfold State.abortTx
  with_reducible repeat' (first
    | assumption | apply modLink_follows
    | intro _ | split | simp only [Follows.keep] | simp +zetaDelta only [Follows.keep])

theorem State.abortParts_follows {s₀ : State} {s : State} (d : Nat) (parts : Tbl RxFrame) (h₀ : Follows s₀ s) :
    Follows s₀ (State.abortParts s d parts) := by
  unfold State.abortParts
  with_reducible repeat' (first
    | assumption | intro (_ : State) _ (_ : Follows _ _) | intro _ (_ : State) (_ : Follows _ _) | apply each_follows | apply abortTx_follows
    | (intro (x : State); have hx : Follows s₀ x := (by dsimp only [x]; repeat' (first | assumption | intro (_ : State) _ (_ : Follows _ _) | intro _ (_ : State) (_ : Follows _ _) | apply each_follows | apply abortTx_follows | intro _ | split | simp only [Follows.keep] | simp +zetaDelta only [Follows.keep])))
    | lift_lets | (intro (x : Option _); clear_value x)
    | intro _ | split | simp only [Follows.keep] | simp +zetaDelta only [Follows.keep])

theorem State.orphanPart_follows {s₀ : State} {s : State} (d : Nat) (v : Nat) (h₀ : Follows s₀ s) :
    Follows s₀ (State.orphanPart s d v) := by
  unfold State.orphanPart
  with_reducible repeat' (first
    | assumption | apply modLink_follows
    | intro _ | split | simp only [Follows.keep] | simp +zetaDelta only [Follows.keep])

theorem State.purgeTx_follows {s₀ : State} {s : State} (q : List TxFrame) (h₀ : Follows s₀ s) :
    Follows s₀ (State.purgeTx s q) := by
  unfold State.purgeTx
  with_reducible repeat' (first
    | assumption | intro (_ : State) _ (_ : Follows _ _) | intro _ (_ : State) (_ : Follows _ _) | apply each_follows | apply orphanPart_follows | apply freeFlits_follows | apply left_follows
    | (intro (x : State); have hx : Follows s₀ x := (by dsimp only [x]; repeat' (first | assumption | intro (_ : State) _ (_ : Follows _ _) | intro _ (_ : State) (_ : Follows _ _) | apply each_follows | apply orphanPart_follows | apply freeFlits_follows | apply left_follows | intro _ | split | simp only [Follows.keep] | simp +zetaDelta only [Follows.keep])))
    | lift_lets | (intro (x : Option _); clear_value x)
    | intro _ | split | simp only [Follows.keep] | simp +zetaDelta only [Follows.keep])

theorem State.landingDown_follows {s₀ : State} {s : State} (d : Nat) (h₀ : Follows s₀ s) :
    Follows s₀ (State.landingDown s d) := by
  unfold State.landingDown
  with_reducible repeat' (first
    | assumption | apply setLap_follows | apply semSignal_follows
    | (intro (x : State); have hx : Follows s₀ x := (by dsimp only [x]; repeat' (first | assumption | apply setLap_follows | apply semSignal_follows | intro _ | split | simp only [Follows.keep] | simp +zetaDelta only [Follows.keep])))
    | lift_lets | (intro (x : Option _); clear_value x)
    | intro _ | split | simp only [Follows.keep] | simp +zetaDelta only [Follows.keep])

theorem State.setChan_follows {s₀ : State} {s : State} (d : Nat) (c : Nat) (h : Nat) (h₀ : Follows s₀ s) :
    Follows s₀ (State.setChan s d c h) := by
  unfold State.setChan
  with_reducible repeat' (first
    | assumption | apply setRf_follows
    | intro _ | split)

theorem State.dropSwap_follows {s₀ : State} {s : State} (d : Nat) (x : Option Swap) (h₀ : Follows s₀ s) :
    Follows s₀ (State.dropSwap s d x) := by
  unfold State.dropSwap
  with_reducible repeat' (first
    | assumption | apply setRf_follows | apply setChan_follows | apply portEvent_follows
    | (intro (x : State); have hx : Follows s₀ x := (by dsimp only [x]; repeat' (first | assumption | apply setRf_follows | apply setChan_follows | apply portEvent_follows | intro _ | split | simp only [Follows.keep] | simp +zetaDelta only [Follows.keep])))
    | lift_lets | (intro (x : Option _); clear_value x)
    | intro _ | split | simp only [Follows.keep] | simp +zetaDelta only [Follows.keep])

theorem State.dropSwaps_follows {s₀ : State} {s : State} (d : Nat) (h₀ : Follows s₀ s) :
    Follows s₀ (State.dropSwaps s d) := by
  unfold State.dropSwaps
  with_reducible repeat' (first
    | assumption | apply dropSwap_follows | apply setGleed_follows
    | (intro (x : State); have hx : Follows s₀ x := (by dsimp only [x]; repeat' (first | assumption | apply dropSwap_follows | apply setGleed_follows | intro _ | split | simp only [Follows.keep] | simp +zetaDelta only [Follows.keep])))
    | lift_lets | (intro (x : Option _); clear_value x)
    | intro _ | split | simp only [Follows.keep] | simp +zetaDelta only [Follows.keep])

theorem State.dropMeasure_follows {s₀ : State} {s : State} (d : Nat) (h₀ : Follows s₀ s) :
    Follows s₀ (State.dropMeasure s d) := by
  unfold State.dropMeasure
  with_reducible repeat' (first
    | assumption | intro (_ : State) _ (_ : Follows _ _) | apply setRf_follows | apply each_follows | apply failPkt_follows
    | (intro (x : State); have hx : Follows s₀ x := (by dsimp only [x]; repeat' (first | assumption | intro (_ : State) _ (_ : Follows _ _) | apply setRf_follows | apply each_follows | apply failPkt_follows | intro _ | split | simp only [Follows.keep] | simp +zetaDelta only [Follows.keep])))
    | lift_lets | (intro (x : Option _); clear_value x)
    | intro _ | split | simp only [Follows.keep] | simp +zetaDelta only [Follows.keep])

theorem State.linkDown_follows {s₀ : State} {s : State} (d : Nat) (h₀ : Follows s₀ s) :
    Follows s₀ (State.linkDown s d) := by
  unfold State.linkDown
  with_reducible repeat' (first
    | assumption | apply setLink_follows | apply dropHolds_follows | apply abortParts_follows | apply landingDown_follows | apply portEvent_follows | apply bump_follows | apply loseNeighbour_follows | apply setRf_follows | apply dropMeasure_follows | apply dropSwaps_follows | apply purgeTx_follows | apply hopsDown_follows | apply linesDown_follows
    | (intro (x : State); have hx : Follows s₀ x := (by dsimp only [x]; repeat' (first | assumption | apply setLink_follows | apply dropHolds_follows | apply abortParts_follows | apply landingDown_follows | apply portEvent_follows | apply bump_follows | apply loseNeighbour_follows | apply setRf_follows | apply dropMeasure_follows | apply dropSwaps_follows | apply purgeTx_follows | apply hopsDown_follows | apply linesDown_follows | intro _ | split | simp only [Follows.keep] | simp +zetaDelta only [Follows.keep])))
    | lift_lets | (intro (x : Option _); clear_value x)
    | intro _ | split | simp only [Follows.keep] | simp +zetaDelta only [Follows.keep])

theorem State.quadFault_follows {s₀ : State} {s : State} (d : Nat) (mask : Nat) (h₀ : Follows s₀ s) :
    Follows s₀ (State.quadFault s d mask) := by
  unfold State.quadFault
  with_reducible repeat' (first
    | assumption | intro (_ : State) _ (_ : Follows _ _) | intro _ (_ : State) (_ : Follows _ _) | apply setLink_follows | apply each_follows | apply portEvent_follows | apply linkDown_follows | apply startReq_follows
    | (intro (x : State); have hx : Follows s₀ x := (by dsimp only [x]; repeat' (first | assumption | intro (_ : State) _ (_ : Follows _ _) | intro _ (_ : State) (_ : Follows _ _) | apply setLink_follows | apply each_follows | apply portEvent_follows | apply linkDown_follows | apply startReq_follows | intro _ | split | simp only [Follows.keep] | simp +zetaDelta only [Follows.keep])))
    | lift_lets | (intro (x : Option _); clear_value x)
    | intro _ | split | simp only [Follows.keep] | simp +zetaDelta only [Follows.keep])

theorem State.startReplay_follows {s₀ : State} {s : State} (d : Nat) (h₀ : Follows s₀ s) :
    Follows s₀ (State.startReplay s d) := by
  unfold State.startReplay
  with_reducible repeat' (first
    | assumption | apply setLink_follows | apply bump_follows | apply modLink_follows | apply portEvent_follows | apply startReq_follows
    | (intro (x : State); have hx : Follows s₀ x := (by dsimp only [x]; repeat' (first | assumption | apply setLink_follows | apply bump_follows | apply modLink_follows | apply portEvent_follows | apply startReq_follows | intro _ | split | simp only [Follows.keep] | simp +zetaDelta only [Follows.keep])))
    | lift_lets | (intro (x : Option _); clear_value x)
    | intro _ | split | simp only [Follows.keep] | simp +zetaDelta only [Follows.keep])

theorem State.applyReports_follows {s₀ : State} {s : State} (d : Nat) (f : Flit) (h₀ : Follows s₀ s) :
    Follows s₀ (State.applyReports s d f) := by
  unfold State.applyReports
  with_reducible repeat' (first
    | assumption | intro (_ : State) _ (_ : Follows _ _) | intro _ (_ : State) (_ : Follows _ _) | apply modLink_follows | apply startReplay_follows | apply Follows.foldl2
    | (intro (x : State); have hx : Follows s₀ x := (by dsimp only [x]; repeat' (first | assumption | intro (_ : State) _ (_ : Follows _ _) | intro _ (_ : State) (_ : Follows _ _) | apply modLink_follows | apply startReplay_follows | apply Follows.foldl2 | intro _ | split | simp only [Follows.keep] | simp +zetaDelta only [Follows.keep])))
    | lift_lets | (intro (x : Option _); clear_value x)
    | intro _ | split | simp only [Follows.keep] | simp +zetaDelta only [Follows.keep])

theorem State.badFlit_follows {s₀ : State} {s : State} (d : Nat) (fec : Bool) (data : Bool) (h₀ : Follows s₀ s) :
    Follows s₀ (State.badFlit s d fec data) := by
  unfold State.badFlit
  with_reducible repeat' (first
    | assumption | apply bump_follows | apply portEvent_follows | apply modLink_follows
    | (intro (x : State); have hx : Follows s₀ x := (by dsimp only [x]; repeat' (first | assumption | apply bump_follows | apply portEvent_follows | apply modLink_follows | intro _ | split | simp only [Follows.keep] | simp +zetaDelta only [Follows.keep])))
    | lift_lets | (intro (x : Option _); clear_value x)
    | intro _ | split | simp only [Follows.keep] | simp +zetaDelta only [Follows.keep])

theorem State.setRxFrame_follows {s₀ : State} {s : State} (d : Nat) (v : Nat) (x : Option RxFrame) (h₀ : Follows s₀ s) :
    Follows s₀ (State.setRxFrame s d v x) := by
  unfold State.setRxFrame
  with_reducible repeat' (first
    | assumption | apply modLink_follows
    | intro _ | split | simp only [Follows.keep] | simp +zetaDelta only [Follows.keep])

theorem State.dropPart_follows {s₀ : State} {s : State} (d : Nat) (v : Nat) (h₀ : Follows s₀ s) :
    Follows s₀ (State.dropPart s d v) := by
  unfold State.dropPart
  with_reducible repeat' (first
    | assumption | apply setRxFrame_follows | apply freeFlits_follows | apply abortTx_follows | apply releaseLanding_follows
    | (intro (x : State); have hx : Follows s₀ x := (by dsimp only [x]; repeat' (first | assumption | apply setRxFrame_follows | apply freeFlits_follows | apply abortTx_follows | apply releaseLanding_follows | intro _ | split | simp only [Follows.keep] | simp +zetaDelta only [Follows.keep])))
    | lift_lets | (intro (x : Option _); clear_value x)
    | intro _ | split | simp only [Follows.keep] | simp +zetaDelta only [Follows.keep])

theorem State.frameEnd_follows {s₀ : State} {s : State} (d : Nat) (v : Nat) (x : RxFrame) (h₀ : Follows s₀ s) :
    Follows s₀ (State.frameEnd s d v x) := by
  unfold State.frameEnd
  with_reducible repeat' (first
    | assumption | apply setRxFrame_follows | apply modLink_follows | apply deliver_follows
    | (intro (x : State); have hx : Follows s₀ x := (by dsimp only [x]; repeat' (first | assumption | apply setRxFrame_follows | apply modLink_follows | apply deliver_follows | intro _ | split | simp only [Follows.keep] | simp +zetaDelta only [Follows.keep])))
    | lift_lets | (intro (x : Option _); clear_value x)
    | intro _ | split | simp only [Follows.keep] | simp +zetaDelta only [Follows.keep])

theorem State.feedFrame_follows {s₀ : State} {s : State} (d : Nat) (v : Nat) (x : RxFrame) (pay : List Byte) (n : Nat) (ends : Bool) (h₀ : Follows s₀ s) :
    Follows s₀ (State.feedFrame s d v x pay n ends) := by
  unfold State.feedFrame
  with_reducible repeat' (first
    | assumption | apply frameEnd_follows | apply setRxFrame_follows | apply freeFlits_follows | apply modLink_follows
    | (intro (x : State); have hx : Follows s₀ x := (by dsimp only [x]; repeat' (first | assumption | apply frameEnd_follows | apply setRxFrame_follows | apply freeFlits_follows | apply modLink_follows | intro _ | split | simp only [Follows.keep] | simp +zetaDelta only [Follows.keep])))
    | lift_lets | (intro (x : Option _); clear_value x)
    | intro _ | split | simp only [Follows.keep] | simp +zetaDelta only [Follows.keep])

theorem State.storeFlit_follows {s₀ : State} {s : State} (d : Nat) (f : Flit) (h₀ : Follows s₀ s) :
    Follows s₀ (State.storeFlit s d f) := by
  unfold State.storeFlit
  with_reducible repeat' (first
    | assumption | apply modLink_follows | apply dropPart_follows | apply freeFlits_follows | apply feedFrame_follows
    | (intro (x : State); have hx : Follows s₀ x := (by dsimp only [x]; repeat' (first | assumption | apply modLink_follows | apply dropPart_follows | apply freeFlits_follows | apply feedFrame_follows | intro _ | split | simp only [Follows.keep] | simp +zetaDelta only [Follows.keep])))
    | lift_lets | (intro (x : Option _); clear_value x)
    | intro _ | split | simp only [Follows.keep] | simp +zetaDelta only [Follows.keep])

theorem State.acceptData_follows {s₀ : State} {s : State} (d : Nat) (f : Flit) (h₀ : Follows s₀ s) :
    Follows s₀ (State.acceptData s d f) := by
  unfold State.acceptData
  with_reducible repeat' (first
    | assumption | apply bump_follows | apply portEvent_follows | apply linkDown_follows | apply storeFlit_follows
    | (intro (x : State); have hx : Follows s₀ x := (by dsimp only [x]; repeat' (first | assumption | apply bump_follows | apply portEvent_follows | apply linkDown_follows | apply storeFlit_follows | intro _ | split)))
    | lift_lets | (intro (x : Option _); clear_value x)
    | intro _ | split)

theorem State.flitGap_follows {s₀ : State} {s : State} (d : Nat) (v : Nat) (k : Nat) (h₀ : Follows s₀ s) :
    Follows s₀ (State.flitGap s d v k) := by
  unfold State.flitGap
  with_reducible repeat' (first
    | assumption | intro (_ : State) _ (_ : Follows _ _) | intro _ (_ : State) (_ : Follows _ _) | apply bump_follows | apply portEvent_follows | apply modLink_follows | apply bumpBy_follows | apply each_follows | apply feedFrame_follows | apply dropPart_follows
    | (intro (x : State); have hx : Follows s₀ x := (by dsimp only [x]; repeat' (first | assumption | intro (_ : State) _ (_ : Follows _ _) | intro _ (_ : State) (_ : Follows _ _) | apply bump_follows | apply portEvent_follows | apply modLink_follows | apply bumpBy_follows | apply each_follows | apply feedFrame_follows | apply dropPart_follows | intro _ | split | simp only [Follows.keep] | simp +zetaDelta only [Follows.keep])))
    | lift_lets | (intro (x : Option _); clear_value x)
    | intro _ | split | simp only [Follows.keep] | simp +zetaDelta only [Follows.keep])

theorem State.dataFlit_follows {s₀ : State} {s : State} (d : Nat) (f : Flit) (h₀ : Follows s₀ s) :
    Follows s₀ (State.dataFlit s d f) := by
  unfold State.dataFlit
  with_reducible repeat' (first
    | assumption | apply applyReports_follows | apply linkDown_follows | apply flitGap_follows | apply modLink_follows | apply acceptData_follows | apply setLink_follows
    | (intro (x : State); have hx : Follows s₀ x := (by dsimp only [x]; repeat' (first | assumption | apply applyReports_follows | apply linkDown_follows | apply flitGap_follows | apply modLink_follows | apply acceptData_follows | apply setLink_follows | intro _ | split | simp only [Follows.keep] | simp +zetaDelta only [Follows.keep])))
    | lift_lets | (intro (x : Option _); clear_value x)
    | intro _ | split | simp only [Follows.keep] | simp +zetaDelta only [Follows.keep])

theorem State.sendFlit_follows {s₀ : State} {s : State} (d : Nat) (f : Flit) (h₀ : Follows s₀ s) :
    Follows s₀ (State.sendFlit s d f) := by
  unfold State.sendFlit
  with_reducible repeat' (first
    | assumption | apply sendBytes_follows | apply modLink_follows
    | (intro (x : State); have hx : Follows s₀ x := (by dsimp only [x]; repeat' (first | assumption | apply sendBytes_follows | apply modLink_follows | intro _ | split | simp only [Follows.keep] | simp +zetaDelta only [Follows.keep])))
    | lift_lets | (intro (x : Option _); clear_value x)
    | intro _ | split | simp only [Follows.keep] | simp +zetaDelta only [Follows.keep])

theorem State.sendVc_follows {s₀ : State} {s : State} (d : Nat) (v : Nat) (h₀ : Follows s₀ s) :
    Follows s₀ (State.sendVc s d v) := by
  unfold State.sendVc
  with_reducible repeat' (first
    | assumption | apply setLink_follows | apply bump_follows | apply sendFlit_follows | apply freeFlits_follows | apply left_follows
    | (intro (x : State); have hx : Follows s₀ x := (by dsimp only [x]; repeat' (first | assumption | apply setLink_follows | apply bump_follows | apply sendFlit_follows | apply freeFlits_follows | apply left_follows | intro _ | split | simp only [Follows.keep] | simp +zetaDelta only [Follows.keep])))
    | lift_lets | (intro (x : Option _); clear_value x)
    | intro _ | split | simp only [Follows.keep] | simp +zetaDelta only [Follows.keep])

theorem State.sendConfig_follows {s₀ : State} {s : State} (d : Nat) (h₀ : Follows s₀ s) :
    Follows s₀ (State.sendConfig s d) := by
  unfold State.sendConfig
  with_reducible repeat' (first
    | assumption | apply sendFlit_follows
    | intro _ | split | simp only [Follows.keep] | simp +zetaDelta only [Follows.keep])

theorem State.sendTime_follows {s₀ : State} {s : State} (d : Nat) (x : TimeOs) (h₀ : Follows s₀ s) :
    Follows s₀ (State.sendTime s d x) := by
  unfold State.sendTime
  with_reducible repeat' (first
    | assumption | apply modLink_follows | apply turn_follows | apply sendOs_follows
    | (intro (x : State); have hx : Follows s₀ x := (by dsimp only [x]; repeat' (first | assumption | apply modLink_follows | apply turn_follows | apply sendOs_follows | intro _ | split | simp only [Follows.keep] | simp +zetaDelta only [Follows.keep])))
    | lift_lets | (intro (x : Option _); clear_value x)
    | intro _ | split | simp only [Follows.keep] | simp +zetaDelta only [Follows.keep])

theorem State.slotActive_follows {s₀ : State} {s : State} (d : Nat) (h₀ : Follows s₀ s) :
    Follows s₀ (State.slotActive s d) := by
  unfold State.slotActive
  with_reducible repeat' (first
    | assumption | apply setLink_follows | apply bump_follows | apply sendFlit_follows | apply sendTime_follows | apply sendConfig_follows | apply modLink_follows | apply sendVc_follows
    | (intro (x : State); have hx : Follows s₀ x := (by dsimp only [x]; repeat' (first | assumption | apply setLink_follows | apply bump_follows | apply sendFlit_follows | apply sendTime_follows | apply sendConfig_follows | apply modLink_follows | apply sendVc_follows | intro _ | split | simp only [Follows.keep] | simp +zetaDelta only [Follows.keep])))
    | lift_lets | (intro (x : Option _); clear_value x)
    | intro _ | split | simp only [Follows.keep] | simp +zetaDelta only [Follows.keep])

theorem State.fixSet_follows {s₀ : State} {s : State} (d : Nat) (h₀ : Follows s₀ s) :
    Follows s₀ (State.fixSet s d) := by
  unfold State.fixSet
  with_reducible repeat' (first
    | assumption | apply linkDown_follows | apply setLink_follows
    | (intro (x : State); have hx : Follows s₀ x := (by dsimp only [x]; repeat' (first | assumption | apply linkDown_follows | apply setLink_follows | intro _ | split | simp only [Follows.keep] | simp +zetaDelta only [Follows.keep])))
    | lift_lets | (intro (x : Option _); clear_value x)
    | intro _ | split | simp only [Follows.keep] | simp +zetaDelta only [Follows.keep])

theorem State.beginPause_follows {s₀ : State} {s : State} (d : Nat) (kind : Nat) (lead : Bool) (own : Nat) (ownSus : Nat) (des : Nat) (sus : Nat) (h₀ : Follows s₀ s) :
    Follows s₀ (State.beginPause s d kind lead own ownSus des sus) := by
  unfold State.beginPause
  with_reducible repeat' (first
    | assumption | apply setLink_follows | apply sendOsAll_follows | apply fixSet_follows
    | (intro (x : State); have hx : Follows s₀ x := (by dsimp only [x]; repeat' (first | assumption | apply setLink_follows | apply sendOsAll_follows | apply fixSet_follows | intro _ | split | simp only [Follows.keep] | simp +zetaDelta only [Follows.keep])))
    | lift_lets | (intro (x : Option _); clear_value x)
    | intro _ | split | simp only [Follows.keep] | simp +zetaDelta only [Follows.keep])

theorem State.endPause_follows {s₀ : State} {s : State} (d : Nat) (h₀ : Follows s₀ s) :
    Follows s₀ (State.endPause s d) := by
  unfold State.endPause
  with_reducible repeat' (first
    | assumption | apply setLink_follows | apply portEvent_follows | apply bump_follows | apply setRf_follows | apply startReq_follows
    | (intro (x : State); have hx : Follows s₀ x := (by dsimp only [x]; repeat' (first | assumption | apply setLink_follows | apply portEvent_follows | apply bump_follows | apply setRf_follows | apply startReq_follows | intro _ | split | simp only [Follows.keep] | simp +zetaDelta only [Follows.keep])))
    | lift_lets | (intro (x : Option _); clear_value x)
    | intro _ | split | simp only [Follows.keep] | simp +zetaDelta only [Follows.keep])

theorem State.startInit_follows {s₀ : State} {s : State} (d : Nat) (locked : Nat) (h₀ : Follows s₀ s) :
    Follows s₀ (State.startInit s d locked) := by
  unfold State.startInit
  with_reducible repeat' (first
    | assumption | intro (_ : State) _ (_ : Follows _ _) | intro _ (_ : State) (_ : Follows _ _) | apply setLink_follows | apply each_follows | apply sendOs_follows
    | (intro (x : State); have hx : Follows s₀ x := (by dsimp only [x]; repeat' (first | assumption | intro (_ : State) _ (_ : Follows _ _) | intro _ (_ : State) (_ : Follows _ _) | apply setLink_follows | apply each_follows | apply sendOs_follows | intro _ | split | simp only [Follows.keep] | simp +zetaDelta only [Follows.keep])))
    | lift_lets | (intro (x : Option _); clear_value x)
    | intro _ | split | simp only [Follows.keep] | simp +zetaDelta only [Follows.keep])

theorem State.lightPort_follows {s₀ : State} {s : State} (d : Nat) (h₀ : Follows s₀ s) :
    Follows s₀ (State.lightPort s d) := by
  unfold State.lightPort
  with_reducible repeat' (first
    | assumption | intro (_ : State) _ (_ : Follows _ _) | apply each_follows | apply setRf_follows
    | (intro (x : State); have hx : Follows s₀ x := (by dsimp only [x]; repeat' (first | assumption | intro (_ : State) _ (_ : Follows _ _) | apply each_follows | apply setRf_follows | intro _ | split)))
    | lift_lets | (intro (x : Option _); clear_value x)
    | intro _ | split)

theorem State.startTraining_follows {s₀ : State} {s : State} (d : Nat) (h₀ : Follows s₀ s) :
    Follows s₀ (State.startTraining s d) := by
  unfold State.startTraining
  with_reducible repeat' (first
    | assumption | apply lightPort_follows | apply modLink_follows | apply setRf_follows
    | intro _ | split | simp only [Follows.keep] | simp +zetaDelta only [Follows.keep])

theorem State.holeHit_follows {s₀ : State} {s : State} (fn : Nat) (h₀ : Follows s₀ s) :
    Follows s₀ (State.holeHit s fn) := by
  unfold State.holeHit
  with_reducible repeat' (first
    | assumption | apply pciCount_follows | apply event_follows
    | intro _ | split)

theorem State.barRead_follows {s₀ : State} {s : State} (fn : Nat) (a : Nat) (n : Nat) (h₀ : Follows s₀ s) :
    Follows s₀ (State.barRead s fn a n) := by
  unfold State.barRead
  with_reducible repeat' (first
    | assumption | apply holeHit_follows | apply emit_follows | apply notePoison_follows
    | (intro (x : State); have hx : Follows s₀ x := (by dsimp only [x]; repeat' (first | assumption | apply holeHit_follows | apply emit_follows | apply notePoison_follows | intro _ | split | simp only [Follows.keep] | simp +zetaDelta only [Follows.keep])))
    | lift_lets | (intro (x : Option _); clear_value x)
    | intro _ | split | simp only [Follows.keep] | simp +zetaDelta only [Follows.keep])

theorem State.barWrite_follows {s₀ : State} {s : State} (fn : Nat) (a : Nat) (d : List Byte) (ecc : List (Nat × Bool)) (h₀ : Follows s₀ s) :
    Follows s₀ (State.barWrite s fn a d ecc) := by
  unfold State.barWrite
  with_reducible repeat' (first
    | assumption | intro (_ : State) _ (_ : Follows _ _) | intro _ (_ : State) (_ : Follows _ _) | apply holeHit_follows | apply each_follows | apply eccFinds_follows | apply writePhys_follows
    | (intro (x : State); have hx : Follows s₀ x := (by dsimp only [x]; repeat' (first | assumption | intro (_ : State) _ (_ : Follows _ _) | intro _ (_ : State) (_ : Follows _ _) | apply holeHit_follows | apply each_follows | apply eccFinds_follows | apply writePhys_follows | intro _ | split | simp only [Follows.keep] | simp +zetaDelta only [Follows.keep])))
    | lift_lets | (intro (x : Option _); clear_value x)
    | intro _ | split | simp only [Follows.keep] | simp +zetaDelta only [Follows.keep])

theorem State.keepRelay_follows {s₀ : State} {s : State} (p : Nat) (r : Nat) (l : Lap) (j : LapJob) (h₀ : Follows s₀ s) :
    Follows s₀ (State.keepRelay s p r l j) := by
  unfold State.keepRelay
  with_reducible repeat' (first
    | assumption | apply modLap_follows
    | (intro (x : State); have hx : Follows s₀ x := (by dsimp only [x]; repeat' (first | assumption | apply modLap_follows | intro _ | split | simp only [Follows.keep] | simp +zetaDelta only [Follows.keep])))
    | lift_lets | (intro (x : Option _); clear_value x)
    | intro _ | split | simp only [Follows.keep] | simp +zetaDelta only [Follows.keep])

theorem State.endLaps_follows {s₀ : State} {s : State} (p : Nat) (h₀ : Follows s₀ s) :
    Follows s₀ (State.endLaps s p) := by
  unfold State.endLaps
  with_reducible repeat' (first
    | assumption | intro (_ : State) _ (_ : Follows _ _) | intro _ (_ : State) (_ : Follows _ _) | apply each_follows | apply modLap_follows | apply keepRelay_follows | apply originateAbort_follows | apply noticeDissolve_follows | apply modPart_follows | apply Follows.foldl2
    | (intro (x : State); have hx : Follows s₀ x := (by dsimp only [x]; repeat' (first | assumption | intro (_ : State) _ (_ : Follows _ _) | intro _ (_ : State) (_ : Follows _ _) | apply each_follows | apply modLap_follows | apply keepRelay_follows | apply originateAbort_follows | apply noticeDissolve_follows | apply modPart_follows | apply Follows.foldl2 | intro _ | split | simp only [Follows.keep] | simp +zetaDelta only [Follows.keep])))
    | lift_lets | (intro (x : Option _); clear_value x)
    | intro _ | split | simp only [Follows.keep] | simp +zetaDelta only [Follows.keep])

theorem State.quarantineAll_follows {s₀ : State} {s : State} (r : Nat) (h₀ : Follows s₀ s) :
    Follows s₀ (State.quarantineAll s r) := by
  unfold State.quarantineAll
  with_reducible repeat' (first
    | assumption | apply setReqs_follows | apply setHost_follows | apply modPart_follows
    | (intro (x : State); have hx : Follows s₀ x := (by dsimp only [x]; repeat' (first | assumption | apply setReqs_follows | apply setHost_follows | apply modPart_follows | intro _ | split | simp only [Follows.keep] | simp +zetaDelta only [Follows.keep])))
    | lift_lets | (intro (x : Option _); clear_value x)
    | intro _ | split | simp only [Follows.keep] | simp +zetaDelta only [Follows.keep])

theorem State.resetSteps_follows {s₀ : State} {s : State} (p : Nat) (cause : Nat) (h₀ : Follows s₀ s) :
    Follows s₀ (State.resetSteps s p cause) := by
  unfold State.resetSteps
  with_reducible repeat' (first
    | assumption | intro (_ : State) _ (_ : Follows _ _) | intro _ (_ : State) (_ : Follows _ _) | apply stopFetch_follows | apply endLaps_follows | apply dropDelivered_follows | apply stopWork_follows | apply idle_follows | apply each_follows | apply setAnvil_follows | apply stopRotation_follows | apply clearBlocks_follows | apply quarantineAll_follows | apply failAll_follows
    | (intro (x : State); have hx : Follows s₀ x := (by dsimp only [x]; repeat' (first | assumption | intro (_ : State) _ (_ : Follows _ _) | intro _ (_ : State) (_ : Follows _ _) | apply stopFetch_follows | apply endLaps_follows | apply dropDelivered_follows | apply stopWork_follows | apply idle_follows | apply each_follows | apply setAnvil_follows | apply stopRotation_follows | apply clearBlocks_follows | apply quarantineAll_follows | apply failAll_follows | intro _ | split | simp only [Follows.keep] | simp +zetaDelta only [Follows.keep])))
    | lift_lets | (intro (x : Option _); clear_value x)
    | intro _ | split | simp only [Follows.keep] | simp +zetaDelta only [Follows.keep])

theorem State.resetPart_follows {s₀ : State} {s : State} (p : Nat) (cause : Nat) (release : Bool) (h₀ : Follows s₀ s) :
    Follows s₀ (State.resetPart s p cause release) := by
  unfold State.resetPart
  with_reducible repeat' (first
    | assumption | apply modPart_follows | apply release_follows | apply eventD_follows | apply bump_follows | apply resetSteps_follows
    | (intro (x : State); have hx : Follows s₀ x := (by dsimp only [x]; repeat' (first | assumption | apply modPart_follows | apply release_follows | apply eventD_follows | apply bump_follows | apply resetSteps_follows | intro _ | split | simp only [Follows.keep] | simp +zetaDelta only [Follows.keep])))
    | lift_lets | (intro (x : Option _); clear_value x)
    | intro _ | split | simp only [Follows.keep] | simp +zetaDelta only [Follows.keep])

theorem State.clearPart_follows {s₀ : State} {s : State} (p : Nat) (h₀ : Follows s₀ s) :
    Follows s₀ (State.clearPart s p) := by
  unfold State.clearPart
  with_reducible repeat' (first
    | assumption | intro (_ : State) _ (_ : Follows _ _) | intro _ (_ : State) (_ : Follows _ _) | apply each_follows | apply zeroGranule_follows | apply setAnvil_follows | apply setTong_follows | apply resetDom_follows | apply setPart_follows
    | (intro (x : State); have hx : Follows s₀ x := (by dsimp only [x]; repeat' (first | assumption | intro (_ : State) _ (_ : Follows _ _) | intro _ (_ : State) (_ : Follows _ _) | apply each_follows | apply zeroGranule_follows | apply setAnvil_follows | apply setTong_follows | apply resetDom_follows | apply setPart_follows | intro _ | split | simp only [Follows.keep] | simp +zetaDelta only [Follows.keep])))
    | lift_lets | (intro (x : Option _); clear_value x)
    | intro _ | split | simp only [Follows.keep] | simp +zetaDelta only [Follows.keep])

theorem State.freeCarve_follows {s₀ : State} {s : State} (p : Nat) (h₀ : Follows s₀ s) :
    Follows s₀ (State.freeCarve s p) := by
  unfold State.freeCarve
  with_reducible repeat' (first
    | assumption | intro (_ : State) _ (_ : Follows _ _) | apply each_follows | apply setAnvil_follows | apply resetDom_follows | apply event_follows
    | (intro (x : State); have hx : Follows s₀ x := (by dsimp only [x]; repeat' (first | assumption | intro (_ : State) _ (_ : Follows _ _) | apply each_follows | apply setAnvil_follows | apply resetDom_follows | apply event_follows | intro _ | split)))
    | lift_lets | (intro (x : Option _); clear_value x)
    | intro _ | split)

theorem State.partResetDone_follows {s₀ : State} {s : State} (p : Nat) (x : Resetting) (h₀ : Follows s₀ s) :
    Follows s₀ (State.partResetDone s p x) := by
  unfold State.partResetDone
  with_reducible repeat' (first
    | assumption | apply clearPart_follows | apply release_follows | apply freeCarve_follows | apply eventD_follows
    | (intro (x : State); have hx : Follows s₀ x := (by dsimp only [x]; repeat' (first | assumption | apply clearPart_follows | apply release_follows | apply freeCarve_follows | apply eventD_follows | intro _ | split | simp only [Follows.keep] | simp +zetaDelta only [Follows.keep])))
    | lift_lets | (intro (x : Option _); clear_value x)
    | intro _ | split | simp only [Follows.keep] | simp +zetaDelta only [Follows.keep])

theorem State.hostReset_follows {s₀ : State} {s : State} (h₀ : Follows s₀ s) :
    Follows s₀ (State.hostReset s) := by
  unfold State.hostReset
  with_reducible repeat' (first
    | assumption | intro (_ : State) _ (_ : Follows _ _) | intro _ (_ : State) (_ : Follows _ _) | apply event_follows | apply setHost_follows | apply resetDom_follows | apply each_follows | apply resetPart_follows
    | (intro (x : State); have hx : Follows s₀ x := (by dsimp only [x]; repeat' (first | assumption | intro (_ : State) _ (_ : Follows _ _) | intro _ (_ : State) (_ : Follows _ _) | apply event_follows | apply setHost_follows | apply resetDom_follows | apply each_follows | apply resetPart_follows | intro _ | split | simp only [Follows.keep] | simp +zetaDelta only [Follows.keep])))
    | lift_lets | (intro (x : Option _); clear_value x)
    | intro _ | split | simp only [Follows.keep] | simp +zetaDelta only [Follows.keep])

theorem State.tongData_follows {s₀ : State} {s : State} (t : Nat) (off : Nat) (d : List Byte) (h₀ : Follows s₀ s) :
    Follows s₀ (State.tongData s t off d) := by
  unfold State.tongData
  with_reducible repeat' (first
    | assumption | apply writeHearth_follows | apply setTong_follows
    | (intro (x : State); have hx : Follows s₀ x := (by dsimp only [x]; repeat' (first | assumption | apply writeHearth_follows | apply setTong_follows | intro _ | split | simp only [Follows.keep] | simp +zetaDelta only [Follows.keep])))
    | lift_lets | (intro (x : Option _); clear_value x)
    | intro _ | split | simp only [Follows.keep] | simp +zetaDelta only [Follows.keep])

theorem State.serveAnswer_follows {s₀ : State} {s : State} (n : Nat) (status : Nat) (d : List Byte) (h₀ : Follows s₀ s) :
    Follows s₀ (State.serveAnswer s n status d) := by
  unfold State.serveAnswer
  with_reducible repeat' (first
    | assumption | apply setHost_follows | apply sendFrame_follows
    | (intro (x : State); have hx : Follows s₀ x := (by dsimp only [x]; repeat' (first | assumption | apply setHost_follows | apply sendFrame_follows | intro _ | split | simp only [Follows.keep] | simp +zetaDelta only [Follows.keep])))
    | lift_lets | (intro (x : Option _); clear_value x)
    | intro _ | split | simp only [Follows.keep] | simp +zetaDelta only [Follows.keep])

theorem State.readData_follows {s₀ : State} {s : State} (iss : Issuer) (off : Nat) (d : List Byte) (h₀ : Follows s₀ s) :
    Follows s₀ (State.readData s iss off d) := by
  unfold State.readData
  with_reducible repeat' (first
    | assumption | apply burstData_follows | apply tongData_follows | apply jobData_follows | apply setNvs_follows | apply setHost_follows | refine stage_follows _ _ _ _ _ ?_ ‹_ = some _›
    | intro _ | exact ⟨rfl, rfl, rfl⟩ | (refine ⟨?_, ?_, ?_⟩ <;> repeat' (first | rfl | split)) | split | simp only [Follows.keep] | simp +zetaDelta only [Follows.keep])

theorem State.readEnd_follows {s₀ : State} {s : State} (iss : Issuer) (h₀ : Follows s₀ s) :
    Follows s₀ (State.readEnd s iss) := by
  unfold State.readEnd
  with_reducible repeat' (first
    | assumption | apply setTong_follows | apply setNvs_follows | apply stageSettle_follows | apply serveAnswer_follows | refine stage_follows _ _ _ _ _ ?_ ‹_ = some _›
    | (intro (x : State); have hx : Follows s₀ x := (by dsimp only [x]; repeat' (first | assumption | apply setTong_follows | apply setNvs_follows | apply stageSettle_follows | apply serveAnswer_follows | refine stage_follows _ _ _ _ _ ?_ ‹_ = some _› | intro _ | exact ⟨rfl, rfl, rfl⟩ | (refine ⟨?_, ?_, ?_⟩ <;> repeat' (first | rfl | split)) | split | simp only [Follows.keep] | simp +zetaDelta only [Follows.keep])))
    | lift_lets | (intro (x : Option _); clear_value x)
    | intro _ | exact ⟨rfl, rfl, rfl⟩ | (refine ⟨?_, ?_, ?_⟩ <;> repeat' (first | rfl | split)) | split | simp only [Follows.keep] | simp +zetaDelta only [Follows.keep])

theorem State.readFail_follows {s₀ : State} {s : State} (iss : Issuer) (st : Nat) (h₀ : Follows s₀ s) :
    Follows s₀ (State.readFail s iss st) := by
  unfold State.readFail
  with_reducible repeat' (first
    | assumption | apply stopRing_follows | apply orphan_follows | apply failTong_follows | apply jobFail_follows | apply setNvs_follows | refine stage_follows _ _ _ _ _ ?_ ‹_ = some _› | apply stageSettle_follows | apply serveAnswer_follows
    | intro _ | exact ⟨rfl, rfl, rfl⟩ | exact Nvs.setJob_keeps _ _ _ | (refine ⟨?_, ?_, ?_⟩ <;> repeat' (first | rfl | split)) | split | simp only [Follows.keep] | simp +zetaDelta only [Follows.keep])

theorem State.issueNext_follows {s₀ s t : State} (r : Nat) (h : Follows s₀ s) (e : s.issueNext r = some t) : Follows s₀ t := by
  unfold State.issueNext at e
  split at e
  · cases e; exact serveAnswer_follows _ _ _ (setReqs_follows _ _ h)
  · exact issueOne_follows _ h e

theorem State.issueAll_follows {s₀ : State} (n : Nat) {s : State} (r : Nat) (h : Follows s₀ s) :
    Follows s₀ (State.issueAll n s r) := by
  induction n generalizing s with
  | zero => exact h
  | succ n ih =>
    unfold State.issueAll
    split
    · exact h
    · rename_i e; exact ih (issueNext_follows _ h e)

theorem State.enqServe_follows {s₀ : State} {s : State} (r : Nat) (ops : List HostOp) (h₀ : Follows s₀ s) :
    Follows s₀ (State.enqServe s r ops) := by
  unfold State.enqServe
  with_reducible repeat' (first
    | assumption | apply setReqs_follows | apply issueAll_follows | apply noteWait_follows
    | (intro (x : State); have hx : Follows s₀ x := (by dsimp only [x]; repeat' (first | assumption | apply setReqs_follows | apply issueAll_follows | apply noteWait_follows | intro _ | split | simp only [Follows.keep] | simp +zetaDelta only [Follows.keep])))
    | lift_lets | (intro (x : Option _); clear_value x)
    | intro _ | split | simp only [Follows.keep] | simp +zetaDelta only [Follows.keep])

theorem State.freeTag_follows {s₀ : State} {s : State} (t : Nat) (h₀ : Follows s₀ s) :
    Follows s₀ (State.freeTag s t) := by
  unfold State.freeTag
  with_reducible repeat' (first
    | assumption | apply setHost_follows
    | intro _ | split | simp only [Follows.keep] | simp +zetaDelta only [Follows.keep])

theorem State.unexpected_follows {s₀ : State} {s : State} (fn : Nat) (h₀ : Follows s₀ s) :
    Follows s₀ (State.unexpected s fn) := by
  unfold State.unexpected
  with_reducible repeat' (first
    | assumption | apply pciCount_follows | apply event_follows | apply aer_follows
    | intro _ | split)

theorem State.lateCompletion_follows {s₀ : State} {s : State} (t : Nat) (u : TagUse) (ends : Bool) (n : Nat) (h₀ : Follows s₀ s) :
    Follows s₀ (State.lateCompletion s t u ends n) := by
  unfold State.lateCompletion
  with_reducible repeat' (first
    | assumption | apply pciCount_follows | apply event_follows | apply freeTag_follows | apply setHost_follows
    | (intro (x : State); have hx : Follows s₀ x := (by dsimp only [x]; repeat' (first | assumption | apply pciCount_follows | apply event_follows | apply freeTag_follows | apply setHost_follows | intro _ | split | simp only [Follows.keep] | simp +zetaDelta only [Follows.keep])))
    | lift_lets | (intro (x : Option _); clear_value x)
    | intro _ | split | simp only [Follows.keep] | simp +zetaDelta only [Follows.keep])

theorem State.completion_follows {s₀ : State} {s : State} (t : Nat) (u : TagUse) (status : Nat) (poison : Bool) (d : List Byte) (h₀ : Follows s₀ s) :
    Follows s₀ (State.completion s t u status poison d) := by
  unfold State.completion
  with_reducible repeat' (first
    | assumption | apply freeTag_follows | apply pciCount_follows | apply event_follows | apply readFail_follows | apply aer_follows | apply setHost_follows | apply readData_follows | apply readEnd_follows
    | (intro (x : State); have hx : Follows s₀ x := (by dsimp only [x]; repeat' (first | assumption | apply freeTag_follows | apply pciCount_follows | apply event_follows | apply readFail_follows | apply aer_follows | apply setHost_follows | apply readData_follows | apply readEnd_follows | intro _ | split | simp only [Follows.keep] | simp +zetaDelta only [Follows.keep])))
    | lift_lets | (intro (x : Option _); clear_value x)
    | intro _ | split | simp only [Follows.keep] | simp +zetaDelta only [Follows.keep])

theorem execHostCompletionReceived_follows {s₀ : State} {s : State} (tag : Nat) (fn : Nat) (status : Nat) (poison : Bool) (data : List Byte) (h₀ : Follows s₀ s) :
    ResFollows s₀ (execHostCompletionReceived tag fn status poison data s) := by
  unfold execHostCompletionReceived
  with_reducible repeat' (first
    | assumption | apply State.aer_follows | apply State.unexpected_follows | apply State.lateCompletion_follows | apply State.completion_follows | apply ResFollows.next
    | intro _ | split | simp only [Follows.keep] | simp +zetaDelta only [Follows.keep])

theorem execCompletionTimeout_follows {s₀ : State} {s : State} (tag : Nat) (h₀ : Follows s₀ s) :
    ResFollows s₀ (execCompletionTimeout tag s) := by
  unfold execCompletionTimeout
  with_reducible repeat' (first
    | assumption | apply State.setHost_follows | apply State.pciCount_follows | apply State.event_follows | apply State.aer_follows | apply State.readFail_follows | apply ResFollows.next
    | (intro (x : State); have hx : Follows s₀ x := (by dsimp only [x]; repeat' (first | assumption | apply State.setHost_follows | apply State.pciCount_follows | apply State.event_follows | apply State.aer_follows | apply State.readFail_follows | apply ResFollows.next | intro _ | split | simp only [Follows.keep] | simp +zetaDelta only [Follows.keep])))
    | lift_lets | (intro (x : Option _); clear_value x)
    | intro _ | split | simp only [Follows.keep] | simp +zetaDelta only [Follows.keep])

theorem execTagQuarantineExpiry_follows {s₀ : State} {s : State} (tag : Nat) (h₀ : Follows s₀ s) :
    ResFollows s₀ (execTagQuarantineExpiry tag s) := by
  unfold execTagQuarantineExpiry
  with_reducible repeat' (first
    | assumption | apply State.freeTag_follows | apply ResFollows.next
    | intro _ | split | simp only [Follows.keep] | simp +zetaDelta only [Follows.keep])

theorem State.flushMsix_follows {s₀ : State} {s : State} (f : Nat) (h₀ : Follows s₀ s) :
    Follows s₀ (State.flushMsix s f) := by
  unfold State.flushMsix
  with_reducible repeat' (first
    | assumption | intro (_ : State) _ (_ : Follows _ _) | apply setFn_follows | apply each_follows | apply emit_follows
    | (intro (x : State); have hx : Follows s₀ x := (by dsimp only [x]; repeat' (first | assumption | intro (_ : State) _ (_ : Follows _ _) | apply setFn_follows | apply each_follows | apply emit_follows | intro _ | split | simp only [Follows.keep] | simp +zetaDelta only [Follows.keep])))
    | lift_lets | (intro (x : Option _); clear_value x)
    | intro _ | split | simp only [Follows.keep] | simp +zetaDelta only [Follows.keep])

theorem State.unmaskVec_follows {s₀ : State} {s : State} (fn : Nat) (v : Nat) (h₀ : Follows s₀ s) :
    Follows s₀ (State.unmaskVec s fn v) := by
  unfold State.unmaskVec
  with_reducible repeat' (first
    | assumption | apply setFn_follows | apply flushMsix_follows
    | intro _ | split | simp only [Follows.keep] | simp +zetaDelta only [Follows.keep])

theorem State.vfEnableWrite_follows {s₀ : State} {s : State} (enable : Bool) (num : Nat) (h₀ : Follows s₀ s) :
    Follows s₀ (State.vfEnableWrite s enable num) := by
  unfold State.vfEnableWrite
  with_reducible repeat' (first
    | assumption | apply emit_follows | apply event_follows | apply setHost_follows
    | intro _ | split | simp only [Follows.keep] | simp +zetaDelta only [Follows.keep])

theorem execHostPortReset_follows {s₀ : State} {s : State} (kind : Nat) (h₀ : Follows s₀ s) :
    ResFollows s₀ (execHostPortReset kind s) := by
  unfold execHostPortReset
  with_reducible repeat' (first
    | assumption | apply State.setHost_follows | apply State.hostReset_follows | apply ResFollows.next
    | (intro (x : State); have hx : Follows s₀ x := (by dsimp only [x]; repeat' (first | assumption | apply State.setHost_follows | apply State.hostReset_follows | apply ResFollows.next | intro _ | split | simp only [Follows.keep] | simp +zetaDelta only [Follows.keep])))
    | lift_lets | (intro (x : Option _); clear_value x)
    | intro _ | split | simp only [Follows.keep] | simp +zetaDelta only [Follows.keep])

theorem execPerstDeassert_follows {s₀ : State} {s : State} (h₀ : Follows s₀ s) :
    ResFollows s₀ (execPerstDeassert s) := by
  unfold execPerstDeassert
  with_reducible repeat' (first
    | assumption | apply State.setHost_follows | apply ResFollows.next
    | intro _ | split | simp only [Follows.keep] | simp +zetaDelta only [Follows.keep])

theorem execPciRefclkRestored_follows {s₀ : State} {s : State} (h₀ : Follows s₀ s) :
    ResFollows s₀ (execPciRefclkRestored s) := by
  unfold execPciRefclkRestored
  with_reducible repeat' (first
    | assumption | apply State.setHost_follows | apply ResFollows.next
    | intro _ | split | simp only [Follows.keep] | simp +zetaDelta only [Follows.keep])

theorem execHostLinkSettled_follows {s₀ : State} {s : State} (rate : Nat) (width : Nat) (flit : Bool) (h₀ : Follows s₀ s) :
    ResFollows s₀ (execHostLinkSettled rate width flit s) := by
  unfold execHostLinkSettled
  with_reducible repeat' (first
    | assumption | apply State.setHost_follows | apply State.event_follows | apply ResFollows.next
    | (intro (x : State); have hx : Follows s₀ x := (by dsimp only [x]; repeat' (first | assumption | apply State.setHost_follows | apply State.event_follows | apply ResFollows.next | intro _ | split | simp only [Follows.keep] | simp +zetaDelta only [Follows.keep])))
    | lift_lets | (intro (x : Option _); clear_value x)
    | intro _ | split | simp only [Follows.keep] | simp +zetaDelta only [Follows.keep])

theorem State.flr_follows {s₀ : State} {s : State} (v : Nat) (h₀ : Follows s₀ s) :
    Follows s₀ (State.flr s v) := by
  unfold State.flr
  with_reducible repeat' (first
    | assumption | apply emit_follows | apply event_follows | apply resetPart_follows | apply setFn_follows
    | intro _ | split | simp only [Follows.keep] | simp +zetaDelta only [Follows.keep])

theorem State.proxyBad_follows {s₀ : State} {s : State} (p : Nat) (h₀ : Follows s₀ s) :
    Follows s₀ (State.proxyBad s p) := by
  unfold State.proxyBad
  with_reducible repeat' (first
    | assumption | apply event_follows
    | intro _ | split)

theorem State.serveProxy_follows {s₀ : State} {s : State} (p : Nat) (b : List Byte) (h₀ : Follows s₀ s) :
    Follows s₀ (State.serveProxy s p b) := by
  unfold State.serveProxy
  with_reducible repeat' (first
    | assumption | apply setHost_follows | apply serveAnswer_follows | apply enqServe_follows
    | (intro (x : State); have hx : Follows s₀ x := (by dsimp only [x]; repeat' (first | assumption | apply setHost_follows | apply serveAnswer_follows | apply enqServe_follows | intro _ | split | simp only [Follows.keep] | simp +zetaDelta only [Follows.keep])))
    | lift_lets | (intro (x : Option _); clear_value x)
    | intro _ | split | simp only [Follows.keep] | simp +zetaDelta only [Follows.keep])

theorem execProxyRequestReceived_follows {s₀ : State} {s : State} (p : Nat) (frame : List Byte) (h₀ : Follows s₀ s) :
    ResFollows s₀ (execProxyRequestReceived p frame s) := by
  unfold execProxyRequestReceived
  with_reducible repeat' (first
    | assumption | intro (_ : State) _ (_ : Follows _ _) | intro _ (_ : State) (_ : Follows _ _) | apply onFrame_follows | apply State.serveProxy_follows | apply State.proxyBad_follows | apply ResFollows.next
    | intro _ | split | simp only [Follows.keep] | simp +zetaDelta only [Follows.keep])

theorem State.flushIrqs_follows {s₀ : State} {s : State} (p : Nat) (h₀ : Follows s₀ s) :
    Follows s₀ (State.flushIrqs s p) := by
  unfold State.flushIrqs
  with_reducible repeat' (first
    | assumption | intro (_ : State) _ (_ : Follows _ _) | apply modPart_follows | apply each_follows | apply sendFrame_follows
    | (intro (x : State); have hx : Follows s₀ x := (by dsimp only [x]; repeat' (first | assumption | intro (_ : State) _ (_ : Follows _ _) | apply modPart_follows | apply each_follows | apply sendFrame_follows | intro _ | split | simp only [Follows.keep] | simp +zetaDelta only [Follows.keep])))
    | lift_lets | (intro (x : Option _); clear_value x)
    | intro _ | split | simp only [Follows.keep] | simp +zetaDelta only [Follows.keep])

theorem State.releaseHeld_follows {s₀ : State} {s : State} (p : Nat) (k : Nat) (h₀ : Follows s₀ s) :
    Follows s₀ (State.releaseHeld s p k) := by
  unfold State.releaseHeld
  with_reducible repeat' (first
    | assumption | apply modPart_follows | apply completeNow_follows
    | intro _ | split | simp only [Follows.keep] | simp +zetaDelta only [Follows.keep])

theorem State.settleWrites_follows {s₀ : State} {s : State} (p : Nat) (h₀ : Follows s₀ s) :
    Follows s₀ (State.settleWrites s p) := by
  unfold State.settleWrites
  with_reducible repeat' (first
    | assumption | intro (_ : State) _ (_ : Follows _ _) | intro _ (_ : State) (_ : Follows _ _) | apply each_follows | apply setTong_follows | apply descDone_follows | apply releaseHeld_follows
    | (intro (x : State); have hx : Follows s₀ x := (by dsimp only [x]; repeat' (first | assumption | intro (_ : State) _ (_ : Follows _ _) | intro _ (_ : State) (_ : Follows _ _) | apply each_follows | apply setTong_follows | apply descDone_follows | apply releaseHeld_follows | intro _ | split | simp only [Follows.keep] | simp +zetaDelta only [Follows.keep])))
    | lift_lets | (intro (x : Option _); clear_value x)
    | intro _ | split | simp only [Follows.keep] | simp +zetaDelta only [Follows.keep])

theorem State.afterIssue_follows {s₀ : State} {s : State} (r : Nat) (h₀ : Follows s₀ s) :
    Follows s₀ (State.afterIssue s r) := by
  unfold State.afterIssue
  with_reducible repeat' (first
    | assumption | apply noteWait_follows | apply settleWrites_follows
    | (intro (x : State); have hx : Follows s₀ x := (by dsimp only [x]; repeat' (first | assumption | apply noteWait_follows | apply settleWrites_follows | intro _ | split | simp only [Follows.keep] | simp +zetaDelta only [Follows.keep])))
    | lift_lets | (intro (x : Option _); clear_value x)
    | intro _ | split | simp only [Follows.keep] | simp +zetaDelta only [Follows.keep])

theorem State.issueMore_follows {s₀ : State} {s : State} (r : Nat) (h₀ : Follows s₀ s) :
    Follows s₀ (State.issueMore s r) := by
  unfold State.issueMore
  with_reducible repeat' (first
    | assumption | apply issueAll_follows | apply afterIssue_follows
    | intro _ | split | simp only [Follows.keep] | simp +zetaDelta only [Follows.keep])

theorem execHostRequestIssue_follows {s₀ s : State} (r : Nat) (h : Follows s₀ s) : ResFollows s₀ (execHostRequestIssue r s) := by
  refine ResFollows.next (State.afterIssue_follows _ ?_)
  cases e : s.issueNext r with
  | none => exact h
  | some t => exact State.issueNext_follows _ h e

theorem State.pumpFn_follows {s₀ : State} {s : State} (f : Nat) (h₀ : Follows s₀ s) :
    Follows s₀ (State.pumpFn s f) := by
  unfold State.pumpFn
  with_reducible repeat' (first
    | assumption | intro (_ : State) _ (_ : Follows _ _) | intro _ (_ : State) (_ : Follows _ _) | apply each_follows | apply issueMore_follows
    | (intro (x : State); have hx : Follows s₀ x := (by dsimp only [x]; repeat' (first | assumption | intro (_ : State) _ (_ : Follows _ _) | intro _ (_ : State) (_ : Follows _ _) | apply each_follows | apply issueMore_follows | intro _ | split | simp only [Follows.keep] | simp +zetaDelta only [Follows.keep])))
    | lift_lets | (intro (x : Option _); clear_value x)
    | intro _ | split | simp only [Follows.keep] | simp +zetaDelta only [Follows.keep])

theorem State.configWrite_follows {s₀ : State} {s : State} (fn : Nat) (field : Nat) (val : Nat) (h₀ : Follows s₀ s) :
    Follows s₀ (State.configWrite s fn field val) := by
  unfold State.configWrite
  with_reducible repeat' (first
    | assumption | apply emit_follows | apply event_follows | apply setHost_follows | apply setFn_follows | apply flushMsix_follows | apply pumpFn_follows
    | intro _ | split | simp only [Follows.keep] | simp +zetaDelta only [Follows.keep])

theorem State.writeEnd_follows {s₀ : State} {s : State} (iss : Issuer) (st : Nat) (h₀ : Follows s₀ s) :
    Follows s₀ (State.writeEnd s iss st) := by
  unfold State.writeEnd
  with_reducible repeat' (first
    | assumption | apply failTong_follows | apply setTong_follows | apply descDone_follows | apply modPart_follows | apply releaseHeld_follows
    | (intro (x : State); have hx : Follows s₀ x := (by dsimp only [x]; repeat' (first | assumption | apply failTong_follows | apply setTong_follows | apply descDone_follows | apply modPart_follows | apply releaseHeld_follows | intro _ | split | simp only [Follows.keep] | simp +zetaDelta only [Follows.keep])))
    | lift_lets | (intro (x : Option _); clear_value x)
    | intro _ | split | simp only [Follows.keep] | simp +zetaDelta only [Follows.keep])

theorem State.proxyEnd_follows {s₀ : State} {s : State} (p : Nat) (t : Nat) (r : ProxyReq) (st : Nat) (d : List Byte) (h₀ : Follows s₀ s) :
    Follows s₀ (State.proxyEnd s p t r st d) := by
  unfold State.proxyEnd
  with_reducible repeat' (first
    | assumption | apply modPart_follows | apply writeEnd_follows | apply readFail_follows | apply readData_follows | apply readEnd_follows | apply proxyPump_follows | apply flushIrqs_follows
    | (intro (x : State); have hx : Follows s₀ x := (by dsimp only [x]; repeat' (first | assumption | apply modPart_follows | apply writeEnd_follows | apply readFail_follows | apply readData_follows | apply readEnd_follows | apply proxyPump_follows | apply flushIrqs_follows | intro _ | split | simp only [Follows.keep] | simp +zetaDelta only [Follows.keep])))
    | lift_lets | (intro (x : Option _); clear_value x)
    | intro _ | split | simp only [Follows.keep] | simp +zetaDelta only [Follows.keep])

theorem State.proxyResponse_follows {s₀ : State} {s : State} (p : Nat) (b : List Byte) (h₀ : Follows s₀ s) :
    Follows s₀ (State.proxyResponse s p b) := by
  unfold State.proxyResponse
  with_reducible repeat' (first
    | assumption | apply pciCount_follows | apply event_follows | apply modPart_follows | apply proxyPump_follows | apply proxyEnd_follows
    | (intro (x : State); have hx : Follows s₀ x := (by dsimp only [x]; repeat' (first | assumption | apply pciCount_follows | apply event_follows | apply modPart_follows | apply proxyPump_follows | apply proxyEnd_follows | intro _ | split | simp only [Follows.keep] | simp +zetaDelta only [Follows.keep])))
    | lift_lets | (intro (x : Option _); clear_value x)
    | intro _ | split | simp only [Follows.keep] | simp +zetaDelta only [Follows.keep])

theorem execProxyResponseReceived_follows {s₀ : State} {s : State} (p : Nat) (frame : List Byte) (h₀ : Follows s₀ s) :
    ResFollows s₀ (execProxyResponseReceived p frame s) := by
  unfold execProxyResponseReceived
  with_reducible repeat' (first
    | assumption | intro (_ : State) (_ : Follows _ _) | apply onFrame_follows | apply State.proxyResponse_follows | apply State.proxyBad_follows | apply ResFollows.next
    | intro _ | split)

theorem execProxyDeadlineExpiry_follows {s₀ : State} {s : State} (p : Nat) (tag : Nat) (h₀ : Follows s₀ s) :
    ResFollows s₀ (execProxyDeadlineExpiry p tag s) := by
  unfold execProxyDeadlineExpiry
  with_reducible repeat' (first
    | assumption | apply State.modPart_follows | apply State.writeEnd_follows | apply State.readFail_follows | apply State.flushIrqs_follows | apply ResFollows.next
    | (intro (x : State); have hx : Follows s₀ x := (by dsimp only [x]; repeat' (first | assumption | apply State.modPart_follows | apply State.writeEnd_follows | apply State.readFail_follows | apply State.flushIrqs_follows | apply ResFollows.next | intro _ | split | simp only [Follows.keep] | simp +zetaDelta only [Follows.keep])))
    | lift_lets | (intro (x : Option _); clear_value x)
    | intro _ | split | simp only [Follows.keep] | simp +zetaDelta only [Follows.keep])

theorem execProxyTagQuarantineExpiry_follows {s₀ : State} {s : State} (p : Nat) (tag : Nat) (h₀ : Follows s₀ s) :
    ResFollows s₀ (execProxyTagQuarantineExpiry p tag s) := by
  unfold execProxyTagQuarantineExpiry
  with_reducible repeat' (first
    | assumption | apply State.modPart_follows | apply State.proxyPump_follows | apply ResFollows.next
    | (intro (x : State); have hx : Follows s₀ x := (by dsimp only [x]; repeat' (first | assumption | apply State.modPart_follows | apply State.proxyPump_follows | apply ResFollows.next | intro _ | split | simp only [Follows.keep] | simp +zetaDelta only [Follows.keep])))
    | lift_lets | (intro (x : Option _); clear_value x)
    | intro _ | split | simp only [Follows.keep] | simp +zetaDelta only [Follows.keep])

theorem State.readWord_follows {s₀ : State} {s : State} (fn : Nat) (off : Nat) (h₀ : Follows s₀ s) :
    Follows s₀ (State.readWord s fn off).2 := by
  unfold State.readWord
  with_reducible repeat' (first
    | assumption
    | (intro (x : State); have hx : Follows s₀ x := (by dsimp only [x]; repeat' (first | assumption | intro _ | split | dsimp -zeta only | simp only [Follows.keep] | simp +zetaDelta only [Follows.keep])))
    | lift_lets | (intro (x : Option _); clear_value x)
    | intro _ | split | dsimp -zeta only | simp only [Follows.keep] | simp +zetaDelta only [Follows.keep])

theorem State.bar0Refused_follows {s₀ : State} {s : State} (fn : Nat) (write : Bool) (h₀ : Follows s₀ s) :
    Follows s₀ (State.bar0Refused s fn write) := by
  unfold State.bar0Refused
  with_reducible repeat' (first
    | assumption | apply event_follows | apply aer_follows | apply emit_follows
    | (intro (x : State); have hx : Follows s₀ x := (by dsimp only [x]; repeat' (first | assumption | apply event_follows | apply aer_follows | apply emit_follows | intro _ | split)))
    | lift_lets | (intro (x : Option _); clear_value x)
    | intro _ | split)

theorem State.bar0Read_follows {s₀ : State} {s : State} (fn : Nat) (addr : Nat) (len : Nat) (h₀ : Follows s₀ s) :
    Follows s₀ (State.bar0Read s fn addr len) := by
  unfold State.bar0Read
  with_reducible repeat' (first
    | assumption | apply readWord_follows | apply bar0Refused_follows | apply emit_follows | apply Follows.pair ‹_ = (_, _)›
    | intro _ | split | dsimp -zeta only | simp only [Follows.keep] | simp +zetaDelta only [Follows.keep])

theorem State.bar0Illegal_follows {s₀ : State} {s : State} (fn : Nat) (addr : Nat) (len : Nat) (write : Bool) (h₀ : Follows s₀ s) :
    Follows s₀ (State.bar0Illegal s fn addr len write) := by
  unfold State.bar0Illegal
  with_reducible repeat' (first
    | assumption | apply bar0Refused_follows
    | (intro (x : State); have hx : Follows s₀ x := (by dsimp only [x]; repeat' (first | assumption | apply bar0Refused_follows | intro _ | split | simp only [Follows.keep] | simp +zetaDelta only [Follows.keep])))
    | lift_lets | (intro (x : Option _); clear_value x)
    | intro _ | split | simp only [Follows.keep] | simp +zetaDelta only [Follows.keep])

theorem State.chipClear_follows {s₀ s : State} (h : Follows s₀ s) : Follows s₀ s.chipClear := by
  have k : Follows s₀ (s.setRf adrEvrCtrl 2 2 0) := setRf_follows _ _ _ _ h
  unfold State.chipClear
  generalize s.setRf adrEvrCtrl 2 2 0 = t at k ⊢
  exact ⟨k.pending, k.osc, k.free, k.pkts, k.out, fun _ => rfl, k.flash, fun w => Regs.wf_clearRegs (k.regs w), k.svn, k.revoked⟩

theorem State.sampleStraps_follows {s₀ : State} {s : State} (h₀ : Follows s₀ s) :
    Follows s₀ (State.sampleStraps s) := by
  unfold State.sampleStraps
  with_reducible repeat' (first
    | assumption | apply setRf_follows
    | intro _ | split)

theorem State.chipReset_follows {s₀ : State} {s : State} (cause : Nat) (h₀ : Follows s₀ s) :
    Follows s₀ (State.chipReset s cause) := by
  unfold State.chipReset
  with_reducible repeat' (first
    | assumption | apply nvEffect_follows | apply chipClear_follows | apply setRf_follows | apply event_follows | apply sampleStraps_follows
    | (intro (x : State); have hx : Follows s₀ x := (by dsimp only [x]; repeat' (first | assumption | apply nvEffect_follows | apply chipClear_follows | apply setRf_follows | apply event_follows | apply sampleStraps_follows | intro _ | split | simp only [Follows.keep] | simp +zetaDelta only [Follows.keep])))
    | lift_lets | (intro (x : Option _); clear_value x)
    | intro _ | split | simp only [Follows.keep] | simp +zetaDelta only [Follows.keep])

theorem State.fatalStep_follows {s₀ : State} {s : State} (h₀ : Follows s₀ s) :
    Follows s₀ (State.fatalStep s) := by
  unfold State.fatalStep
  with_reducible repeat' (first
    | assumption | apply chipReset_follows
    | intro _ | split)

theorem State.auxRise_follows {s₀ s : State} (h : Follows s₀ s) : Follows s₀ s.auxRise := by
  unfold State.auxRise
  exact ⟨h.pending, h.osc, h.free, h.pkts, h.out, fun _ => rfl, h.flash, fun _ => rfl, h.svn, h.revoked⟩

theorem State.powerOff_follows {s₀ : State} {s : State} (h₀ : Follows s₀ s) :
    Follows s₀ (State.powerOff s) := by
  unfold State.powerOff
  with_reducible repeat' (first
    | assumption | apply nvCut_follows | apply chipClear_follows
    | (intro (x : State); have hx : Follows s₀ x := (by dsimp only [x]; repeat' (first | assumption | apply nvCut_follows | apply chipClear_follows | intro _ | split | simp only [Follows.keep] | simp +zetaDelta only [Follows.keep])))
    | lift_lets | (intro (x : Option _); clear_value x)
    | intro _ | split | simp only [Follows.keep] | simp +zetaDelta only [Follows.keep])

theorem State.modBel_follows {s₀ : State} {s : State} (f : Bel → Bel) (h₀ : Follows s₀ s) :
    Follows s₀ (State.modBel s f) := by
  unfold State.modBel
  with_reducible repeat' (first
    | assumption
    | intro _ | split | simp only [Follows.keep] | simp +zetaDelta only [Follows.keep])

theorem State.fets_follows {s₀ : State} {s : State} (bus : Bool) (res : Bool) (h₀ : Follows s₀ s) :
    Follows s₀ (State.fets s bus res) := by
  unfold State.fets
  with_reducible repeat' (first
    | assumption | apply modBel_follows | apply emit_follows
    | intro _ | split | simp only [Follows.keep] | simp +zetaDelta only [Follows.keep])

theorem State.turnTo_follows {s₀ : State} {s : State} (b : Bool) (h₀ : Follows s₀ s) :
    Follows s₀ (State.turnTo s b) := by
  unfold State.turnTo
  with_reducible repeat' (first
    | assumption | apply fets_follows | apply modBel_follows
    | intro _ | split | simp only [Follows.keep] | simp +zetaDelta only [Follows.keep])

theorem State.parkFets_follows {s₀ : State} {s : State} (h₀ : Follows s₀ s) :
    Follows s₀ (State.parkFets s) := by
  unfold State.parkFets
  with_reducible repeat' (first
    | assumption | apply turnTo_follows | apply fets_follows | apply modBel_follows
    | intro _ | split | simp only [Follows.keep] | simp +zetaDelta only [Follows.keep])

theorem State.parkTake_follows {s₀ : State} {s : State} (h₀ : Follows s₀ s) :
    Follows s₀ (State.parkTake s) := by
  unfold State.parkTake
  with_reducible repeat' (first
    | assumption | apply turnTo_follows
    | intro _ | split | simp only [Follows.keep] | simp +zetaDelta only [Follows.keep])

theorem State.sampleVolts_follows {s₀ : State} {s : State} (vb : Nat) (vr : Nat) (vn : Nat) (h₀ : Follows s₀ s) :
    Follows s₀ (State.sampleVolts s vb vr vn) := by
  unfold State.sampleVolts
  with_reducible repeat' (first
    | assumption | apply modBel_follows | apply event_follows | apply parkTake_follows
    | (intro (x : State); have hx : Follows s₀ x := (by dsimp only [x]; repeat' (first | assumption | apply modBel_follows | apply event_follows | apply parkTake_follows | intro _ | split | simp only [Follows.keep] | simp +zetaDelta only [Follows.keep])))
    | lift_lets | (intro (x : Option _); clear_value x)
    | intro _ | split | simp only [Follows.keep] | simp +zetaDelta only [Follows.keep])

theorem State.belMove_follows {s₀ : State} {s : State} (st : BelSt) (h₀ : Follows s₀ s) :
    Follows s₀ (State.belMove s st) := by
  unfold State.belMove
  with_reducible repeat' (first
    | assumption | apply modBel_follows | apply eventD_follows | apply event_follows | apply bump_follows
    | (intro (x : State); have hx : Follows s₀ x := (by dsimp only [x]; repeat' (first | assumption | apply modBel_follows | apply eventD_follows | apply event_follows | apply bump_follows | intro _ | split | simp only [Follows.keep] | simp +zetaDelta only [Follows.keep])))
    | lift_lets | (intro (x : Option _); clear_value x)
    | intro _ | split | simp only [Follows.keep] | simp +zetaDelta only [Follows.keep])

theorem State.haltTong_follows {s₀ : State} {s : State} (t : Nat) (st : Nat) (h₀ : Follows s₀ s) :
    Follows s₀ (State.haltTong s t st) := by
  unfold State.haltTong
  with_reducible repeat' (first
    | assumption | apply stopTong_follows | apply failPkt_follows | apply failTong_follows
    | intro _ | split | simp only [Follows.keep] | simp +zetaDelta only [Follows.keep])

theorem State.haltAnvil_follows {s₀ : State} {s : State} (a : Nat) (st : Nat) (h₀ : Follows s₀ s) :
    Follows s₀ (State.haltAnvil s a st) := by
  unfold State.haltAnvil
  with_reducible repeat' (first
    | assumption | intro (_ : State) _ (_ : Follows _ _) | apply setAnvil_follows | apply each_follows | apply failPkt_follows | apply Follows.elim
    | (intro (x : State); have hx : Follows s₀ x := (by dsimp only [x]; repeat' (first | assumption | intro (_ : State) _ (_ : Follows _ _) | apply setAnvil_follows | apply each_follows | apply failPkt_follows | apply Follows.elim | intro _ | split)))
    | lift_lets | (intro (x : Option _); clear_value x)
    | intro _ | split)

theorem State.parkLaps_follows {s₀ : State} {s : State} (p : Nat) (h₀ : Follows s₀ s) :
    Follows s₀ (State.parkLaps s p) := by
  unfold State.parkLaps
  with_reducible repeat' (first
    | assumption | intro (_ : State) _ (_ : Follows _ _) | apply each_follows | apply originateAbort_follows
    | intro _ | split)

theorem State.enterPark_follows {s₀ : State} {s : State} (h₀ : Follows s₀ s) :
    Follows s₀ (State.enterPark s) := by
  unfold State.enterPark
  with_reducible repeat' (first
    | assumption | intro (_ : State) _ (_ : Follows _ _) | intro _ (_ : State) (_ : Follows _ _) | apply belMove_follows | apply event_follows | apply bump_follows | apply each_follows | apply haltTong_follows | apply haltAnvil_follows | apply haltWorks_follows | apply parkLaps_follows | apply startPersist_follows | apply parkFets_follows | apply nvGo_follows
    | (intro (x : State); have hx : Follows s₀ x := (by dsimp only [x]; repeat' (first | assumption | intro (_ : State) _ (_ : Follows _ _) | intro _ (_ : State) (_ : Follows _ _) | apply belMove_follows | apply event_follows | apply bump_follows | apply each_follows | apply haltTong_follows | apply haltAnvil_follows | apply haltWorks_follows | apply parkLaps_follows | apply startPersist_follows | apply parkFets_follows | apply nvGo_follows | intro _ | split | simp only [Follows.keep] | simp +zetaDelta only [Follows.keep])))
    | lift_lets | (intro (x : Option _); clear_value x)
    | intro _ | split | simp only [Follows.keep] | simp +zetaDelta only [Follows.keep])

theorem State.deferredCommits_follows {s₀ : State} {s : State} (h₀ : Follows s₀ s) :
    Follows s₀ (State.deferredCommits s) := by
  unfold State.deferredCommits
  with_reducible repeat' (first
    | assumption | intro (_ : State) _ (_ : Follows _ _) | apply each_follows | apply modLap_follows | apply commitLap_follows
    | intro _ | split | simp only [Follows.keep] | simp +zetaDelta only [Follows.keep])

theorem State.settleOn_follows {s₀ : State} {s : State} (b : Bool) (h₀ : Follows s₀ s) :
    Follows s₀ (State.settleOn s b) := by
  unfold State.settleOn
  with_reducible repeat' (first
    | assumption | apply belMove_follows | apply deferredCommits_follows | apply fatalStep_follows
    | (intro (x : State); have hx : Follows s₀ x := (by dsimp only [x]; repeat' (first | assumption | apply belMove_follows | apply deferredCommits_follows | apply fatalStep_follows | intro _ | split)))
    | lift_lets | (intro (x : Option _); clear_value x)
    | intro _ | split)

theorem State.changeover_follows {s₀ : State} {s : State} (b : Bool) (h₀ : Follows s₀ s) :
    Follows s₀ (State.changeover s b) := by
  unfold State.changeover
  with_reducible repeat' (first
    | assumption | apply belMove_follows | apply turnTo_follows
    | intro _ | split)

theorem State.setRail_follows {s₀ : State} {s : State} (r : Nat) (st : Nat) (vout : Option Nat) (h₀ : Follows s₀ s) :
    Follows s₀ (State.setRail s r st vout) := by
  unfold State.setRail
  with_reducible repeat' (first
    | assumption | apply modBel_follows | apply setRf_follows
    | (intro (x : State); have hx : Follows s₀ x := (by dsimp only [x]; repeat' (first | assumption | apply modBel_follows | apply setRf_follows | intro _ | split | simp only [Follows.keep] | simp +zetaDelta only [Follows.keep])))
    | lift_lets | (intro (x : Option _); clear_value x)
    | intro _ | split | simp only [Follows.keep] | simp +zetaDelta only [Follows.keep])

theorem State.railOn_follows {s₀ : State} {s : State} (r : Nat) (h₀ : Follows s₀ s) :
    Follows s₀ (State.railOn s r) := by
  unfold State.railOn
  with_reducible repeat' (first
    | assumption | apply setRail_follows | apply emit_follows
    | intro _ | split)

theorem State.powerUp_follows {s₀ : State} {s : State} (b : Bool) (h₀ : Follows s₀ s) :
    Follows s₀ (State.powerUp s b) := by
  unfold State.powerUp
  with_reducible repeat' (first
    | assumption | apply modBel_follows | apply turnTo_follows | apply railOn_follows
    | intro _ | split | simp only [Follows.keep] | simp +zetaDelta only [Follows.keep])

theorem State.powerDown_follows {s₀ : State} {s : State} (h₀ : Follows s₀ s) :
    Follows s₀ (State.powerDown s) := by
  unfold State.powerDown
  with_reducible repeat' (first
    | assumption | intro (_ : State) _ (_ : Follows _ _) | apply each_follows | apply emit_follows | apply fets_follows | apply belMove_follows | apply modBel_follows | apply powerOff_follows
    | (intro (x : State); have hx : Follows s₀ x := (by dsimp only [x]; repeat' (first | assumption | intro (_ : State) _ (_ : Follows _ _) | apply each_follows | apply emit_follows | apply fets_follows | apply belMove_follows | apply modBel_follows | apply powerOff_follows | intro _ | split | simp only [Follows.keep] | simp +zetaDelta only [Follows.keep])))
    | lift_lets | (intro (x : Option _); clear_value x)
    | intro _ | split | simp only [Follows.keep] | simp +zetaDelta only [Follows.keep])

theorem State.allowRetry_follows {s₀ : State} {s : State} (b : Bool) (h₀ : Follows s₀ s) :
    Follows s₀ (State.allowRetry s b) := by
  unfold State.allowRetry
  with_reducible repeat' (first
    | assumption | apply modBel_follows
    | intro _ | split | simp only [Follows.keep] | simp +zetaDelta only [Follows.keep])

theorem State.lightsOut_follows {s₀ : State} {s : State} (h₀ : Follows s₀ s) :
    Follows s₀ (State.lightsOut s) := by
  unfold State.lightsOut
  with_reducible repeat' (first
    | assumption | intro (_ : State) _ (_ : Follows _ _) | apply each_follows | apply linkDown_follows | apply bankFall_follows
    | intro _ | split)

theorem State.railFault_follows {s₀ : State} {s : State} (r : Nat) (comm : Bool) (h₀ : Follows s₀ s) :
    Follows s₀ (State.railFault s r comm) := by
  unfold State.railFault
  with_reducible repeat' (first
    | assumption | intro (_ : State) _ (_ : Follows _ _) | apply event_follows | apply eventD_follows | apply setRail_follows | apply powerDown_follows | apply allowRetry_follows | apply modBel_follows | apply each_follows | apply linkDown_follows | apply hostReset_follows | apply lightsOut_follows
    | (intro (x : State); have hx : Follows s₀ x := (by dsimp only [x]; repeat' (first | assumption | intro (_ : State) _ (_ : Follows _ _) | apply event_follows | apply eventD_follows | apply setRail_follows | apply powerDown_follows | apply allowRetry_follows | apply modBel_follows | apply each_follows | apply linkDown_follows | apply hostReset_follows | apply lightsOut_follows | intro _ | split | simp only [Follows.keep] | simp +zetaDelta only [Follows.keep])))
    | lift_lets | (intro (x : Option _); clear_value x)
    | intro _ | split | simp only [Follows.keep] | simp +zetaDelta only [Follows.keep])

theorem State.aclkGo_follows {s₀ : State} {s : State} (h₀ : Follows s₀ s) :
    Follows s₀ (State.aclkGo s) := by
  unfold State.aclkGo
  with_reducible repeat' (first
    | assumption | apply modBel_follows | apply emit_follows
    | (intro (x : State); have hx : Follows s₀ x := (by dsimp only [x]; repeat' (first | assumption | apply modBel_follows | apply emit_follows | intro _ | split | simp only [Follows.keep] | simp +zetaDelta only [Follows.keep])))
    | lift_lets | (intro (x : Option _); clear_value x)
    | intro _ | split | simp only [Follows.keep] | simp +zetaDelta only [Follows.keep])

theorem State.setTarget_follows {s₀ : State} {s : State} (n : Nat) (h₀ : Follows s₀ s) :
    Follows s₀ (State.setTarget s n) := by
  unfold State.setTarget
  with_reducible repeat' (first
    | assumption | intro (_ : State) _ (_ : Follows _ _) | apply setRf_follows | apply each_follows | apply aclkGo_follows
    | (intro (x : State); have hx : Follows s₀ x := (by dsimp only [x]; repeat' (first | assumption | intro (_ : State) _ (_ : Follows _ _) | apply setRf_follows | apply each_follows | apply aclkGo_follows | intro _ | split)))
    | lift_lets | (intro (x : Option _); clear_value x)
    | intro _ | split)

theorem State.lawPart_follows {s₀ : State} {s : State} (p : Nat) (a : Nat) (chip : Nat) (h₀ : Follows s₀ s) :
    Follows s₀ (State.lawPart s p a chip).2 := by
  unfold State.lawPart
  with_reducible repeat' (first
    | assumption | apply setReg_follows | apply event_follows
    | (intro (x : State); have hx : Follows s₀ x := (by dsimp only [x]; repeat' (first | assumption | apply setReg_follows | apply event_follows | intro _ | split | dsimp -zeta only)))
    | lift_lets | (intro (x : Option _); clear_value x)
    | intro _ | split | dsimp -zeta only)

theorem State.capBoundary_follows {s₀ : State} {s : State} (h₀ : Follows s₀ s) :
    Follows s₀ (State.capBoundary s) := by
  unfold State.capBoundary
  with_reducible repeat' (first
    | assumption | intro (_ : State) _ (_ : Follows _ _) | apply modBel_follows | apply each_follows | apply setReg_follows | apply event_follows
    | (intro (x : State); have hx : Follows s₀ x := (by dsimp only [x]; repeat' (first | assumption | intro (_ : State) _ (_ : Follows _ _) | apply modBel_follows | apply each_follows | apply setReg_follows | apply event_follows | intro _ | split | simp only [Follows.keep] | simp +zetaDelta only [Follows.keep])))
    | lift_lets | (intro (x : Option _); clear_value x)
    | intro _ | split | simp only [Follows.keep] | simp +zetaDelta only [Follows.keep])

theorem State.capDone_follows {s₀ : State} {s : State} (h₀ : Follows s₀ s) :
    Follows s₀ (State.capDone s) := by
  unfold State.capDone
  with_reducible repeat' (first
    | assumption | intro (_ : State) _ (_ : Follows _ _) | apply each_follows | apply complete_follows
    | (intro (x : State); have hx : Follows s₀ x := (by dsimp only [x]; repeat' (first | assumption | intro (_ : State) _ (_ : Follows _ _) | apply each_follows | apply complete_follows | intro _ | split)))
    | lift_lets | (intro (x : Option _); clear_value x)
    | intro _ | split)

theorem State.controlPeriod_follows {s₀ : State} {s : State} (m : Measured) (status : List Nat) (h₀ : Follows s₀ s) :
    Follows s₀ (State.controlPeriod s m status) := by
  unfold State.controlPeriod
  with_reducible repeat' (first
    | assumption | intro (_ : State) _ (_ : Follows _ _) | apply each_follows | apply setRf_follows | apply lawPart_follows | apply bump_follows | apply capBoundary_follows | apply capDone_follows | apply Follows.pair ‹_ = (_, _)› | apply Follows.foldl2
    | (intro (x : State); have hx : Follows s₀ x := (by dsimp only [x]; repeat' (first | assumption | intro (_ : State) _ (_ : Follows _ _) | apply each_follows | apply setRf_follows | apply lawPart_follows | apply bump_follows | apply capBoundary_follows | apply capDone_follows | apply Follows.pair ‹_ = (_, _)› | apply Follows.foldl2 | intro _ | split | dsimp -zeta only)))
    | lift_lets | (intro (x : Option _); clear_value x)
    | intro _ | split | dsimp -zeta only)

theorem execInputOut_follows {s₀ : State} {s : State} (bus : Bool) (vb : Nat) (vr : Nat) (vn : Nat) (h₀ : Follows s₀ s) :
    ResFollows s₀ (execInputOut bus vb vr vn s) := by
  unfold execInputOut
  with_reducible repeat' (first
    | assumption | apply State.sampleVolts_follows | apply State.changeover_follows | apply State.enterPark_follows | apply State.turnTo_follows | apply State.settleOn_follows | apply State.parkFets_follows | apply ResFollows.next
    | (intro (x : State); have hx : Follows s₀ x := (by dsimp only [x]; repeat' (first | assumption | apply State.sampleVolts_follows | apply State.changeover_follows | apply State.enterPark_follows | apply State.turnTo_follows | apply State.settleOn_follows | apply State.parkFets_follows | apply ResFollows.next | intro _ | split | simp only [Follows.keep] | simp +zetaDelta only [Follows.keep])))
    | lift_lets | (intro (x : Option _); clear_value x)
    | intro _ | split | simp only [Follows.keep] | simp +zetaDelta only [Follows.keep])

theorem execInputQualified_follows {s₀ : State} {s : State} (bus : Bool) (vb : Nat) (vr : Nat) (vn : Nat) (h₀ : Follows s₀ s) :
    ResFollows s₀ (execInputQualified bus vb vr vn s) := by
  unfold execInputQualified
  with_reducible repeat' (first
    | assumption | apply State.sampleVolts_follows | apply State.powerUp_follows | apply State.turnTo_follows | apply State.settleOn_follows | apply State.changeover_follows | apply ResFollows.next
    | (intro (x : State); have hx : Follows s₀ x := (by dsimp only [x]; repeat' (first | assumption | apply State.sampleVolts_follows | apply State.powerUp_follows | apply State.turnTo_follows | apply State.settleOn_follows | apply State.changeover_follows | apply ResFollows.next | intro _ | split | simp only [Follows.keep] | simp +zetaDelta only [Follows.keep])))
    | lift_lets | (intro (x : Option _); clear_value x)
    | intro _ | split | simp only [Follows.keep] | simp +zetaDelta only [Follows.keep])

theorem execFetDeadtimeExpiry_follows {s₀ : State} {s : State} (h₀ : Follows s₀ s) :
    ResFollows s₀ (execFetDeadtimeExpiry s) := by
  unfold execFetDeadtimeExpiry
  with_reducible repeat' (first
    | assumption | apply State.fets_follows | apply ResFollows.next
    | intro _ | split | simp only [Follows.keep] | simp +zetaDelta only [Follows.keep])

theorem execNodeSettled_follows {s₀ : State} {s : State} (vb : Nat) (vr : Nat) (vn : Nat) (h₀ : Follows s₀ s) :
    ResFollows s₀ (execNodeSettled vb vr vn s) := by
  unfold execNodeSettled
  with_reducible repeat' (first
    | assumption | apply State.sampleVolts_follows | apply State.settleOn_follows | apply ResFollows.next
    | intro _ | split | simp only [Follows.keep] | simp +zetaDelta only [Follows.keep])

theorem execNodeAt32v_follows {s₀ : State} {s : State} (vn : Nat) (h₀ : Follows s₀ s) :
    ResFollows s₀ (execNodeAt32v vn s) := by
  unfold execNodeAt32v
  with_reducible repeat' (first
    | assumption | apply State.sampleVolts_follows | apply State.event_follows | apply State.powerDown_follows | apply ResFollows.next
    | intro _ | split)

theorem execRailPowerGood_follows {s₀ : State} {s : State} (r : Nat) (vout : Nat) (straps : Nat) (h₀ : Follows s₀ s) :
    ResFollows s₀ (execRailPowerGood r vout straps s) := by
  unfold execRailPowerGood
  with_reducible repeat' (first
    | assumption | apply State.setRail_follows | apply State.modBel_follows | apply State.railOn_follows | apply State.belMove_follows | apply State.chipReset_follows | apply ResFollows.next
    | (intro (x : State); have hx : Follows s₀ x := (by dsimp only [x]; repeat' (first | assumption | apply State.setRail_follows | apply State.modBel_follows | apply State.railOn_follows | apply State.belMove_follows | apply State.chipReset_follows | apply ResFollows.next | intro _ | split | simp only [Follows.keep] | simp +zetaDelta only [Follows.keep])))
    | lift_lets | (intro (x : Option _); clear_value x)
    | intro _ | split | simp only [Follows.keep] | simp +zetaDelta only [Follows.keep])

theorem execRailRampTimeout_follows {s₀ : State} {s : State} (r : Nat) (h₀ : Follows s₀ s) :
    ResFollows s₀ (execRailRampTimeout r s) := by
  unfold execRailRampTimeout
  with_reducible repeat' (first
    | assumption | apply State.eventD_follows | apply State.setRail_follows | apply State.powerDown_follows | apply State.allowRetry_follows | apply ResFollows.next
    | intro _ | split | simp only [Follows.keep] | simp +zetaDelta only [Follows.keep])

theorem execRailRetryTimer_follows {s₀ : State} {s : State} (r : Nat) (h₀ : Follows s₀ s) :
    ResFollows s₀ (execRailRetryTimer r s) := by
  unfold execRailRetryTimer
  with_reducible repeat' (first
    | assumption | apply State.powerUp_follows | apply State.modBel_follows | apply State.railOn_follows | apply ResFollows.next
    | intro _ | split | simp only [Follows.keep] | simp +zetaDelta only [Follows.keep])

theorem execRailFault_follows {s₀ : State} {s : State} (r : Nat) (status : Nat) (comm : Bool) (h₀ : Follows s₀ s) :
    ResFollows s₀ (execRailFault r status comm s) := by
  unfold execRailFault
  with_reducible repeat' (first
    | assumption | apply State.setRf_follows | apply State.railFault_follows | apply ResFollows.next
    | intro _ | split)

theorem execBellowsControlPeriod_follows {s₀ : State} {s : State} (pout : List Nat) (est : List Nat) (seqEst : Nat) (steps : List Nat) (hearth : List Nat) (flits : List Nat) (banks : List Nat) (status : List Nat) (vb : Nat) (vr : Nat) (vn : Nat) (h₀ : Follows s₀ s) :
    ResFollows s₀ (execBellowsControlPeriod pout est seqEst steps hearth flits banks status vb vr vn s) := by
  unfold execBellowsControlPeriod
  with_reducible repeat' (first
    | assumption | apply State.sampleVolts_follows | apply State.controlPeriod_follows | apply ResFollows.next
    | intro _ | split | simp only [Follows.keep] | simp +zetaDelta only [Follows.keep])

theorem execVcoreDroop_follows {s₀ : State} {s : State} (h₀ : Follows s₀ s) :
    ResFollows s₀ (execVcoreDroop s) := by
  unfold execVcoreDroop
  with_reducible repeat' (first
    | assumption | apply State.modBel_follows | apply State.event_follows | apply ResFollows.next
    | intro _ | split | simp only [Follows.keep] | simp +zetaDelta only [Follows.keep])

theorem execVcoreDroopRecovery_follows {s₀ : State} {s : State} (h₀ : Follows s₀ s) :
    ResFollows s₀ (execVcoreDroopRecovery s) := by
  unfold execVcoreDroopRecovery
  with_reducible repeat' (first
    | assumption | apply State.modBel_follows | apply ResFollows.next
    | intro _ | split | simp only [Follows.keep] | simp +zetaDelta only [Follows.keep])

theorem execVcoreSettled_follows {s₀ : State} {s : State} (h₀ : Follows s₀ s) :
    ResFollows s₀ (execVcoreSettled s) := by
  unfold execVcoreSettled
  with_reducible repeat' (first
    | assumption | apply State.modBel_follows | apply ResFollows.next
    | intro _ | split | simp only [Follows.keep] | simp +zetaDelta only [Follows.keep])

theorem execAclkChangeDone_follows {s₀ : State} {s : State} (h₀ : Follows s₀ s) :
    ResFollows s₀ (execAclkChangeDone s) := by
  unfold execAclkChangeDone
  with_reducible repeat' (first
    | assumption | apply State.setRf_follows | apply State.modBel_follows | apply State.emit_follows | apply State.aclkGo_follows | apply ResFollows.next
    | (intro (x : State); have hx : Follows s₀ x := (by dsimp only [x]; repeat' (first | assumption | apply State.setRf_follows | apply State.modBel_follows | apply State.emit_follows | apply State.aclkGo_follows | apply ResFollows.next | intro _ | split | simp only [Follows.keep] | simp +zetaDelta only [Follows.keep])))
    | lift_lets | (intro (x : Option _); clear_value x)
    | intro _ | split | simp only [Follows.keep] | simp +zetaDelta only [Follows.keep])

theorem execAuxRise_follows {s₀ : State} {s : State} (h₀ : Follows s₀ s) :
    ResFollows s₀ (execAuxRise s) := by
  unfold execAuxRise
  with_reducible repeat' (first
    | assumption | apply State.auxRise_follows | apply ResFollows.next
    | intro _ | split)

theorem execAuxFall_follows {s₀ : State} {s : State} (h₀ : Follows s₀ s) :
    ResFollows s₀ (execAuxFall s) := by
  unfold execAuxFall
  with_reducible repeat' (first
    | assumption | apply State.nvCut_follows | apply State.auxRise_follows | apply ResFollows.next
    | (intro (x : State); have hx : Follows s₀ x := (by dsimp only [x]; repeat' (first | assumption | apply State.nvCut_follows | apply State.auxRise_follows | apply ResFollows.next | intro _ | split | simp only [Follows.keep] | simp +zetaDelta only [Follows.keep])))
    | lift_lets | (intro (x : Option _); clear_value x)
    | intro _ | split | simp only [Follows.keep] | simp +zetaDelta only [Follows.keep])

theorem execChipReset_follows {s₀ : State} {s : State} (cause : Nat) (h₀ : Follows s₀ s) :
    ResFollows s₀ (execChipReset cause s) := by
  unfold execChipReset
  with_reducible repeat' (first
    | assumption | apply State.chipReset_follows | apply ResFollows.next
    | intro _ | split)

theorem execSmithWatchdogExpiry_follows {s₀ : State} {s : State} (k : Nat) (h₀ : Follows s₀ s) :
    ResFollows s₀ (execSmithWatchdogExpiry k s) := by
  unfold execSmithWatchdogExpiry
  with_reducible repeat' (first
    | assumption | apply State.event_follows | apply State.chipReset_follows | apply ResFollows.next
    | intro _ | split)

theorem State.foundHalf_follows {s₀ : State} {s : State} (l : List Nat) (h₀ : Follows s₀ s) :
    Follows s₀ (State.foundHalf s l) := by
  unfold State.foundHalf
  with_reducible repeat' (first
    | assumption | intro (_ : State) _ (_ : Follows _ _) | apply setNvs_follows | apply each_follows | apply event_follows | apply bump_follows
    | (intro (x : State); have hx : Follows s₀ x := (by dsimp only [x]; repeat' (first | assumption | intro (_ : State) _ (_ : Follows _ _) | apply setNvs_follows | apply each_follows | apply event_follows | apply bump_follows | intro _ | exact ⟨rfl, rfl, rfl⟩ | (refine ⟨?_, ?_, ?_⟩ <;> repeat' (first | rfl | split)) | split | simp only [Follows.keep] | simp +zetaDelta only [Follows.keep])))
    | lift_lets | (intro (x : Option _); clear_value x)
    | intro _ | exact ⟨rfl, rfl, rfl⟩ | (refine ⟨?_, ?_, ?_⟩ <;> repeat' (first | rfl | split)) | split | simp only [Follows.keep] | simp +zetaDelta only [Follows.keep])

theorem State.romRepair_follows {s₀ : State} {s : State} (n : Nat) (h₀ : Follows s₀ s) :
    Follows s₀ (State.romRepair s n) := by
  unfold State.romRepair
  with_reducible repeat' (first
    | assumption | apply eraseSector_follows | apply programFlash_follows | apply ledgerRoom_follows | apply eraseLogged_follows | apply setNvs_follows | apply event_follows
    | (intro (x : State); have hx : Follows s₀ x := (by dsimp only [x]; repeat' (first | assumption | apply eraseSector_follows | apply programFlash_follows | apply ledgerRoom_follows | apply eraseLogged_follows | apply setNvs_follows | apply event_follows | intro _ | exact ⟨rfl, rfl, rfl⟩ | (refine ⟨?_, ?_, ?_⟩ <;> repeat' (first | rfl | split)) | split | simp only [Follows.keep] | simp +zetaDelta only [Follows.keep])))
    | lift_lets | (intro (x : Option _); clear_value x)
    | intro _ | exact ⟨rfl, rfl, rfl⟩ | (refine ⟨?_, ?_, ?_⟩ <;> repeat' (first | rfl | split)) | split | simp only [Follows.keep] | simp +zetaDelta only [Follows.keep])

theorem State.tornEvents_follows {s₀ : State} {s : State} (h₀ : Follows s₀ s) :
    Follows s₀ (State.tornEvents s) := by
  unfold State.tornEvents
  with_reducible repeat' (first
    | assumption | intro (_ : State) _ (_ : Follows _ _) | apply each_follows | apply event_follows
    | (intro (x : State); have hx : Follows s₀ x := (by dsimp only [x]; repeat' (first | assumption | intro (_ : State) _ (_ : Follows _ _) | apply each_follows | apply event_follows | intro _ | split)))
    | lift_lets | (intro (x : Option _); clear_value x)
    | intro _ | split)

theorem State.settleDesc_follows {s₀ : State} {s : State} (h₀ : Follows s₀ s) :
    Follows s₀ (State.settleDesc s) := by
  unfold State.settleDesc
  with_reducible repeat' (first
    | assumption | apply staleSector_follows | apply appendLog_follows
    | (intro (x : State); have hx : Follows s₀ x := (by dsimp only [x]; repeat' (first | assumption | apply staleSector_follows | apply appendLog_follows | intro _ | split | simp only [Follows.keep] | simp +zetaDelta only [Follows.keep])))
    | lift_lets | (intro (x : Option _); clear_value x)
    | intro _ | split | simp only [Follows.keep] | simp +zetaDelta only [Follows.keep])

theorem State.staleOpen_follows {s₀ : State} {s : State} (r : Nat × Nat) (h₀ : Follows s₀ s) :
    Follows s₀ (State.staleOpen s r) := by
  unfold State.staleOpen
  with_reducible repeat' (first
    | assumption | intro (_ : State) _ (_ : Follows _ _) | apply each_follows | apply staleSector_follows | apply event_follows
    | (intro (x : State); have hx : Follows s₀ x := (by dsimp only [x]; repeat' (first | assumption | intro (_ : State) _ (_ : Follows _ _) | apply each_follows | apply staleSector_follows | apply event_follows | intro _ | split)))
    | lift_lets | (intro (x : Option _); clear_value x)
    | intro _ | split)

theorem State.romScan_follows {s₀ : State} {s : State} (h₀ : Follows s₀ s) :
    Follows s₀ (State.romScan s) := by
  unfold State.romScan
  with_reducible repeat' (first
    | assumption | intro (_ : State) _ (_ : Follows _ _) | apply foundHalf_follows | apply each_follows | apply romRepair_follows | apply tornEvents_follows | apply settleDesc_follows | apply staleOpen_follows | apply settleLedgers_follows | apply setEvr_follows
    | (intro (x : State); have hx : Follows s₀ x := (by dsimp only [x]; repeat' (first | assumption | intro (_ : State) _ (_ : Follows _ _) | apply foundHalf_follows | apply each_follows | apply romRepair_follows | apply tornEvents_follows | apply settleDesc_follows | apply staleOpen_follows | apply settleLedgers_follows | apply setEvr_follows | intro _ | split | simp only [Follows.keep] | simp +zetaDelta only [Follows.keep])))
    | lift_lets | (intro (x : Option _); clear_value x)
    | intro _ | split | simp only [Follows.keep] | simp +zetaDelta only [Follows.keep])

theorem State.toRecovery_follows {s₀ : State} {s : State} (h₀ : Follows s₀ s) :
    Follows s₀ (State.toRecovery s) := by
  unfold State.toRecovery
  with_reducible repeat' (first
    | assumption | apply setRf_follows | apply event_follows
    | intro _ | split | simp only [Follows.keep] | simp +zetaDelta only [Follows.keep])

theorem State.checkSlot_follows {s₀ : State} {s : State} (slot : Nat) (h₀ : Follows s₀ s) :
    Follows s₀ (State.checkSlot s slot).2 := by
  unfold State.checkSlot
  with_reducible repeat' (first
    | assumption | apply verifyImage_follows | apply Follows.pair ‹_ = (_, _)›
    | intro _ | split | dsimp -zeta only)

theorem State.startFirmware_follows {s₀ : State} {s : State} (img : List Byte) (h₀ : Follows s₀ s) :
    Follows s₀ (State.startFirmware s img) := by
  unfold State.startFirmware
  with_reducible repeat' (first
    | assumption | apply setReg_follows | apply setNvs_follows | apply eventD_follows
    | (intro (x : State); have hx : Follows s₀ x := (by dsimp only [x]; repeat' (first | assumption | apply setReg_follows | apply setNvs_follows | apply eventD_follows | intro _ | exact ⟨rfl, rfl, rfl⟩ | (refine ⟨?_, ?_, ?_⟩ <;> repeat' (first | rfl | split)) | split | simp only [Follows.keep] | simp +zetaDelta only [Follows.keep])))
    | lift_lets | (intro (x : Option _); clear_value x)
    | intro _ | exact ⟨rfl, rfl, rfl⟩ | (refine ⟨?_, ?_, ?_⟩ <;> repeat' (first | rfl | split)) | split | simp only [Follows.keep] | simp +zetaDelta only [Follows.keep])

theorem State.runSlot_follows {s₀ : State} {s : State} (slot : Nat) (trial : Nat) (h₀ : Follows s₀ s) :
    Follows s₀ (State.runSlot s slot trial) := by
  unfold State.runSlot
  with_reducible repeat' (first
    | assumption | apply setRf_follows | apply startFirmware_follows
    | intro _ | split)

theorem State.fallBack_follows {s₀ : State} {s : State} (slot : Nat) (h₀ : Follows s₀ s) :
    Follows s₀ (State.fallBack s slot) := by
  unfold State.fallBack
  with_reducible repeat' (first
    | assumption | apply appendDesc_follows | apply event_follows
    | intro _ | split)

theorem State.trialStep_follows {s₀ : State} {s : State} (h₀ : Follows s₀ s) :
    Follows s₀ (State.trialStep s) := by
  unfold State.trialStep
  with_reducible repeat' (first
    | assumption | apply fallBack_follows | apply appendDesc_follows
    | (intro (x : State); have hx : Follows s₀ x := (by dsimp only [x]; repeat' (first | assumption | apply fallBack_follows | apply appendDesc_follows | intro _ | split)))
    | lift_lets | (intro (x : Option _); clear_value x)
    | intro _ | split)

theorem State.bootDesc_follows {s₀ : State} {s : State} (h₀ : Follows s₀ s) :
    Follows s₀ (State.bootDesc s) := by
  unfold State.bootDesc
  with_reducible repeat' (first
    | assumption | apply toRecovery_follows | apply trialStep_follows | apply checkSlot_follows | apply runSlot_follows | apply fallBack_follows | apply Follows.pair ‹_ = (_, _)›
    | (intro (x : State); have hx : Follows s₀ x := (by dsimp only [x]; repeat' (first | assumption | apply toRecovery_follows | apply trialStep_follows | apply checkSlot_follows | apply runSlot_follows | apply fallBack_follows | apply Follows.pair ‹_ = (_, _)› | intro _ | split | simp only [Follows.keep] | simp +zetaDelta only [Follows.keep])))
    | lift_lets | (intro (x : Option _); clear_value x)
    | intro _ | split | simp only [Follows.keep] | simp +zetaDelta only [Follows.keep])

theorem State.bootImage_follows {s₀ : State} {s : State} (h₀ : Follows s₀ s) :
    Follows s₀ (State.bootImage s) := by
  unfold State.bootImage
  with_reducible repeat' (first
    | assumption | apply toRecovery_follows | apply bootDesc_follows | apply checkSlot_follows | apply runSlot_follows | apply Follows.pair ‹_ = (_, _)›
    | (intro (x : State); have hx : Follows s₀ x := (by dsimp only [x]; repeat' (first | assumption | apply toRecovery_follows | apply bootDesc_follows | apply checkSlot_follows | apply runSlot_follows | apply Follows.pair ‹_ = (_, _)› | intro _ | split | simp only [Follows.keep] | simp +zetaDelta only [Follows.keep])))
    | lift_lets | (intro (x : Option _); clear_value x)
    | intro _ | split | simp only [Follows.keep] | simp +zetaDelta only [Follows.keep])

theorem execBootImageLoaded_follows {s₀ : State} {s : State} (fit : Bool) (h₀ : Follows s₀ s) :
    ResFollows s₀ (execBootImageLoaded fit s) := by
  unfold execBootImageLoaded
  with_reducible repeat' (first
    | assumption | apply State.romScan_follows | apply State.bootImage_follows | apply State.event_follows | apply State.toRecovery_follows | apply State.setNvs_follows | apply State.startFirmware_follows | apply ResFollows.next
    | intro _ | exact ⟨rfl, rfl, rfl⟩ | (refine ⟨?_, ?_, ?_⟩ <;> repeat' (first | rfl | split)) | split | simp only [Follows.keep] | simp +zetaDelta only [Follows.keep])

theorem State.applyAllotment_follows {s₀ : State} {s : State} (dir : Nat) (en : Nat) (p : Nat) (fallback : Bool) (h₀ : Follows s₀ s) :
    Follows s₀ (State.applyAllotment s dir en p fallback) := by
  unfold State.applyAllotment
  with_reducible repeat' (first
    | assumption | intro (_ : State) _ (_ : Follows _ _) | apply setReg_follows | apply event_follows | apply each_follows | apply modLink_follows
    | (intro (x : State); have hx : Follows s₀ x := (by dsimp only [x]; repeat' (first | assumption | intro (_ : State) _ (_ : Follows _ _) | apply setReg_follows | apply event_follows | apply each_follows | apply modLink_follows | intro _ | split | simp only [Follows.keep] | simp +zetaDelta only [Follows.keep])))
    | lift_lets | (intro (x : Option _); clear_value x)
    | intro _ | split | simp only [Follows.keep] | simp +zetaDelta only [Follows.keep])

theorem State.applyRole_follows {s₀ : State} {s : State} (h₀ : Follows s₀ s) :
    Follows s₀ (State.applyRole s) := by
  unfold State.applyRole
  with_reducible repeat' (first
    | assumption | intro (_ : State) _ (_ : Follows _ _) | apply each_follows | apply modLink_follows
    | intro _ | split | simp only [Follows.keep] | simp +zetaDelta only [Follows.keep])

theorem State.applyVf_follows {s₀ : State} {s : State} (b : List Byte) (h₀ : Follows s₀ s) :
    Follows s₀ (State.applyVf s b) := by
  unfold State.applyVf
  with_reducible repeat' (first
    | assumption | intro (_ : State) _ (_ : Follows _ _) | apply each_follows | apply event_follows
    | (intro (x : State); have hx : Follows s₀ x := (by dsimp only [x]; repeat' (first | assumption | intro (_ : State) _ (_ : Follows _ _) | apply each_follows | apply event_follows | intro _ | split | simp only [Follows.keep] | simp +zetaDelta only [Follows.keep])))
    | lift_lets | (intro (x : Option _); clear_value x)
    | intro _ | split | simp only [Follows.keep] | simp +zetaDelta only [Follows.keep])

theorem State.applyRails_follows {s₀ : State} {s : State} (b : List Byte) (h₀ : Follows s₀ s) :
    Follows s₀ (State.applyRails s b) := by
  unfold State.applyRails
  with_reducible repeat' (first
    | assumption | intro (_ : State) _ (_ : Follows _ _) | intro _ (_ : State) (_ : Follows _ _) | apply each_follows | apply emit_follows
    | (intro (x : State); have hx : Follows s₀ x := (by dsimp only [x]; repeat' (first | assumption | intro (_ : State) _ (_ : Follows _ _) | intro _ (_ : State) (_ : Follows _ _) | apply each_follows | apply emit_follows | intro _ | split | simp only [Follows.keep] | simp +zetaDelta only [Follows.keep])))
    | lift_lets | (intro (x : Option _); clear_value x)
    | intro _ | split | simp only [Follows.keep] | simp +zetaDelta only [Follows.keep])

theorem State.applyQuench_follows {s₀ : State} {s : State} (b : List Byte) (h₀ : Follows s₀ s) :
    Follows s₀ (State.applyQuench s b) := by
  unfold State.applyQuench
  with_reducible repeat' (first
    | assumption | intro (_ : State) _ (_ : Follows _ _) | apply each_follows | apply setReg_follows
    | (intro (x : State); have hx : Follows s₀ x := (by dsimp only [x]; repeat' (first | assumption | intro (_ : State) _ (_ : Follows _ _) | apply each_follows | apply setReg_follows | intro _ | split | simp only [Follows.keep] | simp +zetaDelta only [Follows.keep])))
    | lift_lets | (intro (x : Option _); clear_value x)
    | intro _ | split | simp only [Follows.keep] | simp +zetaDelta only [Follows.keep])

theorem State.failBank_follows {s₀ : State} {s : State} (b : Nat) (h₀ : Follows s₀ s) :
    Follows s₀ (State.failBank s b) := by
  unfold State.failBank
  with_reducible repeat' (first
    | assumption
    | intro _ | split | simp only [Follows.keep] | simp +zetaDelta only [Follows.keep])

theorem State.applyLbk_follows {s₀ : State} {s : State} (b : List Byte) (h₀ : Follows s₀ s) :
    Follows s₀ (State.applyLbk s b) := by
  unfold State.applyLbk
  with_reducible repeat' (first
    | assumption | intro (_ : State) _ (_ : Follows _ _) | intro _ (_ : State) (_ : Follows _ _) | apply each_follows | apply modBank_follows | apply failBank_follows
    | (intro (x : State); have hx : Follows s₀ x := (by dsimp only [x]; repeat' (first | assumption | intro (_ : State) _ (_ : Follows _ _) | intro _ (_ : State) (_ : Follows _ _) | apply each_follows | apply modBank_follows | apply failBank_follows | intro _ | split | simp only [Follows.keep] | simp +zetaDelta only [Follows.keep])))
    | lift_lets | (intro (x : Option _); clear_value x)
    | intro _ | split | simp only [Follows.keep] | simp +zetaDelta only [Follows.keep])

theorem State.lightBanks_follows {s₀ : State} {s : State} (h₀ : Follows s₀ s) :
    Follows s₀ (State.lightBanks s) := by
  unfold State.lightBanks
  with_reducible repeat' (first
    | assumption | intro (_ : State) _ (_ : Follows _ _) | apply each_follows | apply setRf_follows
    | intro _ | split)

theorem State.withSection_follows {s₀ : State} {s : State} (b : List Byte) (t : Nat) (f : State → List Byte → State) (h₀ : Follows s₀ s) (hf : ∀ x0 x1, Follows s₀ x0 → Follows s₀ (f x0 x1)) :
    Follows s₀ (State.withSection s b t f) := by
  unfold State.withSection
  with_reducible repeat' (first
    | assumption | apply hf
    | intro _ | split | simp only [Follows.keep] | simp +zetaDelta only [Follows.keep])

theorem State.applyConfig_follows {s₀ : State} {s : State} (h₀ : Follows s₀ s) :
    Follows s₀ (State.applyConfig s) := by
  unfold State.applyConfig
  with_reducible repeat' (first
    | assumption | intro (_ : State) _ (_ : Follows _ _) | intro _ (_ : State) (_ : Follows _ _) | apply setRf_follows | apply event_follows | apply applyAllotment_follows | apply each_follows | apply failBank_follows | apply withSection_follows | apply applyRails_follows | apply applyVf_follows | apply applyQuench_follows | apply applyLbk_follows
    | (intro (x : State); have hx : Follows s₀ x := (by dsimp only [x]; repeat' (first | assumption | intro (_ : State) _ (_ : Follows _ _) | intro _ (_ : State) (_ : Follows _ _) | apply setRf_follows | apply event_follows | apply applyAllotment_follows | apply each_follows | apply failBank_follows | apply withSection_follows | apply applyRails_follows | apply applyVf_follows | apply applyQuench_follows | apply applyLbk_follows | intro _ | split | simp only [Follows.keep] | simp +zetaDelta only [Follows.keep])))
    | lift_lets | (intro (x : Option _); clear_value x)
    | intro _ | split | simp only [Follows.keep] | simp +zetaDelta only [Follows.keep])

theorem execHostPortStage_follows {s₀ : State} {s : State} (h₀ : Follows s₀ s) :
    ResFollows s₀ (execHostPortStage s) := by
  unfold execHostPortStage
  with_reducible repeat' (first
    | assumption | apply State.applyConfig_follows | apply State.applyRole_follows | apply State.lightBanks_follows | apply State.emit_follows | apply State.setRf_follows | apply State.event_follows | apply ResFollows.next | refine State.stage_follows _ _ _ _ _ ?_ ‹_ = some _›
    | (intro (x : State); have hx : Follows s₀ x := (by dsimp only [x]; repeat' (first | assumption | apply State.applyConfig_follows | apply State.applyRole_follows | apply State.lightBanks_follows | apply State.emit_follows | apply State.setRf_follows | apply State.event_follows | apply ResFollows.next | refine State.stage_follows _ _ _ _ _ ?_ ‹_ = some _› | intro _ | split | simp only [Follows.keep] | simp +zetaDelta only [Follows.keep])))
    | lift_lets | (intro (x : Option _); clear_value x)
    | intro _ | split | simp only [Follows.keep] | simp +zetaDelta only [Follows.keep])

theorem State.goReady_follows {s₀ : State} {s : State} (h₀ : Follows s₀ s) :
    Follows s₀ (State.goReady s) := by
  unfold State.goReady
  with_reducible repeat' (first
    | assumption | apply setRf_follows | apply ownAsk_follows | apply foundHalf_follows | apply settleLedgers_follows
    | (intro (x : State); have hx : Follows s₀ x := (by dsimp only [x]; repeat' (first | assumption | apply setRf_follows | apply ownAsk_follows | apply foundHalf_follows | apply settleLedgers_follows | intro _ | split | simp only [Follows.keep] | simp +zetaDelta only [Follows.keep])))
    | lift_lets | (intro (x : Option _); clear_value x)
    | intro _ | split | simp only [Follows.keep] | simp +zetaDelta only [Follows.keep])

theorem execChipReady_follows {s₀ : State} {s : State} (h₀ : Follows s₀ s) :
    ResFollows s₀ (execChipReady s) := by
  unfold execChipReady
  with_reducible repeat' (first
    | assumption | apply State.goReady_follows | apply ResFollows.next | refine State.stage_follows _ _ _ _ _ ?_ ‹_ = some _›
    | intro _ | split | simp only [Follows.keep] | simp +zetaDelta only [Follows.keep])

theorem State.modClk_follows {s₀ : State} {s : State} (f : Clk → Clk) (h₀ : Follows s₀ s) :
    Follows s₀ (State.modClk s f) := by
  unfold State.modClk
  with_reducible repeat' (first
    | assumption
    | intro _ | split | simp only [Follows.keep] | simp +zetaDelta only [Follows.keep])

theorem State.tick_follows {s₀ : State} {s : State} (h₀ : Follows s₀ s) :
    Follows s₀ (State.tick s) := by
  unfold State.tick
  with_reducible repeat' (first
    | assumption | apply setRf_follows | apply event_follows | apply modClk_follows
    | (intro (x : State); have hx : Follows s₀ x := (by dsimp only [x]; repeat' (first | assumption | apply setRf_follows | apply event_follows | apply modClk_follows | intro _ | split | simp only [Follows.keep] | simp +zetaDelta only [Follows.keep])))
    | lift_lets | (intro (x : Option _); clear_value x)
    | intro _ | split | simp only [Follows.keep] | simp +zetaDelta only [Follows.keep])

theorem State.setRack_follows {s₀ : State} {s : State} (t : Nat) (h₀ : Follows s₀ s) :
    Follows s₀ (State.setRack s t) := by
  unfold State.setRack
  with_reducible repeat' (first
    | assumption | apply modClk_follows | apply tick_follows
    | intro _ | split | simp only [Follows.keep] | simp +zetaDelta only [Follows.keep])

theorem State.alignTo_follows {s₀ : State} {s : State} (e : Int) (h₀ : Follows s₀ s) :
    Follows s₀ (State.alignTo s e) := by
  unfold State.alignTo
  with_reducible repeat' (first
    | assumption | apply setRf_follows | apply bump_follows | apply event_follows | apply modClk_follows | apply setRack_follows
    | (intro (x : State); have hx : Follows s₀ x := (by dsimp only [x]; repeat' (first | assumption | apply setRf_follows | apply bump_follows | apply event_follows | apply modClk_follows | apply setRack_follows | intro _ | split | simp only [Follows.keep] | simp +zetaDelta only [Follows.keep])))
    | lift_lets | (intro (x : Option _); clear_value x)
    | intro _ | split | simp only [Follows.keep] | simp +zetaDelta only [Follows.keep])

theorem State.pulseActs_follows {s₀ : State} {s : State} (e : Int) (h₀ : Follows s₀ s) :
    Follows s₀ (State.pulseActs s e) := by
  unfold State.pulseActs
  with_reducible repeat' (first
    | assumption | apply alignTo_follows | apply setRf_follows | apply event_follows | apply setRack_follows
    | (intro (x : State); have hx : Follows s₀ x := (by dsimp only [x]; repeat' (first | assumption | apply alignTo_follows | apply setRf_follows | apply event_follows | apply setRack_follows | intro _ | split)))
    | lift_lets | (intro (x : Option _); clear_value x)
    | intro _ | split)

theorem execRtsyncPulse_follows {s₀ : State} {s : State} (h₀ : Follows s₀ s) :
    ResFollows s₀ (execRtsyncPulse s) := by
  unfold execRtsyncPulse
  with_reducible repeat' (first
    | assumption | apply State.modClk_follows | apply State.setRack_follows | apply State.pulseActs_follows | apply State.setRf_follows | apply State.bump_follows | apply State.event_follows | apply ResFollows.next
    | (intro (x : State); have hx : Follows s₀ x := (by dsimp only [x]; repeat' (first | assumption | apply State.modClk_follows | apply State.setRack_follows | apply State.pulseActs_follows | apply State.setRf_follows | apply State.bump_follows | apply State.event_follows | apply ResFollows.next | intro _ | split | simp only [Follows.keep] | simp +zetaDelta only [Follows.keep])))
    | lift_lets | (intro (x : Option _); clear_value x)
    | intro _ | split | simp only [Follows.keep] | simp +zetaDelta only [Follows.keep])

theorem execRtsyncMissDecision_follows {s₀ : State} {s : State} (h₀ : Follows s₀ s) :
    ResFollows s₀ (execRtsyncMissDecision s) := by
  unfold execRtsyncMissDecision
  with_reducible repeat' (first
    | assumption | apply State.modClk_follows | apply State.bump_follows | apply State.event_follows | apply ResFollows.next
    | (intro (x : State); have hx : Follows s₀ x := (by dsimp only [x]; repeat' (first | assumption | apply State.modClk_follows | apply State.bump_follows | apply State.event_follows | apply ResFollows.next | intro _ | split | simp only [Follows.keep] | simp +zetaDelta only [Follows.keep])))
    | lift_lets | (intro (x : Option _); clear_value x)
    | intro _ | split | simp only [Follows.keep] | simp +zetaDelta only [Follows.keep])

theorem execRackTick_follows {s₀ : State} {s : State} (h₀ : Follows s₀ s) :
    ResFollows s₀ (execRackTick s) := by
  unfold execRackTick
  with_reducible repeat' (first
    | assumption | apply State.tick_follows | apply ResFollows.next
    | intro _ | split)

theorem execTclkPresent_follows {s₀ : State} {s : State} (h₀ : Follows s₀ s) :
    ResFollows s₀ (execTclkPresent s) := by
  unfold execTclkPresent
  with_reducible repeat' (first
    | assumption | apply State.modClk_follows | apply State.event_follows | apply ResFollows.next
    | (intro (x : State); have hx : Follows s₀ x := (by dsimp only [x]; repeat' (first | assumption | apply State.modClk_follows | apply State.event_follows | apply ResFollows.next | intro _ | split | simp only [Follows.keep] | simp +zetaDelta only [Follows.keep])))
    | lift_lets | (intro (x : Option _); clear_value x)
    | intro _ | split | simp only [Follows.keep] | simp +zetaDelta only [Follows.keep])

theorem execTclkLost_follows {s₀ : State} {s : State} (h₀ : Follows s₀ s) :
    ResFollows s₀ (execTclkLost s) := by
  unfold execTclkLost
  with_reducible repeat' (first
    | assumption | intro (_ : State) _ (_ : Follows _ _) | apply State.modClk_follows | apply State.bump_follows | apply State.event_follows | apply State.each_follows | apply State.linkDown_follows | apply ResFollows.next
    | (intro (x : State); have hx : Follows s₀ x := (by dsimp only [x]; repeat' (first | assumption | intro (_ : State) _ (_ : Follows _ _) | apply State.modClk_follows | apply State.bump_follows | apply State.event_follows | apply State.each_follows | apply State.linkDown_follows | apply ResFollows.next | intro _ | split | simp only [Follows.keep] | simp +zetaDelta only [Follows.keep])))
    | lift_lets | (intro (x : Option _); clear_value x)
    | intro _ | split | simp only [Follows.keep] | simp +zetaDelta only [Follows.keep])

theorem execAclkPllLockLost_follows {s₀ : State} {s : State} (h₀ : Follows s₀ s) :
    ResFollows s₀ (execAclkPllLockLost s) := by
  unfold execAclkPllLockLost
  with_reducible repeat' (first
    | assumption | apply State.modClk_follows | apply State.event_follows | apply ResFollows.next
    | intro _ | split | simp only [Follows.keep] | simp +zetaDelta only [Follows.keep])

theorem execAclkPllLockRestored_follows {s₀ : State} {s : State} (h₀ : Follows s₀ s) :
    ResFollows s₀ (execAclkPllLockRestored s) := by
  unfold execAclkPllLockRestored
  with_reducible repeat' (first
    | assumption | apply State.modClk_follows | apply ResFollows.next
    | intro _ | split | simp only [Follows.keep] | simp +zetaDelta only [Follows.keep])

theorem State.setMeasure_follows {s₀ : State} {s : State} (d : Nat) (m : Measure) (h₀ : Follows s₀ s) :
    Follows s₀ (State.setMeasure s d m) := by
  unfold State.setMeasure
  with_reducible repeat' (first
    | assumption
    | intro _ | split | simp only [Follows.keep] | simp +zetaDelta only [Follows.keep])

theorem State.nextReq_follows {s₀ : State} {s : State} (d : Nat) (m : Measure) (h₀ : Follows s₀ s) :
    Follows s₀ (State.nextReq s d m) := by
  unfold State.nextReq
  with_reducible repeat' (first
    | assumption | apply setMeasure_follows | apply modLink_follows
    | intro _ | split | simp only [Follows.keep] | simp +zetaDelta only [Follows.keep])

theorem State.startMeasure_follows {s₀ : State} {s : State} (d : Nat) (ks : List Nat) (h₀ : Follows s₀ s) :
    Follows s₀ (State.startMeasure s d ks) := by
  unfold State.startMeasure
  with_reducible repeat' (first
    | assumption | apply setMeasure_follows | apply nextReq_follows
    | intro _ | split | simp only [Follows.keep] | simp +zetaDelta only [Follows.keep])

theorem execTimeMeasureStart_follows {s₀ : State} {s : State} (d : Nat) (h₀ : Follows s₀ s) :
    ResFollows s₀ (execTimeMeasureStart d s) := by
  unfold execTimeMeasureStart
  with_reducible repeat' (first
    | assumption | apply State.startMeasure_follows | apply ResFollows.next
    | intro _ | split)

theorem execLinkMeasure_follows {s₀ : State} {s : State} (k : Nat) (h₀ : Follows s₀ s) :
    ResFollows s₀ (execLinkMeasure k s) := by
  unfold execLinkMeasure
  with_reducible repeat' (first
    | assumption | intro _ (_ : State) (_ : Follows _ _) | apply runOp_follows | apply State.failPkt_follows | apply State.startMeasure_follows | apply ResFollows.next
    | (intro (x : State); have hx : Follows s₀ x := (by dsimp only [x]; repeat' (first | assumption | intro _ (_ : State) (_ : Follows _ _) | apply runOp_follows | apply State.failPkt_follows | apply State.startMeasure_follows | apply ResFollows.next | intro _ | split)))
    | lift_lets | (intro (x : Option _); clear_value x)
    | intro _ | split)

theorem execTimeReqSend_follows {s₀ : State} {s : State} (d : Nat) (h₀ : Follows s₀ s) :
    ResFollows s₀ (execTimeReqSend d s) := by
  unfold execTimeReqSend
  with_reducible repeat' (first
    | assumption | apply State.nextReq_follows | apply ResFollows.next
    | intro _ | split | simp only [Follows.keep] | simp +zetaDelta only [Follows.keep])

theorem State.timeReq_follows {s₀ : State} {s : State} (d : Nat) (os : List Byte) (h₀ : Follows s₀ s) :
    Follows s₀ (State.timeReq s d os) := by
  unfold State.timeReq
  with_reducible repeat' (first
    | assumption | apply modLink_follows
    | (intro (x : State); have hx : Follows s₀ x := (by dsimp only [x]; repeat' (first | assumption | apply modLink_follows | intro _ | split | simp only [Follows.keep] | simp +zetaDelta only [Follows.keep])))
    | lift_lets | (intro (x : Option _); clear_value x)
    | intro _ | split | simp only [Follows.keep] | simp +zetaDelta only [Follows.keep])

theorem execTimeReqReceived_follows {s₀ : State} {s : State} (d : Nat) (os : List Byte) (h₀ : Follows s₀ s) :
    ResFollows s₀ (execTimeReqReceived d os s) := by
  unfold execTimeReqReceived
  with_reducible repeat' (first
    | assumption | apply State.timeReq_follows | apply ResFollows.next
    | intro _ | split)

theorem State.timeRsp_follows {s₀ : State} {s : State} (d : Nat) (os : List Byte) (h₀ : Follows s₀ s) :
    Follows s₀ (State.timeRsp s d os) := by
  unfold State.timeRsp
  with_reducible repeat' (first
    | assumption | apply setMeasure_follows
    | (intro (x : State); have hx : Follows s₀ x := (by dsimp only [x]; repeat' (first | assumption | apply setMeasure_follows | intro _ | split | simp only [Follows.keep] | simp +zetaDelta only [Follows.keep])))
    | lift_lets | (intro (x : Option _); clear_value x)
    | intro _ | split | simp only [Follows.keep] | simp +zetaDelta only [Follows.keep])

theorem execTimeRspReceived_follows {s₀ : State} {s : State} (d : Nat) (os : List Byte) (h₀ : Follows s₀ s) :
    ResFollows s₀ (execTimeRspReceived d os s) := by
  unfold execTimeRspReceived
  with_reducible repeat' (first
    | assumption | apply State.timeRsp_follows | apply ResFollows.next
    | intro _ | split)

theorem execTimeMeasureEnd_follows {s₀ : State} {s : State} (d : Nat) (h₀ : Follows s₀ s) :
    ResFollows s₀ (execTimeMeasureEnd d s) := by
  unfold execTimeMeasureEnd
  with_reducible repeat' (first
    | assumption | intro (_ : State) _ (_ : Follows _ _) | apply State.portEvent_follows | apply State.each_follows | apply State.failEv_follows | apply State.setReg_follows | apply State.setRf_follows | apply State.done_follows | apply ResFollows.next
    | (intro (x : State); have hx : Follows s₀ x := (by dsimp only [x]; repeat' (first | assumption | intro (_ : State) _ (_ : Follows _ _) | apply State.portEvent_follows | apply State.each_follows | apply State.failEv_follows | apply State.setReg_follows | apply State.setRf_follows | apply State.done_follows | apply ResFollows.next | intro _ | split | simp only [Follows.keep] | simp +zetaDelta only [Follows.keep])))
    | lift_lets | (intro (x : Option _); clear_value x)
    | intro _ | split | simp only [Follows.keep] | simp +zetaDelta only [Follows.keep])

end Sys2Proof.Machine
end

