-- ==== Sys2Proof/Laws/FollowTongs.lean ====
section
/-! SUPPORT. Follow lemmas: tong, procession, Derord, fabric and flash commands follow. -/
namespace Sys2Proof.Machine

theorem execTongDesc_follows {s₀ : State} {s : State} (k : Nat) (h₀ : Follows s₀ s) :
    ResFollows s₀ (execTongDesc k s) := by
  unfold execTongDesc
  with_reducible repeat' (first
    | assumption | intro _ (_ : State) (_ : Follows _ _) | apply runWhen_follows | apply State.setTong_follows | apply ResFollows.next
    | intro _ | split | simp only [Follows.keep] | simp +zetaDelta only [Follows.keep])

theorem execTongList_follows {s₀ : State} {s : State} (k : Nat) (h₀ : Follows s₀ s) :
    ResFollows s₀ (execTongList k s) := by
  unfold execTongList
  with_reducible repeat' (first
    | assumption | intro _ (_ : State) (_ : Follows _ _) | apply runWhen_follows | apply State.setTong_follows | apply State.loadDesc_follows | apply ResFollows.next
    | (intro (x : State); have hx : Follows s₀ x := (by dsimp only [x]; repeat' (first | assumption | intro _ (_ : State) (_ : Follows _ _) | apply runWhen_follows | apply State.setTong_follows | apply State.loadDesc_follows | apply ResFollows.next | intro _ | split | simp only [Follows.keep] | simp +zetaDelta only [Follows.keep])))
    | lift_lets | (intro (x : Option _); clear_value x)
    | intro _ | split | simp only [Follows.keep] | simp +zetaDelta only [Follows.keep])

theorem State.startCopy_follows {s₀ : State} {s : State} (p : Nat) (t : Nat) (h₀ : Follows s₀ s) :
    Follows s₀ (State.startCopy s p t) := by
  unfold State.startCopy
  with_reducible repeat' (first
    | assumption | intro (_ : State) _ (_ : Follows _ _) | apply setTong_follows | apply each_follows | apply hostRead_follows
    | (intro (x : State); have hx : Follows s₀ x := (by dsimp only [x]; repeat' (first | assumption | intro (_ : State) _ (_ : Follows _ _) | apply setTong_follows | apply each_follows | apply hostRead_follows | intro _ | split | simp only [Follows.keep] | simp +zetaDelta only [Follows.keep])))
    | lift_lets | (intro (x : Option _); clear_value x)
    | intro _ | split | simp only [Follows.keep] | simp +zetaDelta only [Follows.keep])

theorem State.holdEgress_follows {s₀ : State} {s : State} (t : Nat) (d : List Byte) (h₀ : Follows s₀ s) :
    Follows s₀ (State.holdEgress s t d) := by
  unfold State.holdEgress
  with_reducible repeat' (first
    | assumption
    | intro _ | split | simp only [Follows.keep] | simp +zetaDelta only [Follows.keep])

theorem State.descAdvance_follows {s₀ : State} {s : State} (p : Nat) (t : Nat) (h₀ : Follows s₀ s) :
    Follows s₀ (State.descAdvance s p t) := by
  unfold State.descAdvance
  with_reducible repeat' (first
    | assumption | apply setTong_follows | apply semWait_follows | apply takeGrant_follows | apply holdEgress_follows | apply startCopy_follows
    | (intro (x : State); have hx : Follows s₀ x := (by dsimp only [x]; repeat' (first | assumption | apply setTong_follows | apply semWait_follows | apply takeGrant_follows | apply holdEgress_follows | apply startCopy_follows | intro _ | split | simp only [Follows.keep] | simp +zetaDelta only [Follows.keep])))
    | lift_lets | (intro (x : Option _); clear_value x)
    | intro _ | split | simp only [Follows.keep] | simp +zetaDelta only [Follows.keep])

theorem execTongDescriptorStart_follows {s₀ : State} {s : State} (t : Nat) (h₀ : Follows s₀ s) :
    ResFollows s₀ (execTongDescriptorStart t s) := by
  unfold execTongDescriptorStart
  with_reducible repeat' (first
    | assumption | apply State.failDesc_follows | apply State.descAdvance_follows | apply ResFollows.next
    | (intro (x : State); have hx : Follows s₀ x := (by dsimp only [x]; repeat' (first | assumption | apply State.failDesc_follows | apply State.descAdvance_follows | apply ResFollows.next | intro _ | split | simp only [Follows.keep] | simp +zetaDelta only [Follows.keep])))
    | lift_lets | (intro (x : Option _); clear_value x)
    | intro _ | split | simp only [Follows.keep] | simp +zetaDelta only [Follows.keep])

theorem State.moveRows_follows {s₀ : State} {s : State} (p : Nat) (t : Nat) (k : Nat) (h₀ : Follows s₀ s) :
    Follows s₀ (State.moveRows s p t k) := by
  unfold State.moveRows
  with_reducible repeat' (first
    | assumption | intro (_ : State) _ (_ : Follows _ _) | intro _ (_ : State) (_ : Follows _ _) | apply sendEgress_follows | apply each_follows | apply writeRow_follows | apply descSent_follows | apply notePoison_follows | apply failTong_follows | apply copyRows_follows | apply Follows.pairL ‹_ = (_, _)›
    | (intro (x : State); have hx : Follows s₀ x := (by dsimp only [x]; repeat' (first | assumption | intro (_ : State) _ (_ : Follows _ _) | intro _ (_ : State) (_ : Follows _ _) | apply sendEgress_follows | apply each_follows | apply writeRow_follows | apply descSent_follows | apply notePoison_follows | apply failTong_follows | apply copyRows_follows | apply Follows.pairL ‹_ = (_, _)› | intro _ | split | simp only [Follows.keep] | simp +zetaDelta only [Follows.keep])))
    | lift_lets | (intro (x : Option _); clear_value x)
    | intro _ | split | simp only [Follows.keep] | simp +zetaDelta only [Follows.keep])

theorem execTongDescriptorDone_follows {s₀ : State} {s : State} (t : Nat) (ecc : List (Nat × Bool)) (h₀ : Follows s₀ s) :
    ResFollows s₀ (execTongDescriptorDone t ecc s) := by
  unfold execTongDescriptorDone
  with_reducible repeat' (first
    | assumption | intro _ (_ : State) (_ : Follows _ _) | apply State.eccFinds_follows | apply State.withPkt_follows | apply State.moveRows_follows | apply ResFollows.next
    | intro _ | split | simp only [Follows.keep] | simp +zetaDelta only [Follows.keep])

theorem State.tongTimeout_follows {s₀ : State} {s : State} (p : Nat) (t : Nat) (h₀ : Follows s₀ s) :
    Follows s₀ (State.tongTimeout s p t) := by
  unfold State.tongTimeout
  with_reducible repeat' (first
    | assumption | apply event_follows | apply failTong_follows
    | (intro (x : State); have hx : Follows s₀ x := (by dsimp only [x]; repeat' (first | assumption | apply event_follows | apply failTong_follows | intro _ | split)))
    | lift_lets | (intro (x : Option _); clear_value x)
    | intro _ | split)

theorem execTongWaitTimeout_follows {s₀ : State} {s : State} (t : Nat) (h₀ : Follows s₀ s) :
    ResFollows s₀ (execTongWaitTimeout t s) := by
  unfold execTongWaitTimeout
  with_reducible repeat' (first
    | assumption | apply State.tongTimeout_follows | apply ResFollows.next
    | intro _ | split | simp only [Follows.keep] | simp +zetaDelta only [Follows.keep])

theorem execFill_follows {s₀ : State} {s : State} (k : Nat) (h₀ : Follows s₀ s) :
    ResFollows s₀ (execFill k s) := by
  unfold execFill
  with_reducible repeat' (first
    | assumption | intro _ (_ : State) (_ : Follows _ _) | apply runWhen_follows | apply State.setTong_follows | apply ResFollows.next
    | intro _ | split | simp only [Follows.keep] | simp +zetaDelta only [Follows.keep])

theorem execFillDone_follows {s₀ : State} {s : State} (t : Nat) (h₀ : Follows s₀ s) :
    ResFollows s₀ (execFillDone t s) := by
  unfold execFillDone
  with_reducible repeat' (first
    | assumption | intro _ (_ : State) (_ : Follows _ _) | apply State.withPkt_follows | apply State.writeHearth_follows | apply State.setTong_follows | apply State.done_follows | apply ResFollows.next
    | intro _ | split | simp only [Follows.keep] | simp +zetaDelta only [Follows.keep])

theorem State.setBulk_follows {s₀ : State} {s : State} (p : Nat) (b : Nat) (x : Bulk) (h₀ : Follows s₀ s) :
    Follows s₀ (State.setBulk s p b x) := by
  unfold State.setBulk
  with_reducible repeat' (first
    | assumption | apply modPart_follows
    | intro _ | split | simp only [Follows.keep] | simp +zetaDelta only [Follows.keep])

theorem execBulkReceive_follows {s₀ : State} {s : State} (k : Nat) (h₀ : Follows s₀ s) :
    ResFollows s₀ (execBulkReceive k s) := by
  unfold execBulkReceive
  with_reducible repeat' (first
    | assumption | intro _ (_ : State) (_ : Follows _ _) | apply runOp_follows | apply State.failPkt_follows | apply State.modPart_follows | apply State.setBulk_follows | apply State.semWrite_follows | apply State.done_follows | apply ResFollows.next
    | (intro (x : State); have hx : Follows s₀ x := (by dsimp only [x]; repeat' (first | assumption | intro _ (_ : State) (_ : Follows _ _) | apply runOp_follows | apply State.failPkt_follows | apply State.modPart_follows | apply State.setBulk_follows | apply State.semWrite_follows | apply State.done_follows | apply ResFollows.next | intro _ | split | simp only [Follows.keep] | simp +zetaDelta only [Follows.keep])))
    | lift_lets | (intro (x : Option _); clear_value x)
    | intro _ | split | simp only [Follows.keep] | simp +zetaDelta only [Follows.keep])

theorem execBulkUnbind_follows {s₀ : State} {s : State} (k : Nat) (h₀ : Follows s₀ s) :
    ResFollows s₀ (execBulkUnbind k s) := by
  unfold execBulkUnbind
  with_reducible repeat' (first
    | assumption | intro (_ : State) _ (_ : Follows _ _) | intro _ (_ : State) (_ : Follows _ _) | apply runWhen_follows | apply State.semDrop_follows | apply State.takeGrant_follows | apply State.modPart_follows | apply State.done_follows | apply ResFollows.next
    | (intro (x : State); have hx : Follows s₀ x := (by dsimp only [x]; repeat' (first | assumption | intro (_ : State) _ (_ : Follows _ _) | intro _ (_ : State) (_ : Follows _ _) | apply runWhen_follows | apply State.semDrop_follows | apply State.takeGrant_follows | apply State.modPart_follows | apply State.done_follows | apply ResFollows.next | intro _ | split | simp only [Follows.keep] | simp +zetaDelta only [Follows.keep])))
    | lift_lets | (intro (x : Option _); clear_value x)
    | intro _ | split | simp only [Follows.keep] | simp +zetaDelta only [Follows.keep])

theorem State.bulkDrop_follows {s₀ : State} {s : State} (p : Nat) (f : List Byte) (h₀ : Follows s₀ s) :
    Follows s₀ (State.bulkDrop s p f) := by
  unfold State.bulkDrop
  with_reducible repeat' (first
    | assumption | apply consume_follows | apply dropGone_follows | apply event_follows
    | intro _ | split)

theorem State.bulkEmpty_follows {s₀ : State} {s : State} (p : Nat) (j : Nat) (b : Bulk) (h₀ : Follows s₀ s) :
    Follows s₀ (State.bulkEmpty s p j b).2 := by
  unfold State.bulkEmpty
  with_reducible repeat' (first
    | assumption | apply setBulk_follows | apply semWait_follows | apply takeGrant_follows | apply Follows.pair ‹_ = (_, _)›
    | (intro (x : State); have hx : Follows s₀ x := (by dsimp only [x]; repeat' (first | assumption | apply setBulk_follows | apply semWait_follows | apply takeGrant_follows | apply Follows.pair ‹_ = (_, _)› | intro _ | split | dsimp -zeta only | simp only [Follows.keep] | simp +zetaDelta only [Follows.keep])))
    | lift_lets | (intro (x : Option _); clear_value x)
    | intro _ | split | dsimp -zeta only | simp only [Follows.keep] | simp +zetaDelta only [Follows.keep])

theorem State.bulkFill_follows {s₀ : State} {s : State} (p : Nat) (j : Nat) (b : Bulk) (f : List Byte) (h₀ : Follows s₀ s) :
    Follows s₀ (State.bulkFill s p j b f) := by
  unfold State.bulkFill
  with_reducible repeat' (first
    | assumption | apply bulkEmpty_follows | apply setBulk_follows | apply consume_follows | apply writeHearth_follows | apply semSignal_follows | apply bulkDrop_follows | apply Follows.pair ‹_ = (_, _)›
    | (intro (x : State); have hx : Follows s₀ x := (by dsimp only [x]; repeat' (first | assumption | apply bulkEmpty_follows | apply setBulk_follows | apply consume_follows | apply writeHearth_follows | apply semSignal_follows | apply bulkDrop_follows | apply Follows.pair ‹_ = (_, _)› | intro _ | split | dsimp -zeta only | simp only [Follows.keep] | simp +zetaDelta only [Follows.keep])))
    | lift_lets | (intro (x : Option _); clear_value x)
    | intro _ | split | dsimp -zeta only | simp only [Follows.keep] | simp +zetaDelta only [Follows.keep])

theorem State.bulkDrains_follows {s₀ : State} {s : State} (p : Nat) (d : Nat) (f : List Byte) (h₀ : Follows s₀ s) :
    Follows s₀ (State.bulkDrains s p d f).2 := by
  unfold State.bulkDrains
  with_reducible repeat' (first
    | assumption | apply bulkEmpty_follows | apply Follows.pair ‹_ = (_, _)›
    | (intro (x : State); have hx : Follows s₀ x := (by dsimp only [x]; repeat' (first | assumption | apply bulkEmpty_follows | apply Follows.pair ‹_ = (_, _)› | intro _ | split | dsimp -zeta only | simp only [Follows.keep] | simp +zetaDelta only [Follows.keep])))
    | lift_lets | (intro (x : Option _); clear_value x)
    | intro _ | split | dsimp -zeta only | simp only [Follows.keep] | simp +zetaDelta only [Follows.keep])

theorem execBulkFrameReceived_follows {s₀ : State} {s : State} (p : Nat) (frame : List Byte) (h₀ : Follows s₀ s) :
    ResFollows s₀ (execBulkFrameReceived p frame s) := by
  unfold execBulkFrameReceived
  with_reducible repeat' (first
    | assumption | apply State.bulkFill_follows | apply State.bulkDrop_follows | apply ResFollows.next
    | (intro (x : State); have hx : Follows s₀ x := (by dsimp only [x]; repeat' (first | assumption | apply State.bulkFill_follows | apply State.bulkDrop_follows | apply ResFollows.next | intro _ | split | simp only [Follows.keep] | simp +zetaDelta only [Follows.keep])))
    | lift_lets | (intro (x : Option _); clear_value x)
    | intro _ | split | simp only [Follows.keep] | simp +zetaDelta only [Follows.keep])

theorem State.acceptLap_follows {s₀ : State} {s : State} (p : Nat) (r : Nat) (j : LapJob) (h₀ : Follows s₀ s) :
    Follows s₀ (State.acceptLap s p r j) := by
  unfold State.acceptLap
  with_reducible repeat' (first
    | assumption | apply setLap_follows
    | (intro (x : State); have hx : Follows s₀ x := (by dsimp only [x]; repeat' (first | assumption | apply setLap_follows | intro _ | split | simp only [Follows.keep] | simp +zetaDelta only [Follows.keep])))
    | lift_lets | (intro (x : Option _); clear_value x)
    | intro _ | split | simp only [Follows.keep] | simp +zetaDelta only [Follows.keep])

theorem State.startLap_follows {s₀ : State} {s : State} (k : Nat) (x : Pkt) (rehome : Bool) (h₀ : Follows s₀ s) :
    Follows s₀ (State.startLap s k x rehome) := by
  unfold State.startLap
  with_reducible repeat' (first
    | assumption | apply failPkt_follows | apply load_follows | apply failEv_follows | apply badParam_follows | apply acceptLap_follows | apply Follows.pair ‹_ = (_, _)›
    | intro _ | split | dsimp -zeta only | simp only [Follows.keep] | simp +zetaDelta only [Follows.keep])

theorem execLapStart_follows {s₀ : State} {s : State} (k : Nat) (h₀ : Follows s₀ s) :
    ResFollows s₀ (execLapStart k s) := by
  unfold execLapStart
  with_reducible repeat' (first
    | assumption | intro _ (_ : State) (_ : Follows _ _) | apply runOp_follows | apply State.startLap_follows | apply ResFollows.next
    | intro _ | split)

theorem execRehome_follows {s₀ : State} {s : State} (k : Nat) (h₀ : Follows s₀ s) :
    ResFollows s₀ (execRehome k s) := by
  unfold execRehome
  with_reducible repeat' (first
    | assumption | intro _ (_ : State) (_ : Follows _ _) | apply runOp_follows | apply State.startLap_follows | apply ResFollows.next
    | intro _ | split)

theorem State.lapWaits_follows {s₀ : State} {s : State} (p : Nat) (r : Nat) (j : LapJob) (h₀ : Follows s₀ s) :
    Follows s₀ (State.lapWaits s p r j) := by
  unfold State.lapWaits
  with_reducible repeat' (first
    | assumption | intro (_ : State) _ (_ : Follows _ _) | apply each_follows | apply semWait_follows
    | (intro (x : State); have hx : Follows s₀ x := (by dsimp only [x]; repeat' (first | assumption | intro (_ : State) _ (_ : Follows _ _) | apply each_follows | apply semWait_follows | intro _ | split)))
    | lift_lets | (intro (x : Option _); clear_value x)
    | intro _ | split)

theorem State.openLap_follows {s₀ : State} {s : State} (p : Nat) (r : Nat) (j : LapJob) (h₀ : Follows s₀ s) :
    Follows s₀ (State.openLap s p r j) := by
  unfold State.openLap
  with_reducible repeat' (first
    | assumption | apply modLap_follows | apply forward_follows | apply semWrite_follows | apply setRf_follows | apply lapWaits_follows | apply phaseSettle_follows
    | (intro (x : State); have hx : Follows s₀ x := (by dsimp only [x]; repeat' (first | assumption | apply modLap_follows | apply forward_follows | apply semWrite_follows | apply setRf_follows | apply lapWaits_follows | apply phaseSettle_follows | intro _ | split | simp only [Follows.keep] | simp +zetaDelta only [Follows.keep])))
    | lift_lets | (intro (x : Option _); clear_value x)
    | intro _ | split | simp only [Follows.keep] | simp +zetaDelta only [Follows.keep])

theorem execLapOpen_follows {s₀ : State} {s : State} (p : Nat) (r : Nat) (h₀ : Follows s₀ s) :
    ResFollows s₀ (execLapOpen p r s) := by
  unfold execLapOpen
  with_reducible repeat' (first
    | assumption | apply State.badParam_follows | apply State.closeLap_follows | apply State.openLap_follows | apply ResFollows.next
    | (intro (x : State); have hx : Follows s₀ x := (by dsimp only [x]; repeat' (first | assumption | apply State.badParam_follows | apply State.closeLap_follows | apply State.openLap_follows | apply ResFollows.next | intro _ | split | simp only [Follows.keep] | simp +zetaDelta only [Follows.keep])))
    | lift_lets | (intro (x : Option _); clear_value x)
    | intro _ | split | simp only [Follows.keep] | simp +zetaDelta only [Follows.keep])

theorem State.freeRecv_follows {s₀ : State} {s : State} (p : Nat) (pl : Plan) (slot : Nat) (h₀ : Follows s₀ s) :
    Follows s₀ (State.freeRecv s p pl slot) := by
  unfold State.freeRecv
  with_reducible repeat' (first
    | assumption | apply semSignal_follows
    | intro _ | split)

theorem State.stage_follows {s₀ s t : State} (p r n : Nat) (b : BRec) (dst : Nat) (h : Follows s₀ s)
    (e : s.stage p r n b dst = some t) : Follows s₀ t := by
  unfold State.stage at e
  dsimp only at e
  split at e
  · rename_i q
    cases e
    exact Follows.ite (gradSeed_follows _ _ _ _ _ (Follows.pair q (load_follows _ _ _ h)))
      (writeHearth_follows _ _ _ (Follows.pair q (load_follows _ _ _ h)))
  · cases e

theorem State.depart_follows {s₀ : State} {s : State} (p : Nat) (r : Nat) (n : Nat) (j : LapJob) (b : BRec) (retain : Nat) (h₀ : Follows s₀ s) :
    Follows s₀ (State.depart s p r n j b retain) := by
  unfold State.depart
  with_reducible repeat' (first
    | assumption | apply modLap_follows | apply takeGrant_follows | apply semSignal_follows | apply sendBillet_follows | apply phaseSettle_follows
    | (intro (x : State); have hx : Follows s₀ x := (by dsimp only [x]; repeat' (first | assumption | apply modLap_follows | apply takeGrant_follows | apply semSignal_follows | apply sendBillet_follows | apply phaseSettle_follows | intro _ | split | simp only [Follows.keep] | simp +zetaDelta only [Follows.keep])))
    | lift_lets | (intro (x : Option _); clear_value x)
    | intro _ | split | simp only [Follows.keep] | simp +zetaDelta only [Follows.keep])

theorem State.dropUsed_follows {s₀ : State} {s : State} (p : Nat) (r : Nat) (n : Nat) (j : LapJob) (h₀ : Follows s₀ s) :
    Follows s₀ (State.dropUsed s p r n j) := by
  unfold State.dropUsed
  with_reducible repeat' (first
    | assumption | apply semDrop_follows
    | intro _ | split)

theorem State.departOne_follows {s₀ : State} {s : State} (p : Nat) (r : Nat) (n : Nat) (unused : Bool) (j : LapJob) (b : BRec) (h₀ : Follows s₀ s) :
    Follows s₀ (State.departOne s p r n unused j b) := by
  unfold State.departOne
  with_reducible repeat' (first
    | assumption | apply dropUsed_follows | apply depart_follows | refine stage_follows _ _ _ _ _ ?_ ‹_ = some _› | apply notePoison_follows | apply originateAbort_follows
    | (intro (x : State); have hx : Follows s₀ x := (by dsimp only [x]; repeat' (first | assumption | apply dropUsed_follows | apply depart_follows | refine stage_follows _ _ _ _ _ ?_ ‹_ = some _› | apply notePoison_follows | apply originateAbort_follows | intro _ | split | simp only [Follows.keep] | simp +zetaDelta only [Follows.keep])))
    | lift_lets | (intro (x : Option _); clear_value x)
    | intro _ | split | simp only [Follows.keep] | simp +zetaDelta only [Follows.keep])

theorem execBilletDepart_follows {s₀ : State} {s : State} (p : Nat) (r : Nat) (n : Nat) (unused : Bool) (h₀ : Follows s₀ s) :
    ResFollows s₀ (execBilletDepart p r n unused s) := by
  unfold execBilletDepart
  with_reducible repeat' (first
    | assumption | apply State.departOne_follows | apply ResFollows.next
    | intro _ | split | simp only [Follows.keep] | simp +zetaDelta only [Follows.keep])

theorem State.verdict_follows {s₀ : State} {s : State} (p : Nat) (f : List Byte) (h : BHdr) (code : Nat) (first : Nat) (span : Nat) (h₀ : Follows s₀ s) :
    Follows s₀ (State.verdict s p f h code first span) := by
  unfold State.verdict
  with_reducible repeat' (first
    | assumption | apply answer_follows
    | intro _ | split)

theorem State.staleBillet_follows {s₀ : State} {s : State} (p : Nat) (f : List Byte) (h : BHdr) (h₀ : Follows s₀ s) :
    Follows s₀ (State.staleBillet s p f h) := by
  unfold State.staleBillet
  with_reducible repeat' (first
    | assumption | apply bump_follows | apply verdict_follows
    | intro _ | split)

theorem State.duplicate_follows {s₀ : State} {s : State} (p : Nat) (f : List Byte) (h : BHdr) (h₀ : Follows s₀ s) :
    Follows s₀ (State.duplicate s p f h) := by
  unfold State.duplicate
  with_reducible repeat' (first
    | assumption | apply modLap_follows | apply bump_follows | apply event_follows | apply verdict_follows
    | (intro (x : State); have hx : Follows s₀ x := (by dsimp only [x]; repeat' (first | assumption | apply modLap_follows | apply bump_follows | apply event_follows | apply verdict_follows | intro _ | split | simp only [Follows.keep] | simp +zetaDelta only [Follows.keep])))
    | lift_lets | (intro (x : Option _); clear_value x)
    | intro _ | split | simp only [Follows.keep] | simp +zetaDelta only [Follows.keep])

theorem State.fullSettle_follows {s₀ : State} (p r m : Nat) {s : State} (n : Nat) (h : Follows s₀ s) :
    Follows s₀ (s.fullSettle p r m n) := by
  induction m generalizing s n with
  | zero => exact h
  | succ m ih =>
    unfold State.fullSettle
    with_reducible repeat' (first | assumption | apply ih | apply semSignal_follows | apply setLap_follows | lift_lets | intro _ | split)

theorem State.takeBillet_follows {s₀ : State} {s : State} (p : Nat) (r : Nat) (n : Nat) (b : BRec) (h₀ : Follows s₀ s) :
    Follows s₀ (State.takeBillet s p r n b) := by
  unfold State.takeBillet
  with_reducible repeat' (first
    | assumption | apply notePoison_follows | apply originateAbort_follows | apply gradAdd_follows | apply setLap_follows | apply takeGrant_follows | apply answer_follows | apply fullSettle_follows | apply Follows.elim
    | (intro (x : State); have hx : Follows s₀ x := (by dsimp only [x]; repeat' (first | assumption | apply notePoison_follows | apply originateAbort_follows | apply gradAdd_follows | apply setLap_follows | apply takeGrant_follows | apply answer_follows | apply fullSettle_follows | apply Follows.elim | intro _ | split | simp only [Follows.keep] | simp +zetaDelta only [Follows.keep])))
    | lift_lets | (intro (x : Option _); clear_value x)
    | intro _ | split | simp only [Follows.keep] | simp +zetaDelta only [Follows.keep])

theorem State.takeHome_follows {s₀ : State} {s : State} (p : Nat) (r : Nat) (n : Nat) (j : LapJob) (b : BRec) (h₀ : Follows s₀ s) :
    Follows s₀ (State.takeHome s p r n j b) := by
  unfold State.takeHome
  with_reducible repeat' (first
    | assumption | apply load_follows | apply originateAbort_follows | apply writeHearth_follows | apply setLap_follows | apply freeRecv_follows | apply answer_follows | apply phaseSettle_follows | apply Follows.pair ‹_ = (_, _)›
    | (intro (x : State); have hx : Follows s₀ x := (by dsimp only [x]; repeat' (first | assumption | apply load_follows | apply originateAbort_follows | apply writeHearth_follows | apply setLap_follows | apply freeRecv_follows | apply answer_follows | apply phaseSettle_follows | apply Follows.pair ‹_ = (_, _)› | intro _ | split | simp only [Follows.keep] | simp +zetaDelta only [Follows.keep])))
    | lift_lets | (intro (x : Option _); clear_value x)
    | intro _ | split | simp only [Follows.keep] | simp +zetaDelta only [Follows.keep])

theorem State.storeSegs_follows {s₀ : State} {s : State} (p : Nat) (r : Nat) (n : Nat) (f : List Byte) (h : BHdr) (h₀ : Follows s₀ s) :
    Follows s₀ (State.storeSegs s p r n f h) := by
  unfold State.storeSegs
  with_reducible repeat' (first
    | assumption | intro (_ : State) _ (_ : Follows _ _) | apply each_follows | apply setLap_follows | apply writeHearth_follows
    | (intro (x : State); have hx : Follows s₀ x := (by dsimp only [x]; repeat' (first | assumption | intro (_ : State) _ (_ : Follows _ _) | apply each_follows | apply setLap_follows | apply writeHearth_follows | intro _ | split | simp only [Follows.keep] | simp +zetaDelta only [Follows.keep])))
    | lift_lets | (intro (x : Option _); clear_value x)
    | intro _ | split | simp only [Follows.keep] | simp +zetaDelta only [Follows.keep])

theorem State.askAgain_follows {s₀ : State} {s : State} (p : Nat) (f : List Byte) (h : BHdr) (h₀ : Follows s₀ s) :
    Follows s₀ (State.askAgain s p f h) := by
  unfold State.askAgain
  with_reducible repeat' (first
    | assumption | intro (_ : State) _ (_ : Follows _ _) | apply each_follows | apply event_follows | apply bumpBy_follows | apply verdict_follows
    | (intro (x : State); have hx : Follows s₀ x := (by dsimp only [x]; repeat' (first | assumption | intro (_ : State) _ (_ : Follows _ _) | apply each_follows | apply event_follows | apply bumpBy_follows | apply verdict_follows | intro _ | split)))
    | lift_lets | (intro (x : Option _); clear_value x)
    | intro _ | split)

theorem State.recvSlot_follows {s₀ : State} {s : State} (p : Nat) (r : Nat) (n : Nat) (port : Nat) (vc : Nat) (pl : Plan) (h₀ : Follows s₀ s) :
    Follows s₀ (State.recvSlot s p r n port vc pl).2 := by
  unfold State.recvSlot
  with_reducible repeat' (first
    | assumption | apply releaseLanding_follows | apply setLap_follows | apply semWait_follows | apply takeGrant_follows | apply modLap_follows | apply Follows.pair ‹_ = (_, _)›
    | (intro (x : State); have hx : Follows s₀ x := (by dsimp only [x]; repeat' (first | assumption | apply releaseLanding_follows | apply setLap_follows | apply semWait_follows | apply takeGrant_follows | apply modLap_follows | apply Follows.pair ‹_ = (_, _)› | intro _ | split | dsimp -zeta only | simp only [Follows.keep] | simp +zetaDelta only [Follows.keep])))
    | lift_lets | (intro (x : Option _); clear_value x)
    | intro _ | split | dsimp -zeta only | simp only [Follows.keep] | simp +zetaDelta only [Follows.keep])

theorem State.intake_follows {s₀ : State} {s : State} (p : Nat) (port : Nat) (f : List Byte) (h : BHdr) (j : LapJob) (b : BRec) (h₀ : Follows s₀ s) :
    Follows s₀ (State.intake s p port f h j b) := by
  unfold State.intake
  with_reducible repeat' (first
    | assumption | apply discard_follows | apply verdict_follows | apply recvSlot_follows | apply consume_follows | apply modLap_follows | apply storeSegs_follows | apply askAgain_follows | apply takeHome_follows | apply takeBillet_follows | apply Follows.pair ‹_ = (_, _)›
    | (intro (x : State); have hx : Follows s₀ x := (by dsimp only [x]; repeat' (first | assumption | apply discard_follows | apply verdict_follows | apply recvSlot_follows | apply consume_follows | apply modLap_follows | apply storeSegs_follows | apply askAgain_follows | apply takeHome_follows | apply takeBillet_follows | apply Follows.pair ‹_ = (_, _)› | intro _ | split | dsimp -zeta only | simp only [Follows.keep] | simp +zetaDelta only [Follows.keep])))
    | lift_lets | (intro (x : Option _); clear_value x)
    | intro _ | split | dsimp -zeta only | simp only [Follows.keep] | simp +zetaDelta only [Follows.keep])

theorem State.returnHdr_follows {s₀ : State} {s : State} (p : Nat) (f : List Byte) (h : BHdr) (j : LapJob) (b : BRec) (h₀ : Follows s₀ s) :
    Follows s₀ (State.returnHdr s p f h j b) := by
  unfold State.returnHdr
  with_reducible repeat' (first
    | assumption | apply discard_follows | apply verdict_follows | apply duplicate_follows | apply setLap_follows
    | (intro (x : State); have hx : Follows s₀ x := (by dsimp only [x]; repeat' (first | assumption | apply discard_follows | apply verdict_follows | apply duplicate_follows | apply setLap_follows | intro _ | split | simp only [Follows.keep] | simp +zetaDelta only [Follows.keep])))
    | lift_lets | (intro (x : Option _); clear_value x)
    | intro _ | split | simp only [Follows.keep] | simp +zetaDelta only [Follows.keep])

theorem State.openBillet_follows {s₀ : State} {s : State} (p : Nat) (port : Nat) (f : List Byte) (h : BHdr) (j : LapJob) (b : BRec) (h₀ : Follows s₀ s) :
    Follows s₀ (State.openBillet s p port f h j b) := by
  unfold State.openBillet
  with_reducible repeat' (first
    | assumption | apply returnHdr_follows | apply intake_follows | apply discard_follows | apply duplicate_follows
    | (intro (x : State); have hx : Follows s₀ x := (by dsimp only [x]; repeat' (first | assumption | apply returnHdr_follows | apply intake_follows | apply discard_follows | apply duplicate_follows | intro _ | split | simp only [Follows.keep] | simp +zetaDelta only [Follows.keep])))
    | lift_lets | (intro (x : Option _); clear_value x)
    | intro _ | split | simp only [Follows.keep] | simp +zetaDelta only [Follows.keep])

theorem State.billetDrains_follows {s₀ : State} {s : State} (p : Nat) (port : Nat) (f : List Byte) (h₀ : Follows s₀ s) :
    Follows s₀ (State.billetDrains s p port f).2 := by
  unfold State.billetDrains
  with_reducible repeat' (first
    | assumption | apply recvSlot_follows | apply modLap_follows | apply Follows.pair ‹_ = (_, _)›
    | (intro (x : State); have hx : Follows s₀ x := (by dsimp only [x]; repeat' (first | assumption | apply recvSlot_follows | apply modLap_follows | apply Follows.pair ‹_ = (_, _)› | intro _ | split | dsimp -zeta only | simp only [Follows.keep] | simp +zetaDelta only [Follows.keep])))
    | lift_lets | (intro (x : Option _); clear_value x)
    | intro _ | split | dsimp -zeta only | simp only [Follows.keep] | simp +zetaDelta only [Follows.keep])

theorem State.billetFrame_follows {s₀ : State} {s : State} (p : Nat) (port : Nat) (f : List Byte) (h₀ : Follows s₀ s) :
    Follows s₀ (State.billetFrame s p port f) := by
  unfold State.billetFrame
  with_reducible repeat' (first
    | assumption | apply discard_follows | apply staleBillet_follows | apply verdict_follows | apply openBillet_follows | apply Follows.elim
    | (intro (x : State); have hx : Follows s₀ x := (by dsimp only [x]; repeat' (first | assumption | apply discard_follows | apply staleBillet_follows | apply verdict_follows | apply openBillet_follows | apply Follows.elim | intro _ | split | simp only [Follows.keep] | simp +zetaDelta only [Follows.keep])))
    | lift_lets | (intro (x : Option _); clear_value x)
    | intro _ | split | simp only [Follows.keep] | simp +zetaDelta only [Follows.keep])

theorem execBilletReceived_follows {s₀ : State} {s : State} (p : Nat) (frame : List Byte) (h₀ : Follows s₀ s) :
    ResFollows s₀ (execBilletReceived p frame s) := by
  unfold execBilletReceived
  with_reducible repeat' (first
    | assumption | apply State.billetFrame_follows | apply ResFollows.next
    | intro _ | split)

theorem execGradientAdmit_follows {s₀ : State} {s : State} (p : Nat) (r : Nat) (n : Nat) (h₀ : Follows s₀ s) :
    ResFollows s₀ (execGradientAdmit p r n s) := by
  unfold execGradientAdmit
  with_reducible repeat' (first
    | assumption | apply State.takeBillet_follows | apply ResFollows.next
    | (intro (x : State); have hx : Follows s₀ x := (by dsimp only [x]; repeat' (first | assumption | apply State.takeBillet_follows | apply ResFollows.next | intro _ | split | simp only [Follows.keep] | simp +zetaDelta only [Follows.keep])))
    | lift_lets | (intro (x : Option _); clear_value x)
    | intro _ | split | simp only [Follows.keep] | simp +zetaDelta only [Follows.keep])

theorem State.grantSlot_follows {s₀ : State} {s : State} (d : Nat) (p : Nat) (r : Nat) (j : LapJob) (h₀ : Follows s₀ s) :
    Follows s₀ (State.grantSlot s d p r j) := by
  unfold State.grantSlot
  with_reducible repeat' (first
    | assumption | apply semWait_follows | apply forward_follows | apply takeGrant_follows | apply modLap_follows | apply modLink_follows
    | (intro (x : State); have hx : Follows s₀ x := (by dsimp only [x]; repeat' (first | assumption | apply semWait_follows | apply forward_follows | apply takeGrant_follows | apply modLap_follows | apply modLink_follows | intro _ | split | simp only [Follows.keep] | simp +zetaDelta only [Follows.keep])))
    | lift_lets | (intro (x : Option _); clear_value x)
    | intro _ | split | simp only [Follows.keep] | simp +zetaDelta only [Follows.keep])

theorem execLandingSlotGrant_follows {s₀ : State} {s : State} (d : Nat) (p : Nat) (r : Nat) (h₀ : Follows s₀ s) :
    ResFollows s₀ (execLandingSlotGrant d p r s) := by
  unfold execLandingSlotGrant
  with_reducible repeat' (first
    | assumption | apply State.grantSlot_follows | apply ResFollows.next
    | intro _ | split | simp only [Follows.keep] | simp +zetaDelta only [Follows.keep])

theorem State.released_follows {s₀ : State} {s : State} (p : Nat) (r : Nat) (n : Nat) (st : Cust) (h₀ : Follows s₀ s) :
    Follows s₀ (State.released s p r n st) := by
  unfold State.released
  with_reducible repeat' (first
    | assumption | apply modLap_follows | apply phaseSettle_follows | apply Follows.elim
    | intro _ | split | simp only [Follows.keep] | simp +zetaDelta only [Follows.keep])

theorem State.resendSegs_follows {s₀ : State} {s : State} (p : Nat) (r : Nat) (n : Nat) (v : VBody) (h₀ : Follows s₀ s) :
    Follows s₀ (State.resendSegs s p r n v) := by
  unfold State.resendSegs
  with_reducible repeat' (first
    | assumption | intro (_ : State) _ (_ : Follows _ _) | intro _ (_ : State) (_ : Follows _ _) | apply poisonAbort_follows | apply setLap_follows | apply takeDetour_follows | apply sendBillet_follows | apply Follows.elim | apply Follows.foldl2
    | (intro (x : State); have hx : Follows s₀ x := (by dsimp only [x]; repeat' (first | assumption | intro (_ : State) _ (_ : Follows _ _) | intro _ (_ : State) (_ : Follows _ _) | apply poisonAbort_follows | apply setLap_follows | apply takeDetour_follows | apply sendBillet_follows | apply Follows.elim | apply Follows.foldl2 | intro _ | split | simp only [Follows.keep] | simp +zetaDelta only [Follows.keep])))
    | lift_lets | (intro (x : Option _); clear_value x)
    | intro _ | split | simp only [Follows.keep] | simp +zetaDelta only [Follows.keep])

theorem State.onVerdict_follows {s₀ : State} {s : State} (p : Nat) (n : Nat) (v : VBody) (h₀ : Follows s₀ s) :
    Follows s₀ (State.onVerdict s p n v) := by
  unfold State.onVerdict
  with_reducible repeat' (first
    | assumption | apply released_follows | apply resendSegs_follows | apply modLap_follows | apply event_follows | apply originateAbort_follows
    | (intro (x : State); have hx : Follows s₀ x := (by dsimp only [x]; repeat' (first | assumption | apply released_follows | apply resendSegs_follows | apply modLap_follows | apply event_follows | apply originateAbort_follows | intro _ | split | simp only [Follows.keep] | simp +zetaDelta only [Follows.keep])))
    | lift_lets | (intro (x : Option _); clear_value x)
    | intro _ | split | simp only [Follows.keep] | simp +zetaDelta only [Follows.keep])

theorem State.onTokenVerdict_follows {s₀ : State} {s : State} (p : Nat) (v : VBody) (h₀ : Follows s₀ s) :
    Follows s₀ (State.onTokenVerdict s p v) := by
  unfold State.onTokenVerdict
  with_reducible repeat' (first
    | assumption | apply modLap_follows
    | (intro (x : State); have hx : Follows s₀ x := (by dsimp only [x]; repeat' (first | assumption | apply modLap_follows | intro _ | split | simp only [Follows.keep] | simp +zetaDelta only [Follows.keep])))
    | lift_lets | (intro (x : Option _); clear_value x)
    | intro _ | split | simp only [Follows.keep] | simp +zetaDelta only [Follows.keep])

theorem execVerdictReceived_follows {s₀ : State} {s : State} (p : Nat) (frame : List Byte) (h₀ : Follows s₀ s) :
    ResFollows s₀ (execVerdictReceived p frame s) := by
  unfold execVerdictReceived
  with_reducible repeat' (first
    | assumption | apply State.consume_follows | apply State.onTokenVerdict_follows | apply State.onVerdict_follows | apply ResFollows.next
    | (intro (x : State); have hx : Follows s₀ x := (by dsimp only [x]; repeat' (first | assumption | apply State.consume_follows | apply State.onTokenVerdict_follows | apply State.onVerdict_follows | apply ResFollows.next | intro _ | split | simp only [Follows.keep] | simp +zetaDelta only [Follows.keep])))
    | lift_lets | (intro (x : Option _); clear_value x)
    | intro _ | split | simp only [Follows.keep] | simp +zetaDelta only [Follows.keep])

theorem execNotOpenResendTimer_follows {s₀ : State} {s : State} (p : Nat) (r : Nat) (tok : Bool) (n : Nat) (h₀ : Follows s₀ s) :
    ResFollows s₀ (execNotOpenResendTimer p r tok n s) := by
  unfold execNotOpenResendTimer
  with_reducible repeat' (first
    | assumption | apply State.setToken_follows | apply State.tokenFrame_follows | apply State.poisonAbort_follows | apply State.setLap_follows | apply State.sendBillet_follows | apply Follows.elim | apply ResFollows.next
    | (intro (x : State); have hx : Follows s₀ x := (by dsimp only [x]; repeat' (first | assumption | apply State.setToken_follows | apply State.tokenFrame_follows | apply State.poisonAbort_follows | apply State.setLap_follows | apply State.sendBillet_follows | apply Follows.elim | apply ResFollows.next | intro _ | split | simp only [Follows.keep] | simp +zetaDelta only [Follows.keep])))
    | lift_lets | (intro (x : Option _); clear_value x)
    | intro _ | split | simp only [Follows.keep] | simp +zetaDelta only [Follows.keep])

theorem execCustodyDeadlineExpiry_follows {s₀ : State} {s : State} (p : Nat) (r : Nat) (tok : Bool) (n : Nat) (h₀ : Follows s₀ s) :
    ResFollows s₀ (execCustodyDeadlineExpiry p r tok n s) := by
  unfold execCustodyDeadlineExpiry
  with_reducible repeat' (first
    | assumption | apply State.event_follows | apply State.tokenDetour_follows | apply State.takeDetour_follows | apply ResFollows.next
    | (intro (x : State); have hx : Follows s₀ x := (by dsimp only [x]; repeat' (first | assumption | apply State.event_follows | apply State.tokenDetour_follows | apply State.takeDetour_follows | apply ResFollows.next | intro _ | split | simp only [Follows.keep] | simp +zetaDelta only [Follows.keep])))
    | lift_lets | (intro (x : Option _); clear_value x)
    | intro _ | split | simp only [Follows.keep] | simp +zetaDelta only [Follows.keep])

theorem execHopRecoveryExpiry_follows {s₀ : State} {s : State} (p : Nat) (r : Nat) (tok : Bool) (n : Nat) (h₀ : Follows s₀ s) :
    ResFollows s₀ (execHopRecoveryExpiry p r tok n s) := by
  unfold execHopRecoveryExpiry
  with_reducible repeat' (first
    | assumption | apply State.setToken_follows | apply State.event_follows | apply State.originateAbort_follows | apply State.setLap_follows | apply ResFollows.next
    | (intro (x : State); have hx : Follows s₀ x := (by dsimp only [x]; repeat' (first | assumption | apply State.setToken_follows | apply State.event_follows | apply State.originateAbort_follows | apply State.setLap_follows | apply ResFollows.next | intro _ | split | simp only [Follows.keep] | simp +zetaDelta only [Follows.keep])))
    | lift_lets | (intro (x : Option _); clear_value x)
    | intro _ | split | simp only [Follows.keep] | simp +zetaDelta only [Follows.keep])

theorem execMemberPrepared_follows {s₀ : State} {s : State} (p : Nat) (r : Nat) (h₀ : Follows s₀ s) :
    ResFollows s₀ (execMemberPrepared p r s) := by
  unfold execMemberPrepared
  with_reducible repeat' (first
    | assumption | apply State.modLap_follows | apply State.sendPrepare_follows | apply ResFollows.next
    | intro _ | split | simp only [Follows.keep] | simp +zetaDelta only [Follows.keep])

theorem State.tokenAck_follows {s₀ : State} {s : State} (p : Nat) (f : List Byte) (v : VBody) (code : Nat) (h₀ : Follows s₀ s) :
    Follows s₀ (State.tokenAck s p f v code) := by
  unfold State.tokenAck
  with_reducible repeat' (first
    | assumption | apply answer_follows
    | intro _ | split)

theorem State.relayToken_follows {s₀ : State} {s : State} (p : Nat) (f : List Byte) (v : VBody) (x : Relay) (h₀ : Follows s₀ s) :
    Follows s₀ (State.relayToken s p f v x) := by
  unfold State.relayToken
  with_reducible repeat' (first
    | assumption | apply tokenAck_follows | apply tokenFrame_follows
    | (intro (x : State); have hx : Follows s₀ x := (by dsimp only [x]; repeat' (first | assumption | apply tokenAck_follows | apply tokenFrame_follows | intro _ | split | simp only [Follows.keep] | simp +zetaDelta only [Follows.keep])))
    | lift_lets | (intro (x : Option _); clear_value x)
    | intro _ | split | simp only [Follows.keep] | simp +zetaDelta only [Follows.keep])

theorem State.onToken_follows {s₀ : State} {s : State} (p : Nat) (code : Nat) (b : List Byte) (f : VBody → State → State) (h₀ : Follows s₀ s) (hf0 : ∀ x0 x1, Follows s₀ x1 → Follows s₀ (f x0 x1)) :
    Follows s₀ (State.onToken s p code b f) := by
  unfold State.onToken
  with_reducible repeat' (first
    | assumption | apply consume_follows | apply relayToken_follows | apply tokenAck_follows | apply hf0
    | (intro (x : State); have hx : Follows s₀ x := (by dsimp only [x]; repeat' (first | assumption | apply consume_follows | apply relayToken_follows | apply tokenAck_follows | apply hf0 | intro _ | split | simp only [Follows.keep] | simp +zetaDelta only [Follows.keep])))
    | lift_lets | (intro (x : Option _); clear_value x)
    | intro _ | split | simp only [Follows.keep] | simp +zetaDelta only [Follows.keep])

theorem execPrepareTokenReceived_follows {s₀ : State} {s : State} (p : Nat) (frame : List Byte) (h₀ : Follows s₀ s) :
    ResFollows s₀ (execPrepareTokenReceived p frame s) := by
  unfold execPrepareTokenReceived
  with_reducible repeat' (first
    | assumption | intro _ (_ : State) (_ : Follows _ _) | apply State.onToken_follows | apply State.tokenAck_follows | apply State.setLap_follows | apply State.sendToken_follows | apply State.sendPrepare_follows | apply ResFollows.next
    | (intro (x : State); have hx : Follows s₀ x := (by dsimp only [x]; repeat' (first | assumption | intro _ (_ : State) (_ : Follows _ _) | apply State.onToken_follows | apply State.tokenAck_follows | apply State.setLap_follows | apply State.sendToken_follows | apply State.sendPrepare_follows | apply ResFollows.next | intro _ | split | simp only [Follows.keep] | simp +zetaDelta only [Follows.keep])))
    | lift_lets | (intro (x : Option _); clear_value x)
    | intro _ | split | simp only [Follows.keep] | simp +zetaDelta only [Follows.keep])

theorem execCommitTokenReceived_follows {s₀ : State} {s : State} (p : Nat) (frame : List Byte) (h₀ : Follows s₀ s) :
    ResFollows s₀ (execCommitTokenReceived p frame s) := by
  unfold execCommitTokenReceived
  with_reducible repeat' (first
    | assumption | intro (_ : State) _ (_ : Follows _ _) | intro _ (_ : State) (_ : Follows _ _) | apply State.onToken_follows | apply State.tokenAck_follows | apply State.commitLap_follows | apply State.sendToken_follows | apply ResFollows.next
    | (intro (x : State); have hx : Follows s₀ x := (by dsimp only [x]; repeat' (first | assumption | intro (_ : State) _ (_ : Follows _ _) | intro _ (_ : State) (_ : Follows _ _) | apply State.onToken_follows | apply State.tokenAck_follows | apply State.commitLap_follows | apply State.sendToken_follows | apply ResFollows.next | intro _ | split | simp only [Follows.keep] | simp +zetaDelta only [Follows.keep])))
    | lift_lets | (intro (x : Option _); clear_value x)
    | intro _ | split | simp only [Follows.keep] | simp +zetaDelta only [Follows.keep])

theorem execAbortTokenReceived_follows {s₀ : State} {s : State} (p : Nat) (frame : List Byte) (h₀ : Follows s₀ s) :
    ResFollows s₀ (execAbortTokenReceived p frame s) := by
  unfold execAbortTokenReceived
  with_reducible repeat' (first
    | assumption | intro _ (_ : State) (_ : Follows _ _) | apply State.onToken_follows | apply State.tokenAck_follows | apply State.sendToken_follows | apply State.abortLap_follows | apply ResFollows.next
    | (intro (x : State); have hx : Follows s₀ x := (by dsimp only [x]; repeat' (first | assumption | intro _ (_ : State) (_ : Follows _ _) | apply State.onToken_follows | apply State.tokenAck_follows | apply State.sendToken_follows | apply State.abortLap_follows | apply ResFollows.next | intro _ | split | simp only [Follows.keep] | simp +zetaDelta only [Follows.keep])))
    | lift_lets | (intro (x : Option _); clear_value x)
    | intro _ | split | simp only [Follows.keep] | simp +zetaDelta only [Follows.keep])

theorem execCommitWindowExpiry_follows {s₀ : State} {s : State} (p : Nat) (r : Nat) (h₀ : Follows s₀ s) :
    ResFollows s₀ (execCommitWindowExpiry p r s) := by
  unfold execCommitWindowExpiry
  with_reducible repeat' (first
    | assumption | apply State.setLap_follows | apply State.originateAbort_follows | apply State.modLap_follows | apply State.event_follows | apply State.lapDone_follows | apply ResFollows.next
    | (intro (x : State); have hx : Follows s₀ x := (by dsimp only [x]; repeat' (first | assumption | apply State.setLap_follows | apply State.originateAbort_follows | apply State.modLap_follows | apply State.event_follows | apply State.lapDone_follows | apply ResFollows.next | intro _ | split | simp only [Follows.keep] | simp +zetaDelta only [Follows.keep])))
    | lift_lets | (intro (x : Option _); clear_value x)
    | intro _ | split | simp only [Follows.keep] | simp +zetaDelta only [Follows.keep])

theorem execRelayWindowExpiry_follows {s₀ : State} {s : State} (p : Nat) (r : Nat) (h₀ : Follows s₀ s) :
    ResFollows s₀ (execRelayWindowExpiry p r s) := by
  unfold execRelayWindowExpiry
  with_reducible repeat' (first
    | assumption | apply ResFollows.next
    | intro _ | split | simp only [Follows.keep] | simp +zetaDelta only [Follows.keep])

theorem execLapResolve_follows {s₀ : State} {s : State} (k : Nat) (h₀ : Follows s₀ s) :
    ResFollows s₀ (execLapResolve k s) := by
  unfold execLapResolve
  with_reducible repeat' (first
    | assumption | intro (_ : State) _ (_ : Follows _ _) | intro _ (_ : State) (_ : Follows _ _) | apply runOp_follows | apply State.failPkt_follows | apply State.badParam_follows | apply State.setLap_follows | apply State.commitLap_follows | apply State.abortLap_follows | apply ResFollows.next
    | (intro (x : State); have hx : Follows s₀ x := (by dsimp only [x]; repeat' (first | assumption | intro (_ : State) _ (_ : Follows _ _) | intro _ (_ : State) (_ : Follows _ _) | apply runOp_follows | apply State.failPkt_follows | apply State.badParam_follows | apply State.setLap_follows | apply State.commitLap_follows | apply State.abortLap_follows | apply ResFollows.next | intro _ | split | simp only [Follows.keep] | simp +zetaDelta only [Follows.keep])))
    | lift_lets | (intro (x : Option _); clear_value x)
    | intro _ | split | simp only [Follows.keep] | simp +zetaDelta only [Follows.keep])

theorem State.dbReject_follows {s₀ : State} {s : State} (p : Nat) (src : Nat) (h₀ : Follows s₀ s) :
    Follows s₀ (State.dbReject s p src) := by
  unfold State.dbReject
  with_reducible repeat' (first
    | assumption | apply bump_follows | apply event_follows
    | intro _ | split)

theorem State.sqBell_follows {s₀ : State} {s : State} (p : Nat) (i : Nat) (v : Nat) (pf : Bool) (h₀ : Follows s₀ s) :
    Follows s₀ (State.sqBell s p i v pf) := by
  unfold State.sqBell
  with_reducible repeat' (first
    | assumption | apply setSq_follows | apply dbReject_follows
    | (intro (x : State); have hx : Follows s₀ x := (by dsimp only [x]; repeat' (first | assumption | apply setSq_follows | apply dbReject_follows | intro _ | split | simp only [Follows.keep] | simp +zetaDelta only [Follows.keep])))
    | lift_lets | (intro (x : Option _); clear_value x)
    | intro _ | split | simp only [Follows.keep] | simp +zetaDelta only [Follows.keep])

theorem State.sqDoorbell_follows {s₀ : State} {s : State} (p : Nat) (i : Nat) (v : Nat) (pf : Bool) (h₀ : Follows s₀ s) :
    Follows s₀ (State.sqDoorbell s p i v pf) := by
  unfold State.sqDoorbell
  with_reducible repeat' (first
    | assumption | apply event_follows | apply sqBell_follows | apply modPart_follows
    | intro _ | split | simp only [Follows.keep] | simp +zetaDelta only [Follows.keep])

theorem State.cqDoorbell_follows {s₀ : State} {s : State} (p : Nat) (j : Nat) (v : Nat) (h₀ : Follows s₀ s) :
    Follows s₀ (State.cqDoorbell s p j v) := by
  unfold State.cqDoorbell
  with_reducible repeat' (first
    | assumption | apply event_follows | apply setCq_follows
    | (intro (x : State); have hx : Follows s₀ x := (by dsimp only [x]; repeat' (first | assumption | apply event_follows | apply setCq_follows | intro _ | split | simp only [Follows.keep] | simp +zetaDelta only [Follows.keep])))
    | lift_lets | (intro (x : Option _); clear_value x)
    | intro _ | split | simp only [Follows.keep] | simp +zetaDelta only [Follows.keep])

theorem State.keptBells_follows {s₀ : State} {s : State} (p : Nat) (h₀ : Follows s₀ s) :
    Follows s₀ (State.keptBells s p) := by
  unfold State.keptBells
  with_reducible repeat' (first
    | assumption | intro (_ : State) _ (_ : Follows _ _) | apply modPart_follows | apply each_follows | apply sqBell_follows
    | (intro (x : State); have hx : Follows s₀ x := (by dsimp only [x]; repeat' (first | assumption | intro (_ : State) _ (_ : Follows _ _) | apply modPart_follows | apply each_follows | apply sqBell_follows | intro _ | split | simp only [Follows.keep] | simp +zetaDelta only [Follows.keep])))
    | lift_lets | (intro (x : Option _); clear_value x)
    | intro _ | split | simp only [Follows.keep] | simp +zetaDelta only [Follows.keep])

theorem State.sqStop_follows {s₀ : State} {s : State} (p : Nat) (i : Nat) (h₀ : Follows s₀ s) :
    Follows s₀ (State.sqStop s p i) := by
  unfold State.sqStop
  with_reducible repeat' (first
    | assumption | apply setSq_follows
    | (intro (x : State); have hx : Follows s₀ x := (by dsimp only [x]; repeat' (first | assumption | apply setSq_follows | intro _ | split | simp only [Follows.keep] | simp +zetaDelta only [Follows.keep])))
    | lift_lets | (intro (x : Option _); clear_value x)
    | intro _ | split | simp only [Follows.keep] | simp +zetaDelta only [Follows.keep])

theorem State.sqRestart_follows {s₀ : State} {s : State} (p : Nat) (i : Nat) (h₀ : Follows s₀ s) :
    Follows s₀ (State.sqRestart s p i) := by
  unfold State.sqRestart
  with_reducible repeat' (first
    | assumption | apply setSq_follows
    | (intro (x : State); have hx : Follows s₀ x := (by dsimp only [x]; repeat' (first | assumption | apply setSq_follows | intro _ | split | simp only [Follows.keep] | simp +zetaDelta only [Follows.keep])))
    | lift_lets | (intro (x : Option _); clear_value x)
    | intro _ | split | simp only [Follows.keep] | simp +zetaDelta only [Follows.keep])

theorem execFetchBurstIssue_follows {s₀ : State} {s : State} (h₀ : Follows s₀ s) :
    ResFollows s₀ (execFetchBurstIssue s) := by
  unfold execFetchBurstIssue
  with_reducible repeat' (first
    | assumption | apply State.fetchIssue_follows | apply ResFollows.next
    | intro _ | split)

theorem execFetchBurstArrive_follows {s₀ : State} {s : State} (p : Nat) (i : Nat) (h₀ : Follows s₀ s) :
    ResFollows s₀ (execFetchBurstArrive p i s) := by
  unfold execFetchBurstArrive
  with_reducible repeat' (first
    | assumption | apply State.burstArrived_follows | apply ResFollows.next
    | intro _ | split | simp only [Follows.keep] | simp +zetaDelta only [Follows.keep])

theorem execPacketDispatch_follows {s₀ : State} {s : State} (p : Nat) (i : Nat) (h₀ : Follows s₀ s) :
    ResFollows s₀ (execPacketDispatch p i s) := by
  unfold execPacketDispatch
  with_reducible repeat' (first
    | assumption | apply State.dispatchNext_follows | apply ResFollows.next
    | intro _ | split)

theorem State.leaveTong_follows {s₀ : State} {s : State} (k : Nat) (x : Pkt) (h₀ : Follows s₀ s) :
    Follows s₀ (State.leaveTong s k x) := by
  unfold State.leaveTong
  with_reducible repeat' (first
    | assumption | apply stopTong_follows | apply idle_follows
    | intro _ | split | simp only [Follows.keep] | simp +zetaDelta only [Follows.keep])

theorem State.withdraw_follows {s₀ : State} {s : State} (k : Nat) (x : Pkt) (h₀ : Follows s₀ s) :
    Follows s₀ (State.withdraw s k x) := by
  unfold State.withdraw
  with_reducible repeat' (first
    | assumption | apply leaveTong_follows | apply orphan_follows | apply setSq_follows | apply setNvs_follows | refine stage_follows _ _ _ _ _ ?_ ‹_ = some _› | apply dropJob_follows | apply failEv_follows | apply settle_follows
    | (intro (x : State); have hx : Follows s₀ x := (by dsimp only [x]; repeat' (first | assumption | apply leaveTong_follows | apply orphan_follows | apply setSq_follows | apply setNvs_follows | refine stage_follows _ _ _ _ _ ?_ ‹_ = some _› | apply dropJob_follows | apply failEv_follows | apply settle_follows | intro _ | exact ⟨rfl, rfl, rfl⟩ | exact Nvs.setJob_keeps _ _ _ | (refine ⟨?_, ?_, ?_⟩ <;> repeat' (first | rfl | split)) | split | simp only [Follows.keep] | simp +zetaDelta only [Follows.keep])))
    | lift_lets | (intro (x : Option _); clear_value x)
    | intro _ | exact ⟨rfl, rfl, rfl⟩ | exact Nvs.setJob_keeps _ _ _ | (refine ⟨?_, ?_, ?_⟩ <;> repeat' (first | rfl | split)) | split | simp only [Follows.keep] | simp +zetaDelta only [Follows.keep])

theorem State.stopPkt_follows {s₀ : State} {s : State} (k : Nat) (x : Pkt) (h₀ : Follows s₀ s) :
    Follows s₀ (State.stopPkt s k x) := by
  unfold State.stopPkt
  with_reducible repeat' (first
    | assumption | apply failTong_follows | apply stopWork_follows | apply orphan_follows | apply failEv_follows
    | intro _ | split | simp only [Follows.keep] | simp +zetaDelta only [Follows.keep])

theorem State.pktTimeout_follows {s₀ : State} {s : State} (k : Nat) (x : Pkt) (h₀ : Follows s₀ s) :
    Follows s₀ (State.pktTimeout s k x) := by
  unfold State.pktTimeout
  with_reducible repeat' (first
    | assumption | apply bump_follows | apply event_follows | apply withdraw_follows | apply stopPkt_follows | apply setPkt_follows
    | (intro (x : State); have hx : Follows s₀ x := (by dsimp only [x]; repeat' (first | assumption | apply bump_follows | apply event_follows | apply withdraw_follows | apply stopPkt_follows | apply setPkt_follows | intro _ | split | simp only [Follows.keep] | simp +zetaDelta only [Follows.keep])))
    | lift_lets | (intro (x : Option _); clear_value x)
    | intro _ | split | simp only [Follows.keep] | simp +zetaDelta only [Follows.keep])

theorem execPacketTimeout_follows {s₀ : State} {s : State} (k : Nat) (h₀ : Follows s₀ s) :
    ResFollows s₀ (execPacketTimeout k s) := by
  unfold execPacketTimeout
  with_reducible repeat' (first
    | assumption | intro _ (_ : State) (_ : Follows _ _) | apply State.withPkt_follows | apply State.pktTimeout_follows | apply ResFollows.next
    | intro _ | split | simp only [Follows.keep] | simp +zetaDelta only [Follows.keep])

theorem execSemWaitTimeout_follows {s₀ : State} {s : State} (p : Nat) (i : Nat) (j : Nat) (h₀ : Follows s₀ s) :
    ResFollows s₀ (execSemWaitTimeout p i j s) := by
  unfold execSemWaitTimeout
  with_reducible repeat' (first
    | assumption | intro _ (_ : State) (_ : Follows _ _) | apply State.tongTimeout_follows | apply State.withPkt_follows | apply State.event_follows | apply State.pktTimeout_follows | apply ResFollows.next
    | intro _ | split | simp only [Follows.keep] | simp +zetaDelta only [Follows.keep])

theorem execCqInterruptTimer_follows {s₀ : State} {s : State} (p : Nat) (j : Nat) (h₀ : Follows s₀ s) :
    ResFollows s₀ (execCqInterruptTimer p j s) := by
  unfold execCqInterruptTimer
  with_reducible repeat' (first
    | assumption | apply State.cqMessage_follows | apply ResFollows.next
    | intro _ | split)

theorem State.proxyBell_follows {s₀ : State} {s : State} (p : Nat) (lo : Nat) (hi : Nat) (h₀ : Follows s₀ s) :
    Follows s₀ (State.proxyBell s p lo hi) := by
  unfold State.proxyBell
  with_reducible repeat' (first
    | assumption | apply event_follows | apply sendFrame_follows
    | intro _ | split)

theorem State.mgmt_follows {s₀ : State} {s : State} (p : Nat) (b : List Byte) (h₀ : Follows s₀ s) :
    Follows s₀ (State.mgmt s p b) := by
  unfold State.mgmt
  with_reducible repeat' (first
    | assumption | apply event_follows | apply cqDoorbell_follows | apply sqDoorbell_follows | apply enq_follows | apply msg_follows
    | (intro (x : State); have hx : Follows s₀ x := (by dsimp only [x]; repeat' (first | assumption | apply event_follows | apply cqDoorbell_follows | apply sqDoorbell_follows | apply enq_follows | apply msg_follows | intro _ | split)))
    | lift_lets | (intro (x : Option _); clear_value x)
    | intro _ | split)

theorem execManagementFrameReceived_follows {s₀ : State} {s : State} (p : Nat) (frame : List Byte) (h₀ : Follows s₀ s) :
    ResFollows s₀ (execManagementFrameReceived p frame s) := by
  unfold execManagementFrameReceived
  with_reducible repeat' (first
    | assumption | intro (_ : State) (_ : Follows _ _) | apply onFrame_follows | apply State.mgmt_follows | apply State.event_follows | apply ResFollows.next
    | intro _ | split)

theorem execNop_follows {s₀ : State} {s : State} (k : Nat) (h₀ : Follows s₀ s) :
    ResFollows s₀ (execNop k s) := by
  unfold execNop
  with_reducible repeat' (first
    | assumption | intro _ (_ : State) (_ : Follows _ _) | apply runOp_follows | apply State.done_follows | apply ResFollows.next
    | intro _ | split)

theorem execSetMode_follows {s₀ : State} {s : State} (k : Nat) (h₀ : Follows s₀ s) :
    ResFollows s₀ (execSetMode k s) := by
  unfold execSetMode
  with_reducible repeat' (first
    | assumption | intro (_ : State) _ (_ : Follows _ _) | intro _ (_ : State) (_ : Follows _ _) | apply runWhen_follows | apply State.done_follows | apply State.setPart_follows | apply State.dropUnopened_follows | apply State.modeSettle_follows | apply State.failPkt_follows | apply ResFollows.next
    | (intro (x : State); have hx : Follows s₀ x := (by dsimp only [x]; repeat' (first | assumption | intro (_ : State) _ (_ : Follows _ _) | intro _ (_ : State) (_ : Follows _ _) | apply runWhen_follows | apply State.done_follows | apply State.setPart_follows | apply State.dropUnopened_follows | apply State.modeSettle_follows | apply State.failPkt_follows | apply ResFollows.next | intro _ | split | simp only [Follows.keep] | simp +zetaDelta only [Follows.keep])))
    | lift_lets | (intro (x : Option _); clear_value x)
    | intro _ | split | simp only [Follows.keep] | simp +zetaDelta only [Follows.keep])

theorem execIdentify_follows {s₀ : State} {s : State} (k : Nat) (h₀ : Follows s₀ s) :
    ResFollows s₀ (execIdentify k s) := by
  unfold execIdentify
  with_reducible repeat' (first
    | assumption | intro _ (_ : State) (_ : Follows _ _) | apply runOp_follows | apply State.done_follows | apply ResFollows.next
    | intro _ | split)

theorem execSemSet_follows {s₀ : State} {s : State} (k : Nat) (h₀ : Follows s₀ s) :
    ResFollows s₀ (execSemSet k s) := by
  unfold execSemSet
  with_reducible repeat' (first
    | assumption | intro _ (_ : State) (_ : Follows _ _) | apply runOp_follows | apply State.semWrite_follows | apply State.done_follows | apply State.failPkt_follows | apply ResFollows.next
    | (intro (x : State); have hx : Follows s₀ x := (by dsimp only [x]; repeat' (first | assumption | intro _ (_ : State) (_ : Follows _ _) | apply runOp_follows | apply State.semWrite_follows | apply State.done_follows | apply State.failPkt_follows | apply ResFollows.next | intro _ | split)))
    | lift_lets | (intro (x : Option _); clear_value x)
    | intro _ | split)

theorem execSemSignal_follows {s₀ : State} {s : State} (k : Nat) (h₀ : Follows s₀ s) :
    ResFollows s₀ (execSemSignal k s) := by
  unfold execSemSignal
  with_reducible repeat' (first
    | assumption | intro _ (_ : State) (_ : Follows _ _) | apply runOp_follows | apply State.semSignal_follows | apply State.done_follows | apply ResFollows.next
    | (intro (x : State); have hx : Follows s₀ x := (by dsimp only [x]; repeat' (first | assumption | intro _ (_ : State) (_ : Follows _ _) | apply runOp_follows | apply State.semSignal_follows | apply State.done_follows | apply ResFollows.next | intro _ | split)))
    | lift_lets | (intro (x : Option _); clear_value x)
    | intro _ | split)

theorem execBarrierSet_follows {s₀ : State} {s : State} (k : Nat) (h₀ : Follows s₀ s) :
    ResFollows s₀ (execBarrierSet k s) := by
  unfold execBarrierSet
  with_reducible repeat' (first
    | assumption | intro _ (_ : State) (_ : Follows _ _) | apply runOp_follows | apply State.failPkt_follows | apply State.setReg_follows | apply State.done_follows | apply ResFollows.next
    | (intro (x : State); have hx : Follows s₀ x := (by dsimp only [x]; repeat' (first | assumption | intro _ (_ : State) (_ : Follows _ _) | apply runOp_follows | apply State.failPkt_follows | apply State.setReg_follows | apply State.done_follows | apply ResFollows.next | intro _ | split)))
    | lift_lets | (intro (x : Option _); clear_value x)
    | intro _ | split)

theorem execBarrierArrive_follows {s₀ : State} {s : State} (k : Nat) (h₀ : Follows s₀ s) :
    ResFollows s₀ (execBarrierArrive k s) := by
  unfold execBarrierArrive
  with_reducible repeat' (first
    | assumption | intro _ (_ : State) (_ : Follows _ _) | apply runOp_follows | apply State.arrive_follows | apply State.done_follows | apply ResFollows.next
    | (intro (x : State); have hx : Follows s₀ x := (by dsimp only [x]; repeat' (first | assumption | intro _ (_ : State) (_ : Follows _ _) | apply runOp_follows | apply State.arrive_follows | apply State.done_follows | apply ResFollows.next | intro _ | split)))
    | lift_lets | (intro (x : Option _); clear_value x)
    | intro _ | split)

theorem State.sendAnt_follows {s₀ : State} {s : State} (d : Nat) (body : List Byte) (h₀ : Follows s₀ s) :
    Follows s₀ (State.sendAnt s d body) := by
  unfold State.sendAnt
  with_reducible repeat' (first
    | assumption | apply egressPut_follows
    | (intro (x : State); have hx : Follows s₀ x := (by dsimp only [x]; repeat' (first | assumption | apply egressPut_follows | intro _ | split | simp only [Follows.keep] | simp +zetaDelta only [Follows.keep])))
    | lift_lets | (intro (x : Option _); clear_value x)
    | intro _ | split | simp only [Follows.keep] | simp +zetaDelta only [Follows.keep])

theorem execHelloSendTimer_follows {s₀ : State} {s : State} (d : Nat) (h₀ : Follows s₀ s) :
    ResFollows s₀ (execHelloSendTimer d s) := by
  unfold execHelloSendTimer
  with_reducible repeat' (first
    | assumption | apply State.sendAnt_follows | apply State.modLink_follows | apply State.hello_follows | apply ResFollows.next
    | intro _ | split | simp only [Follows.keep] | simp +zetaDelta only [Follows.keep])

theorem State.sendAssign_follows {s₀ : State} {s : State} (d : Nat) (h₀ : Follows s₀ s) :
    Follows s₀ (State.sendAssign s d) := by
  unfold State.sendAssign
  with_reducible repeat' (first
    | assumption | apply sendAnt_follows
    | intro _ | split | simp only [Follows.keep] | simp +zetaDelta only [Follows.keep])

theorem State.fencePort_follows {s₀ : State} {s : State} (d : Nat) (h₀ : Follows s₀ s) :
    Follows s₀ (State.fencePort s d) := by
  unfold State.fencePort
  with_reducible repeat' (first
    | assumption | apply setRf_follows | apply linkDown_follows | apply modLink_follows
    | (intro (x : State); have hx : Follows s₀ x := (by dsimp only [x]; repeat' (first | assumption | apply setRf_follows | apply linkDown_follows | apply modLink_follows | intro _ | split | simp only [Follows.keep] | simp +zetaDelta only [Follows.keep])))
    | lift_lets | (intro (x : Option _); clear_value x)
    | intro _ | split | simp only [Follows.keep] | simp +zetaDelta only [Follows.keep])

theorem State.hello_follows {s₀ : State} {s : State} (d : Nat) (b : List Byte) (h₀ : Follows s₀ s) :
    Follows s₀ (State.hello s d b) := by
  unfold State.hello
  with_reducible repeat' (first
    | assumption | apply setRf_follows | apply setReg_follows | apply portEvent_follows | apply fencePort_follows | apply sendAssign_follows
    | (intro (x : State); have hx : Follows s₀ x := (by dsimp only [x]; repeat' (first | assumption | apply setRf_follows | apply setReg_follows | apply portEvent_follows | apply fencePort_follows | apply sendAssign_follows | intro _ | split)))
    | lift_lets | (intro (x : Option _); clear_value x)
    | intro _ | split)

theorem State.takeAnt_follows {s₀ : State} {s : State} (d : Nat) (b : List Byte) (kind : Nat) (f : State → State) (h₀ : Follows s₀ s) (hf : ∀ x0, Follows s₀ x0 → Follows s₀ (f x0)) :
    Follows s₀ (State.takeAnt s d b kind f) := by
  unfold State.takeAnt
  with_reducible repeat' (first
    | assumption | apply freeFlits_follows | apply hf
    | intro _ | split | simp only [Follows.keep] | simp +zetaDelta only [Follows.keep])

theorem execHelloReceived_follows {s₀ : State} {s : State} (d : Nat) (frame : List Byte) (h₀ : Follows s₀ s) :
    ResFollows s₀ (execHelloReceived d frame s) := by
  unfold execHelloReceived
  with_reducible repeat' (first
    | assumption | intro (_ : State) (_ : Follows _ _) | apply State.takeAnt_follows | apply State.hello_follows | apply ResFollows.next
    | intro _ | split)

theorem execNeighbourLostTimer_follows {s₀ : State} {s : State} (d : Nat) (h₀ : Follows s₀ s) :
    ResFollows s₀ (execNeighbourLostTimer d s) := by
  unfold execNeighbourLostTimer
  with_reducible repeat' (first
    | assumption | apply State.loseNeighbour_follows | apply ResFollows.next
    | intro _ | split)

theorem State.takeAddress_follows {s₀ : State} {s : State} (gen : Nat) (base : Nat) (origin : Nat) (seed : Bool) (ingress : Nat) (h₀ : Follows s₀ s) :
    Follows s₀ (State.takeAddress s gen base origin seed ingress) := by
  unfold State.takeAddress
  with_reducible repeat' (first
    | assumption | intro (_ : State) _ (_ : Follows _ _) | intro _ (_ : State) (_ : Follows _ _) | apply each_follows | apply abortAll_follows | apply noticeAll_follows | apply setReg_follows | apply setRf_follows | apply event_follows | apply sendAssign_follows
    | (intro (x : State); have hx : Follows s₀ x := (by dsimp only [x]; repeat' (first | assumption | intro (_ : State) _ (_ : Follows _ _) | intro _ (_ : State) (_ : Follows _ _) | apply each_follows | apply abortAll_follows | apply noticeAll_follows | apply setReg_follows | apply setRf_follows | apply event_follows | apply sendAssign_follows | intro _ | split | simp only [Follows.keep] | simp +zetaDelta only [Follows.keep])))
    | lift_lets | (intro (x : Option _); clear_value x)
    | intro _ | split | simp only [Follows.keep] | simp +zetaDelta only [Follows.keep])

theorem State.assign_follows {s₀ : State} {s : State} (d : Nat) (b : List Byte) (h₀ : Follows s₀ s) :
    Follows s₀ (State.assign s d b) := by
  unfold State.assign
  with_reducible repeat' (first
    | assumption | apply takeAddress_follows | apply portEvent_follows
    | (intro (x : State); have hx : Follows s₀ x := (by dsimp only [x]; repeat' (first | assumption | apply takeAddress_follows | apply portEvent_follows | intro _ | split)))
    | lift_lets | (intro (x : Option _); clear_value x)
    | intro _ | split)

theorem execAssignReceived_follows {s₀ : State} {s : State} (d : Nat) (frame : List Byte) (h₀ : Follows s₀ s) :
    ResFollows s₀ (execAssignReceived d frame s) := by
  unfold execAssignReceived
  with_reducible repeat' (first
    | assumption | intro (_ : State) (_ : Follows _ _) | apply State.takeAnt_follows | apply State.assign_follows | apply ResFollows.next
    | intro _ | split)

theorem execAddressAssign_follows {s₀ : State} {s : State} (k : Nat) (h₀ : Follows s₀ s) :
    ResFollows s₀ (execAddressAssign k s) := by
  unfold execAddressAssign
  with_reducible repeat' (first
    | assumption | intro _ (_ : State) (_ : Follows _ _) | apply runOp_follows | apply State.takeAddress_follows | apply State.done_follows | apply State.badParam_follows | apply ResFollows.next
    | (intro (x : State); have hx : Follows s₀ x := (by dsimp only [x]; repeat' (first | assumption | intro _ (_ : State) (_ : Follows _ _) | apply runOp_follows | apply State.takeAddress_follows | apply State.done_follows | apply State.badParam_follows | apply ResFollows.next | intro _ | split)))
    | lift_lets | (intro (x : Option _); clear_value x)
    | intro _ | split)

theorem execLinkConfig_follows {s₀ : State} {s : State} (k : Nat) (h₀ : Follows s₀ s) :
    ResFollows s₀ (execLinkConfig k s) := by
  unfold execLinkConfig
  with_reducible repeat' (first
    | assumption | intro _ (_ : State) (_ : Follows _ _) | apply runOp_follows | apply State.setReg_follows | apply State.done_follows | apply ResFollows.next
    | intro _ | split)

theorem State.dropIngress_follows {s₀ : State} {s : State} (d : Nat) (v : Nat) (n : Nat) (ctr : Nat) (code : Nat) (h₀ : Follows s₀ s) :
    Follows s₀ (State.dropIngress s d v n ctr code) := by
  unfold State.dropIngress
  with_reducible repeat' (first
    | assumption | apply bump_follows | apply portEvent_follows | apply freeFlits_follows | apply releaseLanding_follows
    | intro _ | split)

theorem State.antIngress_follows {s₀ : State} {s : State} (d : Nat) (v : Nat) (n : Nat) (b : List Byte) (h₀ : Follows s₀ s) :
    Follows s₀ (State.antIngress s d v n b) := by
  unfold State.antIngress
  with_reducible repeat' (first
    | assumption | apply bump_follows | apply freeFlits_follows
    | intro _ | split | simp only [Follows.keep] | simp +zetaDelta only [Follows.keep])

theorem State.routeIngress_follows {s₀ : State} {s : State} (d : Nat) (v : Nat) (n : Nat) (b : List Byte) (h₀ : Follows s₀ s) :
    Follows s₀ (State.routeIngress s d v n b) := by
  unfold State.routeIngress
  with_reducible repeat' (first
    | assumption | apply deliver_follows | apply dropIngress_follows | apply forward_follows
    | (intro (x : State); have hx : Follows s₀ x := (by dsimp only [x]; repeat' (first | assumption | apply deliver_follows | apply dropIngress_follows | apply forward_follows | intro _ | split | simp only [Follows.keep] | simp +zetaDelta only [Follows.keep])))
    | lift_lets | (intro (x : Option _); clear_value x)
    | intro _ | split | simp only [Follows.keep] | simp +zetaDelta only [Follows.keep])

theorem State.ingress_follows {s₀ : State} {s : State} (d : Nat) (v : Nat) (n : Nat) (b : List Byte) (h₀ : Follows s₀ s) :
    Follows s₀ (State.ingress s d v n b) := by
  unfold State.ingress
  with_reducible repeat' (first
    | assumption | apply dropIngress_follows | apply antIngress_follows | apply freeFlits_follows | apply releaseLanding_follows | apply routeIngress_follows
    | (intro (x : State); have hx : Follows s₀ x := (by dsimp only [x]; repeat' (first | assumption | apply dropIngress_follows | apply antIngress_follows | apply freeFlits_follows | apply releaseLanding_follows | apply routeIngress_follows | intro _ | split)))
    | lift_lets | (intro (x : Option _); clear_value x)
    | intro _ | split)

theorem State.drains_follows {s₀ : State} {s : State} (d : Nat) (v : Nat) (p : Nat) (b : List Byte) (h₀ : Follows s₀ s) :
    Follows s₀ (State.drains s d v p b).2 := by
  unfold State.drains
  with_reducible repeat' (first
    | assumption | apply billetDrains_follows | apply bulkDrains_follows | apply Follows.pair ‹_ = (_, _)›
    | intro _ | split | dsimp -zeta only | simp only [Follows.keep] | simp +zetaDelta only [Follows.keep])

theorem State.dropRest_follows {s₀ : State} {s : State} (d : Nat) (v : Nat) (x : RxFrame) (h₀ : Follows s₀ s) :
    Follows s₀ (State.dropRest s d v x) := by
  unfold State.dropRest
  with_reducible repeat' (first
    | assumption | apply setRxFrame_follows
    | intro _ | split | simp only [Follows.keep] | simp +zetaDelta only [Follows.keep])

theorem State.routePart_follows {s₀ : State} {s : State} (d : Nat) (v : Nat) (x : RxFrame) (h₀ : Follows s₀ s) :
    Follows s₀ (State.routePart s d v x) := by
  unfold State.routePart
  with_reducible repeat' (first
    | assumption | apply deliver_follows | apply dropIngress_follows | apply dropRest_follows | apply dropFrame_follows | apply releaseLanding_follows | apply drains_follows | apply setRxFrame_follows | apply freeFlits_follows | apply forward_follows | apply modLink_follows | apply Follows.pair ‹_ = (_, _)›
    | (intro (x : State); have hx : Follows s₀ x := (by dsimp only [x]; repeat' (first | assumption | apply deliver_follows | apply dropIngress_follows | apply dropRest_follows | apply dropFrame_follows | apply releaseLanding_follows | apply drains_follows | apply setRxFrame_follows | apply freeFlits_follows | apply forward_follows | apply modLink_follows | apply Follows.pair ‹_ = (_, _)› | intro _ | split | dsimp -zeta only | simp only [Follows.keep] | simp +zetaDelta only [Follows.keep])))
    | lift_lets | (intro (x : Option _); clear_value x)
    | intro _ | split | dsimp -zeta only | simp only [Follows.keep] | simp +zetaDelta only [Follows.keep])

theorem State.ingressPart_follows {s₀ : State} {s : State} (d : Nat) (v : Nat) (x : RxFrame) (h₀ : Follows s₀ s) :
    Follows s₀ (State.ingressPart s d v x) := by
  unfold State.ingressPart
  with_reducible repeat' (first
    | assumption | apply dropIngress_follows | apply dropRest_follows | apply freeFlits_follows | apply releaseLanding_follows | apply routePart_follows
    | (intro (x : State); have hx : Follows s₀ x := (by dsimp only [x]; repeat' (first | assumption | apply dropIngress_follows | apply dropRest_follows | apply freeFlits_follows | apply releaseLanding_follows | apply routePart_follows | intro _ | split | simp only [Follows.keep] | simp +zetaDelta only [Follows.keep])))
    | lift_lets | (intro (x : Option _); clear_value x)
    | intro _ | split | simp only [Follows.keep] | simp +zetaDelta only [Follows.keep])

theorem execFrameIngress_follows {s₀ : State} {s : State} (d : Nat) (v : Nat) (h₀ : Follows s₀ s) :
    ResFollows s₀ (execFrameIngress d v s) := by
  unfold execFrameIngress
  with_reducible repeat' (first
    | assumption | apply State.modLink_follows | apply State.ingress_follows | apply State.ingressPart_follows | apply ResFollows.next
    | intro _ | split | simp only [Follows.keep] | simp +zetaDelta only [Follows.keep])

theorem State.stagePkt_follows {s₀ : State} {s : State} (config : Bool) (k : Nat) (b : List Byte) (h₀ : Follows s₀ s) :
    Follows s₀ (State.stagePkt s config k b) := by
  unfold State.stagePkt
  with_reducible repeat' (first
    | assumption | apply failPkt_follows | apply setNvs_follows | apply stageSettle_follows | apply enq_follows | refine stage_follows _ _ _ _ _ ?_ ‹_ = some _›
    | (intro (x : State); have hx : Follows s₀ x := (by dsimp only [x]; repeat' (first | assumption | apply failPkt_follows | apply setNvs_follows | apply stageSettle_follows | apply enq_follows | refine stage_follows _ _ _ _ _ ?_ ‹_ = some _› | intro _ | exact ⟨rfl, rfl, rfl⟩ | (refine ⟨?_, ?_, ?_⟩ <;> repeat' (first | rfl | split)) | split | simp only [Follows.keep] | simp +zetaDelta only [Follows.keep])))
    | lift_lets | (intro (x : Option _); clear_value x)
    | intro _ | exact ⟨rfl, rfl, rfl⟩ | (refine ⟨?_, ?_, ?_⟩ <;> repeat' (first | rfl | split)) | split | simp only [Follows.keep] | simp +zetaDelta only [Follows.keep])

theorem execFwStage_follows {s₀ : State} {s : State} (k : Nat) (h₀ : Follows s₀ s) :
    ResFollows s₀ (execFwStage k s) := by
  unfold execFwStage
  with_reducible repeat' (first
    | assumption | intro _ (_ : State) (_ : Follows _ _) | apply runOp_follows | apply State.stagePkt_follows | apply ResFollows.next
    | intro _ | split)

theorem execFwActivate_follows {s₀ : State} {s : State} (k : Nat) (h₀ : Follows s₀ s) :
    ResFollows s₀ (execFwActivate k s) := by
  unfold execFwActivate
  with_reducible repeat' (first
    | assumption | intro _ (_ : State) (_ : Follows _ _) | apply runOp_follows | apply State.failPkt_follows | apply State.done_follows | apply State.hostJob_follows | apply ResFollows.next
    | (intro (x : State); have hx : Follows s₀ x := (by dsimp only [x]; repeat' (first | assumption | intro _ (_ : State) (_ : Follows _ _) | apply runOp_follows | apply State.failPkt_follows | apply State.done_follows | apply State.hostJob_follows | apply ResFollows.next | intro _ | split | simp only [Follows.keep] | simp +zetaDelta only [Follows.keep])))
    | lift_lets | (intro (x : Option _); clear_value x)
    | intro _ | split | simp only [Follows.keep] | simp +zetaDelta only [Follows.keep])

theorem execConfigWrite_follows {s₀ : State} {s : State} (k : Nat) (h₀ : Follows s₀ s) :
    ResFollows s₀ (execConfigWrite k s) := by
  unfold execConfigWrite
  with_reducible repeat' (first
    | assumption | intro _ (_ : State) (_ : Follows _ _) | apply runOp_follows | apply State.stagePkt_follows | apply ResFollows.next
    | intro _ | split)

theorem execFlashRead_follows {s₀ : State} {s : State} (k : Nat) (h₀ : Follows s₀ s) :
    ResFollows s₀ (execFlashRead k s) := by
  unfold execFlashRead
  with_reducible repeat' (first
    | assumption | intro _ (_ : State) (_ : Follows _ _) | apply runOp_follows | apply State.failPkt_follows | apply State.hostWrite_follows | apply State.done_follows | apply ResFollows.next
    | (intro (x : State); have hx : Follows s₀ x := (by dsimp only [x]; repeat' (first | assumption | intro _ (_ : State) (_ : Follows _ _) | apply runOp_follows | apply State.failPkt_follows | apply State.hostWrite_follows | apply State.done_follows | apply ResFollows.next | intro _ | split)))
    | lift_lets | (intro (x : Option _); clear_value x)
    | intro _ | split)

theorem State.nvLeave_follows {s₀ : State} {s : State} (host : Bool) (j : NvJob) (ops : List NvOp) (h₀ : Follows s₀ s) :
    Follows s₀ (State.nvLeave s host j ops) := by
  unfold State.nvLeave
  with_reducible repeat' (first
    | assumption | apply setNvs_follows | apply nvGo_follows | exact Nvs.setJob_keeps _ _ _
    | intro _ | exact ⟨rfl, rfl, rfl⟩ | (refine ⟨?_, ?_, ?_⟩ <;> repeat' (first | rfl | split)) | split | simp only [Follows.keep] | simp +zetaDelta only [Follows.keep])

theorem State.nvFail_follows {s₀ : State} {s : State} (host : Bool) (j : NvJob) (h₀ : Follows s₀ s) :
    Follows s₀ (State.nvFail s host j) := by
  unfold State.nvFail
  with_reducible repeat' (first
    | assumption | apply setNvs_follows | apply event_follows | apply failJob_follows | apply nvGo_follows | exact Nvs.setJob_keeps _ _ _
    | intro _ | exact ⟨rfl, rfl, rfl⟩ | (refine ⟨?_, ?_, ?_⟩ <;> repeat' (first | rfl | split)) | split | simp only [Follows.keep] | simp +zetaDelta only [Follows.keep])

theorem State.eraseFails_follows {s₀ s : State} (host : Bool) (j : NvJob) (n tries why : Nat) (ops : List NvOp) (h : Follows s₀ s) :
    Follows s₀ (s.eraseFails host j n tries why ops) := by
  have k := bump_follows adrErases (nvCut_follows (.erase n tries why) h)
  unfold State.eraseFails
  generalize (s.nvCut (.erase n tries why)).bump adrErases = t at k ⊢
  show Follows s₀ (if tries == 0 then _ else _)
  split
  · with_reducible refine nvFail_follows _ _ (setNvs_follows k ?_)
    exact fun _ => ⟨rfl, rfl, rfl⟩
  · exact nvLeave_follows _ _ _ k

theorem execFlashOpDone_follows {s₀ : State} {s : State} (blank : Bool) (h₀ : Follows s₀ s) :
    ResFollows s₀ (execFlashOpDone blank s) := by
  unfold execFlashOpDone
  with_reducible repeat' (first
    | assumption | apply State.nvEffect_follows | apply State.nvLeave_follows | apply State.eraseFails_follows | apply ResFollows.next
    | intro _ | split | simp only [Follows.keep] | simp +zetaDelta only [Follows.keep])

theorem State.persistFault_follows {s₀ : State} {s : State} (h₀ : Follows s₀ s) :
    Follows s₀ (State.persistFault s) := by
  unfold State.persistFault
  with_reducible repeat' (first
    | assumption | intro (_ : State) _ (_ : Follows _ _) | apply setNvs_follows | apply setEvr_follows | apply setRf_follows | apply event_follows | apply each_follows | apply failPkt_follows | apply bump_follows | apply nvGo_follows
    | (intro (x : State); have hx : Follows s₀ x := (by dsimp only [x]; repeat' (first | assumption | intro (_ : State) _ (_ : Follows _ _) | apply setNvs_follows | apply setEvr_follows | apply setRf_follows | apply event_follows | apply each_follows | apply failPkt_follows | apply bump_follows | apply nvGo_follows | intro _ | exact ⟨rfl, rfl, rfl⟩ | (refine ⟨?_, ?_, ?_⟩ <;> repeat' (first | rfl | split)) | split | simp only [Follows.keep] | simp +zetaDelta only [Follows.keep])))
    | lift_lets | (intro (x : Option _); clear_value x)
    | intro _ | exact ⟨rfl, rfl, rfl⟩ | (refine ⟨?_, ?_, ?_⟩ <;> repeat' (first | rfl | split)) | split | simp only [Follows.keep] | simp +zetaDelta only [Follows.keep])

theorem execFlashBusyTimeout_follows {s₀ : State} {s : State} (h₀ : Follows s₀ s) :
    ResFollows s₀ (execFlashBusyTimeout s) := by
  unfold execFlashBusyTimeout
  with_reducible repeat' (first
    | assumption | apply State.persistFault_follows | apply State.nvCut_follows | apply State.bump_follows | apply State.setNvs_follows | apply State.nvFail_follows | apply ResFollows.next
    | (intro (x : State); have hx : Follows s₀ x := (by dsimp only [x]; repeat' (first | assumption | apply State.persistFault_follows | apply State.nvCut_follows | apply State.bump_follows | apply State.setNvs_follows | apply State.nvFail_follows | apply ResFollows.next | intro _ | exact ⟨rfl, rfl, rfl⟩ | (refine ⟨?_, ?_, ?_⟩ <;> repeat' (first | rfl | split)) | split | simp only [Follows.keep] | simp +zetaDelta only [Follows.keep])))
    | lift_lets | (intro (x : Option _); clear_value x)
    | intro _ | exact ⟨rfl, rfl, rfl⟩ | (refine ⟨?_, ?_, ?_⟩ <;> repeat' (first | rfl | split)) | split | simp only [Follows.keep] | simp +zetaDelta only [Follows.keep])

theorem execCalibrationSaveTimer_follows {s₀ : State} {s : State} (h₀ : Follows s₀ s) :
    ResFollows s₀ (execCalibrationSaveTimer s) := by
  unfold execCalibrationSaveTimer
  with_reducible repeat' (first
    | assumption | apply State.ownAsk_follows | apply ResFollows.next
    | intro _ | split)

end Sys2Proof.Machine
end

