-- ==== Sys2Proof/Laws/FollowRack.lean ====
section
/-! SUPPORT. Follow lemmas: lightbank, Gleed, link and valve operations and commands follow. -/
namespace Sys2Proof.Machine

theorem State.compareRow_follows {s₀ : State} {s : State} (b : Nat) (pair : Option (Int × Int)) (h₀ : Follows s₀ s) :
    Follows s₀ (State.compareRow s b pair) := by
  unfold State.compareRow
  with_reducible repeat' (first
    | assumption | apply setHealth_follows | apply modBank_follows | apply setRf_follows
    | (intro (x : State); have hx : Follows s₀ x := (by dsimp only [x]; repeat' (first | assumption | apply setHealth_follows | apply modBank_follows | apply setRf_follows | intro _ | split | simp only [Follows.keep] | simp +zetaDelta only [Follows.keep])))
    | lift_lets | (intro (x : Option _); clear_value x)
    | intro _ | split | simp only [Follows.keep] | simp +zetaDelta only [Follows.keep])

theorem State.deliverRows_follows {s₀ : State} {s : State} (p : Nat) (i : Nat) (r : Prod) (y : List Nat) (h₀ : Follows s₀ s) :
    Follows s₀ (State.deliverRows s p i r y) := by
  unfold State.deliverRows
  with_reducible repeat' (first
    | assumption | apply modPart_follows | apply setTerm_follows
    | intro _ | split | simp only [Follows.keep] | simp +zetaDelta only [Follows.keep])

theorem execLbkProductDone_follows {s₀ : State} {s : State} (p : Nat) (i : Nat) (c0 : List Int) (c1 : List Int) (cmp0 : Option (Int × Int)) (cmp1 : Option (Int × Int)) (h₀ : Follows s₀ s) :
    ResFollows s₀ (execLbkProductDone p i c0 c1 cmp0 cmp1 s) := by
  unfold execLbkProductDone
  with_reducible repeat' (first
    | assumption | intro (_ : State) _ (_ : Follows _ _) | apply State.compareRow_follows | apply State.each_follows | apply State.bump_follows | apply State.bumpBy_follows | apply State.deliverRows_follows | apply ResFollows.next
    | (intro (x : State); have hx : Follows s₀ x := (by dsimp only [x]; repeat' (first | assumption | intro (_ : State) _ (_ : Follows _ _) | apply State.compareRow_follows | apply State.each_follows | apply State.bump_follows | apply State.bumpBy_follows | apply State.deliverRows_follows | apply ResFollows.next | intro _ | split | simp only [Follows.keep] | simp +zetaDelta only [Follows.keep])))
    | lift_lets | (intro (x : Option _); clear_value x)
    | intro _ | split | simp only [Follows.keep] | simp +zetaDelta only [Follows.keep])

theorem State.diverged_follows {s₀ : State} {s : State} (bs : List (Nat × Nat × LBlock)) (i : Nat) (h₀ : Follows s₀ s) :
    Follows s₀ (State.diverged s bs i) := by
  unfold State.diverged
  with_reducible repeat' (first
    | assumption | intro (_ : State) _ (_ : Follows _ _) | intro _ (_ : State) (_ : Follows _ _) | apply each_follows | apply setBlock_follows | apply bump_follows | apply bankEvent_follows | apply modBank_follows | apply nextVisit_follows | apply blockFall_follows
    | (intro (x : State); have hx : Follows s₀ x := (by dsimp only [x]; repeat' (first | assumption | intro (_ : State) _ (_ : Follows _ _) | intro _ (_ : State) (_ : Follows _ _) | apply each_follows | apply setBlock_follows | apply bump_follows | apply bankEvent_follows | apply modBank_follows | apply nextVisit_follows | apply blockFall_follows | intro _ | split | simp only [Follows.keep] | simp +zetaDelta only [Follows.keep])))
    | lift_lets | (intro (x : Option _); clear_value x)
    | intro _ | split | simp only [Follows.keep] | simp +zetaDelta only [Follows.keep])

theorem State.shadowVerdict_follows {s₀ : State} {s : State} (p : Nat) (i : Nat) (r : Prod) (l : LayerRec) (d : List Nat) (h₀ : Follows s₀ s) :
    Follows s₀ (State.shadowVerdict s p i r l d) := by
  unfold State.shadowVerdict
  with_reducible repeat' (first
    | assumption | intro (_ : State) _ (_ : Follows _ _) | intro _ (_ : State) (_ : Follows _ _) | apply modPart_follows | apply setTerm_follows | apply each_follows | apply bump_follows | apply diverged_follows | apply setBlock_follows
    | (intro (x : State); have hx : Follows s₀ x := (by dsimp only [x]; repeat' (first | assumption | intro (_ : State) _ (_ : Follows _ _) | intro _ (_ : State) (_ : Follows _ _) | apply modPart_follows | apply setTerm_follows | apply each_follows | apply bump_follows | apply diverged_follows | apply setBlock_follows | intro _ | split | simp only [Follows.keep] | simp +zetaDelta only [Follows.keep])))
    | lift_lets | (intro (x : Option _); clear_value x)
    | intro _ | split | simp only [Follows.keep] | simp +zetaDelta only [Follows.keep])

theorem execShadowVerdict_follows {s₀ : State} {s : State} (p : Nat) (i : Nat) (h₀ : Follows s₀ s) :
    ResFollows s₀ (execShadowVerdict p i s) := by
  unfold execShadowVerdict
  with_reducible repeat' (first
    | assumption | apply State.bump_follows | apply State.shadowVerdict_follows | apply ResFollows.next
    | intro _ | split | simp only [Follows.keep] | simp +zetaDelta only [Follows.keep])

theorem execLbkTempSample_follows {s₀ : State} {s : State} (b : Nat) (t : Nat) (h₀ : Follows s₀ s) :
    ResFollows s₀ (execLbkTempSample b t s) := by
  unfold execLbkTempSample
  with_reducible repeat' (first
    | assumption | apply State.setRf_follows | apply State.modBank_follows | apply State.bankEvent_follows | apply State.bankFall_follows | apply State.startSweep_follows | apply ResFollows.next
    | (intro (x : State); have hx : Follows s₀ x := (by dsimp only [x]; repeat' (first | assumption | apply State.setRf_follows | apply State.modBank_follows | apply State.bankEvent_follows | apply State.bankFall_follows | apply State.startSweep_follows | apply ResFollows.next | intro _ | split | simp only [Follows.keep] | simp +zetaDelta only [Follows.keep])))
    | lift_lets | (intro (x : Option _); clear_value x)
    | intro _ | split | simp only [Follows.keep] | simp +zetaDelta only [Follows.keep])

theorem execLbkSweepTimer_follows {s₀ : State} {s : State} (b : Nat) (h₀ : Follows s₀ s) :
    ResFollows s₀ (execLbkSweepTimer b s) := by
  unfold execLbkSweepTimer
  with_reducible repeat' (first
    | assumption | apply State.startSweep_follows | apply ResFollows.next
    | intro _ | split)

theorem execLbkSweep_follows {s₀ : State} {s : State} (k : Nat) (h₀ : Follows s₀ s) :
    ResFollows s₀ (execLbkSweep k s) := by
  unfold execLbkSweep
  with_reducible repeat' (first
    | assumption | intro _ (_ : State) (_ : Follows _ _) | apply runOp_follows | apply State.modBank_follows | apply State.sweepDone_follows | apply State.startSweep_follows | apply ResFollows.next
    | (intro (x : State); have hx : Follows s₀ x := (by dsimp only [x]; repeat' (first | assumption | intro _ (_ : State) (_ : Follows _ _) | apply runOp_follows | apply State.modBank_follows | apply State.sweepDone_follows | apply State.startSweep_follows | apply ResFollows.next | intro _ | split | simp only [Follows.keep] | simp +zetaDelta only [Follows.keep])))
    | lift_lets | (intro (x : Option _); clear_value x)
    | intro _ | split | simp only [Follows.keep] | simp +zetaDelta only [Follows.keep])

theorem execRowSettled_follows {s₀ : State} {s : State} (b : Nat) (r : Nat) (h₀ : Follows s₀ s) :
    ResFollows s₀ (execRowSettled b r s) := by
  unfold execRowSettled
  with_reducible repeat' (first
    | assumption | intro (_ : State) _ (_ : Follows _ _) | intro _ (_ : State) (_ : Follows _ _) | apply State.modBank_follows | apply State.each_follows | apply State.blockLift_follows | apply ResFollows.next
    | (intro (x : State); have hx : Follows s₀ x := (by dsimp only [x]; repeat' (first | assumption | intro (_ : State) _ (_ : Follows _ _) | intro _ (_ : State) (_ : Follows _ _) | apply State.modBank_follows | apply State.each_follows | apply State.blockLift_follows | apply ResFollows.next | intro _ | split | simp only [Follows.keep] | simp +zetaDelta only [Follows.keep])))
    | lift_lets | (intro (x : Option _); clear_value x)
    | intro _ | split | simp only [Follows.keep] | simp +zetaDelta only [Follows.keep])

theorem State.stagesHealthy_follows {s₀ : State} {s : State} (b : Nat) (inputs : List Nat) (h₀ : Follows s₀ s) :
    Follows s₀ (State.stagesHealthy s b inputs) := by
  unfold State.stagesHealthy
  with_reducible repeat' (first
    | assumption | intro (_ : State) _ (_ : Follows _ _) | apply modBank_follows | apply each_follows | apply blockLift_follows
    | (intro (x : State); have hx : Follows s₀ x := (by dsimp only [x]; repeat' (first | assumption | intro (_ : State) _ (_ : Follows _ _) | apply modBank_follows | apply each_follows | apply blockLift_follows | intro _ | split | simp only [Follows.keep] | simp +zetaDelta only [Follows.keep])))
    | lift_lets | (intro (x : Option _); clear_value x)
    | intro _ | split | simp only [Follows.keep] | simp +zetaDelta only [Follows.keep])

theorem execRowFitDone_follows {s₀ : State} {s : State} (b : Nat) (residual : Nat) (inputs : List Nat) (h₀ : Follows s₀ s) :
    ResFollows s₀ (execRowFitDone b residual inputs s) := by
  unfold execRowFitDone
  with_reducible repeat' (first
    | assumption | apply State.setRf_follows | apply State.stagesHealthy_follows | apply State.refitRow_follows | apply State.modBank_follows | apply State.setHealth_follows | apply State.bankEvent_follows | apply State.spareCheck_follows | apply State.rotate_follows | apply State.nextVisit_follows | apply ResFollows.next
    | (intro (x : State); have hx : Follows s₀ x := (by dsimp only [x]; repeat' (first | assumption | apply State.setRf_follows | apply State.stagesHealthy_follows | apply State.refitRow_follows | apply State.modBank_follows | apply State.setHealth_follows | apply State.bankEvent_follows | apply State.spareCheck_follows | apply State.rotate_follows | apply State.nextVisit_follows | apply ResFollows.next | intro _ | split | simp only [Follows.keep] | simp +zetaDelta only [Follows.keep])))
    | lift_lets | (intro (x : Option _); clear_value x)
    | intro _ | split | simp only [Follows.keep] | simp +zetaDelta only [Follows.keep])

theorem execLbkTablesStale_follows {s₀ : State} {s : State} (b : Nat) (h₀ : Follows s₀ s) :
    ResFollows s₀ (execLbkTablesStale b s) := by
  unfold execLbkTablesStale
  with_reducible repeat' (first
    | assumption | apply State.modBank_follows | apply State.bankFall_follows | apply ResFollows.next
    | intro _ | split | simp only [Follows.keep] | simp +zetaDelta only [Follows.keep])

theorem State.takeOver_follows {s₀ : State} {s : State} (b : Nat) (l : Nat) (sp : Nat) (h₀ : Follows s₀ s) :
    Follows s₀ (State.takeOver s b l sp) := by
  unfold State.takeOver
  with_reducible repeat' (first
    | assumption | intro (_ : State) _ (_ : Follows _ _) | intro _ (_ : State) (_ : Follows _ _) | apply setRf_follows | apply setHealth_follows | apply programRow_follows | apply modBank_follows | apply each_follows | apply blockFall_follows
    | (intro (x : State); have hx : Follows s₀ x := (by dsimp only [x]; repeat' (first | assumption | intro (_ : State) _ (_ : Follows _ _) | intro _ (_ : State) (_ : Follows _ _) | apply setRf_follows | apply setHealth_follows | apply programRow_follows | apply modBank_follows | apply each_follows | apply blockFall_follows | intro _ | split | simp only [Follows.keep] | simp +zetaDelta only [Follows.keep])))
    | lift_lets | (intro (x : Option _); clear_value x)
    | intro _ | split | simp only [Follows.keep] | simp +zetaDelta only [Follows.keep])

theorem State.rowLost_follows {s₀ : State} {s : State} (b : Nat) (r : Nat) (h₀ : Follows s₀ s) :
    Follows s₀ (State.rowLost s b r) := by
  unfold State.rowLost
  with_reducible repeat' (first
    | assumption | intro (_ : State) _ (_ : Follows _ _) | intro _ (_ : State) (_ : Follows _ _) | apply setHealth_follows | apply modBank_follows | apply each_follows | apply blockFall_follows | apply takeOver_follows | apply spareCheck_follows | apply nextVisit_follows
    | (intro (x : State); have hx : Follows s₀ x := (by dsimp only [x]; repeat' (first | assumption | intro (_ : State) _ (_ : Follows _ _) | intro _ (_ : State) (_ : Follows _ _) | apply setHealth_follows | apply modBank_follows | apply each_follows | apply blockFall_follows | apply takeOver_follows | apply spareCheck_follows | apply nextVisit_follows | intro _ | split | simp only [Follows.keep] | simp +zetaDelta only [Follows.keep])))
    | lift_lets | (intro (x : Option _); clear_value x)
    | intro _ | split | simp only [Follows.keep] | simp +zetaDelta only [Follows.keep])

theorem State.inputLost_follows {s₀ : State} {s : State} (b : Nat) (i : Nat) (h₀ : Follows s₀ s) :
    Follows s₀ (State.inputLost s b i) := by
  unfold State.inputLost
  with_reducible repeat' (first
    | assumption | intro (_ : State) _ (_ : Follows _ _) | apply modBank_follows | apply each_follows | apply blockFall_follows
    | intro _ | split | simp only [Follows.keep] | simp +zetaDelta only [Follows.keep])

theorem State.bankLaser_follows {s₀ : State} {s : State} (b : Nat) (h₀ : Follows s₀ s) :
    Follows s₀ (State.bankLaser s b) := by
  unfold State.bankLaser
  with_reducible repeat' (first
    | assumption | apply modBank_follows | apply bankFall_follows | apply setRf_follows | apply bankEvent_follows
    | (intro (x : State); have hx : Follows s₀ x := (by dsimp only [x]; repeat' (first | assumption | apply modBank_follows | apply bankFall_follows | apply setRf_follows | apply bankEvent_follows | intro _ | split | simp only [Follows.keep] | simp +zetaDelta only [Follows.keep])))
    | lift_lets | (intro (x : Option _); clear_value x)
    | intro _ | split | simp only [Follows.keep] | simp +zetaDelta only [Follows.keep])

theorem execLbkStagePowerLoss_follows {s₀ : State} {s : State} (b : Nat) (stage : Nat) (idx : Nat) (h₀ : Follows s₀ s) :
    ResFollows s₀ (execLbkStagePowerLoss b stage idx s) := by
  unfold execLbkStagePowerLoss
  with_reducible repeat' (first
    | assumption | apply State.bankEvent_follows | apply State.bankLaser_follows | apply State.inputLost_follows | apply State.rowLost_follows | apply ResFollows.next | refine State.stage_follows _ _ _ _ _ ?_ ‹_ = some _›
    | (intro (x : State); have hx : Follows s₀ x := (by dsimp only [x]; repeat' (first | assumption | apply State.bankEvent_follows | apply State.bankLaser_follows | apply State.inputLost_follows | apply State.rowLost_follows | apply ResFollows.next | refine State.stage_follows _ _ _ _ _ ?_ ‹_ = some _› | intro _ | split | simp only [Follows.keep] | simp +zetaDelta only [Follows.keep])))
    | lift_lets | (intro (x : Option _); clear_value x)
    | intro _ | split | simp only [Follows.keep] | simp +zetaDelta only [Follows.keep])

theorem execLbkLaserChangeDone_follows {s₀ : State} {s : State} (b : Nat) (h₀ : Follows s₀ s) :
    ResFollows s₀ (execLbkLaserChangeDone b s) := by
  unfold execLbkLaserChangeDone
  with_reducible repeat' (first
    | assumption | apply State.setRf_follows | apply State.modBank_follows | apply State.startSweep_follows | apply ResFollows.next
    | intro _ | split | simp only [Follows.keep] | simp +zetaDelta only [Follows.keep])

theorem execLbkBlockStatus_follows {s₀ : State} {s : State} (k : Nat) (h₀ : Follows s₀ s) :
    ResFollows s₀ (execLbkBlockStatus k s) := by
  unfold execLbkBlockStatus
  with_reducible repeat' (first
    | assumption | intro _ (_ : State) (_ : Follows _ _) | apply runOp_follows | apply State.badParam_follows | apply State.done_follows | apply ResFollows.next
    | intro _ | split | simp only [Follows.keep] | simp +zetaDelta only [Follows.keep])

theorem execLbkForceFallback_follows {s₀ : State} {s : State} (k : Nat) (h₀ : Follows s₀ s) :
    ResFollows s₀ (execLbkForceFallback k s) := by
  unfold execLbkForceFallback
  with_reducible repeat' (first
    | assumption | intro _ (_ : State) (_ : Follows _ _) | apply runOp_follows | apply State.badParam_follows | apply State.setBlock_follows | apply State.blockFall_follows | apply State.done_follows | apply ResFollows.next
    | (intro (x : State); have hx : Follows s₀ x := (by dsimp only [x]; repeat' (first | assumption | intro _ (_ : State) (_ : Follows _ _) | apply runOp_follows | apply State.badParam_follows | apply State.setBlock_follows | apply State.blockFall_follows | apply State.done_follows | apply ResFollows.next | intro _ | split | simp only [Follows.keep] | simp +zetaDelta only [Follows.keep])))
    | lift_lets | (intro (x : Option _); clear_value x)
    | intro _ | split | simp only [Follows.keep] | simp +zetaDelta only [Follows.keep])

theorem State.setTx_follows {s₀ : State} {s : State} (d : Nat) (l : Nat) (c : Nat) (h₀ : Follows s₀ s) :
    Follows s₀ (State.setTx s d l c) := by
  unfold State.setTx
  with_reducible repeat' (first
    | assumption | apply setRf_follows
    | intro _ | split)

theorem State.setRx_follows {s₀ : State} {s : State} (d : Nat) (l : Nat) (c : Nat) (h₀ : Follows s₀ s) :
    Follows s₀ (State.setRx s d l c) := by
  unfold State.setRx
  with_reducible repeat' (first
    | assumption | apply setRf_follows
    | intro _ | split)

theorem State.modGleed_follows {s₀ : State} {s : State} (d : Nat) (f : Gleed → Gleed) (h₀ : Follows s₀ s) :
    Follows s₀ (State.modGleed s d f) := by
  unfold State.modGleed
  with_reducible repeat' (first
    | assumption | apply setGleed_follows
    | intro _ | split)

theorem State.sendSwap_follows {s₀ : State} {s : State} (d : Nat) (typ : Nat) (w : Swap) (h₀ : Follows s₀ s) :
    Follows s₀ (State.sendSwap s d typ w) := by
  unfold State.sendSwap
  with_reducible repeat' (first
    | assumption | apply sendOsAll_follows
    | intro _ | split | simp only [Follows.keep] | simp +zetaDelta only [Follows.keep])

theorem State.startSwap_follows {s₀ : State} {s : State} (d : Nat) (l : Nat) (dest : Nat) (mode : Nat) (cal : Bool) (h₀ : Follows s₀ s) :
    Follows s₀ (State.startSwap s d l dest mode cal) := by
  unfold State.startSwap
  with_reducible repeat' (first
    | assumption | apply modGleed_follows | apply sendSwap_follows
    | (intro (x : State); have hx : Follows s₀ x := (by dsimp only [x]; repeat' (first | assumption | apply modGleed_follows | apply sendSwap_follows | intro _ | split | simp only [Follows.keep] | simp +zetaDelta only [Follows.keep])))
    | lift_lets | (intro (x : Option _); clear_value x)
    | intro _ | split | simp only [Follows.keep] | simp +zetaDelta only [Follows.keep])

theorem State.repairNext_follows {s₀ : State} {s : State} (d : Nat) (h₀ : Follows s₀ s) :
    Follows s₀ (State.repairNext s d) := by
  unfold State.repairNext
  with_reducible repeat' (first
    | assumption | apply portEvent_follows | apply modGleed_follows | apply startSwap_follows
    | intro _ | split | simp only [Follows.keep] | simp +zetaDelta only [Follows.keep])

theorem State.repairTry_follows {s₀ : State} {s : State} (d : Nat) (h₀ : Follows s₀ s) :
    Follows s₀ (State.repairTry s d) := by
  unfold State.repairTry
  with_reducible repeat' (first
    | assumption | apply portEvent_follows | apply repairNext_follows
    | intro _ | split)

theorem State.repairLane_follows {s₀ : State} {s : State} (d : Nat) (l : Nat) (h₀ : Follows s₀ s) :
    Follows s₀ (State.repairLane s d l) := by
  unfold State.repairLane
  with_reducible repeat' (first
    | assumption | apply quadFault_follows | apply modGleed_follows | apply repairTry_follows
    | (intro (x : State); have hx : Follows s₀ x := (by dsimp only [x]; repeat' (first | assumption | apply quadFault_follows | apply modGleed_follows | apply repairTry_follows | intro _ | split | simp only [Follows.keep] | simp +zetaDelta only [Follows.keep])))
    | lift_lets | (intro (x : Option _); clear_value x)
    | intro _ | split | simp only [Follows.keep] | simp +zetaDelta only [Follows.keep])

theorem State.swapNext_follows {s₀ : State} {s : State} (d : Nat) (h₀ : Follows s₀ s) :
    Follows s₀ (State.swapNext s d) := by
  unfold State.swapNext
  with_reducible repeat' (first
    | assumption | apply modGleed_follows | apply startSwap_follows | apply repairNext_follows
    | intro _ | split | simp only [Follows.keep] | simp +zetaDelta only [Follows.keep])

theorem State.faultSwap_follows {s₀ : State} {s : State} (d : Nat) (c : Nat) (h₀ : Follows s₀ s) :
    Follows s₀ (State.faultSwap s d c) := by
  unfold State.faultSwap
  with_reducible repeat' (first
    | assumption | apply dropSwap_follows | apply modGleed_follows
    | (intro (x : State); have hx : Follows s₀ x := (by dsimp only [x]; repeat' (first | assumption | apply dropSwap_follows | apply modGleed_follows | intro _ | split | simp only [Follows.keep] | simp +zetaDelta only [Follows.keep])))
    | lift_lets | (intro (x : Option _); clear_value x)
    | intro _ | split | simp only [Follows.keep] | simp +zetaDelta only [Follows.keep])

theorem State.chanFail_follows {s₀ : State} {s : State} (d : Nat) (c : Nat) (h : Nat) (h₀ : Follows s₀ s) :
    Follows s₀ (State.chanFail s d c h) := by
  unfold State.chanFail
  with_reducible repeat' (first
    | assumption | apply faultSwap_follows | apply setChan_follows | apply modGleed_follows | apply repairTry_follows | apply repairLane_follows
    | (intro (x : State); have hx : Follows s₀ x := (by dsimp only [x]; repeat' (first | assumption | apply faultSwap_follows | apply setChan_follows | apply modGleed_follows | apply repairTry_follows | apply repairLane_follows | intro _ | split | simp only [Follows.keep] | simp +zetaDelta only [Follows.keep])))
    | lift_lets | (intro (x : Option _); clear_value x)
    | intro _ | split | simp only [Follows.keep] | simp +zetaDelta only [Follows.keep])

theorem State.linkUp_follows {s₀ : State} {s : State} (d : Nat) (h₀ : Follows s₀ s) :
    Follows s₀ (State.linkUp s d) := by
  unfold State.linkUp
  with_reducible repeat' (first
    | assumption | apply modLink_follows | apply portEvent_follows | apply repairTry_follows
    | (intro (x : State); have hx : Follows s₀ x := (by dsimp only [x]; repeat' (first | assumption | apply modLink_follows | apply portEvent_follows | apply repairTry_follows | intro _ | split | simp only [Follows.keep] | simp +zetaDelta only [Follows.keep])))
    | lift_lets | (intro (x : Option _); clear_value x)
    | intro _ | split | simp only [Follows.keep] | simp +zetaDelta only [Follows.keep])

theorem State.configFlit_follows {s₀ : State} {s : State} (d : Nat) (f : Flit) (h₀ : Follows s₀ s) :
    Follows s₀ (State.configFlit s d f) := by
  unfold State.configFlit
  with_reducible repeat' (first
    | assumption | intro (_ : State) _ (_ : Follows _ _) | intro _ (_ : State) (_ : Follows _ _) | apply setLink_follows | apply modLink_follows | apply linkUp_follows | apply Follows.foldl2
    | (intro (x : State); have hx : Follows s₀ x := (by dsimp only [x]; repeat' (first | assumption | intro (_ : State) _ (_ : Follows _ _) | intro _ (_ : State) (_ : Follows _ _) | apply setLink_follows | apply modLink_follows | apply linkUp_follows | apply Follows.foldl2 | intro _ | split | simp only [Follows.keep] | simp +zetaDelta only [Follows.keep])))
    | lift_lets | (intro (x : Option _); clear_value x)
    | intro _ | split | simp only [Follows.keep] | simp +zetaDelta only [Follows.keep])

theorem State.slotConfig_follows {s₀ : State} {s : State} (d : Nat) (h₀ : Follows s₀ s) :
    Follows s₀ (State.slotConfig s d) := by
  unfold State.slotConfig
  with_reducible repeat' (first
    | assumption | apply sendConfig_follows | apply modLink_follows | apply linkUp_follows
    | (intro (x : State); have hx : Follows s₀ x := (by dsimp only [x]; repeat' (first | assumption | apply sendConfig_follows | apply modLink_follows | apply linkUp_follows | intro _ | split | simp only [Follows.keep] | simp +zetaDelta only [Follows.keep])))
    | lift_lets | (intro (x : Option _); clear_value x)
    | intro _ | split | simp only [Follows.keep] | simp +zetaDelta only [Follows.keep])

theorem State.flitSlot_follows {s₀ : State} {s : State} (d : Nat) (h₀ : Follows s₀ s) :
    Follows s₀ (State.flitSlot s d) := by
  unfold State.flitSlot
  with_reducible repeat' (first
    | assumption | apply sendTime_follows | apply slotConfig_follows | apply slotActive_follows
    | (intro (x : State); have hx : Follows s₀ x := (by dsimp only [x]; repeat' (first | assumption | apply sendTime_follows | apply slotConfig_follows | apply slotActive_follows | intro _ | split | simp only [Follows.keep] | simp +zetaDelta only [Follows.keep])))
    | lift_lets | (intro (x : Option _); clear_value x)
    | intro _ | split | simp only [Follows.keep] | simp +zetaDelta only [Follows.keep])

theorem execLinkTrainingStart_follows {s₀ : State} {s : State} (d : Nat) (h₀ : Follows s₀ s) :
    ResFollows s₀ (execLinkTrainingStart d s) := by
  unfold execLinkTrainingStart
  with_reducible repeat' (first
    | assumption | apply State.startTraining_follows | apply ResFollows.next
    | intro _ | split)

theorem State.failQuad_follows {s₀ : State} {s : State} (d : Nat) (k : Nat) (h₀ : Follows s₀ s) :
    Follows s₀ (State.failQuad s d k) := by
  unfold State.failQuad
  with_reducible repeat' (first
    | assumption | apply setLink_follows | apply portEvent_follows
    | (intro (x : State); have hx : Follows s₀ x := (by dsimp only [x]; repeat' (first | assumption | apply setLink_follows | apply portEvent_follows | intro _ | split | simp only [Follows.keep] | simp +zetaDelta only [Follows.keep])))
    | lift_lets | (intro (x : Option _); clear_value x)
    | intro _ | split | simp only [Follows.keep] | simp +zetaDelta only [Follows.keep])

theorem execTrainingStepTimeout_follows {s₀ : State} {s : State} (d : Nat) (passed : Nat) (h₀ : Follows s₀ s) :
    ResFollows s₀ (execTrainingStepTimeout d passed s) := by
  unfold execTrainingStepTimeout
  with_reducible repeat' (first
    | assumption | intro (_ : State) _ (_ : Follows _ _) | intro _ (_ : State) (_ : Follows _ _) | apply State.setLink_follows | apply State.dropMeasure_follows | apply State.each_follows | apply State.modLink_follows | apply State.failQuad_follows | apply State.portEvent_follows | apply State.startInit_follows | apply ResFollows.next
    | (intro (x : State); have hx : Follows s₀ x := (by dsimp only [x]; repeat' (first | assumption | intro (_ : State) _ (_ : Follows _ _) | intro _ (_ : State) (_ : Follows _ _) | apply State.setLink_follows | apply State.dropMeasure_follows | apply State.each_follows | apply State.modLink_follows | apply State.failQuad_follows | apply State.portEvent_follows | apply State.startInit_follows | apply ResFollows.next | intro _ | split | simp only [Follows.keep] | simp +zetaDelta only [Follows.keep])))
    | lift_lets | (intro (x : Option _); clear_value x)
    | intro _ | split | simp only [Follows.keep] | simp +zetaDelta only [Follows.keep])

theorem execTrainingLockAchieved_follows {s₀ : State} {s : State} (d : Nat) (h₀ : Follows s₀ s) :
    ResFollows s₀ (execTrainingLockAchieved d s) := by
  unfold execTrainingLockAchieved
  with_reducible repeat' (first
    | assumption | apply State.modLink_follows | apply State.startInit_follows | apply ResFollows.next
    | (intro (x : State); have hx : Follows s₀ x := (by dsimp only [x]; repeat' (first | assumption | apply State.modLink_follows | apply State.startInit_follows | apply ResFollows.next | intro _ | split | simp only [Follows.keep] | simp +zetaDelta only [Follows.keep])))
    | lift_lets | (intro (x : Option _); clear_value x)
    | intro _ | split | simp only [Follows.keep] | simp +zetaDelta only [Follows.keep])

theorem State.initAgree_follows {s₀ : State} {s : State} (d : Nat) (b : List Byte) (h₀ : Follows s₀ s) :
    Follows s₀ (State.initAgree s d b) := by
  unfold State.initAgree
  with_reducible repeat' (first
    | assumption | apply portEvent_follows | apply linkDown_follows | apply modLink_follows
    | (intro (x : State); have hx : Follows s₀ x := (by dsimp only [x]; repeat' (first | assumption | apply portEvent_follows | apply linkDown_follows | apply modLink_follows | intro _ | split | simp only [Follows.keep] | simp +zetaDelta only [Follows.keep])))
    | lift_lets | (intro (x : Option _); clear_value x)
    | intro _ | split | simp only [Follows.keep] | simp +zetaDelta only [Follows.keep])

theorem State.initRx_follows {s₀ : State} {s : State} (d : Nat) (os : List Byte) (h₀ : Follows s₀ s) :
    Follows s₀ (State.initRx s d os) := by
  unfold State.initRx
  with_reducible repeat' (first
    | assumption | apply linkDown_follows | apply modLink_follows | apply portEvent_follows | apply initAgree_follows
    | (intro (x : State); have hx : Follows s₀ x := (by dsimp only [x]; repeat' (first | assumption | apply linkDown_follows | apply modLink_follows | apply portEvent_follows | apply initAgree_follows | intro _ | split | simp only [Follows.keep] | simp +zetaDelta only [Follows.keep])))
    | lift_lets | (intro (x : Option _); clear_value x)
    | intro _ | split | simp only [Follows.keep] | simp +zetaDelta only [Follows.keep])

theorem execLinkInitReceived_follows {s₀ : State} {s : State} (d : Nat) (os : List Byte) (h₀ : Follows s₀ s) :
    ResFollows s₀ (execLinkInitReceived d os s) := by
  unfold execLinkInitReceived
  with_reducible repeat' (first
    | assumption | apply State.initRx_follows | apply ResFollows.next
    | intro _ | split)

theorem State.flitArrive_follows {s₀ : State} {s : State} (d : Nat) (kind : Nat) (b : List Byte) (fec : Bool) (cor : Nat) (f : State → Flit → State) (h₀ : Follows s₀ s) (hf0 : ∀ x0 x1, Follows s₀ x0 → Follows s₀ (f x0 x1)) :
    Follows s₀ (State.flitArrive s d kind b fec cor f) := by
  unfold State.flitArrive
  with_reducible repeat' (first
    | assumption | apply bumpBy_follows | apply badFlit_follows | apply hf0
    | (intro (x : State); have hx : Follows s₀ x := (by dsimp only [x]; repeat' (first | assumption | apply bumpBy_follows | apply badFlit_follows | apply hf0 | intro _ | split | simp only [Follows.keep] | simp +zetaDelta only [Follows.keep])))
    | lift_lets | (intro (x : Option _); clear_value x)
    | intro _ | split | simp only [Follows.keep] | simp +zetaDelta only [Follows.keep])

theorem State.flitRx_follows {s₀ : State} {s : State} (d : Nat) (b : List Byte) (fec : Bool) (h₀ : Follows s₀ s) :
    Follows s₀ (State.flitRx s d b fec) := by
  unfold State.flitRx
  with_reducible repeat' (first
    | assumption | apply badFlit_follows | apply configFlit_follows | apply dataFlit_follows | apply applyReports_follows
    | (intro (x : State); have hx : Follows s₀ x := (by dsimp only [x]; repeat' (first | assumption | apply badFlit_follows | apply configFlit_follows | apply dataFlit_follows | apply applyReports_follows | intro _ | split | simp only [Follows.keep] | simp +zetaDelta only [Follows.keep])))
    | lift_lets | (intro (x : Option _); clear_value x)
    | intro _ | split | simp only [Follows.keep] | simp +zetaDelta only [Follows.keep])

theorem execConfigFlitReceived_follows {s₀ : State} {s : State} (d : Nat) (flit : List Byte) (fec : Bool) (cor : Nat) (h₀ : Follows s₀ s) :
    ResFollows s₀ (execConfigFlitReceived d flit fec s cor) := by
  unfold execConfigFlitReceived
  with_reducible repeat' (first
    | assumption | intro (_ : State) _ (_ : Follows _ _) | intro _ (_ : State) (_ : Follows _ _) | apply State.flitArrive_follows | apply State.configFlit_follows | apply ResFollows.next
    | intro _ | split | simp only [Follows.keep] | simp +zetaDelta only [Follows.keep])

theorem execDataFlitReceived_follows {s₀ : State} {s : State} (d : Nat) (flit : List Byte) (fec : Bool) (cor : Nat) (h₀ : Follows s₀ s) :
    ResFollows s₀ (execDataFlitReceived d flit fec s cor) := by
  unfold execDataFlitReceived
  with_reducible repeat' (first
    | assumption | intro (_ : State) _ (_ : Follows _ _) | intro _ (_ : State) (_ : Follows _ _) | apply State.flitArrive_follows | apply State.dataFlit_follows | apply ResFollows.next
    | intro _ | split | simp only [Follows.keep] | simp +zetaDelta only [Follows.keep])

theorem execControlFlitReceived_follows {s₀ : State} {s : State} (d : Nat) (flit : List Byte) (fec : Bool) (cor : Nat) (h₀ : Follows s₀ s) :
    ResFollows s₀ (execControlFlitReceived d flit fec s cor) := by
  unfold execControlFlitReceived
  with_reducible repeat' (first
    | assumption | intro (_ : State) _ (_ : Follows _ _) | intro _ (_ : State) (_ : Follows _ _) | apply State.flitArrive_follows | apply State.applyReports_follows | apply ResFollows.next
    | intro _ | split | simp only [Follows.keep] | simp +zetaDelta only [Follows.keep])

theorem execFlitSlot_follows {s₀ : State} {s : State} (d : Nat) (h₀ : Follows s₀ s) :
    ResFollows s₀ (execFlitSlot d s) := by
  unfold execFlitSlot
  with_reducible repeat' (first
    | assumption | apply State.flitSlot_follows | apply ResFollows.next
    | intro _ | split)

theorem execAckReportDue_follows {s₀ : State} {s : State} (d : Nat) (h₀ : Follows s₀ s) :
    ResFollows s₀ (execAckReportDue d s) := by
  unfold execAckReportDue
  with_reducible repeat' (first
    | assumption | apply State.modLink_follows | apply ResFollows.next
    | intro _ | split | simp only [Follows.keep] | simp +zetaDelta only [Follows.keep])

theorem execNakRepeatTimer_follows {s₀ : State} {s : State} (d : Nat) (h₀ : Follows s₀ s) :
    ResFollows s₀ (execNakRepeatTimer d s) := by
  unfold execNakRepeatTimer
  with_reducible repeat' (first
    | assumption | apply State.modLink_follows | apply ResFollows.next
    | intro _ | split | simp only [Follows.keep] | simp +zetaDelta only [Follows.keep])

theorem execReplayTimerExpiry_follows {s₀ : State} {s : State} (d : Nat) (tie : Bool) (h₀ : Follows s₀ s) :
    ResFollows s₀ (execReplayTimerExpiry d s tie) := by
  unfold execReplayTimerExpiry
  with_reducible repeat' (first
    | assumption | apply State.startReplay_follows | apply ResFollows.next
    | intro _ | split | simp only [Follows.keep] | simp +zetaDelta only [Follows.keep])

theorem execRetrainAdvanceTimeout_follows {s₀ : State} {s : State} (d : Nat) (h₀ : Follows s₀ s) :
    ResFollows s₀ (execRetrainAdvanceTimeout d s) := by
  unfold execRetrainAdvanceTimeout
  with_reducible repeat' (first
    | assumption | apply State.linkDown_follows | apply ResFollows.next
    | intro _ | split)

theorem State.answerReq_follows {s₀ : State} {s : State} (d : Nat) (b : List Byte) (h₀ : Follows s₀ s) :
    Follows s₀ (State.answerReq s d b) := by
  unfold State.answerReq
  with_reducible repeat' (first
    | assumption | apply sendOs_follows | apply beginPause_follows
    | (intro (x : State); have hx : Follows s₀ x := (by dsimp only [x]; repeat' (first | assumption | apply sendOs_follows | apply beginPause_follows | intro _ | split | simp only [Follows.keep] | simp +zetaDelta only [Follows.keep])))
    | lift_lets | (intro (x : Option _); clear_value x)
    | intro _ | split | simp only [Follows.keep] | simp +zetaDelta only [Follows.keep])

theorem State.reqRx_follows {s₀ : State} {s : State} (d : Nat) (os : List Byte) (h₀ : Follows s₀ s) :
    Follows s₀ (State.reqRx s d os) := by
  unfold State.reqRx
  with_reducible repeat' (first
    | assumption | apply sendOs_follows | apply answerReq_follows | apply portEvent_follows | apply modLink_follows
    | (intro (x : State); have hx : Follows s₀ x := (by dsimp only [x]; repeat' (first | assumption | apply sendOs_follows | apply answerReq_follows | apply portEvent_follows | apply modLink_follows | intro _ | split | simp only [Follows.keep] | simp +zetaDelta only [Follows.keep])))
    | lift_lets | (intro (x : Option _); clear_value x)
    | intro _ | split | simp only [Follows.keep] | simp +zetaDelta only [Follows.keep])

theorem execLinkReqReceived_follows {s₀ : State} {s : State} (d : Nat) (os : List Byte) (h₀ : Follows s₀ s) :
    ResFollows s₀ (execLinkReqReceived d os s) := by
  unfold execLinkReqReceived
  with_reducible repeat' (first
    | assumption | apply State.reqRx_follows | apply ResFollows.next
    | intro _ | split)

theorem State.ackRx_follows {s₀ : State} {s : State} (d : Nat) (os : List Byte) (h₀ : Follows s₀ s) :
    Follows s₀ (State.ackRx s d os) := by
  unfold State.ackRx
  with_reducible repeat' (first
    | assumption | apply beginPause_follows
    | intro _ | split | simp only [Follows.keep] | simp +zetaDelta only [Follows.keep])

theorem execLinkAckReceived_follows {s₀ : State} {s : State} (d : Nat) (os : List Byte) (h₀ : Follows s₀ s) :
    ResFollows s₀ (execLinkAckReceived d os s) := by
  unfold execLinkAckReceived
  with_reducible repeat' (first
    | assumption | apply State.ackRx_follows | apply ResFollows.next
    | intro _ | split)

theorem execLinkReqResendTimer_follows {s₀ : State} {s : State} (d : Nat) (h₀ : Follows s₀ s) :
    ResFollows s₀ (execLinkReqResendTimer d s) := by
  unfold execLinkReqResendTimer
  with_reducible repeat' (first
    | assumption | apply State.sendReq_follows | apply ResFollows.next
    | intro _ | split)

theorem execLinkReqTimeout_follows {s₀ : State} {s : State} (d : Nat) (h₀ : Follows s₀ s) :
    ResFollows s₀ (execLinkReqTimeout d s) := by
  unfold execLinkReqTimeout
  with_reducible repeat' (first
    | assumption | apply State.linkDown_follows | apply ResFollows.next
    | intro _ | split)

theorem State.pauseRx_follows {s₀ : State} {s : State} (d : Nat) (h₀ : Follows s₀ s) :
    Follows s₀ (State.pauseRx s d) := by
  unfold State.pauseRx
  with_reducible repeat' (first
    | assumption | apply fixSet_follows | apply setLink_follows
    | (intro (x : State); have hx : Follows s₀ x := (by dsimp only [x]; repeat' (first | assumption | apply fixSet_follows | apply setLink_follows | intro _ | split | simp only [Follows.keep] | simp +zetaDelta only [Follows.keep])))
    | lift_lets | (intro (x : Option _); clear_value x)
    | intro _ | split | simp only [Follows.keep] | simp +zetaDelta only [Follows.keep])

theorem execPauseReceived_follows {s₀ : State} {s : State} (d : Nat) (h₀ : Follows s₀ s) :
    ResFollows s₀ (execPauseReceived d s) := by
  unfold execPauseReceived
  with_reducible repeat' (first
    | assumption | apply State.pauseRx_follows | apply ResFollows.next
    | intro _ | split)

theorem execQuadsReady_follows {s₀ : State} {s : State} (d : Nat) (h₀ : Follows s₀ s) :
    ResFollows s₀ (execQuadsReady d s) := by
  unfold execQuadsReady
  with_reducible repeat' (first
    | assumption | apply State.setLink_follows | apply State.sendOsAll_follows | apply State.endPause_follows | apply ResFollows.next
    | (intro (x : State); have hx : Follows s₀ x := (by dsimp only [x]; repeat' (first | assumption | apply State.setLink_follows | apply State.sendOsAll_follows | apply State.endPause_follows | apply ResFollows.next | intro _ | split | simp only [Follows.keep] | simp +zetaDelta only [Follows.keep])))
    | lift_lets | (intro (x : Option _); clear_value x)
    | intro _ | split | simp only [Follows.keep] | simp +zetaDelta only [Follows.keep])

theorem State.resumeRx_follows {s₀ : State} {s : State} (d : Nat) (os : List Byte) (h₀ : Follows s₀ s) :
    Follows s₀ (State.resumeRx s d os) := by
  unfold State.resumeRx
  with_reducible repeat' (first
    | assumption | apply setLink_follows | apply endPause_follows
    | (intro (x : State); have hx : Follows s₀ x := (by dsimp only [x]; repeat' (first | assumption | apply setLink_follows | apply endPause_follows | intro _ | split | simp only [Follows.keep] | simp +zetaDelta only [Follows.keep])))
    | lift_lets | (intro (x : Option _); clear_value x)
    | intro _ | split | simp only [Follows.keep] | simp +zetaDelta only [Follows.keep])

theorem execResumeReceived_follows {s₀ : State} {s : State} (d : Nat) (os : List Byte) (h₀ : Follows s₀ s) :
    ResFollows s₀ (execResumeReceived d os s) := by
  unfold execResumeReceived
  with_reducible repeat' (first
    | assumption | apply State.resumeRx_follows | apply ResFollows.next
    | intro _ | split)

theorem execPauseLimitExpiry_follows {s₀ : State} {s : State} (d : Nat) (h₀ : Follows s₀ s) :
    ResFollows s₀ (execPauseLimitExpiry d s) := by
  unfold execPauseLimitExpiry
  with_reducible repeat' (first
    | assumption | apply State.linkDown_follows | apply ResFollows.next
    | intro _ | split)

theorem execLinkSilenceExpiry_follows {s₀ : State} {s : State} (d : Nat) (h₀ : Follows s₀ s) :
    ResFollows s₀ (execLinkSilenceExpiry d s) := by
  unfold execLinkSilenceExpiry
  with_reducible repeat' (first
    | assumption | apply State.linkDown_follows | apply ResFollows.next
    | intro _ | split)

theorem execQuadFault_follows {s₀ : State} {s : State} (d : Nat) (quads : Nat) (h₀ : Follows s₀ s) :
    ResFollows s₀ (execQuadFault d quads s) := by
  unfold execQuadFault
  with_reducible repeat' (first
    | assumption | apply State.quadFault_follows | apply ResFollows.next
    | intro _ | split | simp only [Follows.keep] | simp +zetaDelta only [Follows.keep])

theorem execFailedQuadRetrain_follows {s₀ : State} {s : State} (d : Nat) (h₀ : Follows s₀ s) :
    ResFollows s₀ (execFailedQuadRetrain d s) := by
  unfold execFailedQuadRetrain
  with_reducible repeat' (first
    | assumption | apply State.setLink_follows | apply ResFollows.next
    | (intro (x : State); have hx : Follows s₀ x := (by dsimp only [x]; repeat' (first | assumption | apply State.setLink_follows | apply ResFollows.next | intro _ | split | simp only [Follows.keep] | simp +zetaDelta only [Follows.keep])))
    | lift_lets | (intro (x : Option _); clear_value x)
    | intro _ | split | simp only [Follows.keep] | simp +zetaDelta only [Follows.keep])

theorem State.quadBack_follows {s₀ : State} {s : State} (d : Nat) (k : Nat) (h₀ : Follows s₀ s) :
    Follows s₀ (State.quadBack s d k) := by
  unfold State.quadBack
  with_reducible repeat' (first
    | assumption | apply setLink_follows | apply startReq_follows
    | (intro (x : State); have hx : Follows s₀ x := (by dsimp only [x]; repeat' (first | assumption | apply setLink_follows | apply startReq_follows | intro _ | split | simp only [Follows.keep] | simp +zetaDelta only [Follows.keep])))
    | lift_lets | (intro (x : Option _); clear_value x)
    | intro _ | split | simp only [Follows.keep] | simp +zetaDelta only [Follows.keep])

theorem execQuadPrbsPassed_follows {s₀ : State} {s : State} (d : Nat) (k : Nat) (h₀ : Follows s₀ s) :
    ResFollows s₀ (execQuadPrbsPassed d k s) := by
  unfold execQuadPrbsPassed
  with_reducible repeat' (first
    | assumption | apply State.quadBack_follows | apply ResFollows.next
    | intro _ | split)

theorem State.moveLane_follows {s₀ : State} {s : State} (d : Nat) (w : Swap) (frm : Nat) (h₀ : Follows s₀ s) :
    Follows s₀ (State.moveLane s d w frm) := by
  unfold State.moveLane
  with_reducible repeat' (first
    | assumption | apply setTx_follows | apply setChan_follows | apply setRf_follows
    | (intro (x : State); have hx : Follows s₀ x := (by dsimp only [x]; repeat' (first | assumption | apply setTx_follows | apply setChan_follows | apply setRf_follows | intro _ | split | simp only [Follows.keep] | simp +zetaDelta only [Follows.keep])))
    | lift_lets | (intro (x : Option _); clear_value x)
    | intro _ | split | simp only [Follows.keep] | simp +zetaDelta only [Follows.keep])

theorem State.tryQuad_follows {s₀ : State} {s : State} (d : Nat) (w : Swap) (h₀ : Follows s₀ s) :
    Follows s₀ (State.tryQuad s d w) := by
  unfold State.tryQuad
  with_reducible repeat' (first
    | assumption | apply modLink_follows
    | intro _ | split | simp only [Follows.keep] | simp +zetaDelta only [Follows.keep])

theorem State.swapDone_follows {s₀ : State} {s : State} (d : Nat) (w : Swap) (h₀ : Follows s₀ s) :
    Follows s₀ (State.swapDone s d w) := by
  unfold State.swapDone
  with_reducible repeat' (first
    | assumption | apply moveLane_follows | apply setRx_follows | apply bump_follows | apply portEvent_follows | apply sendSwap_follows | apply modGleed_follows | apply tryQuad_follows | apply repairNext_follows
    | (intro (x : State); have hx : Follows s₀ x := (by dsimp only [x]; repeat' (first | assumption | apply moveLane_follows | apply setRx_follows | apply bump_follows | apply portEvent_follows | apply sendSwap_follows | apply modGleed_follows | apply tryQuad_follows | apply repairNext_follows | intro _ | split | simp only [Follows.keep] | simp +zetaDelta only [Follows.keep])))
    | lift_lets | (intro (x : Option _); clear_value x)
    | intro _ | split | simp only [Follows.keep] | simp +zetaDelta only [Follows.keep])

theorem State.swapReq_follows {s₀ : State} {s : State} (d : Nat) (os : List Byte) (h₀ : Follows s₀ s) :
    Follows s₀ (State.swapReq s d os) := by
  unfold State.swapReq
  with_reducible repeat' (first
    | assumption | apply setGleed_follows
    | (intro (x : State); have hx : Follows s₀ x := (by dsimp only [x]; repeat' (first | assumption | apply setGleed_follows | intro _ | split | simp only [Follows.keep] | simp +zetaDelta only [Follows.keep])))
    | lift_lets | (intro (x : Option _); clear_value x)
    | intro _ | split | simp only [Follows.keep] | simp +zetaDelta only [Follows.keep])

theorem execSwapReqReceived_follows {s₀ : State} {s : State} (d : Nat) (os : List Byte) (h₀ : Follows s₀ s) :
    ResFollows s₀ (execSwapReqReceived d os s) := by
  unfold execSwapReqReceived
  with_reducible repeat' (first
    | assumption | apply State.swapReq_follows | apply ResFollows.next
    | intro _ | split)

theorem execSwapToVerified_follows {s₀ : State} {s : State} (d : Nat) (ok : Bool) (h₀ : Follows s₀ s) :
    ResFollows s₀ (execSwapToVerified d ok s) := by
  unfold execSwapToVerified
  with_reducible repeat' (first
    | assumption | apply State.setRx_follows | apply State.sendSwap_follows | apply State.dropSwap_follows | apply State.modGleed_follows | apply ResFollows.next
    | (intro (x : State); have hx : Follows s₀ x := (by dsimp only [x]; repeat' (first | assumption | apply State.setRx_follows | apply State.sendSwap_follows | apply State.dropSwap_follows | apply State.modGleed_follows | apply ResFollows.next | intro _ | split | simp only [Follows.keep] | simp +zetaDelta only [Follows.keep])))
    | lift_lets | (intro (x : Option _); clear_value x)
    | intro _ | split | simp only [Follows.keep] | simp +zetaDelta only [Follows.keep])

theorem State.swapAck_follows {s₀ : State} {s : State} (d : Nat) (os : List Byte) (h₀ : Follows s₀ s) :
    Follows s₀ (State.swapAck s d os) := by
  unfold State.swapAck
  with_reducible repeat' (first
    | assumption | apply swapDone_follows
    | intro _ | split | simp only [Follows.keep] | simp +zetaDelta only [Follows.keep])

theorem execSwapAckReceived_follows {s₀ : State} {s : State} (d : Nat) (os : List Byte) (h₀ : Follows s₀ s) :
    ResFollows s₀ (execSwapAckReceived d os s) := by
  unfold execSwapAckReceived
  with_reducible repeat' (first
    | assumption | apply State.swapAck_follows | apply ResFollows.next
    | intro _ | split)

theorem State.swapDoneRx_follows {s₀ : State} {s : State} (d : Nat) (os : List Byte) (h₀ : Follows s₀ s) :
    Follows s₀ (State.swapDoneRx s d os) := by
  unfold State.swapDoneRx
  with_reducible repeat' (first
    | assumption | apply modGleed_follows | apply moveLane_follows | apply tryQuad_follows | apply swapNext_follows
    | (intro (x : State); have hx : Follows s₀ x := (by dsimp only [x]; repeat' (first | assumption | apply modGleed_follows | apply moveLane_follows | apply tryQuad_follows | apply swapNext_follows | intro _ | split | simp only [Follows.keep] | simp +zetaDelta only [Follows.keep])))
    | lift_lets | (intro (x : Option _); clear_value x)
    | intro _ | split | simp only [Follows.keep] | simp +zetaDelta only [Follows.keep])

theorem execSwapDoneReceived_follows {s₀ : State} {s : State} (d : Nat) (os : List Byte) (h₀ : Follows s₀ s) :
    ResFollows s₀ (execSwapDoneReceived d os s) := by
  unfold execSwapDoneReceived
  with_reducible repeat' (first
    | assumption | apply State.swapDoneRx_follows | apply ResFollows.next
    | intro _ | split)

theorem execSwapTimeLimit_follows {s₀ : State} {s : State} (d : Nat) (h₀ : Follows s₀ s) :
    ResFollows s₀ (execSwapTimeLimit d s) := by
  unfold execSwapTimeLimit
  with_reducible repeat' (first
    | assumption | apply State.dropSwap_follows | apply State.modGleed_follows | apply State.repairTry_follows | apply ResFollows.next
    | (intro (x : State); have hx : Follows s₀ x := (by dsimp only [x]; repeat' (first | assumption | apply State.dropSwap_follows | apply State.modGleed_follows | apply State.repairTry_follows | apply ResFollows.next | intro _ | split | simp only [Follows.keep] | simp +zetaDelta only [Follows.keep])))
    | lift_lets | (intro (x : Option _); clear_value x)
    | intro _ | split | simp only [Follows.keep] | simp +zetaDelta only [Follows.keep])

theorem execChannelCalVisit_follows {s₀ : State} {s : State} (d : Nat) (h₀ : Follows s₀ s) :
    ResFollows s₀ (execChannelCalVisit d s) := by
  unfold execChannelCalVisit
  with_reducible repeat' (first
    | assumption | apply State.setChan_follows | apply State.modGleed_follows | apply State.portEvent_follows | apply State.startSwap_follows | apply ResFollows.next
    | intro _ | split | simp only [Follows.keep] | simp +zetaDelta only [Follows.keep])

theorem State.chanCal_follows {s₀ : State} {s : State} (d : Nat) (c : Nat) (m : ChanCal) (h₀ : Follows s₀ s) :
    Follows s₀ (State.chanCal s d c m) := by
  unfold State.chanCal
  with_reducible repeat' (first
    | assumption | intro (_ : State) _ (_ : Follows _ _) | intro _ (_ : State) (_ : Follows _ _) | apply setRf_follows | apply modGleed_follows | apply Follows.foldl2
    | (intro (x : State); have hx : Follows s₀ x := (by dsimp only [x]; repeat' (first | assumption | intro (_ : State) _ (_ : Follows _ _) | intro _ (_ : State) (_ : Follows _ _) | apply setRf_follows | apply modGleed_follows | apply Follows.foldl2 | intro _ | split | simp only [Follows.keep] | simp +zetaDelta only [Follows.keep])))
    | lift_lets | (intro (x : Option _); clear_value x)
    | intro _ | split | simp only [Follows.keep] | simp +zetaDelta only [Follows.keep])

theorem execChannelCalDone_follows {s₀ : State} {s : State} (d : Nat) (pass : Bool) (m : ChanCal) (h₀ : Follows s₀ s) :
    ResFollows s₀ (execChannelCalDone d pass s m) := by
  unfold execChannelCalDone
  with_reducible repeat' (first
    | assumption | apply State.chanCal_follows | apply State.setChan_follows | apply State.modGleed_follows | apply State.swapNext_follows | apply ResFollows.next
    | (intro (x : State); have hx : Follows s₀ x := (by dsimp only [x]; repeat' (first | assumption | apply State.chanCal_follows | apply State.setChan_follows | apply State.modGleed_follows | apply State.swapNext_follows | apply ResFollows.next | intro _ | split | simp only [Follows.keep] | simp +zetaDelta only [Follows.keep])))
    | lift_lets | (intro (x : Option _); clear_value x)
    | intro _ | split | simp only [Follows.keep] | simp +zetaDelta only [Follows.keep])

theorem State.laserFail_follows {s₀ : State} {s : State} (i : Nat) (h₀ : Follows s₀ s) :
    Follows s₀ (State.laserFail s i) := by
  unfold State.laserFail
  with_reducible repeat' (first
    | assumption | apply setRf_follows | apply eventD_follows | apply chanFail_follows | apply bankLaser_follows
    | (intro (x : State); have hx : Follows s₀ x := (by dsimp only [x]; repeat' (first | assumption | apply setRf_follows | apply eventD_follows | apply chanFail_follows | apply bankLaser_follows | intro _ | split)))
    | lift_lets | (intro (x : Option _); clear_value x)
    | intro _ | split)

theorem State.laserReads_follows {s₀ : State} {s : State} (i : Nat) (bias : Nat) (power : Nat) (h₀ : Follows s₀ s) :
    Follows s₀ (State.laserReads s i bias power) := by
  unfold State.laserReads
  with_reducible repeat' (first
    | assumption | apply setRf_follows
    | intro _ | split | simp only [Follows.keep] | simp +zetaDelta only [Follows.keep])

theorem execLaserFailed_follows {s₀ : State} {s : State} (i : Nat) (bias : Nat) (power : Nat) (h₀ : Follows s₀ s) :
    ResFollows s₀ (execLaserFailed i s bias power) := by
  unfold execLaserFailed
  with_reducible repeat' (first
    | assumption | apply State.laserReads_follows | apply State.laserFail_follows | apply ResFollows.next
    | intro _ | split | simp only [Follows.keep] | simp +zetaDelta only [Follows.keep])

theorem execLaserWorn_follows {s₀ : State} {s : State} (i : Nat) (bias : Nat) (power : Nat) (h₀ : Follows s₀ s) :
    ResFollows s₀ (execLaserWorn i bias s power) := by
  unfold execLaserWorn
  with_reducible repeat' (first
    | assumption | apply State.setRf_follows | apply State.laserReads_follows | apply State.eventD_follows | apply State.modGleed_follows | apply ResFollows.next
    | (intro (x : State); have hx : Follows s₀ x := (by dsimp only [x]; repeat' (first | assumption | apply State.setRf_follows | apply State.laserReads_follows | apply State.eventD_follows | apply State.modGleed_follows | apply ResFollows.next | intro _ | split | simp only [Follows.keep] | simp +zetaDelta only [Follows.keep])))
    | lift_lets | (intro (x : Option _); clear_value x)
    | intro _ | split | simp only [Follows.keep] | simp +zetaDelta only [Follows.keep])

theorem State.rxFail_follows {s₀ : State} {s : State} (d : Nat) (c : Nat) (h : Nat) (h₀ : Follows s₀ s) :
    Follows s₀ (State.rxFail s d c h) := by
  unfold State.rxFail
  with_reducible repeat' (first
    | assumption | apply chanFail_follows | apply setChan_follows | apply quadFault_follows
    | (intro (x : State); have hx : Follows s₀ x := (by dsimp only [x]; repeat' (first | assumption | apply chanFail_follows | apply setChan_follows | apply quadFault_follows | intro _ | split | simp only [Follows.keep] | simp +zetaDelta only [Follows.keep])))
    | lift_lets | (intro (x : Option _); clear_value x)
    | intro _ | split | simp only [Follows.keep] | simp +zetaDelta only [Follows.keep])

theorem State.rxLow_follows {s₀ : State} {s : State} (d : Nat) (c : Nat) (h₀ : Follows s₀ s) :
    Follows s₀ (State.rxLow s d c) := by
  unfold State.rxLow
  with_reducible repeat' (first
    | assumption | apply rxFail_follows | apply modGleed_follows
    | intro _ | split | simp only [Follows.keep] | simp +zetaDelta only [Follows.keep])

theorem execRingLockLost_follows {s₀ : State} {s : State} (d : Nat) (c : Nat) (rx : Bool) (err : Nat) (h₀ : Follows s₀ s) :
    ResFollows s₀ (execRingLockLost d c rx err s) := by
  unfold execRingLockLost
  with_reducible repeat' (first
    | assumption | apply State.setRf_follows | apply State.portEvent_follows | apply State.rxFail_follows | apply State.chanFail_follows | apply ResFollows.next
    | (intro (x : State); have hx : Follows s₀ x := (by dsimp only [x]; repeat' (first | assumption | apply State.setRf_follows | apply State.portEvent_follows | apply State.rxFail_follows | apply State.chanFail_follows | apply ResFollows.next | intro _ | split)))
    | lift_lets | (intro (x : Option _); clear_value x)
    | intro _ | split)

theorem execLightMonitorLow_follows {s₀ : State} {s : State} (d : Nat) (stage : Nat) (c : Nat) (reading : Nat) (h₀ : Follows s₀ s) :
    ResFollows s₀ (execLightMonitorLow d stage c s reading) := by
  unfold execLightMonitorLow
  with_reducible repeat' (first
    | assumption | apply State.portEvent_follows | apply State.setRf_follows | apply State.laserFail_follows | apply State.rxLow_follows | apply State.linkDown_follows | apply State.rxFail_follows | apply State.chanFail_follows | apply ResFollows.next
    | (intro (x : State); have hx : Follows s₀ x := (by dsimp only [x]; repeat' (first | assumption | apply State.portEvent_follows | apply State.setRf_follows | apply State.laserFail_follows | apply State.rxLow_follows | apply State.linkDown_follows | apply State.rxFail_follows | apply State.chanFail_follows | apply ResFollows.next | intro _ | split | simp only [Follows.keep] | simp +zetaDelta only [Follows.keep])))
    | lift_lets | (intro (x : Option _); clear_value x)
    | intro _ | split | simp only [Follows.keep] | simp +zetaDelta only [Follows.keep])

theorem execSignalAbsent_follows {s₀ : State} {s : State} (d : Nat) (h₀ : Follows s₀ s) :
    ResFollows s₀ (execSignalAbsent d s) := by
  unfold execSignalAbsent
  with_reducible repeat' (first
    | assumption | apply State.linkDown_follows | apply State.modGleed_follows | apply State.portEvent_follows | apply ResFollows.next
    | intro _ | split | simp only [Follows.keep] | simp +zetaDelta only [Follows.keep])

theorem execAprProbeTimer_follows {s₀ : State} {s : State} (d : Nat) (h₀ : Follows s₀ s) :
    ResFollows s₀ (execAprProbeTimer d s) := by
  unfold execAprProbeTimer
  with_reducible repeat' (first
    | assumption | apply State.emit_follows | apply ResFollows.next
    | intro _ | split)

theorem execSignalRestored_follows {s₀ : State} {s : State} (d : Nat) (h₀ : Follows s₀ s) :
    ResFollows s₀ (execSignalRestored d s) := by
  unfold execSignalRestored
  with_reducible repeat' (first
    | assumption | apply State.modGleed_follows | apply State.startTraining_follows | apply ResFollows.next
    | (intro (x : State); have hx : Follows s₀ x := (by dsimp only [x]; repeat' (first | assumption | apply State.modGleed_follows | apply State.startTraining_follows | apply ResFollows.next | intro _ | split | simp only [Follows.keep] | simp +zetaDelta only [Follows.keep])))
    | lift_lets | (intro (x : Option _); clear_value x)
    | intro _ | split | simp only [Follows.keep] | simp +zetaDelta only [Follows.keep])

theorem execLaserSectionOutOfRange_follows {s₀ : State} {s : State} (h₀ : Follows s₀ s) :
    ResFollows s₀ (execLaserSectionOutOfRange s) := by
  unfold execLaserSectionOutOfRange
  with_reducible repeat' (first
    | assumption | apply State.event_follows | apply ResFollows.next
    | intro _ | split)

theorem State.osRx_follows {s₀ : State} {s : State} (d : Nat) (os : List Byte) (h₀ : Follows s₀ s) :
    Follows s₀ (State.osRx s d os) := by
  unfold State.osRx
  with_reducible repeat' (first
    | assumption | apply initRx_follows | apply reqRx_follows | apply ackRx_follows | apply pauseRx_follows | apply resumeRx_follows | apply swapReq_follows | apply swapAck_follows | apply swapDoneRx_follows | apply timeReq_follows | apply timeRsp_follows
    | intro _ | split | simp only [Follows.keep] | simp +zetaDelta only [Follows.keep])

theorem State.slotRx_follows {s₀ : State} {s : State} (d : Nat) (b : List Byte) (i : Nat) (h₀ : Follows s₀ s) :
    Follows s₀ (State.slotRx s d b i) := by
  unfold State.slotRx
  with_reducible repeat' (first
    | assumption | apply osRx_follows | apply flitRx_follows
    | (intro (x : State); have hx : Follows s₀ x := (by dsimp only [x]; repeat' (first | assumption | apply osRx_follows | apply flitRx_follows | intro _ | split | simp only [Follows.keep] | simp +zetaDelta only [Follows.keep])))
    | lift_lets | (intro (x : Option _); clear_value x)
    | intro _ | split | simp only [Follows.keep] | simp +zetaDelta only [Follows.keep])

theorem State.unpackLines_follows {s₀ : State} {s : State} (d : Nat) (bs : List (List Byte)) (h₀ : Follows s₀ s) :
    Follows s₀ (State.unpackLines s d bs) := by
  unfold State.unpackLines
  with_reducible repeat' (first
    | assumption | intro (_ : State) _ (_ : Follows _ _) | intro _ (_ : State) (_ : Follows _ _) | apply each_follows | apply slotRx_follows
    | (intro (x : State); have hx : Follows s₀ x := (by dsimp only [x]; repeat' (first | assumption | intro (_ : State) _ (_ : Follows _ _) | intro _ (_ : State) (_ : Follows _ _) | apply each_follows | apply slotRx_follows | intro _ | split | simp only [Follows.keep] | simp +zetaDelta only [Follows.keep])))
    | lift_lets | (intro (x : Option _); clear_value x)
    | intro _ | split | simp only [Follows.keep] | simp +zetaDelta only [Follows.keep])

theorem State.lineRx_follows {s₀ : State} {s : State} (d : Nat) (q : Nat) (b : List Byte) (h₀ : Follows s₀ s) :
    Follows s₀ (State.lineRx s d q b) := by
  unfold State.lineRx
  with_reducible repeat' (first
    | assumption | intro (_ : State) _ (_ : Follows _ _) | intro _ (_ : State) (_ : Follows _ _) | apply unpackLines_follows | apply modGleed_follows | apply Follows.foldl2
    | (intro (x : State); have hx : Follows s₀ x := (by dsimp only [x]; repeat' (first | assumption | intro (_ : State) _ (_ : Follows _ _) | intro _ (_ : State) (_ : Follows _ _) | apply unpackLines_follows | apply modGleed_follows | apply Follows.foldl2 | intro _ | split | simp only [Follows.keep] | simp +zetaDelta only [Follows.keep])))
    | lift_lets | (intro (x : Option _); clear_value x)
    | intro _ | split | simp only [Follows.keep] | simp +zetaDelta only [Follows.keep])

theorem execLineFrameReceived_follows {s₀ : State} {s : State} (d : Nat) (c : Nat) (frame : List Byte) (fec : Bool) (h₀ : Follows s₀ s) :
    ResFollows s₀ (execLineFrameReceived d c frame s fec) := by
  unfold execLineFrameReceived
  with_reducible repeat' (first
    | assumption | apply State.modGleed_follows | apply State.bump_follows | apply State.lineRx_follows | apply State.quadFault_follows | apply ResFollows.next
    | (intro (x : State); have hx : Follows s₀ x := (by dsimp only [x]; repeat' (first | assumption | apply State.modGleed_follows | apply State.bump_follows | apply State.lineRx_follows | apply State.quadFault_follows | apply ResFollows.next | intro _ | split | simp only [Follows.keep] | simp +zetaDelta only [Follows.keep])))
    | lift_lets | (intro (x : Option _); clear_value x)
    | intro _ | split | simp only [Follows.keep] | simp +zetaDelta only [Follows.keep])

theorem State.modQch_follows {s₀ : State} {s : State} (f : Qch → Qch) (h₀ : Follows s₀ s) :
    Follows s₀ (State.modQch s f) := by
  unfold State.modQch
  with_reducible repeat' (first
    | assumption
    | intro _ | split | simp only [Follows.keep] | simp +zetaDelta only [Follows.keep])

theorem State.setSection_follows {s₀ : State} {s : State} (x : Nat) (q : Section) (h₀ : Follows s₀ s) :
    Follows s₀ (State.setSection s x q) := by
  unfold State.setSection
  with_reducible repeat' (first
    | assumption | apply modQch_follows
    | intro _ | split | simp only [Follows.keep] | simp +zetaDelta only [Follows.keep])

theorem State.setValve_follows {s₀ : State} {s : State} (v : Nat) (x : Valve) (h₀ : Follows s₀ s) :
    Follows s₀ (State.setValve s v x) := by
  unfold State.setValve
  with_reducible repeat' (first
    | assumption | apply modQch_follows
    | intro _ | split | simp only [Follows.keep] | simp +zetaDelta only [Follows.keep])

theorem State.pullIn_follows {s₀ : State} {s : State} (v : Nat) (t : Nat) (e : Nat) (h₀ : Follows s₀ s) :
    Follows s₀ (State.pullIn s v t e) := by
  unfold State.pullIn
  with_reducible repeat' (first
    | assumption | apply setValve_follows | apply emit_follows
    | intro _ | split | simp only [Follows.keep] | simp +zetaDelta only [Follows.keep])

theorem State.energise_follows {s₀ : State} {s : State} (v : Nat) (t : Nat) (e : Nat) (h₀ : Follows s₀ s) :
    Follows s₀ (State.energise s v t e) := by
  unfold State.energise
  with_reducible repeat' (first
    | assumption | apply pullIn_follows | apply setValve_follows
    | (intro (x : State); have hx : Follows s₀ x := (by dsimp only [x]; repeat' (first | assumption | apply pullIn_follows | apply setValve_follows | intro _ | split | simp only [Follows.keep] | simp +zetaDelta only [Follows.keep])))
    | lift_lets | (intro (x : Option _); clear_value x)
    | intro _ | split | simp only [Follows.keep] | simp +zetaDelta only [Follows.keep])

theorem State.release_follows {s₀ : State} {s : State} (v : Nat) (t : Nat) (h₀ : Follows s₀ s) :
    Follows s₀ (State.release s v t) := by
  unfold State.release
  with_reducible repeat' (first
    | assumption | apply setValve_follows | apply emit_follows
    | intro _ | split | simp only [Follows.keep] | simp +zetaDelta only [Follows.keep])

theorem State.waitOver_follows {s₀ : State} {s : State} (v : Nat) (h₀ : Follows s₀ s) :
    Follows s₀ (State.waitOver s v) := by
  unfold State.waitOver
  with_reducible repeat' (first
    | assumption | apply pullIn_follows | apply setValve_follows
    | (intro (x : State); have hx : Follows s₀ x := (by dsimp only [x]; repeat' (first | assumption | apply pullIn_follows | apply setValve_follows | intro _ | split | simp only [Follows.keep] | simp +zetaDelta only [Follows.keep])))
    | lift_lets | (intro (x : Option _); clear_value x)
    | intro _ | split | simp only [Follows.keep] | simp +zetaDelta only [Follows.keep])

theorem State.dip_follows {s₀ : State} {s : State} (v : Nat) (d : Option Nat) (h₀ : Follows s₀ s) :
    Follows s₀ (State.dip s v d) := by
  unfold State.dip
  with_reducible repeat' (first
    | assumption | apply setValve_follows | apply event_follows | apply setRf_follows
    | (intro (x : State); have hx : Follows s₀ x := (by dsimp only [x]; repeat' (first | assumption | apply setValve_follows | apply event_follows | apply setRf_follows | intro _ | split | simp only [Follows.keep] | simp +zetaDelta only [Follows.keep])))
    | lift_lets | (intro (x : Option _); clear_value x)
    | intro _ | split | simp only [Follows.keep] | simp +zetaDelta only [Follows.keep])

theorem execValveCycleStart_follows {s₀ : State} {s : State} (v : Nat) (duty : Nat) (meas : Nat) (h₀ : Follows s₀ s) :
    ResFollows s₀ (execValveCycleStart v duty meas s) := by
  unfold execValveCycleStart
  with_reducible repeat' (first
    | assumption | apply State.modQch_follows | apply State.setSection_follows | apply State.energise_follows | apply ResFollows.next
    | (intro (x : State); have hx : Follows s₀ x := (by dsimp only [x]; repeat' (first | assumption | apply State.modQch_follows | apply State.setSection_follows | apply State.energise_follows | apply ResFollows.next | intro _ | split | simp only [Follows.keep] | simp +zetaDelta only [Follows.keep])))
    | lift_lets | (intro (x : Option _); clear_value x)
    | intro _ | split | simp only [Follows.keep] | simp +zetaDelta only [Follows.keep])

theorem execPullTimeEnd_follows {s₀ : State} {s : State} (v : Nat) (closing : Option Nat) (h₀ : Follows s₀ s) :
    ResFollows s₀ (execPullTimeEnd v closing s) := by
  unfold execPullTimeEnd
  with_reducible repeat' (first
    | assumption | apply State.pullIn_follows | apply State.dip_follows | apply State.release_follows | apply State.setValve_follows | apply State.emit_follows | apply ResFollows.next
    | (intro (x : State); have hx : Follows s₀ x := (by dsimp only [x]; repeat' (first | assumption | apply State.pullIn_follows | apply State.dip_follows | apply State.release_follows | apply State.setValve_follows | apply State.emit_follows | apply ResFollows.next | intro _ | split | simp only [Follows.keep] | simp +zetaDelta only [Follows.keep])))
    | lift_lets | (intro (x : Option _); clear_value x)
    | intro _ | split | simp only [Follows.keep] | simp +zetaDelta only [Follows.keep])

theorem execProfileEnd_follows {s₀ : State} {s : State} (v : Nat) (closing : Option Nat) (h₀ : Follows s₀ s) :
    ResFollows s₀ (execProfileEnd v closing s) := by
  unfold execProfileEnd
  with_reducible repeat' (first
    | assumption | apply State.dip_follows | apply State.release_follows | apply ResFollows.next
    | (intro (x : State); have hx : Follows s₀ x := (by dsimp only [x]; repeat' (first | assumption | apply State.dip_follows | apply State.release_follows | apply ResFollows.next | intro _ | split)))
    | lift_lets | (intro (x : Option _); clear_value x)
    | intro _ | split)

theorem execReleaseWaitEnd_follows {s₀ : State} {s : State} (v : Nat) (h₀ : Follows s₀ s) :
    ResFollows s₀ (execReleaseWaitEnd v s) := by
  unfold execReleaseWaitEnd
  with_reducible repeat' (first
    | assumption | apply State.waitOver_follows | apply ResFollows.next
    | intro _ | split)

theorem execForcedOffEnd_follows {s₀ : State} {s : State} (v : Nat) (h₀ : Follows s₀ s) :
    ResFollows s₀ (execForcedOffEnd v s) := by
  unfold execForcedOffEnd
  with_reducible repeat' (first
    | assumption | apply State.waitOver_follows | apply ResFollows.next
    | intro _ | split)

theorem execPullInLimit_follows {s₀ : State} {s : State} (v : Nat) (h₀ : Follows s₀ s) :
    ResFollows s₀ (execPullInLimit v s) := by
  unfold execPullInLimit
  with_reducible repeat' (first
    | assumption | apply State.pullIn_follows | apply State.setValve_follows | apply State.emit_follows | apply State.event_follows | apply ResFollows.next
    | intro _ | split | simp only [Follows.keep] | simp +zetaDelta only [Follows.keep])

theorem execOnTimeLimit_follows {s₀ : State} {s : State} (v : Nat) (h₀ : Follows s₀ s) :
    ResFollows s₀ (execOnTimeLimit v s) := by
  unfold execOnTimeLimit
  with_reducible repeat' (first
    | assumption | apply State.pullIn_follows | apply State.setValve_follows | apply State.emit_follows | apply State.bump_follows | apply State.event_follows | apply ResFollows.next
    | (intro (x : State); have hx : Follows s₀ x := (by dsimp only [x]; repeat' (first | assumption | apply State.pullIn_follows | apply State.setValve_follows | apply State.emit_follows | apply State.bump_follows | apply State.event_follows | apply ResFollows.next | intro _ | split | simp only [Follows.keep] | simp +zetaDelta only [Follows.keep])))
    | lift_lets | (intro (x : Option _); clear_value x)
    | intro _ | split | simp only [Follows.keep] | simp +zetaDelta only [Follows.keep])

theorem execCoilFault_follows {s₀ : State} {s : State} (v : Nat) (h₀ : Follows s₀ s) :
    ResFollows s₀ (execCoilFault v s) := by
  unfold execCoilFault
  with_reducible repeat' (first
    | assumption | apply State.pullIn_follows | apply State.setValve_follows | apply State.emit_follows | apply State.event_follows | apply ResFollows.next
    | (intro (x : State); have hx : Follows s₀ x := (by dsimp only [x]; repeat' (first | assumption | apply State.pullIn_follows | apply State.setValve_follows | apply State.emit_follows | apply State.event_follows | apply ResFollows.next | intro _ | split | simp only [Follows.keep] | simp +zetaDelta only [Follows.keep])))
    | lift_lets | (intro (x : Option _); clear_value x)
    | intro _ | split | simp only [Follows.keep] | simp +zetaDelta only [Follows.keep])

theorem execArmatureNoMotion_follows {s₀ : State} {s : State} (v : Nat) (h₀ : Follows s₀ s) :
    ResFollows s₀ (execArmatureNoMotion v s) := by
  unfold execArmatureNoMotion
  with_reducible repeat' (first
    | assumption | apply State.pullIn_follows | apply State.event_follows | apply ResFollows.next
    | intro _ | split)

theorem State.clearValve_follows {s₀ : State} {s : State} (v : Nat) (h₀ : Follows s₀ s) :
    Follows s₀ (State.clearValve s v) := by
  unfold State.clearValve
  with_reducible repeat' (first
    | assumption | apply setValve_follows
    | intro _ | split | simp only [Follows.keep] | simp +zetaDelta only [Follows.keep])

theorem State.dropHints_follows {s₀ : State} {s : State} (p : Nat) (h₀ : Follows s₀ s) :
    Follows s₀ (State.dropHints s p) := by
  unfold State.dropHints
  with_reducible repeat' (first
    | assumption | apply modPart_follows
    | intro _ | split | simp only [Follows.keep] | simp +zetaDelta only [Follows.keep])

theorem State.runSettle_follows {s₀ : State} {s : State} (x : Nat) (h₀ : Follows s₀ s) :
    Follows s₀ (State.runSettle s x) := by
  unfold State.runSettle
  with_reducible repeat' (first
    | assumption | apply setSection_follows | apply bump_follows | apply event_follows
    | (intro (x : State); have hx : Follows s₀ x := (by dsimp only [x]; repeat' (first | assumption | apply setSection_follows | apply bump_follows | apply event_follows | intro _ | split | simp only [Follows.keep] | simp +zetaDelta only [Follows.keep])))
    | lift_lets | (intro (x : Option _); clear_value x)
    | intro _ | split | simp only [Follows.keep] | simp +zetaDelta only [Follows.keep])

theorem execForecastTick_follows {s₀ : State} {s : State} (heat : List (List (List Nat))) (meas : List Nat) (h₀ : Follows s₀ s) :
    ResFollows s₀ (execForecastTick heat meas s) := by
  unfold execForecastTick
  with_reducible repeat' (first
    | assumption | intro (_ : State) _ (_ : Follows _ _) | apply State.each_follows | apply State.dropHints_follows | apply State.setSection_follows | apply State.modQch_follows | apply State.runSettle_follows | apply ResFollows.next
    | (intro (x : State); have hx : Follows s₀ x := (by dsimp only [x]; repeat' (first | assumption | intro (_ : State) _ (_ : Follows _ _) | apply State.each_follows | apply State.dropHints_follows | apply State.setSection_follows | apply State.modQch_follows | apply State.runSettle_follows | apply ResFollows.next | intro _ | split | simp only [Follows.keep] | simp +zetaDelta only [Follows.keep])))
    | lift_lets | (intro (x : Option _); clear_value x)
    | intro _ | split | simp only [Follows.keep] | simp +zetaDelta only [Follows.keep])

theorem execForecastSilence_follows {s₀ : State} {s : State} (h₀ : Follows s₀ s) :
    ResFollows s₀ (execForecastSilence s) := by
  unfold execForecastSilence
  with_reducible repeat' (first
    | assumption | intro (_ : State) _ (_ : Follows _ _) | apply State.modQch_follows | apply State.each_follows | apply State.runSettle_follows | apply ResFollows.next
    | intro _ | split | simp only [Follows.keep] | simp +zetaDelta only [Follows.keep])

theorem State.takeHints_follows {s₀ : State} (p : Nat) (l : List (List Byte)) {s : State} (n : Nat) (h : Follows s₀ s) :
    Follows s₀ (s.takeHints p l n).2 := by
  induction l generalizing s n with
  | nil => exact h
  | cons b bs ih =>
    unfold State.takeHints
    with_reducible repeat' (first | assumption | apply ih | apply modPart_follows | apply event_follows | apply bump_follows | lift_lets | intro _ | split)

theorem execThermalHint_follows {s₀ : State} {s : State} (k : Nat) (h₀ : Follows s₀ s) :
    ResFollows s₀ (execThermalHint k s) := by
  unfold execThermalHint
  with_reducible repeat' (first
    | assumption | intro _ (_ : State) (_ : Follows _ _) | apply runOp_follows | apply State.dropHints_follows | apply State.load_follows | apply State.failEv_follows | apply State.takeHints_follows | apply State.done_follows | apply ResFollows.next | apply Follows.pair ‹_ = (_, _)›
    | (intro (x : State); have hx : Follows s₀ x := (by dsimp only [x]; repeat' (first | assumption | intro _ (_ : State) (_ : Follows _ _) | apply runOp_follows | apply State.dropHints_follows | apply State.load_follows | apply State.failEv_follows | apply State.takeHints_follows | apply State.done_follows | apply ResFollows.next | apply Follows.pair ‹_ = (_, _)› | intro _ | split | simp only [Follows.keep] | simp +zetaDelta only [Follows.keep])))
    | lift_lets | (intro (x : Option _); clear_value x)
    | intro _ | split | simp only [Follows.keep] | simp +zetaDelta only [Follows.keep])

theorem State.tripWork_follows {s₀ : State} {s : State} (h₀ : Follows s₀ s) :
    Follows s₀ (State.tripWork s) := by
  unfold State.tripWork
  with_reducible repeat' (first
    | assumption | intro (_ : State) _ (_ : Follows _ _) | intro _ (_ : State) (_ : Follows _ _) | apply each_follows | apply haltTong_follows | apply haltAnvil_follows | apply bumpBy_follows | apply haltWorks_follows
    | (intro (x : State); have hx : Follows s₀ x := (by dsimp only [x]; repeat' (first | assumption | intro (_ : State) _ (_ : Follows _ _) | intro _ (_ : State) (_ : Follows _ _) | apply each_follows | apply haltTong_follows | apply haltAnvil_follows | apply bumpBy_follows | apply haltWorks_follows | intro _ | split | simp only [Follows.keep] | simp +zetaDelta only [Follows.keep])))
    | lift_lets | (intro (x : Option _); clear_value x)
    | intro _ | split | simp only [Follows.keep] | simp +zetaDelta only [Follows.keep])

theorem State.toLevel_follows {s₀ : State} {s : State} (x : Nat) (l : Nat) (h₀ : Follows s₀ s) :
    Follows s₀ (State.toLevel s x l) := by
  unfold State.toLevel
  with_reducible repeat' (first
    | assumption | intro (_ : State) _ (_ : Follows _ _) | apply setSection_follows | apply event_follows | apply bump_follows | apply each_follows | apply bankFall_follows | apply blockLift_follows | apply tripWork_follows
    | (intro (x : State); have hx : Follows s₀ x := (by dsimp only [x]; repeat' (first | assumption | intro (_ : State) _ (_ : Follows _ _) | apply setSection_follows | apply event_follows | apply bump_follows | apply each_follows | apply bankFall_follows | apply blockLift_follows | apply tripWork_follows | intro _ | split | simp only [Follows.keep] | simp +zetaDelta only [Follows.keep])))
    | lift_lets | (intro (x : Option _); clear_value x)
    | intro _ | split | simp only [Follows.keep] | simp +zetaDelta only [Follows.keep])

theorem execSectionTempSample_follows {s₀ : State} {s : State} (x : Nat) (t : Nat) (ma : Nat) (h₀ : Follows s₀ s) :
    ResFollows s₀ (execSectionTempSample x t ma s) := by
  unfold execSectionTempSample
  with_reducible repeat' (first
    | assumption | apply State.setSection_follows | apply State.setRf_follows | apply State.toLevel_follows | apply ResFollows.next
    | (intro (x : State); have hx : Follows s₀ x := (by dsimp only [x]; repeat' (first | assumption | apply State.setSection_follows | apply State.setRf_follows | apply State.toLevel_follows | apply ResFollows.next | intro _ | split | simp only [Follows.keep] | simp +zetaDelta only [Follows.keep])))
    | lift_lets | (intro (x : Option _); clear_value x)
    | intro _ | split | simp only [Follows.keep] | simp +zetaDelta only [Follows.keep])

theorem execTempSourceFault_follows {s₀ : State} {s : State} (x : Nat) (h₀ : Follows s₀ s) :
    ResFollows s₀ (execTempSourceFault x s) := by
  unfold execTempSourceFault
  with_reducible repeat' (first
    | assumption | apply State.event_follows | apply State.setSection_follows | apply ResFollows.next
    | (intro (x : State); have hx : Follows s₀ x := (by dsimp only [x]; repeat' (first | assumption | apply State.event_follows | apply State.setSection_follows | apply ResFollows.next | intro _ | split | simp only [Follows.keep] | simp +zetaDelta only [Follows.keep])))
    | lift_lets | (intro (x : Option _); clear_value x)
    | intro _ | split | simp only [Follows.keep] | simp +zetaDelta only [Follows.keep])

theorem execThrottleStepPeriod_follows {s₀ : State} {s : State} (h₀ : Follows s₀ s) :
    ResFollows s₀ (execThrottleStepPeriod s) := by
  unfold execThrottleStepPeriod
  with_reducible repeat' (first
    | assumption | intro (_ : State) _ (_ : Follows _ _) | apply State.each_follows | apply State.setSection_follows | apply ResFollows.next
    | (intro (x : State); have hx : Follows s₀ x := (by dsimp only [x]; repeat' (first | assumption | intro (_ : State) _ (_ : Follows _ _) | apply State.each_follows | apply State.setSection_follows | apply ResFollows.next | intro _ | split | simp only [Follows.keep] | simp +zetaDelta only [Follows.keep])))
    | lift_lets | (intro (x : Option _); clear_value x)
    | intro _ | split | simp only [Follows.keep] | simp +zetaDelta only [Follows.keep])

theorem execStopHoldTimeout_follows {s₀ : State} {s : State} (k : Nat) (h₀ : Follows s₀ s) :
    ResFollows s₀ (execStopHoldTimeout k s) := by
  unfold execStopHoldTimeout
  with_reducible repeat' (first
    | assumption | apply State.failPkt_follows | apply State.bump_follows | apply ResFollows.next
    | intro _ | split | simp only [Follows.keep] | simp +zetaDelta only [Follows.keep])

theorem State.calibrate_follows {s₀ : State} {s : State} (h₀ : Follows s₀ s) :
    Follows s₀ (State.calibrate s) := by
  unfold State.calibrate
  with_reducible repeat' (first
    | assumption | apply event_follows | apply modQch_follows
    | intro _ | split | simp only [Follows.keep] | simp +zetaDelta only [Follows.keep])

theorem execQchCalibrationDone_follows {s₀ : State} {s : State} (closing : Nat) (opening : Nat) (transit : Nat) (idle : Nat) (h₀ : Follows s₀ s) :
    ResFollows s₀ (execQchCalibrationDone closing opening transit idle s) := by
  unfold execQchCalibrationDone
  with_reducible repeat' (first
    | assumption | apply State.event_follows | apply State.setReg_follows | apply State.setValve_follows | apply State.setSection_follows | apply State.modQch_follows | apply State.ownAsk_follows | apply ResFollows.next
    | (intro (x : State); have hx : Follows s₀ x := (by dsimp only [x]; repeat' (first | assumption | apply State.event_follows | apply State.setReg_follows | apply State.setValve_follows | apply State.setSection_follows | apply State.modQch_follows | apply State.ownAsk_follows | apply ResFollows.next | intro _ | split | simp only [Follows.keep] | simp +zetaDelta only [Follows.keep])))
    | lift_lets | (intro (x : Option _); clear_value x)
    | intro _ | split | simp only [Follows.keep] | simp +zetaDelta only [Follows.keep])

end Sys2Proof.Machine
end

