-- ==== Sys2Proof/Laws/FollowPower.lean ====
section
/-! SUPPORT. Follow lemmas: register-write operations, and partition, recorder, sideband and stream commands follow. -/
namespace Sys2Proof.Machine

theorem State.illegal_follows {s₀ : State} {s : State} (fn : Nat) (d : RegDesc) (i : Nat) (j : Nat) (h₀ : Follows s₀ s) :
    Follows s₀ (State.illegal s fn d i j) := by
  unfold State.illegal
  with_reducible repeat' (first
    | assumption | apply event_follows
    | intro _ | split | simp only [Follows.keep] | simp +zetaDelta only [Follows.keep])

theorem State.carveEvent_follows {s₀ : State} {s : State} (p : Nat) (h₀ : Follows s₀ s) :
    Follows s₀ (State.carveEvent s p) := by
  unfold State.carveEvent
  with_reducible repeat' (first
    | assumption | apply event_follows
    | intro _ | split)

theorem State.setLock_follows {s₀ : State} {s : State} (p : Nat) (h₀ : Follows s₀ s) :
    Follows s₀ (State.setLock s p) := by
  unfold State.setLock
  with_reducible repeat' (first
    | assumption | apply eventD_follows | apply modPart_follows | apply keptBells_follows
    | intro _ | split | simp only [Follows.keep] | simp +zetaDelta only [Follows.keep])

theorem State.prtControl_follows {s₀ : State} {s : State} (fn : Nat) (p : Nat) (v : Nat) (h₀ : Follows s₀ s) :
    Follows s₀ (State.prtControl s fn p v) := by
  unfold State.prtControl
  with_reducible repeat' (first
    | assumption | apply setLock_follows | apply carveEvent_follows | apply resetPart_follows
    | (intro (x : State); have hx : Follows s₀ x := (by dsimp only [x]; repeat' (first | assumption | apply setLock_follows | apply carveEvent_follows | apply resetPart_follows | intro _ | split)))
    | lift_lets | (intro (x : Option _); clear_value x)
    | intro _ | split)

theorem State.anvilMask_follows {s₀ : State} {s : State} (p : Nat) (old : Nat) (new : Nat) (h₀ : Follows s₀ s) :
    Follows s₀ (State.anvilMask s p old new) := by
  unfold State.anvilMask
  with_reducible repeat' (first
    | assumption | intro (_ : State) _ (_ : Follows _ _) | apply each_follows | apply setAnvil_follows
    | (intro (x : State); have hx : Follows s₀ x := (by dsimp only [x]; repeat' (first | assumption | intro (_ : State) _ (_ : Follows _ _) | apply each_follows | apply setAnvil_follows | intro _ | split | simp only [Follows.keep] | simp +zetaDelta only [Follows.keep])))
    | lift_lets | (intro (x : Option _); clear_value x)
    | intro _ | split | simp only [Follows.keep] | simp +zetaDelta only [Follows.keep])

theorem State.handGranule_follows {s₀ : State} {s : State} (g : Nat) (old : Nat) (new : Nat) (h₀ : Follows s₀ s) :
    Follows s₀ (State.handGranule s g old new) := by
  unfold State.handGranule
  with_reducible repeat' (first
    | assumption | apply setRf_follows | apply zeroGranule_follows
    | (intro (x : State); have hx : Follows s₀ x := (by dsimp only [x]; repeat' (first | assumption | apply setRf_follows | apply zeroGranule_follows | intro _ | split | simp only [Follows.keep] | simp +zetaDelta only [Follows.keep])))
    | lift_lets | (intro (x : Option _); clear_value x)
    | intro _ | split | simp only [Follows.keep] | simp +zetaDelta only [Follows.keep])

theorem State.portCfg_follows {s₀ : State} {s : State} (d : Nat) (old : Nat) (new : Nat) (h₀ : Follows s₀ s) :
    Follows s₀ (State.portCfg s d old new) := by
  unfold State.portCfg
  with_reducible repeat' (first
    | assumption | apply setReg_follows | apply fencePort_follows | apply modLink_follows
    | (intro (x : State); have hx : Follows s₀ x := (by dsimp only [x]; repeat' (first | assumption | apply setReg_follows | apply fencePort_follows | apply modLink_follows | intro _ | split | simp only [Follows.keep] | simp +zetaDelta only [Follows.keep])))
    | lift_lets | (intro (x : Option _); clear_value x)
    | intro _ | split | simp only [Follows.keep] | simp +zetaDelta only [Follows.keep])

theorem State.linkControl_follows {s₀ : State} {s : State} (d : Nat) (old : Nat) (new : Nat) (v : Nat) (h₀ : Follows s₀ s) :
    Follows s₀ (State.linkControl s d old new v) := by
  unfold State.linkControl
  with_reducible repeat' (first
    | assumption | apply setReg_follows | apply startReq_follows | apply setRf_follows | apply linkDown_follows
    | (intro (x : State); have hx : Follows s₀ x := (by dsimp only [x]; repeat' (first | assumption | apply setReg_follows | apply startReq_follows | apply setRf_follows | apply linkDown_follows | intro _ | split)))
    | lift_lets | (intro (x : Option _); clear_value x)
    | intro _ | split)

theorem State.sqConfig_follows {s₀ : State} {s : State} (p : Nat) (i : Nat) (old : Nat) (new : Nat) (h₀ : Follows s₀ s) :
    Follows s₀ (State.sqConfig s p i old new) := by
  unfold State.sqConfig
  with_reducible repeat' (first
    | assumption | apply setReg_follows | apply setSq_follows
    | (intro (x : State); have hx : Follows s₀ x := (by dsimp only [x]; repeat' (first | assumption | apply setReg_follows | apply setSq_follows | intro _ | split | simp only [Follows.keep] | simp +zetaDelta only [Follows.keep])))
    | lift_lets | (intro (x : Option _); clear_value x)
    | intro _ | split | simp only [Follows.keep] | simp +zetaDelta only [Follows.keep])

theorem State.cqConfig_follows {s₀ : State} {s : State} (p : Nat) (j : Nat) (old : Nat) (new : Nat) (h₀ : Follows s₀ s) :
    Follows s₀ (State.cqConfig s p j old new) := by
  unfold State.cqConfig
  with_reducible repeat' (first
    | assumption | apply setReg_follows | apply setCq_follows
    | (intro (x : State); have hx : Follows s₀ x := (by dsimp only [x]; repeat' (first | assumption | apply setReg_follows | apply setCq_follows | intro _ | split | simp only [Follows.keep] | simp +zetaDelta only [Follows.keep])))
    | lift_lets | (intro (x : Option _); clear_value x)
    | intro _ | split | simp only [Follows.keep] | simp +zetaDelta only [Follows.keep])

theorem State.reseed_follows {s₀ : State} {s : State} (p : Nat) (seed : Nat) (h₀ : Follows s₀ s) :
    Follows s₀ (State.reseed s p seed) := by
  unfold State.reseed
  with_reducible repeat' (first
    | assumption | intro (_ : State) _ (_ : Follows _ _) | intro _ (_ : State) (_ : Follows _ _) | apply each_follows | apply setAnvil_follows
    | (intro (x : State); have hx : Follows s₀ x := (by dsimp only [x]; repeat' (first | assumption | intro (_ : State) _ (_ : Follows _ _) | intro _ (_ : State) (_ : Follows _ _) | apply each_follows | apply setAnvil_follows | intro _ | split | simp only [Follows.keep] | simp +zetaDelta only [Follows.keep])))
    | lift_lets | (intro (x : Option _); clear_value x)
    | intro _ | split | simp only [Follows.keep] | simp +zetaDelta only [Follows.keep])

theorem State.moveCursor_follows {s₀ : State} {s : State} (fn : Nat) (v : Nat) (h₀ : Follows s₀ s) :
    Follows s₀ (State.moveCursor s fn v) := by
  unfold State.moveCursor
  with_reducible repeat' (first
    | assumption | apply setReg_follows
    | (intro (x : State); have hx : Follows s₀ x := (by dsimp only [x]; repeat' (first | assumption | apply setReg_follows | intro _ | split | simp only [Follows.keep] | simp +zetaDelta only [Follows.keep])))
    | lift_lets | (intro (x : Option _); clear_value x)
    | intro _ | split | simp only [Follows.keep] | simp +zetaDelta only [Follows.keep])

theorem State.evrControl_follows {s₀ : State} {s : State} (v : Nat) (h₀ : Follows s₀ s) :
    Follows s₀ (State.evrControl s v) := by
  unfold State.evrControl
  with_reducible repeat' (first
    | assumption | apply clearRecorder_follows | apply startPersist_follows | apply setRf_follows
    | (intro (x : State); have hx : Follows s₀ x := (by dsimp only [x]; repeat' (first | assumption | apply clearRecorder_follows | apply startPersist_follows | apply setRf_follows | intro _ | split)))
    | lift_lets | (intro (x : Option _); clear_value x)
    | intro _ | split)

theorem State.valveConfig_follows {s₀ : State} {s : State} (v : Nat) (old : Nat) (new : Nat) (w : Nat) (h₀ : Follows s₀ s) :
    Follows s₀ (State.valveConfig s v old new w) := by
  unfold State.valveConfig
  with_reducible repeat' (first
    | assumption | apply setReg_follows | apply setValve_follows | apply setRf_follows | apply clearValve_follows
    | (intro (x : State); have hx : Follows s₀ x := (by dsimp only [x]; repeat' (first | assumption | apply setReg_follows | apply setValve_follows | apply setRf_follows | apply clearValve_follows | intro _ | split | simp only [Follows.keep] | simp +zetaDelta only [Follows.keep])))
    | lift_lets | (intro (x : Option _); clear_value x)
    | intro _ | split | simp only [Follows.keep] | simp +zetaDelta only [Follows.keep])

theorem State.unhold_follows {s₀ : State} {s : State} (h₀ : Follows s₀ s) :
    Follows s₀ (State.unhold s) := by
  unfold State.unhold
  with_reducible repeat' (first
    | assumption | apply setRf_follows | apply goReady_follows | refine stage_follows _ _ _ _ _ ?_ ‹_ = some _›
    | (intro (x : State); have hx : Follows s₀ x := (by dsimp only [x]; repeat' (first | assumption | apply setRf_follows | apply goReady_follows | refine stage_follows _ _ _ _ _ ?_ ‹_ = some _› | intro _ | split)))
    | lift_lets | (intro (x : Option _); clear_value x)
    | intro _ | split)

theorem State.effect_follows {s₀ : State} {s : State} (fn : Nat) (d : RegDesc) (i : Nat) (j : Nat) (a : Nat) (old : Nat) (new : Nat) (v : Nat) (h₀ : Follows s₀ s) :
    Follows s₀ (State.effect s fn d i j a old new v) := by
  unfold State.effect
  with_reducible repeat' (first
    | assumption | intro (_ : State) _ (_ : Follows _ _) | intro _ (_ : State) (_ : Follows _ _) | apply chipReset_follows | apply unhold_follows | apply setReg_follows | apply each_follows | apply issueMore_follows | apply prtControl_follows | apply anvilMask_follows | apply sqConfig_follows | apply cqConfig_follows | apply sqStop_follows | apply sqRestart_follows | apply sqDoorbell_follows | apply cqDoorbell_follows | apply proxyBell_follows | apply reseed_follows | apply handGranule_follows | apply semWrite_follows | apply semSignal_follows | apply setSem_follows | apply linkControl_follows | apply portCfg_follows | apply setRf_follows | apply setTarget_follows | apply runSettle_follows | apply calibrate_follows | apply valveConfig_follows | apply evrControl_follows | apply moveCursor_follows | apply setEvr_follows
    | (intro (x : State); have hx : Follows s₀ x := (by dsimp only [x]; repeat' (first | assumption | intro (_ : State) _ (_ : Follows _ _) | intro _ (_ : State) (_ : Follows _ _) | apply chipReset_follows | apply unhold_follows | apply setReg_follows | apply each_follows | apply issueMore_follows | apply prtControl_follows | apply anvilMask_follows | apply sqConfig_follows | apply cqConfig_follows | apply sqStop_follows | apply sqRestart_follows | apply sqDoorbell_follows | apply cqDoorbell_follows | apply proxyBell_follows | apply reseed_follows | apply handGranule_follows | apply semWrite_follows | apply semSignal_follows | apply setSem_follows | apply linkControl_follows | apply portCfg_follows | apply setRf_follows | apply setTarget_follows | apply runSettle_follows | apply calibrate_follows | apply valveConfig_follows | apply evrControl_follows | apply moveCursor_follows | apply setEvr_follows | intro _ | split | simp only [Follows.keep] | simp +zetaDelta only [Follows.keep])))
    | lift_lets | (intro (x : Option _); clear_value x)
    | intro _ | split | simp only [Follows.keep] | simp +zetaDelta only [Follows.keep])

theorem State.vfReadOnly_follows {s₀ : State} {s : State} (fn : Nat) (d : RegDesc) (old : Nat) (v : Nat) (h₀ : Follows s₀ s) :
    Follows s₀ (State.vfReadOnly s fn d old v) := by
  unfold State.vfReadOnly
  with_reducible repeat' (first
    | assumption | apply event_follows | apply carveEvent_follows
    | intro _ | split)

theorem State.applyWrite_follows {s₀ : State} {s : State} (fn : Nat) (d : RegDesc) (i : Nat) (j : Nat) (a : Nat) (v : Nat) (h₀ : Follows s₀ s) :
    Follows s₀ (State.applyWrite s fn d i j a v) := by
  unfold State.applyWrite
  with_reducible repeat' (first
    | assumption | apply carveEvent_follows | apply illegal_follows | apply effect_follows
    | (intro (x : State); have hx : Follows s₀ x := (by dsimp only [x]; repeat' (first | assumption | apply carveEvent_follows | apply illegal_follows | apply effect_follows | intro _ | split | simp only [Follows.keep] | simp +zetaDelta only [Follows.keep])))
    | lift_lets | (intro (x : Option _); clear_value x)
    | intro _ | split | simp only [Follows.keep] | simp +zetaDelta only [Follows.keep])

theorem State.writeAt_follows {s₀ : State} {s : State} (fn : Nat) (a : Nat) (v : Nat) (h₀ : Follows s₀ s) :
    Follows s₀ (State.writeAt s fn a v) := by
  unfold State.writeAt
  with_reducible repeat' (first
    | assumption | apply applyWrite_follows | apply event_follows | apply vfReadOnly_follows
    | intro _ | split | simp only [Follows.keep] | simp +zetaDelta only [Follows.keep])

theorem State.writeTable_follows {s₀ : State} {s : State} (fn : Nat) (w : Nat) (v : Nat) (h₀ : Follows s₀ s) :
    Follows s₀ (State.writeTable s fn w v) := by
  unfold State.writeTable
  with_reducible repeat' (first
    | assumption | apply setFn_follows | apply flushMsix_follows
    | (intro (x : State); have hx : Follows s₀ x := (by dsimp only [x]; repeat' (first | assumption | apply setFn_follows | apply flushMsix_follows | intro _ | split | simp only [Follows.keep] | simp +zetaDelta only [Follows.keep])))
    | lift_lets | (intro (x : Option _); clear_value x)
    | intro _ | split | simp only [Follows.keep] | simp +zetaDelta only [Follows.keep])

theorem State.writeWord_follows {s₀ : State} {s : State} (fn : Nat) (off : Nat) (v : Nat) (h₀ : Follows s₀ s) :
    Follows s₀ (State.writeWord s fn off v) := by
  unfold State.writeWord
  with_reducible repeat' (first
    | assumption | apply bar0Refused_follows | apply event_follows | apply writeTable_follows | apply writeAt_follows
    | intro _ | split | simp only [Follows.keep] | simp +zetaDelta only [Follows.keep])

theorem State.hostAct_follows {s₀ s : State} (r : HostReq) (h : Follows s₀ s) : Follows s₀ (s.hostAct r) := by
  cases r with
  | bar2Read fn a n ecc => exact barRead_follows _ _ _ (eccFinds_follows _ h)
  | bar2Write fn a d ecc =>
    cases e : s.barReset fn a d.length with
    | some p => simp only [State.hostAct, e]; exact event_follows _ _ _ h
    | none => simp only [State.hostAct, e]; exact barWrite_follows _ _ _ _ h
  | regWrite fn a v => exact writeAt_follows _ _ _ h
  | wordWrite fn off v => exact writeWord_follows _ _ _ h
  | wordRead fn a n => exact bar0Read_follows _ _ _ h
  | refused fn a n w => exact bar0Illegal_follows _ _ _ _ h
  | unmask fn v => exact unmaskVec_follows _ _ h
  | config fn field val => exact configWrite_follows _ _ _ h
  | vfs e n => exact vfEnableWrite_follows _ _ h
  | flr v => exact flr_follows _ h

theorem State.hostReq_follows {s₀ : State} {s : State} (r : HostReq) (h₀ : Follows s₀ s) :
    Follows s₀ (State.hostReq s r) := by
  unfold State.hostReq
  with_reducible repeat' (first
    | assumption | apply hostAct_follows
    | intro _ | split | simp only [Follows.keep] | simp +zetaDelta only [Follows.keep])

theorem State.serveHost_follows {s₀ : State} {s : State} (h₀ : Follows s₀ s) :
    Follows s₀ (State.serveHost s) := by
  unfold State.serveHost
  with_reducible repeat' (first
    | assumption | intro (_ : State) _ (_ : Follows _ _) | intro _ (_ : State) (_ : Follows _ _) | apply each_follows | apply hostReq_follows
    | (intro (x : State); have hx : Follows s₀ x := (by dsimp only [x]; repeat' (first | assumption | intro (_ : State) _ (_ : Follows _ _) | intro _ (_ : State) (_ : Follows _ _) | apply each_follows | apply hostReq_follows | intro _ | split | simp only [Follows.keep] | simp +zetaDelta only [Follows.keep])))
    | lift_lets | (intro (x : Option _); clear_value x)
    | intro _ | split | simp only [Follows.keep] | simp +zetaDelta only [Follows.keep])

theorem State.hostWrites_follows {s₀ : State} {s : State} (fn : Nat) (a : Nat) (v : Nat) (h₀ : Follows s₀ s) :
    Follows s₀ (State.hostWrites s fn a v) := by
  unfold State.hostWrites
  with_reducible repeat' (first
    | assumption | apply hostReq_follows
    | intro _ | split | simp only [Follows.keep] | simp +zetaDelta only [Follows.keep])

theorem execPartitionResetDone_follows {s₀ : State} {s : State} (p : Nat) (h₀ : Follows s₀ s) :
    ResFollows s₀ (execPartitionResetDone p s) := by
  unfold execPartitionResetDone
  with_reducible repeat' (first
    | assumption | apply State.partResetDone_follows | apply State.serveHost_follows | apply ResFollows.next
    | intro _ | split | simp only [Follows.keep] | simp +zetaDelta only [Follows.keep])

theorem execPartitionStateLost_follows {s₀ : State} {s : State} (p : Nat) (h₀ : Follows s₀ s) :
    ResFollows s₀ (execPartitionStateLost p s) := by
  unfold execPartitionStateLost
  with_reducible repeat' (first
    | assumption | apply State.faultPartition_follows | apply ResFollows.next
    | intro _ | split)

theorem execGranuleZeroingDone_follows {s₀ : State} {s : State} (g : Nat) (h₀ : Follows s₀ s) :
    ResFollows s₀ (execGranuleZeroingDone g s) := by
  unfold execGranuleZeroingDone
  with_reducible repeat' (first
    | assumption | apply State.serveHost_follows | apply ResFollows.next
    | intro _ | split | simp only [Follows.keep] | simp +zetaDelta only [Follows.keep])

theorem State.handAnvil_follows {s₀ : State} {s : State} (a : Nat) (o : Nat) (h₀ : Follows s₀ s) :
    Follows s₀ (State.handAnvil s a o) := by
  unfold State.handAnvil
  with_reducible repeat' (first
    | assumption | intro (_ : State) _ (_ : Follows _ _) | apply each_follows | apply setRf_follows | apply setAnvil_follows
    | (intro (x : State); have hx : Follows s₀ x := (by dsimp only [x]; repeat' (first | assumption | intro (_ : State) _ (_ : Follows _ _) | apply each_follows | apply setRf_follows | apply setAnvil_follows | intro _ | split | simp only [Follows.keep] | simp +zetaDelta only [Follows.keep])))
    | lift_lets | (intro (x : Option _); clear_value x)
    | intro _ | split | simp only [Follows.keep] | simp +zetaDelta only [Follows.keep])

theorem execAnvilClearingDone_follows {s₀ : State} {s : State} (a : Nat) (h₀ : Follows s₀ s) :
    ResFollows s₀ (execAnvilClearingDone a s) := by
  unfold execAnvilClearingDone
  with_reducible repeat' (first
    | assumption | apply State.handAnvil_follows | apply ResFollows.next
    | intro _ | split | simp only [Follows.keep] | simp +zetaDelta only [Follows.keep])

theorem execScrubRead_follows {s₀ : State} {s : State} (find : Nat) (h₀ : Follows s₀ s) :
    ResFollows s₀ (execScrubRead find s) := by
  unfold execScrubRead
  with_reducible repeat' (first
    | assumption | apply State.eccHearth_follows | apply ResFollows.next
    | (intro (x : State); have hx : Follows s₀ x := (by dsimp only [x]; repeat' (first | assumption | apply State.eccHearth_follows | apply ResFollows.next | intro _ | split | simp only [Follows.keep] | simp +zetaDelta only [Follows.keep])))
    | lift_lets | (intro (x : Option _); clear_value x)
    | intro _ | split | simp only [Follows.keep] | simp +zetaDelta only [Follows.keep])

theorem execChipFatalFault_follows {s₀ : State} {s : State} (cause : Nat) (book : Nat) (h₀ : Follows s₀ s) :
    ResFollows s₀ (execChipFatalFault cause book s) := by
  unfold execChipFatalFault
  with_reducible repeat' (first
    | assumption | apply State.chipFatal_follows | apply ResFollows.next
    | intro _ | split)

theorem execFatalResetTimeout_follows {s₀ : State} {s : State} (h₀ : Follows s₀ s) :
    ResFollows s₀ (execFatalResetTimeout s) := by
  unfold execFatalResetTimeout
  with_reducible repeat' (first
    | assumption | apply State.fatalStep_follows | apply ResFollows.next
    | intro _ | split | simp only [Follows.keep] | simp +zetaDelta only [Follows.keep])

theorem execFatalCountExpiry_follows {s₀ : State} {s : State} (h₀ : Follows s₀ s) :
    ResFollows s₀ (execFatalCountExpiry s) := by
  unfold execFatalCountExpiry
  with_reducible repeat' (first
    | assumption | apply State.setRf_follows | apply ResFollows.next
    | intro _ | split)

theorem execPowerCap_follows {s₀ : State} {s : State} (k : Nat) (h₀ : Follows s₀ s) :
    ResFollows s₀ (execPowerCap k s) := by
  unfold execPowerCap
  with_reducible repeat' (first
    | assumption | intro _ (_ : State) (_ : Follows _ _) | apply runOp_follows | apply State.setReg_follows | apply ResFollows.next
    | intro _ | split)

theorem execPowerRead_follows {s₀ : State} {s : State} (k : Nat) (h₀ : Follows s₀ s) :
    ResFollows s₀ (execPowerRead k s) := by
  unfold execPowerRead
  with_reducible repeat' (first
    | assumption | intro _ (_ : State) (_ : Follows _ _) | apply runOp_follows | apply State.done_follows | apply ResFollows.next
    | (intro (x : State); have hx : Follows s₀ x := (by dsimp only [x]; repeat' (first | assumption | intro _ (_ : State) (_ : Follows _ _) | apply runOp_follows | apply State.done_follows | apply ResFollows.next | intro _ | split)))
    | lift_lets | (intro (x : Option _); clear_value x)
    | intro _ | split)

theorem State.record_follows {s₀ : State} {s : State} (e : Ev) (h₀ : Follows s₀ s) :
    Follows s₀ (State.record s e) := by
  unfold State.record
  with_reducible repeat' (first
    | assumption | apply setEvr_follows | apply bump_follows | apply loseRecord_follows | apply storeRecord_follows
    | intro _ | split | simp only [Follows.keep] | simp +zetaDelta only [Follows.keep])

theorem execEvrEventTaken_follows {s₀ : State} {s : State} (h₀ : Follows s₀ s) :
    ResFollows s₀ (execEvrEventTaken s) := by
  unfold execEvrEventTaken
  with_reducible repeat' (first
    | assumption | apply State.setEvr_follows | apply State.record_follows | apply ResFollows.next
    | intro _ | split | simp only [Follows.keep] | simp +zetaDelta only [Follows.keep])

theorem execEvrTokenRefill_follows {s₀ : State} {s : State} (code : Nat) (h₀ : Follows s₀ s) :
    ResFollows s₀ (execEvrTokenRefill code s) := by
  unfold execEvrTokenRefill
  with_reducible repeat' (first
    | assumption | apply State.setEvr_follows | apply ResFollows.next
    | intro _ | split | simp only [Follows.keep] | simp +zetaDelta only [Follows.keep])

theorem State.arcErase_follows {s₀ : State} {s : State} (n : Nat) (h₀ : Follows s₀ s) :
    Follows s₀ (State.arcErase s n) := by
  unfold State.arcErase
  with_reducible repeat' (first
    | assumption | apply ledgerRoom_follows | apply eraseLogged_follows | apply setNvs_follows
    | intro _ | exact ⟨rfl, rfl, rfl⟩ | (refine ⟨?_, ?_, ?_⟩ <;> repeat' (first | rfl | split)) | split | simp only [Follows.keep] | simp +zetaDelta only [Follows.keep])

theorem State.arcOpenNext_follows {s₀ : State} {s : State} (h₀ : Follows s₀ s) :
    Follows s₀ (State.arcOpenNext s) := by
  unfold State.arcOpenNext
  with_reducible repeat' (first
    | assumption | apply arcErase_follows | apply programFlash_follows | apply setEvr_follows
    | (intro (x : State); have hx : Follows s₀ x := (by dsimp only [x]; repeat' (first | assumption | apply arcErase_follows | apply programFlash_follows | apply setEvr_follows | intro _ | split | simp only [Follows.keep] | simp +zetaDelta only [Follows.keep])))
    | lift_lets | (intro (x : Option _); clear_value x)
    | intro _ | split | simp only [Follows.keep] | simp +zetaDelta only [Follows.keep])

theorem State.arcSeal_follows {s₀ : State} {s : State} (h₀ : Follows s₀ s) :
    Follows s₀ (State.arcSeal s) := by
  unfold State.arcSeal
  with_reducible repeat' (first
    | assumption | apply programFlash_follows | apply setEvr_follows
    | (intro (x : State); have hx : Follows s₀ x := (by dsimp only [x]; repeat' (first | assumption | apply programFlash_follows | apply setEvr_follows | intro _ | split | simp only [Follows.keep] | simp +zetaDelta only [Follows.keep])))
    | lift_lets | (intro (x : Option _); clear_value x)
    | intro _ | split | simp only [Follows.keep] | simp +zetaDelta only [Follows.keep])

theorem State.arcWrite_follows {s₀ : State} {s : State} (r : Rec) (h₀ : Follows s₀ s) :
    Follows s₀ (State.arcWrite s r) := by
  unfold State.arcWrite
  with_reducible repeat' (first
    | assumption | apply arcOpenNext_follows | apply programFlash_follows | apply setEvr_follows | apply arcSeal_follows
    | (intro (x : State); have hx : Follows s₀ x := (by dsimp only [x]; repeat' (first | assumption | apply arcOpenNext_follows | apply programFlash_follows | apply setEvr_follows | apply arcSeal_follows | intro _ | split | simp only [Follows.keep] | simp +zetaDelta only [Follows.keep])))
    | lift_lets | (intro (x : Option _); clear_value x)
    | intro _ | split | simp only [Follows.keep] | simp +zetaDelta only [Follows.keep])

theorem State.archive_follows {s₀ : State} {s : State} (i : Nat) (r : Rec) (h₀ : Follows s₀ s) :
    Follows s₀ (State.archive s i r) := by
  unfold State.archive
  with_reducible repeat' (first
    | assumption | apply arcWrite_follows | apply bump_follows | apply setEvr_follows
    | (intro (x : State); have hx : Follows s₀ x := (by dsimp only [x]; repeat' (first | assumption | apply arcWrite_follows | apply bump_follows | apply setEvr_follows | intro _ | split | simp only [Follows.keep] | simp +zetaDelta only [Follows.keep])))
    | lift_lets | (intro (x : Option _); clear_value x)
    | intro _ | split | simp only [Follows.keep] | simp +zetaDelta only [Follows.keep])

theorem State.writeMark_follows {s₀ : State} {s : State} (x : Persist) (h₀ : Follows s₀ s) :
    Follows s₀ (State.writeMark s x) := by
  unfold State.writeMark
  with_reducible repeat' (first
    | assumption | intro (_ : State) _ (_ : Follows _ _) | apply arcWrite_follows | apply setEvr_follows | apply setRf_follows | apply each_follows | apply done_follows | apply nvGo_follows | apply fatalStep_follows
    | (intro (x : State); have hx : Follows s₀ x := (by dsimp only [x]; repeat' (first | assumption | intro (_ : State) _ (_ : Follows _ _) | apply arcWrite_follows | apply setEvr_follows | apply setRf_follows | apply each_follows | apply done_follows | apply nvGo_follows | apply fatalStep_follows | intro _ | split | simp only [Follows.keep] | simp +zetaDelta only [Follows.keep])))
    | lift_lets | (intro (x : Option _); clear_value x)
    | intro _ | split | simp only [Follows.keep] | simp +zetaDelta only [Follows.keep])

theorem execArchiveRecord_follows {s₀ : State} {s : State} (h₀ : Follows s₀ s) :
    ResFollows s₀ (execArchiveRecord s) := by
  unfold execArchiveRecord
  with_reducible repeat' (first
    | assumption | apply State.archive_follows | apply State.writeMark_follows | apply ResFollows.next
    | intro _ | split | simp only [Follows.keep] | simp +zetaDelta only [Follows.keep])

theorem execEvrCopy_follows {s₀ : State} {s : State} (k : Nat) (h₀ : Follows s₀ s) :
    ResFollows s₀ (execEvrCopy k s) := by
  unfold execEvrCopy
  with_reducible repeat' (first
    | assumption | intro _ (_ : State) (_ : Follows _ _) | apply runOp_follows | apply State.writeHearth_follows | apply State.hostWrite_follows | apply State.done_follows | apply ResFollows.next
    | (intro (x : State); have hx : Follows s₀ x := (by dsimp only [x]; repeat' (first | assumption | intro _ (_ : State) (_ : Follows _ _) | apply runOp_follows | apply State.writeHearth_follows | apply State.hostWrite_follows | apply State.done_follows | apply ResFollows.next | intro _ | split)))
    | lift_lets | (intro (x : Option _); clear_value x)
    | intro _ | split)

theorem execEvrClear_follows {s₀ : State} {s : State} (k : Nat) (h₀ : Follows s₀ s) :
    ResFollows s₀ (execEvrClear k s) := by
  unfold execEvrClear
  with_reducible repeat' (first
    | assumption | intro _ (_ : State) (_ : Follows _ _) | apply runOp_follows | apply State.failPkt_follows | apply State.clearRecorder_follows | apply State.done_follows | apply ResFollows.next
    | intro _ | split)

theorem execEvrPersist_follows {s₀ : State} {s : State} (k : Nat) (h₀ : Follows s₀ s) :
    ResFollows s₀ (execEvrPersist k s) := by
  unfold execEvrPersist
  with_reducible repeat' (first
    | assumption | intro _ (_ : State) (_ : Follows _ _) | apply runOp_follows | apply State.startPersist_follows | apply ResFollows.next
    | intro _ | split)

theorem State.reply_follows {s₀ : State} {s : State} (b : List Byte) (h₀ : Follows s₀ s) :
    Follows s₀ (State.reply s b) := by
  unfold State.reply
  with_reducible repeat' (first
    | assumption | apply emit_follows
    | intro _ | split)

theorem State.answerCode_follows {s₀ : State} {s : State} (c : Nat) (h₀ : Follows s₀ s) :
    Follows s₀ (State.answerCode s c) := by
  unfold State.answerCode
  with_reducible repeat' (first
    | assumption | apply reply_follows
    | intro _ | split)

theorem State.freeBytes_follows {s₀ : State} (n : Nat) {s : State} (h : Follows s₀ s) : Follows s₀ (State.freeBytes n s).2 := by
  induction n generalizing s with
  | zero => exact h
  | succ n ih => exact ih (free_follows h)

theorem State.answerFree_follows {s₀ : State} {s : State} (b : List Byte) (n : Nat) (h₀ : Follows s₀ s) :
    Follows s₀ (State.answerFree s b n) := by
  unfold State.answerFree
  with_reducible repeat' (first
    | assumption | apply freeBytes_follows | apply reply_follows
    | (intro (x : State); have hx : Follows s₀ x := (by dsimp only [x]; repeat' (first | assumption | apply freeBytes_follows | apply reply_follows | intro _ | split)))
    | lift_lets | (intro (x : Option _); clear_value x)
    | intro _ | split)

theorem execMctpControlMessage_follows {s₀ : State} {s : State} (cmd : Nat) (data : List Byte) (h₀ : Follows s₀ s) :
    ResFollows s₀ (execMctpControlMessage cmd data s) := by
  unfold execMctpControlMessage
  with_reducible repeat' (first
    | assumption | apply State.reply_follows | apply State.answerFree_follows | apply State.answerCode_follows | apply ResFollows.next
    | (intro (x : State); have hx : Follows s₀ x := (by dsimp only [x]; repeat' (first | assumption | apply State.reply_follows | apply State.answerFree_follows | apply State.answerCode_follows | apply ResFollows.next | intro _ | split | simp only [Follows.keep] | simp +zetaDelta only [Follows.keep])))
    | lift_lets | (intro (x : Option _); clear_value x)
    | intro _ | split | simp only [Follows.keep] | simp +zetaDelta only [Follows.keep])

theorem State.answerSensor_follows {s₀ : State} {s : State} (n : Nat) (state : Bool) (h₀ : Follows s₀ s) :
    Follows s₀ (State.answerSensor s n state) := by
  unfold State.answerSensor
  with_reducible repeat' (first
    | assumption | apply reply_follows | apply answerCode_follows
    | intro _ | split | simp only [Follows.keep] | simp +zetaDelta only [Follows.keep])

theorem execPldmMonitorRequest_follows {s₀ : State} {s : State} (typ : Nat) (cmd : Nat) (data : List Byte) (h₀ : Follows s₀ s) :
    ResFollows s₀ (execPldmMonitorRequest typ cmd data s) := by
  unfold execPldmMonitorRequest
  with_reducible repeat' (first
    | assumption | apply State.answerFree_follows | apply State.reply_follows | apply State.answerSensor_follows | apply State.answerCode_follows | apply ResFollows.next
    | (intro (x : State); have hx : Follows s₀ x := (by dsimp only [x]; repeat' (first | assumption | apply State.answerFree_follows | apply State.reply_follows | apply State.answerSensor_follows | apply State.answerCode_follows | apply ResFollows.next | intro _ | split | simp only [Follows.keep] | simp +zetaDelta only [Follows.keep])))
    | lift_lets | (intro (x : Option _); clear_value x)
    | intro _ | split | simp only [Follows.keep] | simp +zetaDelta only [Follows.keep])

theorem State.setPldm_follows {s₀ : State} {s : State} (f : Pldm → Pldm) (h₀ : Follows s₀ s) :
    Follows s₀ (State.setPldm s f) := by
  unfold State.setPldm
  with_reducible repeat' (first
    | assumption | apply setNvs_follows
    | intro _ | exact ⟨rfl, rfl, rfl⟩ | (refine ⟨?_, ?_, ?_⟩ <;> repeat' (first | rfl | split)) | split | simp only [Follows.keep] | simp +zetaDelta only [Follows.keep])

theorem State.pldmStep_follows {s₀ : State} {s : State} (ok : Bool) (f : Pldm → Pldm) (h₀ : Follows s₀ s) :
    Follows s₀ (State.pldmStep s ok f) := by
  unfold State.pldmStep
  with_reducible repeat' (first
    | assumption | apply setPldm_follows | apply answerCode_follows
    | intro _ | split)

theorem State.pldmVerify_follows {s₀ : State} {s : State} (h₀ : Follows s₀ s) :
    Follows s₀ (State.pldmVerify s) := by
  unfold State.pldmVerify
  with_reducible repeat' (first
    | assumption | apply contentOk_follows | apply setPldm_follows | apply answerCode_follows | apply Follows.pair ‹_ = (_, _)›
    | (intro (x : State); have hx : Follows s₀ x := (by dsimp only [x]; repeat' (first | assumption | apply contentOk_follows | apply setPldm_follows | apply answerCode_follows | apply Follows.pair ‹_ = (_, _)› | intro _ | split | simp only [Follows.keep] | simp +zetaDelta only [Follows.keep])))
    | lift_lets | (intro (x : Option _); clear_value x)
    | intro _ | split | simp only [Follows.keep] | simp +zetaDelta only [Follows.keep])

theorem State.pldmApply_follows {s₀ : State} {s : State} (h₀ : Follows s₀ s) :
    Follows s₀ (State.pldmApply s) := by
  unfold State.pldmApply
  with_reducible repeat' (first
    | assumption | apply setPldm_follows | apply answerCode_follows | apply hostJob_follows
    | (intro (x : State); have hx : Follows s₀ x := (by dsimp only [x]; repeat' (first | assumption | apply setPldm_follows | apply answerCode_follows | apply hostJob_follows | intro _ | split | simp only [Follows.keep] | simp +zetaDelta only [Follows.keep])))
    | lift_lets | (intro (x : Option _); clear_value x)
    | intro _ | split | simp only [Follows.keep] | simp +zetaDelta only [Follows.keep])

theorem State.pldmCancel_follows {s₀ : State} {s : State} (ok : Bool) (st : Nat) (h₀ : Follows s₀ s) :
    Follows s₀ (State.pldmCancel s ok st) := by
  unfold State.pldmCancel
  with_reducible repeat' (first
    | assumption | apply answerCode_follows | apply setNvs_follows | apply setPldm_follows
    | intro _ | exact ⟨rfl, rfl, rfl⟩ | (refine ⟨?_, ?_, ?_⟩ <;> repeat' (first | rfl | split)) | split | simp only [Follows.keep] | simp +zetaDelta only [Follows.keep])

theorem execPldmUpdateCommand_follows {s₀ : State} {s : State} (cmd : Nat) (data : List Byte) (h₀ : Follows s₀ s) :
    ResFollows s₀ (execPldmUpdateCommand cmd data s) := by
  unfold execPldmUpdateCommand
  with_reducible repeat' (first
    | assumption | apply State.answerCode_follows | apply State.setPldm_follows | apply State.pldmStep_follows | apply State.pldmVerify_follows | apply State.pldmApply_follows | apply State.reply_follows | apply State.pldmCancel_follows | apply ResFollows.next
    | (intro (x : State); have hx : Follows s₀ x := (by dsimp only [x]; repeat' (first | assumption | apply State.answerCode_follows | apply State.setPldm_follows | apply State.pldmStep_follows | apply State.pldmVerify_follows | apply State.pldmApply_follows | apply State.reply_follows | apply State.pldmCancel_follows | apply ResFollows.next | intro _ | split | simp only [Follows.keep] | simp +zetaDelta only [Follows.keep])))
    | lift_lets | (intro (x : Option _); clear_value x)
    | intro _ | split | simp only [Follows.keep] | simp +zetaDelta only [Follows.keep])

theorem State.pldmSelect_follows {s₀ : State} {s : State} (h₀ : Follows s₀ s) :
    Follows s₀ (State.pldmSelect s) := by
  unfold State.pldmSelect
  with_reducible repeat' (first
    | assumption | apply appendDesc_follows
    | (intro (x : State); have hx : Follows s₀ x := (by dsimp only [x]; repeat' (first | assumption | apply appendDesc_follows | intro _ | split | simp only [Follows.keep] | simp +zetaDelta only [Follows.keep])))
    | lift_lets | (intro (x : Option _); clear_value x)
    | intro _ | split | simp only [Follows.keep] | simp +zetaDelta only [Follows.keep])

theorem execPldmActivateFirmware_follows {s₀ : State} {s : State} (h₀ : Follows s₀ s) :
    ResFollows s₀ (execPldmActivateFirmware s) := by
  unfold execPldmActivateFirmware
  with_reducible repeat' (first
    | assumption | apply State.answerCode_follows | apply State.setNvs_follows | apply State.pldmSelect_follows | apply State.chipReset_follows | apply ResFollows.next
    | intro _ | exact ⟨rfl, rfl, rfl⟩ | (refine ⟨?_, ?_, ?_⟩ <;> repeat' (first | rfl | split)) | split | simp only [Follows.keep] | simp +zetaDelta only [Follows.keep])

theorem State.spdm_follows {s₀ : State} {s : State} (code : Nat) (p1 : Nat) (p2 : Nat) (b : List Byte) (n : Nat) (h₀ : Follows s₀ s) :
    Follows s₀ (State.spdm s code p1 p2 b n) := by
  unfold State.spdm
  with_reducible repeat' (first
    | assumption | apply answerFree_follows
    | intro _ | split)

theorem State.spdmStart_follows {s₀ : State} {s : State} (st : Nat) (h₀ : Follows s₀ s) :
    Follows s₀ (State.spdmStart s st) := by
  unfold State.spdmStart
  with_reducible repeat' (first
    | assumption | apply spdm_follows
    | intro _ | split | simp only [Follows.keep] | simp +zetaDelta only [Follows.keep])

theorem State.spdmError_follows {s₀ : State} {s : State} (e : Nat) (h₀ : Follows s₀ s) :
    Follows s₀ (State.spdmError s e) := by
  unfold State.spdmError
  with_reducible repeat' (first
    | assumption | apply spdm_follows
    | intro _ | split)

theorem execSpdmRequest_follows {s₀ : State} {s : State} (code : Nat) (p1 : Nat) (p2 : Nat) (data : List Byte) (h₀ : Follows s₀ s) :
    ResFollows s₀ (execSpdmRequest code p1 p2 data s) := by
  unfold execSpdmRequest
  with_reducible repeat' (first
    | assumption | apply State.spdmStart_follows | apply State.spdm_follows | apply State.spdmError_follows | apply ResFollows.next
    | (intro (x : State); have hx : Follows s₀ x := (by dsimp only [x]; repeat' (first | assumption | apply State.spdmStart_follows | apply State.spdm_follows | apply State.spdmError_follows | apply ResFollows.next | intro _ | split | simp only [Follows.keep] | simp +zetaDelta only [Follows.keep])))
    | lift_lets | (intro (x : Option _); clear_value x)
    | intro _ | split | simp only [Follows.keep] | simp +zetaDelta only [Follows.keep])

theorem execDebugTapToken_follows {s₀ : State} {s : State} (key : Nat) (token : List Byte) (h₀ : Follows s₀ s) :
    ResFollows s₀ (execDebugTapToken key token s) := by
  unfold execDebugTapToken
  with_reducible repeat' (first
    | assumption | apply State.setRf_follows | apply State.event_follows | apply ResFollows.next
    | intro _ | split)

theorem execJtagInstruction_follows {s₀ : State} {s : State} (instr : Nat) (h₀ : Follows s₀ s) :
    ResFollows s₀ (execJtagInstruction instr s) := by
  unfold execJtagInstruction
  with_reducible repeat' (first
    | assumption | apply State.emit_follows | apply ResFollows.next
    | (intro (x : State); have hx : Follows s₀ x := (by dsimp only [x]; repeat' (first | assumption | apply State.emit_follows | apply ResFollows.next | intro _ | split | simp only [Follows.keep] | simp +zetaDelta only [Follows.keep])))
    | lift_lets | (intro (x : Option _); clear_value x)
    | intro _ | split | simp only [Follows.keep] | simp +zetaDelta only [Follows.keep])

theorem State.holdShadow_follows {s₀ : State} {s : State} (line : Nat) (li : Nat) (l : LayerRec) (h₀ : Follows s₀ s) :
    Follows s₀ (State.holdShadow s line li l) := by
  unfold State.holdShadow
  with_reducible repeat' (first
    | assumption
    | (intro (x : State); have hx : Follows s₀ x := (by dsimp only [x]; repeat' (first | assumption | intro _ | split | simp only [Follows.keep] | simp +zetaDelta only [Follows.keep])))
    | lift_lets | (intro (x : Option _); clear_value x)
    | intro _ | split | simp only [Follows.keep] | simp +zetaDelta only [Follows.keep])

theorem State.commitLine_follows {s₀ : State} {s : State} (p : Nat) (x : Setup) (h₀ : Follows s₀ s) :
    Follows s₀ (State.commitLine s p x) := by
  unfold State.commitLine
  with_reducible repeat' (first
    | assumption | intro (_ : State) _ (_ : Follows _ _) | intro _ (_ : State) (_ : Follows _ _) | apply modPart_follows | apply each_follows | apply programLayer_follows | apply holdShadow_follows
    | (intro (x : State); have hx : Follows s₀ x := (by dsimp only [x]; repeat' (first | assumption | intro (_ : State) _ (_ : Follows _ _) | intro _ (_ : State) (_ : Follows _ _) | apply modPart_follows | apply each_follows | apply programLayer_follows | apply holdShadow_follows | intro _ | split | simp only [Follows.keep] | simp +zetaDelta only [Follows.keep])))
    | lift_lets | (intro (x : Option _); clear_value x)
    | intro _ | split | simp only [Follows.keep] | simp +zetaDelta only [Follows.keep])

theorem State.endSetup_follows {s₀ : State} {s : State} (p : Nat) (x : Setup) (st : Nat) (pos : Nat) (h₀ : Follows s₀ s) :
    Follows s₀ (State.endSetup s p x st pos) := by
  unfold State.endSetup
  with_reducible repeat' (first
    | assumption | apply modPart_follows | apply commitLine_follows | apply completeX_follows
    | (intro (x : State); have hx : Follows s₀ x := (by dsimp only [x]; repeat' (first | assumption | apply modPart_follows | apply commitLine_follows | apply completeX_follows | intro _ | split | simp only [Follows.keep] | simp +zetaDelta only [Follows.keep])))
    | lift_lets | (intro (x : Option _); clear_value x)
    | intro _ | split | simp only [Follows.keep] | simp +zetaDelta only [Follows.keep])

theorem State.endCircuit_follows {s₀ : State} {s : State} (p : Nat) (x : Setup) (st : Nat) (pos : Nat) (h₀ : Follows s₀ s) :
    Follows s₀ (State.endCircuit s p x st pos) := by
  unfold State.endCircuit
  with_reducible repeat' (first
    | assumption | intro (_ : State) _ (_ : Follows _ _) | apply each_follows | apply sendFrame_follows | apply endSetup_follows
    | (intro (x : State); have hx : Follows s₀ x := (by dsimp only [x]; repeat' (first | assumption | intro (_ : State) _ (_ : Follows _ _) | apply each_follows | apply sendFrame_follows | apply endSetup_follows | intro _ | split)))
    | lift_lets | (intro (x : Option _); clear_value x)
    | intro _ | split)

theorem State.startSetup_follows {s₀ : State} {s : State} (k : Nat) (x : Pkt) (reroute : Bool) (h₀ : Follows s₀ s) :
    Follows s₀ (State.startSetup s k x reroute) := by
  unfold State.startSetup
  with_reducible repeat' (first
    | assumption | apply noteDesc_follows | apply completeX_follows | apply modPart_follows | apply sendLine_follows
    | (intro (x : State); have hx : Follows s₀ x := (by dsimp only [x]; repeat' (first | assumption | apply noteDesc_follows | apply completeX_follows | apply modPart_follows | apply sendLine_follows | intro _ | split | simp only [Follows.keep] | simp +zetaDelta only [Follows.keep])))
    | lift_lets | (intro (x : Option _); clear_value x)
    | intro _ | split | simp only [Follows.keep] | simp +zetaDelta only [Follows.keep])

theorem execLineSetup_follows {s₀ : State} {s : State} (k : Nat) (h₀ : Follows s₀ s) :
    ResFollows s₀ (execLineSetup k s) := by
  unfold execLineSetup
  with_reducible repeat' (first
    | assumption | intro _ (_ : State) (_ : Follows _ _) | apply runOp_follows | apply State.startSetup_follows | apply ResFollows.next
    | intro _ | split)

theorem execLineReroute_follows {s₀ : State} {s : State} (k : Nat) (h₀ : Follows s₀ s) :
    ResFollows s₀ (execLineReroute k s) := by
  unfold execLineReroute
  with_reducible repeat' (first
    | assumption | intro _ (_ : State) (_ : Follows _ _) | apply runOp_follows | apply State.startSetup_follows | apply ResFollows.next
    | intro _ | split)

theorem State.setupFrame_follows {s₀ : State} {s : State} (p : Nat) (b : List Byte) (h₀ : Follows s₀ s) :
    Follows s₀ (State.setupFrame s p b) := by
  unfold State.setupFrame
  with_reducible repeat' (first
    | assumption | apply endCircuit_follows | apply noteDesc_follows | apply modPart_follows | apply sendLine_follows | apply sendFrame_follows
    | (intro (x : State); have hx : Follows s₀ x := (by dsimp only [x]; repeat' (first | assumption | apply endCircuit_follows | apply noteDesc_follows | apply modPart_follows | apply sendLine_follows | apply sendFrame_follows | intro _ | split | simp only [Follows.keep] | simp +zetaDelta only [Follows.keep])))
    | lift_lets | (intro (x : Option _); clear_value x)
    | intro _ | split | simp only [Follows.keep] | simp +zetaDelta only [Follows.keep])

theorem execSetupFrameReceived_follows {s₀ : State} {s : State} (p : Nat) (frame : List Byte) (h₀ : Follows s₀ s) :
    ResFollows s₀ (execSetupFrameReceived p frame s) := by
  unfold execSetupFrameReceived
  with_reducible repeat' (first
    | assumption | intro (_ : State) (_ : Follows _ _) | apply onFrame_follows | apply State.setupFrame_follows | apply ResFollows.next
    | intro _ | split)

theorem execSetupCommitReceived_follows {s₀ : State} {s : State} (p : Nat) (frame : List Byte) (h₀ : Follows s₀ s) :
    ResFollows s₀ (execSetupCommitReceived p frame s) := by
  unfold execSetupCommitReceived
  with_reducible repeat' (first
    | assumption | intro (_ : State) (_ : Follows _ _) | apply onFrame_follows | apply State.endSetup_follows | apply ResFollows.next
    | intro _ | split | simp only [Follows.keep] | simp +zetaDelta only [Follows.keep])

theorem execSetupUndoReceived_follows {s₀ : State} {s : State} (p : Nat) (frame : List Byte) (h₀ : Follows s₀ s) :
    ResFollows s₀ (execSetupUndoReceived p frame s) := by
  unfold execSetupUndoReceived
  with_reducible repeat' (first
    | assumption | intro (_ : State) (_ : Follows _ _) | apply onFrame_follows | apply State.endSetup_follows | apply ResFollows.next
    | intro _ | split | simp only [Follows.keep] | simp +zetaDelta only [Follows.keep])

theorem execSetupFetchTimeout_follows {s₀ : State} {s : State} (p : Nat) (frame : List Byte) (h₀ : Follows s₀ s) :
    ResFollows s₀ (execSetupFetchTimeout p frame s) := by
  unfold execSetupFetchTimeout
  with_reducible repeat' (first
    | assumption | intro (_ : State) (_ : Follows _ _) | apply onFrame_follows | apply State.sendFrame_follows | apply ResFollows.next
    | intro _ | split)

theorem execSetupFrameWaitTimeout_follows {s₀ : State} {s : State} (k : Nat) (h₀ : Follows s₀ s) :
    ResFollows s₀ (execSetupFrameWaitTimeout k s) := by
  unfold execSetupFrameWaitTimeout
  with_reducible repeat' (first
    | assumption | apply State.endSetup_follows | apply ResFollows.next
    | intro _ | split | simp only [Follows.keep] | simp +zetaDelta only [Follows.keep])

theorem execLineTeardown_follows {s₀ : State} {s : State} (k : Nat) (h₀ : Follows s₀ s) :
    ResFollows s₀ (execLineTeardown k s) := by
  unfold execLineTeardown
  with_reducible repeat' (first
    | assumption | intro _ (_ : State) (_ : Follows _ _) | apply runOp_follows | apply State.badParam_follows | apply State.failPkt_follows | apply State.modPart_follows | apply State.sendLine_follows | apply ResFollows.next
    | (intro (x : State); have hx : Follows s₀ x := (by dsimp only [x]; repeat' (first | assumption | intro _ (_ : State) (_ : Follows _ _) | apply runOp_follows | apply State.badParam_follows | apply State.failPkt_follows | apply State.modPart_follows | apply State.sendLine_follows | apply ResFollows.next | intro _ | split | simp only [Follows.keep] | simp +zetaDelta only [Follows.keep])))
    | lift_lets | (intro (x : Option _); clear_value x)
    | intro _ | split | simp only [Follows.keep] | simp +zetaDelta only [Follows.keep])

theorem State.submit_follows {s₀ : State} {s : State} (k : Nat) (x : Pkt) (op : Nat) (h₀ : Follows s₀ s) :
    Follows s₀ (State.submit s k x op) := by
  unfold State.submit
  with_reducible repeat' (first
    | assumption | apply failPkt_follows | apply badParam_follows | apply modPart_follows | apply settle_follows
    | (intro (x : State); have hx : Follows s₀ x := (by dsimp only [x]; repeat' (first | assumption | apply failPkt_follows | apply badParam_follows | apply modPart_follows | apply settle_follows | intro _ | split | simp only [Follows.keep] | simp +zetaDelta only [Follows.keep])))
    | lift_lets | (intro (x : Option _); clear_value x)
    | intro _ | split | simp only [Follows.keep] | simp +zetaDelta only [Follows.keep])

theorem execStreamAdmit_follows {s₀ : State} {s : State} (k : Nat) (h₀ : Follows s₀ s) :
    ResFollows s₀ (execStreamAdmit k s) := by
  unfold execStreamAdmit
  with_reducible repeat' (first
    | assumption | intro (_ : State) _ (_ : Follows _ _) | intro _ (_ : State) (_ : Follows _ _) | apply runWhen_follows | apply State.submit_follows | apply ResFollows.next
    | intro _ | split | simp only [Follows.keep] | simp +zetaDelta only [Follows.keep])

theorem execStreamPark_follows {s₀ : State} {s : State} (k : Nat) (h₀ : Follows s₀ s) :
    ResFollows s₀ (execStreamPark k s) := by
  unfold execStreamPark
  with_reducible repeat' (first
    | assumption | intro (_ : State) _ (_ : Follows _ _) | intro _ (_ : State) (_ : Follows _ _) | apply runWhen_follows | apply State.submit_follows | apply ResFollows.next
    | intro _ | split | simp only [Follows.keep] | simp +zetaDelta only [Follows.keep])

theorem execStreamResume_follows {s₀ : State} {s : State} (k : Nat) (h₀ : Follows s₀ s) :
    ResFollows s₀ (execStreamResume k s) := by
  unfold execStreamResume
  with_reducible repeat' (first
    | assumption | intro (_ : State) _ (_ : Follows _ _) | intro _ (_ : State) (_ : Follows _ _) | apply runWhen_follows | apply State.submit_follows | apply ResFollows.next
    | intro _ | split | simp only [Follows.keep] | simp +zetaDelta only [Follows.keep])

theorem execStreamRelease_follows {s₀ : State} {s : State} (k : Nat) (h₀ : Follows s₀ s) :
    ResFollows s₀ (execStreamRelease k s) := by
  unfold execStreamRelease
  with_reducible repeat' (first
    | assumption | intro (_ : State) _ (_ : Follows _ _) | intro _ (_ : State) (_ : Follows _ _) | apply runWhen_follows | apply State.submit_follows | apply ResFollows.next
    | intro _ | split | simp only [Follows.keep] | simp +zetaDelta only [Follows.keep])

theorem execStep_follows {s₀ : State} {s : State} (k : Nat) (h₀ : Follows s₀ s) :
    ResFollows s₀ (execStep k s) := by
  unfold execStep
  with_reducible repeat' (first
    | assumption | intro (_ : State) _ (_ : Follows _ _) | intro _ (_ : State) (_ : Follows _ _) | apply runWhen_follows | apply State.submit_follows | apply ResFollows.next
    | intro _ | split | simp only [Follows.keep] | simp +zetaDelta only [Follows.keep])

theorem execChunk_follows {s₀ : State} {s : State} (k : Nat) (h₀ : Follows s₀ s) :
    ResFollows s₀ (execChunk k s) := by
  unfold execChunk
  with_reducible repeat' (first
    | assumption | intro (_ : State) _ (_ : Follows _ _) | intro _ (_ : State) (_ : Follows _ _) | apply runWhen_follows | apply State.submit_follows | apply ResFollows.next
    | intro _ | split | simp only [Follows.keep] | simp +zetaDelta only [Follows.keep])

theorem State.admitted_follows {s₀ : State} {s : State} (p : Nat) (l : Line) (j : Job) (len : Nat) (h₀ : Follows s₀ s) :
    Follows s₀ (State.admitted s p l j len) := by
  unfold State.admitted
  with_reducible repeat' (first
    | assumption | apply modPart_follows | apply memberPart_follows | apply putStrm_follows | apply sendLine_follows | apply endJob_follows | apply settle_follows | apply Follows.triple ‹_ = (_, _, _)›
    | (intro (x : State); have hx : Follows s₀ x := (by dsimp only [x]; repeat' (first | assumption | apply modPart_follows | apply memberPart_follows | apply putStrm_follows | apply sendLine_follows | apply endJob_follows | apply settle_follows | apply Follows.triple ‹_ = (_, _, _)› | intro _ | split | simp only [Follows.keep] | simp +zetaDelta only [Follows.keep])))
    | lift_lets | (intro (x : Option _); clear_value x)
    | intro _ | split | simp only [Follows.keep] | simp +zetaDelta only [Follows.keep])

theorem execAdmitFrameReceived_follows {s₀ : State} {s : State} (p : Nat) (frame : List Byte) (h₀ : Follows s₀ s) :
    ResFollows s₀ (execAdmitFrameReceived p frame s) := by
  unfold execAdmitFrameReceived
  with_reducible repeat' (first
    | assumption | intro (_ : State) (_ : Follows _ _) | apply onFrame_follows | apply State.dropGone_follows | apply State.admitted_follows | apply State.memberPart_follows | apply State.sendLine_follows | apply ResFollows.next | apply Follows.triple ‹_ = (_, _, _)›
    | (intro (x : State); have hx : Follows s₀ x := (by dsimp only [x]; repeat' (first | assumption | intro (_ : State) (_ : Follows _ _) | apply onFrame_follows | apply State.dropGone_follows | apply State.admitted_follows | apply State.memberPart_follows | apply State.sendLine_follows | apply ResFollows.next | apply Follows.triple ‹_ = (_, _, _)› | intro _ | split | simp only [Follows.keep] | simp +zetaDelta only [Follows.keep])))
    | lift_lets | (intro (x : Option _); clear_value x)
    | intro _ | split | simp only [Follows.keep] | simp +zetaDelta only [Follows.keep])

theorem execUndoFrameReceived_follows {s₀ : State} {s : State} (p : Nat) (frame : List Byte) (h₀ : Follows s₀ s) :
    ResFollows s₀ (execUndoFrameReceived p frame s) := by
  unfold execUndoFrameReceived
  with_reducible repeat' (first
    | assumption | intro (_ : State) (_ : Follows _ _) | apply onFrame_follows | apply State.dropGone_follows | apply State.memberPart_follows | apply State.dropStrm_follows | apply State.noteNoSlot_follows | apply State.endJob_follows | apply State.settle_follows | apply State.sendLine_follows | apply ResFollows.next | apply Follows.triple ‹_ = (_, _, _)›
    | (intro (x : State); have hx : Follows s₀ x := (by dsimp only [x]; repeat' (first | assumption | intro (_ : State) (_ : Follows _ _) | apply onFrame_follows | apply State.dropGone_follows | apply State.memberPart_follows | apply State.dropStrm_follows | apply State.noteNoSlot_follows | apply State.endJob_follows | apply State.settle_follows | apply State.sendLine_follows | apply ResFollows.next | apply Follows.triple ‹_ = (_, _, _)› | intro _ | split | simp only [Follows.keep] | simp +zetaDelta only [Follows.keep])))
    | lift_lets | (intro (x : Option _); clear_value x)
    | intro _ | split | simp only [Follows.keep] | simp +zetaDelta only [Follows.keep])

theorem State.circuitBack_follows {s₀ : State} {s : State} (p : Nat) (l : Line) (j : Job) (op : Nat) (ph : Nat) (st : Nat) (len : Nat) (d : List Byte) (h₀ : Follows s₀ s) :
    Follows s₀ (State.circuitBack s p l j op ph st len d) := by
  unfold State.circuitBack
  with_reducible repeat' (first
    | assumption | apply putStrm_follows | apply endJob_follows | apply settle_follows | apply memberPart_follows | apply sendLine_follows | apply launch_follows | apply modPart_follows | apply hostWrite_follows | apply admitted_follows | apply dropStrm_follows | apply releaseLine_follows | apply Follows.triple ‹_ = (_, _, _)›
    | (intro (x : State); have hx : Follows s₀ x := (by dsimp only [x]; repeat' (first | assumption | apply putStrm_follows | apply endJob_follows | apply settle_follows | apply memberPart_follows | apply sendLine_follows | apply launch_follows | apply modPart_follows | apply hostWrite_follows | apply admitted_follows | apply dropStrm_follows | apply releaseLine_follows | apply Follows.triple ‹_ = (_, _, _)› | intro _ | split | simp only [Follows.keep] | simp +zetaDelta only [Follows.keep])))
    | lift_lets | (intro (x : Option _); clear_value x)
    | intro _ | split | simp only [Follows.keep] | simp +zetaDelta only [Follows.keep])

theorem execStreamStateFrameReceived_follows {s₀ : State} {s : State} (p : Nat) (frame : List Byte) (h₀ : Follows s₀ s) :
    ResFollows s₀ (execStreamStateFrameReceived p frame s) := by
  unfold execStreamStateFrameReceived
  with_reducible repeat' (first
    | assumption | intro (_ : State) _ (_ : Follows _ _) | intro _ (_ : State) (_ : Follows _ _) | apply onFrame_follows | apply State.dropGone_follows | apply State.circuitBack_follows | apply State.sendLine_follows | apply State.memberPart_follows | apply State.releaseLine_follows | apply Follows.triple ‹_ = (_, _, _)› | apply Follows.pair ‹_ = (_, _)› | apply ResFollows.next
    | (intro (x : State); have hx : Follows s₀ x := (by dsimp only [x]; repeat' (first | assumption | intro (_ : State) _ (_ : Follows _ _) | intro _ (_ : State) (_ : Follows _ _) | apply onFrame_follows | apply State.dropGone_follows | apply State.circuitBack_follows | apply State.sendLine_follows | apply State.memberPart_follows | apply State.releaseLine_follows | apply Follows.triple ‹_ = (_, _, _)› | apply Follows.pair ‹_ = (_, _)› | apply ResFollows.next | intro _ | split | dsimp -zeta only | simp only [Follows.keep] | simp +zetaDelta only [Follows.keep])))
    | lift_lets | (intro (x : Option _); clear_value x)
    | intro _ | split | dsimp -zeta only | simp only [Follows.keep] | simp +zetaDelta only [Follows.keep])

theorem execStepDispatch_follows {s₀ : State} {s : State} (p : Nat) (k : Nat) (h₀ : Follows s₀ s) :
    ResFollows s₀ (execStepDispatch p k s) := by
  unfold execStepDispatch
  with_reducible repeat' (first
    | assumption | apply State.endJob_follows | apply State.settle_follows | apply State.admitted_follows | apply State.endJobX_follows | apply State.modJob_follows | apply State.putStrm_follows | apply State.gather_follows | apply State.jobReady_follows | apply ResFollows.next
    | (intro (x : State); have hx : Follows s₀ x := (by dsimp only [x]; repeat' (first | assumption | apply State.endJob_follows | apply State.settle_follows | apply State.admitted_follows | apply State.endJobX_follows | apply State.modJob_follows | apply State.putStrm_follows | apply State.gather_follows | apply State.jobReady_follows | apply ResFollows.next | intro _ | split | simp only [Follows.keep] | simp +zetaDelta only [Follows.keep])))
    | lift_lets | (intro (x : Option _); clear_value x)
    | intro _ | split | simp only [Follows.keep] | simp +zetaDelta only [Follows.keep])

theorem State.stepBack_follows {s₀ : State} {s : State} (p : Nat) (l : Line) (h : List Byte) (pay : List Byte) (bad : Bool) (h₀ : Follows s₀ s) :
    Follows s₀ (State.stepBack s p l h pay bad) := by
  unfold State.stepBack
  with_reducible repeat' (first
    | assumption | apply bump_follows | apply seqEvent_follows | apply endJob_follows | apply settle_follows | apply writeHearth_follows | apply hostWrite_follows | apply bumpBy_follows
    | (intro (x : State); have hx : Follows s₀ x := (by dsimp only [x]; repeat' (first | assumption | apply bump_follows | apply seqEvent_follows | apply endJob_follows | apply settle_follows | apply writeHearth_follows | apply hostWrite_follows | apply bumpBy_follows | intro _ | split | simp only [Follows.keep] | simp +zetaDelta only [Follows.keep])))
    | lift_lets | (intro (x : Option _); clear_value x)
    | intro _ | split | simp only [Follows.keep] | simp +zetaDelta only [Follows.keep])

theorem State.fillBuf_follows {s₀ : State} {s : State} (p : Nat) (l : Line) (pay : List Byte) (h₀ : Follows s₀ s) :
    Follows s₀ (State.fillBuf s p l pay) := by
  unfold State.fillBuf
  with_reducible repeat' (first
    | assumption | apply writeHearth_follows | apply modPart_follows
    | intro _ | split | simp only [Follows.keep] | simp +zetaDelta only [Follows.keep])

theorem State.actTake_follows {s₀ : State} {s : State} (p : Nat) (l : Line) (h : List Byte) (pay : List Byte) (h₀ : Follows s₀ s) :
    Follows s₀ (State.actTake s p l h pay) := by
  unfold State.actTake
  with_reducible repeat' (first
    | assumption | apply stepBack_follows | apply sendFail_follows | apply addWork_follows
    | (intro (x : State); have hx : Follows s₀ x := (by dsimp only [x]; repeat' (first | assumption | apply stepBack_follows | apply sendFail_follows | apply addWork_follows | intro _ | split | simp only [Follows.keep] | simp +zetaDelta only [Follows.keep])))
    | lift_lets | (intro (x : Option _); clear_value x)
    | intro _ | split | simp only [Follows.keep] | simp +zetaDelta only [Follows.keep])

theorem execActivationFrameReceived_follows {s₀ : State} {s : State} (p : Nat) (frame : List Byte) (h₀ : Follows s₀ s) :
    ResFollows s₀ (execActivationFrameReceived p frame s) := by
  unfold execActivationFrameReceived
  with_reducible repeat' (first
    | assumption | intro (_ : State) _ (_ : Follows _ _) | intro _ (_ : State) (_ : Follows _ _) | apply onFrame_follows | apply State.dropGone_follows | apply State.seqEvent_follows | apply State.fillBuf_follows | apply State.actTake_follows | apply State.stepBack_follows | apply State.sendBroken_follows | apply ResFollows.next
    | (intro (x : State); have hx : Follows s₀ x := (by dsimp only [x]; repeat' (first | assumption | intro (_ : State) _ (_ : Follows _ _) | intro _ (_ : State) (_ : Follows _ _) | apply onFrame_follows | apply State.dropGone_follows | apply State.seqEvent_follows | apply State.fillBuf_follows | apply State.actTake_follows | apply State.stepBack_follows | apply State.sendBroken_follows | apply ResFollows.next | intro _ | split | simp only [Follows.keep] | simp +zetaDelta only [Follows.keep])))
    | lift_lets | (intro (x : Option _); clear_value x)
    | intro _ | split | simp only [Follows.keep] | simp +zetaDelta only [Follows.keep])

theorem State.layerStep_follows {s₀ s t : State} (p : Nat) (l : Line) (r : LayerRec) (e : LayerEnv) (w w' : Work) (h : Follows s₀ s)
    (q : s.layerStep p l r e w = some (w', t)) : Follows s₀ t := by
  unfold State.layerStep at q
  dsimp only at q
  split at q
  · cases q
  · split at q
    · cases q
    · cases q; exact startTerm_follows _ _ _ _ _ _ (modLayer_follows _ _ _ _ _ h)

theorem State.layerSteps_follows {s₀ : State} (n : Nat) {s : State} (p : Nat) (l : Line) (r : LayerRec) (e : LayerEnv) (w : Work)
    (h : Follows s₀ s) : Follows s₀ (State.layerSteps n s p l r e w).2 := by
  induction n generalizing s w with
  | zero => exact h
  | succ n ih =>
    unfold State.layerSteps
    split
    · exact h
    · split
      · exact h
      · rename_i q; exact ih _ (layerStep_follows _ _ _ _ _ _ h q)

theorem State.layerChunk_follows {s₀ : State} {s : State} (p : Nat) (l : Line) (r : LayerRec) (e : LayerEnv) (w : Work) (h₀ : Follows s₀ s) :
    Follows s₀ (State.layerChunk s p l r e w).2 := by
  unfold State.layerChunk
  with_reducible repeat' (first
    | assumption | apply modLayer_follows | apply Follows.pair ‹_ = (_, _)› | apply Follows.elim
    | (intro (x : State); have hx : Follows s₀ x := (by dsimp only [x]; repeat' (first | assumption | apply modLayer_follows | apply Follows.pair ‹_ = (_, _)› | apply Follows.elim | intro _ | split | dsimp -zeta only | simp only [Follows.keep] | simp +zetaDelta only [Follows.keep])))
    | lift_lets | (intro (x : Option _); clear_value x)
    | intro _ | split | dsimp -zeta only | simp only [Follows.keep] | simp +zetaDelta only [Follows.keep])

theorem State.layerDone_follows {s₀ : State} {s : State} (p : Nat) (l : Line) (w : Work) (h₀ : Follows s₀ s) :
    Follows s₀ (State.layerDone s p l w) := by
  unfold State.layerDone
  with_reducible repeat' (first
    | assumption | apply modPart_follows | apply leaveWork_follows | apply handOff_follows
    | intro _ | split | simp only [Follows.keep] | simp +zetaDelta only [Follows.keep])

theorem State.runSteps_follows {s₀ : State} (p : Nat) (l : Line) (r : LayerRec) (e : LayerEnv) (ws : List (Nat × Work)) {s : State}
    (h : Follows s₀ s) : Follows s₀ (State.runSteps p l r e ws s).2 := by
  induction ws generalizing s with
  | nil => exact h
  | cons x ws ih =>
    unfold State.runSteps
    split
    · exact ih (modPart_follows _ _ h)
    · rename_i q
      exact ih (layerDone_follows _ _ _ (layerStep_follows _ _ _ _ _ _ h q))

theorem State.runChunk_follows {s₀ : State} {s : State} (p : Nat) (i : Nat) (l : Line) (r : LayerRec) (e : LayerEnv) (w : Work) (h₀ : Follows s₀ s) :
    Follows s₀ (State.runChunk s p i l r e w) := by
  unfold State.runChunk
  with_reducible repeat' (first
    | assumption | apply layerChunk_follows | apply layerSteps_follows | apply modPart_follows | apply takeWorks_follows | apply noteTally_follows | apply layerDone_follows | apply Follows.pair ‹_ = (_, _)›
    | (intro (x : State); have hx : Follows s₀ x := (by dsimp only [x]; repeat' (first | assumption | apply layerChunk_follows | apply layerSteps_follows | apply modPart_follows | apply takeWorks_follows | apply noteTally_follows | apply layerDone_follows | apply Follows.pair ‹_ = (_, _)› | intro _ | split | dsimp -zeta only | simp only [Follows.keep] | simp +zetaDelta only [Follows.keep])))
    | lift_lets | (intro (x : Option _); clear_value x)
    | intro _ | split | dsimp -zeta only | simp only [Follows.keep] | simp +zetaDelta only [Follows.keep])

theorem execLayerComputeDone_follows {s₀ : State} {s : State} (p : Nat) (i : Nat) (h₀ : Follows s₀ s) :
    ResFollows s₀ (execLayerComputeDone p i s) := by
  unfold execLayerComputeDone
  with_reducible repeat' (first
    | assumption | apply State.layerEnv_follows | apply State.takeWorks_follows | apply State.failWorks_follows | apply State.settle_follows | apply State.runChunk_follows | apply State.runSteps_follows | apply State.noteTally_follows | apply Follows.triple ‹_ = (_, _, _)› | apply Follows.pair ‹_ = (_, _)› | apply ResFollows.next
    | (intro (x : State); have hx : Follows s₀ x := (by dsimp only [x]; repeat' (first | assumption | apply State.layerEnv_follows | apply State.takeWorks_follows | apply State.failWorks_follows | apply State.settle_follows | apply State.runChunk_follows | apply State.runSteps_follows | apply State.noteTally_follows | apply Follows.triple ‹_ = (_, _, _)› | apply Follows.pair ‹_ = (_, _)› | apply ResFollows.next | intro _ | split | dsimp -zeta only | simp only [Follows.keep] | simp +zetaDelta only [Follows.keep])))
    | lift_lets | (intro (x : Option _); clear_value x)
    | intro _ | split | dsimp -zeta only | simp only [Follows.keep] | simp +zetaDelta only [Follows.keep])

theorem execStepDeadlineExpiry_follows {s₀ : State} {s : State} (k : Nat) (h₀ : Follows s₀ s) :
    ResFollows s₀ (execStepDeadlineExpiry k s) := by
  unfold execStepDeadlineExpiry
  with_reducible repeat' (first
    | assumption | apply State.seqEvent_follows | apply State.tear_follows | apply State.endJobX_follows | apply State.settle_follows | apply ResFollows.next
    | (intro (x : State); have hx : Follows s₀ x := (by dsimp only [x]; repeat' (first | assumption | apply State.seqEvent_follows | apply State.tear_follows | apply State.endJobX_follows | apply State.settle_follows | apply ResFollows.next | intro _ | split | simp only [Follows.keep] | simp +zetaDelta only [Follows.keep])))
    | lift_lets | (intro (x : Option _); clear_value x)
    | intro _ | split | simp only [Follows.keep] | simp +zetaDelta only [Follows.keep])

theorem execLineBrokenNoticeReceived_follows {s₀ : State} {s : State} (p : Nat) (frame : List Byte) (h₀ : Follows s₀ s) :
    ResFollows s₀ (execLineBrokenNoticeReceived p frame s) := by
  unfold execLineBrokenNoticeReceived
  with_reducible repeat' (first
    | assumption | intro (_ : State) (_ : Follows _ _) | apply onFrame_follows | apply State.dissolveHere_follows | apply State.modPart_follows | apply State.lineLost_follows | apply State.settle_follows | apply ResFollows.next
    | (intro (x : State); have hx : Follows s₀ x := (by dsimp only [x]; repeat' (first | assumption | intro (_ : State) (_ : Follows _ _) | apply onFrame_follows | apply State.dissolveHere_follows | apply State.modPart_follows | apply State.lineLost_follows | apply State.settle_follows | apply ResFollows.next | intro _ | split | simp only [Follows.keep] | simp +zetaDelta only [Follows.keep])))
    | lift_lets | (intro (x : Option _); clear_value x)
    | intro _ | split | simp only [Follows.keep] | simp +zetaDelta only [Follows.keep])

theorem execBatchWindowExpiry_follows {s₀ : State} {s : State} (p : Nat) (line : Nat) (li : Nat) (h₀ : Follows s₀ s) :
    ResFollows s₀ (execBatchWindowExpiry p line s li) := by
  unfold execBatchWindowExpiry
  with_reducible repeat' (first
    | assumption | apply State.modPart_follows | apply ResFollows.next
    | intro _ | split | simp only [Follows.keep] | simp +zetaDelta only [Follows.keep])

theorem execTableLoad_follows {s₀ : State} {s : State} (k : Nat) (h₀ : Follows s₀ s) :
    ResFollows s₀ (execTableLoad k s) := by
  unfold execTableLoad
  with_reducible repeat' (first
    | assumption | intro _ (_ : State) (_ : Follows _ _) | apply runOp_follows | apply State.failPkt_follows | apply State.modPart_follows | apply State.gather_follows | apply State.jobReady_follows | apply ResFollows.next
    | (intro (x : State); have hx : Follows s₀ x := (by dsimp only [x]; repeat' (first | assumption | intro _ (_ : State) (_ : Follows _ _) | apply runOp_follows | apply State.failPkt_follows | apply State.modPart_follows | apply State.gather_follows | apply State.jobReady_follows | apply ResFollows.next | intro _ | split | simp only [Follows.keep] | simp +zetaDelta only [Follows.keep])))
    | lift_lets | (intro (x : Option _); clear_value x)
    | intro _ | split | simp only [Follows.keep] | simp +zetaDelta only [Follows.keep])

end Sys2Proof.Machine
end

