-- ==== Sys2Proof/Laws/FollowWrites.lean ====
section
/-! SUPPORT. Follow lemmas: register writes follow. -/
namespace Sys2Proof.Machine

theorem State.partWrite_follows {s₀ : State} {s : State} (fn : Nat) (p : Nat) (a : Nat) (v : Nat) (h₀ : Follows s₀ s) :
    Follows s₀ (State.partWrite s fn p a v) := by
  unfold State.partWrite
  with_reducible repeat' (first
    | assumption | apply hostWrites_follows
    | intro _ | split)

theorem execSqDoorbell_follows {s₀ : State} {s : State} (fn : Nat) (p : Nat) (i : Nat) (v : Nat) (h₀ : Follows s₀ s) :
    ResFollows s₀ (execSqDoorbell fn p i v s) := by
  unfold execSqDoorbell
  with_reducible repeat' (first
    | assumption | apply State.partWrite_follows | apply ResFollows.next
    | intro _ | split)

theorem execCqDoorbell_follows {s₀ : State} {s : State} (fn : Nat) (p : Nat) (j : Nat) (v : Nat) (h₀ : Follows s₀ s) :
    ResFollows s₀ (execCqDoorbell fn p j v s) := by
  unfold execCqDoorbell
  with_reducible repeat' (first
    | assumption | apply State.partWrite_follows | apply ResFollows.next
    | intro _ | split)

theorem execProxyDoorbellWrite_follows {s₀ : State} {s : State} (fn : Nat) (p : Nat) (lo : Nat) (hi : Nat) (h₀ : Follows s₀ s) :
    ResFollows s₀ (execProxyDoorbellWrite fn p lo hi s) := by
  unfold execProxyDoorbellWrite
  with_reducible repeat' (first
    | assumption | apply State.partWrite_follows | apply ResFollows.next
    | intro _ | split)

theorem execSqStop_follows {s₀ : State} {s : State} (fn : Nat) (p : Nat) (i : Nat) (h₀ : Follows s₀ s) :
    ResFollows s₀ (execSqStop fn p i s) := by
  unfold execSqStop
  with_reducible repeat' (first
    | assumption | apply State.partWrite_follows | apply ResFollows.next
    | intro _ | split)

theorem execSqRestart_follows {s₀ : State} {s : State} (fn : Nat) (p : Nat) (i : Nat) (h₀ : Follows s₀ s) :
    ResFollows s₀ (execSqRestart fn p i s) := by
  unfold execSqRestart
  with_reducible repeat' (first
    | assumption | apply State.partWrite_follows | apply ResFollows.next
    | intro _ | split)

theorem execRingEnable_follows {s₀ : State} {s : State} (fn : Nat) (p : Nat) (cq : Bool) (i : Nat) (v : Nat) (h₀ : Follows s₀ s) :
    ResFollows s₀ (execRingEnable fn p cq i v s) := by
  unfold execRingEnable
  with_reducible repeat' (first
    | assumption | apply State.partWrite_follows | apply ResFollows.next
    | intro _ | split)

theorem execRingDisable_follows {s₀ : State} {s : State} (fn : Nat) (p : Nat) (cq : Bool) (i : Nat) (v : Nat) (h₀ : Follows s₀ s) :
    ResFollows s₀ (execRingDisable fn p cq i v s) := by
  unfold execRingDisable
  with_reducible repeat' (first
    | assumption | apply State.partWrite_follows | apply ResFollows.next
    | intro _ | split)

theorem execPrtLock_follows {s₀ : State} {s : State} (fn : Nat) (p : Nat) (h₀ : Follows s₀ s) :
    ResFollows s₀ (execPrtLock fn p s) := by
  unfold execPrtLock
  with_reducible repeat' (first
    | assumption | apply State.partWrite_follows | apply ResFollows.next
    | intro _ | split)

theorem execPrtReset_follows {s₀ : State} {s : State} (p : Nat) (h₀ : Follows s₀ s) :
    ResFollows s₀ (execPrtReset p s) := by
  unfold execPrtReset
  with_reducible repeat' (first
    | assumption | apply State.partWrite_follows | apply ResFollows.next
    | intro _ | split)

theorem execPrtRelease_follows {s₀ : State} {s : State} (p : Nat) (h₀ : Follows s₀ s) :
    ResFollows s₀ (execPrtRelease p s) := by
  unfold execPrtRelease
  with_reducible repeat' (first
    | assumption | apply State.partWrite_follows | apply ResFollows.next
    | intro _ | split)

theorem execGranuleOwnerWrite_follows {s₀ : State} {s : State} (g : Nat) (v : Nat) (h₀ : Follows s₀ s) :
    ResFollows s₀ (execGranuleOwnerWrite g v s) := by
  unfold execGranuleOwnerWrite
  with_reducible repeat' (first
    | assumption | apply State.hostWrites_follows | apply ResFollows.next
    | intro _ | split | simp only [Follows.keep] | simp +zetaDelta only [Follows.keep])

theorem execAnvilOwnerWrite_follows {s₀ : State} {s : State} (p : Nat) (mask : Nat) (h₀ : Follows s₀ s) :
    ResFollows s₀ (execAnvilOwnerWrite p mask s) := by
  unfold execAnvilOwnerWrite
  with_reducible repeat' (first
    | assumption | apply State.partWrite_follows | apply ResFollows.next
    | intro _ | split)

theorem execSlotQuotaWrite_follows {s₀ : State} {s : State} (fn : Nat) (p : Nat) (v : Nat) (h₀ : Follows s₀ s) :
    ResFollows s₀ (execSlotQuotaWrite fn p v s) := by
  unfold execSlotQuotaWrite
  with_reducible repeat' (first
    | assumption | apply State.partWrite_follows | apply ResFollows.next
    | intro _ | split)

theorem execPoolLimitWrite_follows {s₀ : State} {s : State} (v : Nat) (h₀ : Follows s₀ s) :
    ResFollows s₀ (execPoolLimitWrite v s) := by
  unfold execPoolLimitWrite
  with_reducible repeat' (first
    | assumption | apply State.hostWrites_follows | apply ResFollows.next
    | intro _ | split | simp only [Follows.keep] | simp +zetaDelta only [Follows.keep])

theorem execVecSrSeedWrite_follows {s₀ : State} {s : State} (fn : Nat) (p : Nat) (v : Nat) (h₀ : Follows s₀ s) :
    ResFollows s₀ (execVecSrSeedWrite fn p v s) := by
  unfold execVecSrSeedWrite
  with_reducible repeat' (first
    | assumption | apply State.partWrite_follows | apply ResFollows.next
    | intro _ | split)

theorem execSemValueWrite_follows {s₀ : State} {s : State} (fn : Nat) (p : Nat) (i : Nat) (v : Nat) (h₀ : Follows s₀ s) :
    ResFollows s₀ (execSemValueWrite fn p i v s) := by
  unfold execSemValueWrite
  with_reducible repeat' (first
    | assumption | apply State.partWrite_follows | apply ResFollows.next
    | intro _ | split)

theorem execSemSignalWrite_follows {s₀ : State} {s : State} (fn : Nat) (p : Nat) (i : Nat) (v : Nat) (h₀ : Follows s₀ s) :
    ResFollows s₀ (execSemSignalWrite fn p i v s) := by
  unfold execSemSignalWrite
  with_reducible repeat' (first
    | assumption | apply State.partWrite_follows | apply ResFollows.next
    | intro _ | split)

theorem execSemBarrierWrite_follows {s₀ : State} {s : State} (fn : Nat) (p : Nat) (j : Nat) (v : Nat) (h₀ : Follows s₀ s) :
    ResFollows s₀ (execSemBarrierWrite fn p j v s) := by
  unfold execSemBarrierWrite
  with_reducible repeat' (first
    | assumption | apply State.partWrite_follows | apply ResFollows.next
    | intro _ | split)

theorem execRegisterWrite_follows {s₀ : State} {s : State} (fn : Nat) (addr : Nat) (len : Nat) (val : Nat) (h₀ : Follows s₀ s) :
    ResFollows s₀ (execRegisterWrite fn addr len val s) := by
  unfold execRegisterWrite
  with_reducible repeat' (first
    | assumption | apply State.hostReq_follows | apply ResFollows.next
    | intro _ | split | simp only [Follows.keep] | simp +zetaDelta only [Follows.keep])

theorem execLnkCtrlRetrain_follows {s₀ : State} {s : State} (d : Nat) (h₀ : Follows s₀ s) :
    ResFollows s₀ (execLnkCtrlRetrain d s) := by
  unfold execLnkCtrlRetrain
  with_reducible repeat' (first
    | assumption | apply State.hostWrites_follows | apply ResFollows.next
    | intro _ | split | simp only [Follows.keep] | simp +zetaDelta only [Follows.keep])

theorem execLnkCtrlDown_follows {s₀ : State} {s : State} (d : Nat) (h₀ : Follows s₀ s) :
    ResFollows s₀ (execLnkCtrlDown d s) := by
  unfold execLnkCtrlDown
  with_reducible repeat' (first
    | assumption | apply State.hostWrites_follows | apply ResFollows.next
    | intro _ | split | simp only [Follows.keep] | simp +zetaDelta only [Follows.keep])

theorem execLnkTargetQuadsWrite_follows {s₀ : State} {s : State} (d : Nat) (n : Nat) (h₀ : Follows s₀ s) :
    ResFollows s₀ (execLnkTargetQuadsWrite d n s) := by
  unfold execLnkTargetQuadsWrite
  with_reducible repeat' (first
    | assumption | apply State.hostWrites_follows | apply ResFollows.next
    | intro _ | split | simp only [Follows.keep] | simp +zetaDelta only [Follows.keep])

theorem execAntFenceWrite_follows {s₀ : State} {s : State} (d : Nat) (fence : Bool) (h₀ : Follows s₀ s) :
    ResFollows s₀ (execAntFenceWrite d fence s) := by
  unfold execAntFenceWrite
  with_reducible repeat' (first
    | assumption | apply State.hostWrites_follows | apply ResFollows.next
    | intro _ | split | simp only [Follows.keep] | simp +zetaDelta only [Follows.keep])

theorem execRtLoadArm_follows {s₀ : State} {s : State} (tick : Nat) (h₀ : Follows s₀ s) :
    ResFollows s₀ (execRtLoadArm tick s) := by
  unfold execRtLoadArm
  with_reducible repeat' (first
    | assumption | apply State.hostWrites_follows | apply ResFollows.next
    | intro _ | split | simp only [Follows.keep] | simp +zetaDelta only [Follows.keep])

theorem execMtOffsetArm_follows {s₀ : State} {s : State} (h₀ : Follows s₀ s) :
    ResFollows s₀ (execMtOffsetArm s) := by
  unfold execMtOffsetArm
  with_reducible repeat' (first
    | assumption | apply State.hostWrites_follows | apply ResFollows.next
    | intro _ | split | simp only [Follows.keep] | simp +zetaDelta only [Follows.keep])

theorem execBelCapWrite_follows {s₀ : State} {s : State} (watts : Nat) (h₀ : Follows s₀ s) :
    ResFollows s₀ (execBelCapWrite watts s) := by
  unfold execBelCapWrite
  with_reducible repeat' (first
    | assumption | apply State.hostWrites_follows | apply ResFollows.next
    | intro _ | split | simp only [Follows.keep] | simp +zetaDelta only [Follows.keep])

theorem execBelAclkWrite_follows {s₀ : State} {s : State} (steps : Nat) (h₀ : Follows s₀ s) :
    ResFollows s₀ (execBelAclkWrite steps s) := by
  unfold execBelAclkWrite
  with_reducible repeat' (first
    | assumption | apply State.hostWrites_follows | apply ResFollows.next
    | intro _ | split | simp only [Follows.keep] | simp +zetaDelta only [Follows.keep])

theorem execQchCalibrate_follows {s₀ : State} {s : State} (h₀ : Follows s₀ s) :
    ResFollows s₀ (execQchCalibrate s) := by
  unfold execQchCalibrate
  with_reducible repeat' (first
    | assumption | apply State.hostWrites_follows | apply ResFollows.next
    | intro _ | split | simp only [Follows.keep] | simp +zetaDelta only [Follows.keep])

theorem execValveClear_follows {s₀ : State} {s : State} (v : Nat) (h₀ : Follows s₀ s) :
    ResFollows s₀ (execValveClear v s) := by
  unfold execValveClear
  with_reducible repeat' (first
    | assumption | apply State.hostWrites_follows | apply ResFollows.next
    | intro _ | split | simp only [Follows.keep] | simp +zetaDelta only [Follows.keep])

theorem execGlbChipReset_follows {s₀ : State} {s : State} (h₀ : Follows s₀ s) :
    ResFollows s₀ (execGlbChipReset s) := by
  unfold execGlbChipReset
  with_reducible repeat' (first
    | assumption | apply State.hostWrites_follows | apply ResFollows.next
    | intro _ | split | simp only [Follows.keep] | simp +zetaDelta only [Follows.keep])

theorem execGlbFaultRelease_follows {s₀ : State} {s : State} (h₀ : Follows s₀ s) :
    ResFollows s₀ (execGlbFaultRelease s) := by
  unfold execGlbFaultRelease
  with_reducible repeat' (first
    | assumption | apply State.hostWrites_follows | apply ResFollows.next
    | intro _ | split | simp only [Follows.keep] | simp +zetaDelta only [Follows.keep])

theorem execEvrCtrlClear_follows {s₀ : State} {s : State} (force : Bool) (h₀ : Follows s₀ s) :
    ResFollows s₀ (execEvrCtrlClear force s) := by
  unfold execEvrCtrlClear
  with_reducible repeat' (first
    | assumption | apply State.hostWrites_follows | apply ResFollows.next
    | intro _ | split | simp only [Follows.keep] | simp +zetaDelta only [Follows.keep])

theorem execEvrCtrlPersist_follows {s₀ : State} {s : State} (h₀ : Follows s₀ s) :
    ResFollows s₀ (execEvrCtrlPersist s) := by
  unfold execEvrCtrlPersist
  with_reducible repeat' (first
    | assumption | apply State.hostWrites_follows | apply ResFollows.next
    | intro _ | split | simp only [Follows.keep] | simp +zetaDelta only [Follows.keep])

theorem execEvrCursorFirst_follows {s₀ : State} {s : State} (fn : Nat) (h₀ : Follows s₀ s) :
    ResFollows s₀ (execEvrCursorFirst fn s) := by
  unfold execEvrCursorFirst
  with_reducible repeat' (first
    | assumption | apply State.hostWrites_follows | apply ResFollows.next
    | intro _ | split)

theorem execEvrCursorNext_follows {s₀ : State} {s : State} (fn : Nat) (idx : Nat) (h₀ : Follows s₀ s) :
    ResFollows s₀ (execEvrCursorNext fn idx s) := by
  unfold execEvrCursorNext
  with_reducible repeat' (first
    | assumption | apply State.hostWrites_follows | apply ResFollows.next
    | intro _ | split)

theorem execHostBar2Read_follows {s₀ : State} {s : State} (fn : Nat) (addr : Nat) (len : Nat) (ecc : List (Nat × Bool)) (h₀ : Follows s₀ s) :
    ResFollows s₀ (execHostBar2Read fn addr len ecc s) := by
  unfold execHostBar2Read
  with_reducible repeat' (first
    | assumption | apply State.hostReq_follows | apply ResFollows.next
    | intro _ | split | simp only [Follows.keep] | simp +zetaDelta only [Follows.keep])

theorem execHostBar2Write_follows {s₀ : State} {s : State} (fn : Nat) (addr : Nat) (data : List Byte) (ecc : List (Nat × Bool)) (h₀ : Follows s₀ s) :
    ResFollows s₀ (execHostBar2Write fn addr data s ecc) := by
  unfold execHostBar2Write
  with_reducible repeat' (first
    | assumption | apply State.hostReq_follows | apply ResFollows.next
    | intro _ | split | simp only [Follows.keep] | simp +zetaDelta only [Follows.keep])

theorem execLowWordRead_follows {s₀ : State} {s : State} (fn : Nat) (addr : Nat) (len : Nat) (h₀ : Follows s₀ s) :
    ResFollows s₀ (execLowWordRead fn addr len s) := by
  unfold execLowWordRead
  with_reducible repeat' (first
    | assumption | apply State.hostReq_follows | apply ResFollows.next
    | intro _ | split | simp only [Follows.keep] | simp +zetaDelta only [Follows.keep])

theorem execBar0IllegalAccess_follows {s₀ : State} {s : State} (fn : Nat) (addr : Nat) (len : Nat) (write : Bool) (h₀ : Follows s₀ s) :
    ResFollows s₀ (execBar0IllegalAccess fn addr len write s) := by
  unfold execBar0IllegalAccess
  with_reducible repeat' (first
    | assumption | apply State.hostReq_follows | apply ResFollows.next
    | intro _ | split | simp only [Follows.keep] | simp +zetaDelta only [Follows.keep])

theorem execMsixUnmask_follows {s₀ : State} {s : State} (fn : Nat) (v : Nat) (h₀ : Follows s₀ s) :
    ResFollows s₀ (execMsixUnmask fn v s) := by
  unfold execMsixUnmask
  with_reducible repeat' (first
    | assumption | apply State.hostReq_follows | apply ResFollows.next
    | intro _ | split | simp only [Follows.keep] | simp +zetaDelta only [Follows.keep])

theorem execPciConfigWrite_follows {s₀ : State} {s : State} (fn : Nat) (field : Nat) (val : Nat) (h₀ : Follows s₀ s) :
    ResFollows s₀ (execPciConfigWrite fn field val s) := by
  unfold execPciConfigWrite
  with_reducible repeat' (first
    | assumption | apply State.hostReq_follows | apply ResFollows.next
    | intro _ | split | simp only [Follows.keep] | simp +zetaDelta only [Follows.keep])

theorem execVfEnableWrite_follows {s₀ : State} {s : State} (enable : Bool) (num : Nat) (h₀ : Follows s₀ s) :
    ResFollows s₀ (execVfEnableWrite enable num s) := by
  unfold execVfEnableWrite
  with_reducible repeat' (first
    | assumption | apply State.hostReq_follows | apply ResFollows.next
    | intro _ | split | simp only [Follows.keep] | simp +zetaDelta only [Follows.keep])

theorem execFunctionLevelReset_follows {s₀ : State} {s : State} (v : Nat) (h₀ : Follows s₀ s) :
    ResFollows s₀ (execFunctionLevelReset v s) := by
  unfold execFunctionLevelReset
  with_reducible repeat' (first
    | assumption | apply State.hostReq_follows | apply State.flr_follows | apply ResFollows.next
    | intro _ | split | simp only [Follows.keep] | simp +zetaDelta only [Follows.keep])

end Sys2Proof.Machine
end

