-- ==== Sys2Proof/Laws/Locate.lean ====
section
/-! SUPPORT. The address of each register that a command writes lies in the map at that register, with its own instance and
index (R514). -/
namespace Sys2Proof.Machine

section
variable {nm : String} {b ni si n sn a : Nat} {fl : List Fld}

theorem find_one (hi : ni = 1) (hn : n = 1) :
    RegDesc.find ⟨nm, b, ni, si, n, sn, fl⟩ a = if a = b then some (0, 0) else none := by
  subst hi hn
  unfold RegDesc.find
  by_cases h : a < b
  · rw [if_pos h, if_neg (by omega)]
  · rw [if_neg h]
    by_cases e : a = b
    · simp [e]
    · simp [e]; omega

theorem find_inst (hi : 1 < ni) (hn : n = 1) :
    RegDesc.find ⟨nm, b, ni, si, n, sn, fl⟩ a =
      if b ≤ a ∧ (a - b) / si < ni ∧ (a - b) % si = 0 then some ((a - b) / si, 0) else none := by
  subst hn
  unfold RegDesc.find
  by_cases h : a < b
  · rw [if_pos h, if_neg (by omega)]
  · have h' : b ≤ a := by omega
    rw [if_neg h]; simp [hi, h']

theorem find_arr (hi : ni = 1) (hn : 1 < n) :
    RegDesc.find ⟨nm, b, ni, si, n, sn, fl⟩ a =
      if b ≤ a ∧ (a - b) / sn < n ∧ (a - b) % sn = 0 then some (0, (a - b) / sn) else none := by
  subst hi
  unfold RegDesc.find
  by_cases h : a < b
  · rw [if_pos h, if_neg (by omega)]
  · have h' : b ≤ a := by omega
    rw [if_neg h]; simp [hn, h']

theorem find_two (hi : 1 < ni) (hn : 1 < n) :
    RegDesc.find ⟨nm, b, ni, si, n, sn, fl⟩ a =
      if b ≤ a ∧ (a - b) / si < ni ∧ (a - b) % si / sn < n ∧ (a - b) % si % sn = 0
        then some ((a - b) / si, (a - b) % si / sn) else none := by
  unfold RegDesc.find
  by_cases h : a < b
  · rw [if_pos h, if_neg (by omega)]
  · have h' : b ≤ a := by omega
    rw [if_neg h]; simp [hi, hn, h', and_assoc]

end

theorem locate_adrGlbCtrl : locate adrGlbCtrl = some (⟨"GLB_CTRL", 0x00000010, 1, 0x0, 1, 0x0, [⟨0, 0, .w1s, 0x0, 0, 1, .chip⟩]⟩, 0, 0) := rfl

theorem locate_adrGlbFaultCtrl : locate adrGlbFaultCtrl = some (⟨"GLB_FAULT_CTRL", 0x00000108, 1, 0x0, 1, 0x0, [⟨0, 0, .w1s, 0x0, 0, 1, .chip⟩]⟩, 0, 0) := rfl

theorem locate_adrPrtCtrl {i : Nat} (hi : i < 8) :
    locate (adrPrtCtrl i) = some (⟨"PRT_CTRL", 0x00200004, 8, 0x10000, 1, 0x0, [⟨0, 0, .w1s, 0x0, 0, 1, .part⟩,
    ⟨1, 1, .w1s, 0x0, 0, 1, .part⟩,
    ⟨2, 2, .w1s, 0x0, 0, 1, .part⟩]⟩, i, 0) := by
  have hb : blkOf (adrPrtCtrl i) = some .prt := by
    have h : (adrPrtCtrl i) / 0x100000 = 2 := by simp only [adrPrtCtrl]; omega
    simp [blkOf, h, allBlks]
  simp only [locate, hb, blkRegs, regsPrt, findReg]
  rw [find_inst (by decide) (by decide), if_neg (by unfold adrPrtCtrl; omega)]; dsimp only
  rw [find_inst (by decide) (by decide), if_pos (by unfold adrPrtCtrl; omega)]; dsimp only
  have ei : ((adrPrtCtrl i) - 0x00200004) / 0x10000 = i := by unfold adrPrtCtrl; omega
  rw [ei]; simp [noSuch]

theorem locate_adrPrtAnvils {i : Nat} (hi : i < 8) :
    locate (adrPrtAnvils i) = some (⟨"PRT_ANVILS", 0x00200010, 8, 0x10000, 1, 0x0, [⟨7, 0, .rw, 0x0, 0, 255, .carve⟩]⟩, i, 0) := by
  have hb : blkOf (adrPrtAnvils i) = some .prt := by
    have h : (adrPrtAnvils i) / 0x100000 = 2 := by simp only [adrPrtAnvils]; omega
    simp [blkOf, h, allBlks]
  simp only [locate, hb, blkRegs, regsPrt, findReg]
  rw [find_inst (by decide) (by decide), if_neg (by unfold adrPrtAnvils; omega)]; dsimp only
  rw [find_inst (by decide) (by decide), if_neg (by unfold adrPrtAnvils; omega)]; dsimp only
  rw [find_inst (by decide) (by decide), if_pos (by unfold adrPrtAnvils; omega)]; dsimp only
  have ei : ((adrPrtAnvils i) - 0x00200010) / 0x10000 = i := by unfold adrPrtAnvils; omega
  rw [ei]; simp [noSuch]

theorem locate_adrCmdSqCfg {i j : Nat} (hi : i < 8) (hj : j < 16) :
    locate (adrCmdSqCfg i j) = some (⟨"CMD_SQ_CFG", 0x00300108, 8, 0x10000, 16, 0x20, [⟨4, 0, .rwl, 0x6, 6, 16, .part⟩,
    ⟨6, 5, .rwl, 0x0, 0, 3, .part⟩,
    ⟨11, 8, .rwl, 0x0, 0, 15, .part⟩,
    ⟨19, 12, .rwl, 0x1, 1, 255, .part⟩,
    ⟨31, 31, .rwl, 0x0, 0, 1, .part⟩]⟩, i, j) := by
  have hb : blkOf (adrCmdSqCfg i j) = some .cmd := by
    have h : (adrCmdSqCfg i j) / 0x100000 = 3 := by simp only [adrCmdSqCfg]; omega
    simp [blkOf, h, allBlks]
  simp only [locate, hb, blkRegs, regsCmd, findReg]
  rw [find_inst (by decide) (by decide), if_neg (by unfold adrCmdSqCfg; omega)]; dsimp only
  rw [find_inst (by decide) (by decide), if_neg (by unfold adrCmdSqCfg; omega)]; dsimp only
  rw [find_inst (by decide) (by decide), if_neg (by unfold adrCmdSqCfg; omega)]; dsimp only
  rw [find_inst (by decide) (by decide), if_neg (by unfold adrCmdSqCfg; omega)]; dsimp only
  rw [find_inst (by decide) (by decide), if_neg (by unfold adrCmdSqCfg; omega)]; dsimp only
  rw [find_two (by decide) (by decide), if_neg (by unfold adrCmdSqCfg; omega)]; dsimp only
  rw [find_two (by decide) (by decide), if_neg (by unfold adrCmdSqCfg; omega)]; dsimp only
  rw [find_two (by decide) (by decide), if_pos (by unfold adrCmdSqCfg; omega)]; dsimp only
  have ei : ((adrCmdSqCfg i j) - 0x00300108) / 0x10000 = i := by unfold adrCmdSqCfg; omega
  have ej : ((adrCmdSqCfg i j) - 0x00300108) % 0x10000 / 0x20 = j := by unfold adrCmdSqCfg; omega
  rw [ei, ej]; simp [noSuch]

theorem locate_adrCmdSqCtrl {i j : Nat} (hi : i < 8) (hj : j < 16) :
    locate (adrCmdSqCtrl i j) = some (⟨"CMD_SQ_CTRL", 0x0030010C, 8, 0x10000, 16, 0x20, [⟨0, 0, .w1s, 0x0, 0, 1, .part⟩,
    ⟨1, 1, .w1s, 0x0, 0, 1, .part⟩]⟩, i, j) := by
  have hb : blkOf (adrCmdSqCtrl i j) = some .cmd := by
    have h : (adrCmdSqCtrl i j) / 0x100000 = 3 := by simp only [adrCmdSqCtrl]; omega
    simp [blkOf, h, allBlks]
  simp only [locate, hb, blkRegs, regsCmd, findReg]
  rw [find_inst (by decide) (by decide), if_neg (by unfold adrCmdSqCtrl; omega)]; dsimp only
  rw [find_inst (by decide) (by decide), if_neg (by unfold adrCmdSqCtrl; omega)]; dsimp only
  rw [find_inst (by decide) (by decide), if_neg (by unfold adrCmdSqCtrl; omega)]; dsimp only
  rw [find_inst (by decide) (by decide), if_neg (by unfold adrCmdSqCtrl; omega)]; dsimp only
  rw [find_inst (by decide) (by decide), if_neg (by unfold adrCmdSqCtrl; omega)]; dsimp only
  rw [find_two (by decide) (by decide), if_neg (by unfold adrCmdSqCtrl; omega)]; dsimp only
  rw [find_two (by decide) (by decide), if_neg (by unfold adrCmdSqCtrl; omega)]; dsimp only
  rw [find_two (by decide) (by decide), if_neg (by unfold adrCmdSqCtrl; omega)]; dsimp only
  rw [find_two (by decide) (by decide), if_pos (by unfold adrCmdSqCtrl; omega)]; dsimp only
  have ei : ((adrCmdSqCtrl i j) - 0x0030010C) / 0x10000 = i := by unfold adrCmdSqCtrl; omega
  have ej : ((adrCmdSqCtrl i j) - 0x0030010C) % 0x10000 / 0x20 = j := by unfold adrCmdSqCtrl; omega
  rw [ei, ej]; simp [noSuch]

theorem locate_adrCmdCqCfg {i j : Nat} (hi : i < 8) (hj : j < 16) :
    locate (adrCmdCqCfg i j) = some (⟨"CMD_CQ_CFG", 0x00300408, 8, 0x10000, 16, 0x20, [⟨4, 0, .rwl, 0x6, 6, 16, .part⟩,
    ⟨6, 5, .rwl, 0x0, 0, 3, .part⟩,
    ⟨31, 31, .rwl, 0x0, 0, 1, .part⟩]⟩, i, j) := by
  have hb : blkOf (adrCmdCqCfg i j) = some .cmd := by
    have h : (adrCmdCqCfg i j) / 0x100000 = 3 := by simp only [adrCmdCqCfg]; omega
    simp [blkOf, h, allBlks]
  simp only [locate, hb, blkRegs, regsCmd, findReg]
  rw [find_inst (by decide) (by decide), if_neg (by unfold adrCmdCqCfg; omega)]; dsimp only
  rw [find_inst (by decide) (by decide), if_neg (by unfold adrCmdCqCfg; omega)]; dsimp only
  rw [find_inst (by decide) (by decide), if_neg (by unfold adrCmdCqCfg; omega)]; dsimp only
  rw [find_inst (by decide) (by decide), if_neg (by unfold adrCmdCqCfg; omega)]; dsimp only
  rw [find_inst (by decide) (by decide), if_neg (by unfold adrCmdCqCfg; omega)]; dsimp only
  rw [find_two (by decide) (by decide), if_neg (by unfold adrCmdCqCfg; omega)]; dsimp only
  rw [find_two (by decide) (by decide), if_neg (by unfold adrCmdCqCfg; omega)]; dsimp only
  rw [find_two (by decide) (by decide), if_neg (by unfold adrCmdCqCfg; omega)]; dsimp only
  rw [find_two (by decide) (by decide), if_neg (by unfold adrCmdCqCfg; omega)]; dsimp only
  rw [find_two (by decide) (by decide), if_neg (by unfold adrCmdCqCfg; omega)]; dsimp only
  rw [find_two (by decide) (by decide), if_neg (by unfold adrCmdCqCfg; omega)]; dsimp only
  rw [find_two (by decide) (by decide), if_neg (by unfold adrCmdCqCfg; omega)]; dsimp only
  rw [find_two (by decide) (by decide), if_neg (by unfold adrCmdCqCfg; omega)]; dsimp only
  rw [find_two (by decide) (by decide), if_neg (by unfold adrCmdCqCfg; omega)]; dsimp only
  rw [find_two (by decide) (by decide), if_pos (by unfold adrCmdCqCfg; omega)]; dsimp only
  have ei : ((adrCmdCqCfg i j) - 0x00300408) / 0x10000 = i := by unfold adrCmdCqCfg; omega
  have ej : ((adrCmdCqCfg i j) - 0x00300408) % 0x10000 / 0x20 = j := by unfold adrCmdCqCfg; omega
  rw [ei, ej]; simp [noSuch]

theorem locate_adrCmdSqDb {i j : Nat} (hi : i < 8) (hj : j < 16) :
    locate (adrCmdSqDb i j) = some (⟨"CMD_SQ_DB", 0x00301000, 8, 0x10000, 16, 0x10, [⟨15, 0, .wo, 0x0, 0, 65535, .part⟩,
    ⟨16, 16, .wo, 0x0, 0, 1, .part⟩]⟩, i, j) := by
  have hb : blkOf (adrCmdSqDb i j) = some .cmd := by
    have h : (adrCmdSqDb i j) / 0x100000 = 3 := by simp only [adrCmdSqDb]; omega
    simp [blkOf, h, allBlks]
  simp only [locate, hb, blkRegs, regsCmd, findReg]
  rw [find_inst (by decide) (by decide), if_neg (by unfold adrCmdSqDb; omega)]; dsimp only
  rw [find_inst (by decide) (by decide), if_neg (by unfold adrCmdSqDb; omega)]; dsimp only
  rw [find_inst (by decide) (by decide), if_neg (by unfold adrCmdSqDb; omega)]; dsimp only
  rw [find_inst (by decide) (by decide), if_neg (by unfold adrCmdSqDb; omega)]; dsimp only
  rw [find_inst (by decide) (by decide), if_neg (by unfold adrCmdSqDb; omega)]; dsimp only
  rw [find_two (by decide) (by decide), if_neg (by unfold adrCmdSqDb; omega)]; dsimp only
  rw [find_two (by decide) (by decide), if_neg (by unfold adrCmdSqDb; omega)]; dsimp only
  rw [find_two (by decide) (by decide), if_neg (by unfold adrCmdSqDb; omega)]; dsimp only
  rw [find_two (by decide) (by decide), if_neg (by unfold adrCmdSqDb; omega)]; dsimp only
  rw [find_two (by decide) (by decide), if_neg (by unfold adrCmdSqDb; omega)]; dsimp only
  rw [find_two (by decide) (by decide), if_neg (by unfold adrCmdSqDb; omega)]; dsimp only
  rw [find_two (by decide) (by decide), if_neg (by unfold adrCmdSqDb; omega)]; dsimp only
  rw [find_two (by decide) (by decide), if_neg (by unfold adrCmdSqDb; omega)]; dsimp only
  rw [find_two (by decide) (by decide), if_neg (by unfold adrCmdSqDb; omega)]; dsimp only
  rw [find_two (by decide) (by decide), if_neg (by unfold adrCmdSqDb; omega)]; dsimp only
  rw [find_two (by decide) (by decide), if_neg (by unfold adrCmdSqDb; omega)]; dsimp only
  rw [find_two (by decide) (by decide), if_neg (by unfold adrCmdSqDb; omega)]; dsimp only
  rw [find_two (by decide) (by decide), if_neg (by unfold adrCmdSqDb; omega)]; dsimp only
  rw [find_two (by decide) (by decide), if_neg (by unfold adrCmdSqDb; omega)]; dsimp only
  rw [find_two (by decide) (by decide), if_pos (by unfold adrCmdSqDb; omega)]; dsimp only
  have ei : ((adrCmdSqDb i j) - 0x00301000) / 0x10000 = i := by unfold adrCmdSqDb; omega
  have ej : ((adrCmdSqDb i j) - 0x00301000) % 0x10000 / 0x10 = j := by unfold adrCmdSqDb; omega
  rw [ei, ej]; simp [noSuch]

theorem locate_adrCmdCqDb {i j : Nat} (hi : i < 8) (hj : j < 16) :
    locate (adrCmdCqDb i j) = some (⟨"CMD_CQ_DB", 0x00301008, 8, 0x10000, 16, 0x10, [⟨15, 0, .wo, 0x0, 0, 65535, .part⟩,
    ⟨16, 16, .wo, 0x0, 0, 1, .part⟩]⟩, i, j) := by
  have hb : blkOf (adrCmdCqDb i j) = some .cmd := by
    have h : (adrCmdCqDb i j) / 0x100000 = 3 := by simp only [adrCmdCqDb]; omega
    simp [blkOf, h, allBlks]
  simp only [locate, hb, blkRegs, regsCmd, findReg]
  rw [find_inst (by decide) (by decide), if_neg (by unfold adrCmdCqDb; omega)]; dsimp only
  rw [find_inst (by decide) (by decide), if_neg (by unfold adrCmdCqDb; omega)]; dsimp only
  rw [find_inst (by decide) (by decide), if_neg (by unfold adrCmdCqDb; omega)]; dsimp only
  rw [find_inst (by decide) (by decide), if_neg (by unfold adrCmdCqDb; omega)]; dsimp only
  rw [find_inst (by decide) (by decide), if_neg (by unfold adrCmdCqDb; omega)]; dsimp only
  rw [find_two (by decide) (by decide), if_neg (by unfold adrCmdCqDb; omega)]; dsimp only
  rw [find_two (by decide) (by decide), if_neg (by unfold adrCmdCqDb; omega)]; dsimp only
  rw [find_two (by decide) (by decide), if_neg (by unfold adrCmdCqDb; omega)]; dsimp only
  rw [find_two (by decide) (by decide), if_neg (by unfold adrCmdCqDb; omega)]; dsimp only
  rw [find_two (by decide) (by decide), if_neg (by unfold adrCmdCqDb; omega)]; dsimp only
  rw [find_two (by decide) (by decide), if_neg (by unfold adrCmdCqDb; omega)]; dsimp only
  rw [find_two (by decide) (by decide), if_neg (by unfold adrCmdCqDb; omega)]; dsimp only
  rw [find_two (by decide) (by decide), if_neg (by unfold adrCmdCqDb; omega)]; dsimp only
  rw [find_two (by decide) (by decide), if_neg (by unfold adrCmdCqDb; omega)]; dsimp only
  rw [find_two (by decide) (by decide), if_neg (by unfold adrCmdCqDb; omega)]; dsimp only
  rw [find_two (by decide) (by decide), if_neg (by unfold adrCmdCqDb; omega)]; dsimp only
  rw [find_two (by decide) (by decide), if_neg (by unfold adrCmdCqDb; omega)]; dsimp only
  rw [find_two (by decide) (by decide), if_neg (by unfold adrCmdCqDb; omega)]; dsimp only
  rw [find_two (by decide) (by decide), if_neg (by unfold adrCmdCqDb; omega)]; dsimp only
  rw [find_two (by decide) (by decide), if_neg (by unfold adrCmdCqDb; omega)]; dsimp only
  rw [find_two (by decide) (by decide), if_pos (by unfold adrCmdCqDb; omega)]; dsimp only
  have ei : ((adrCmdCqDb i j) - 0x00301008) / 0x10000 = i := by unfold adrCmdCqDb; omega
  have ej : ((adrCmdCqDb i j) - 0x00301008) % 0x10000 / 0x10 = j := by unfold adrCmdCqDb; omega
  rw [ei, ej]; simp [noSuch]

theorem locate_adrCmdProxyDbLo {i : Nat} (hi : i < 8) :
    locate (adrCmdProxyDbLo i) = some (⟨"CMD_PROXY_DB_LO", 0x00301200, 8, 0x10000, 1, 0x0, [⟨16, 0, .wo, 0x0, 0, 131071, .part⟩,
    ⟨20, 17, .wo, 0x0, 0, 15, .part⟩,
    ⟨21, 21, .wo, 0x0, 0, 1, .part⟩]⟩, i, 0) := by
  have hb : blkOf (adrCmdProxyDbLo i) = some .cmd := by
    have h : (adrCmdProxyDbLo i) / 0x100000 = 3 := by simp only [adrCmdProxyDbLo]; omega
    simp [blkOf, h, allBlks]
  simp only [locate, hb, blkRegs, regsCmd, findReg]
  rw [find_inst (by decide) (by decide), if_neg (by unfold adrCmdProxyDbLo; omega)]; dsimp only
  rw [find_inst (by decide) (by decide), if_neg (by unfold adrCmdProxyDbLo; omega)]; dsimp only
  rw [find_inst (by decide) (by decide), if_neg (by unfold adrCmdProxyDbLo; omega)]; dsimp only
  rw [find_inst (by decide) (by decide), if_neg (by unfold adrCmdProxyDbLo; omega)]; dsimp only
  rw [find_inst (by decide) (by decide), if_neg (by unfold adrCmdProxyDbLo; omega)]; dsimp only
  rw [find_two (by decide) (by decide), if_neg (by unfold adrCmdProxyDbLo; omega)]; dsimp only
  rw [find_two (by decide) (by decide), if_neg (by unfold adrCmdProxyDbLo; omega)]; dsimp only
  rw [find_two (by decide) (by decide), if_neg (by unfold adrCmdProxyDbLo; omega)]; dsimp only
  rw [find_two (by decide) (by decide), if_neg (by unfold adrCmdProxyDbLo; omega)]; dsimp only
  rw [find_two (by decide) (by decide), if_neg (by unfold adrCmdProxyDbLo; omega)]; dsimp only
  rw [find_two (by decide) (by decide), if_neg (by unfold adrCmdProxyDbLo; omega)]; dsimp only
  rw [find_two (by decide) (by decide), if_neg (by unfold adrCmdProxyDbLo; omega)]; dsimp only
  rw [find_two (by decide) (by decide), if_neg (by unfold adrCmdProxyDbLo; omega)]; dsimp only
  rw [find_two (by decide) (by decide), if_neg (by unfold adrCmdProxyDbLo; omega)]; dsimp only
  rw [find_two (by decide) (by decide), if_neg (by unfold adrCmdProxyDbLo; omega)]; dsimp only
  rw [find_two (by decide) (by decide), if_neg (by unfold adrCmdProxyDbLo; omega)]; dsimp only
  rw [find_two (by decide) (by decide), if_neg (by unfold adrCmdProxyDbLo; omega)]; dsimp only
  rw [find_two (by decide) (by decide), if_neg (by unfold adrCmdProxyDbLo; omega)]; dsimp only
  rw [find_two (by decide) (by decide), if_neg (by unfold adrCmdProxyDbLo; omega)]; dsimp only
  rw [find_two (by decide) (by decide), if_neg (by unfold adrCmdProxyDbLo; omega)]; dsimp only
  rw [find_two (by decide) (by decide), if_neg (by unfold adrCmdProxyDbLo; omega)]; dsimp only
  rw [find_inst (by decide) (by decide), if_pos (by unfold adrCmdProxyDbLo; omega)]; dsimp only
  have ei : ((adrCmdProxyDbLo i) - 0x00301200) / 0x10000 = i := by unfold adrCmdProxyDbLo; omega
  rw [ei]; simp [noSuch]

theorem locate_adrCmdProxyDbHi {i : Nat} (hi : i < 8) :
    locate (adrCmdProxyDbHi i) = some (⟨"CMD_PROXY_DB_HI", 0x00301204, 8, 0x10000, 1, 0x0, [⟨23, 0, .wo, 0x0, 0, 16777215, .part⟩]⟩, i, 0) := by
  have hb : blkOf (adrCmdProxyDbHi i) = some .cmd := by
    have h : (adrCmdProxyDbHi i) / 0x100000 = 3 := by simp only [adrCmdProxyDbHi]; omega
    simp [blkOf, h, allBlks]
  simp only [locate, hb, blkRegs, regsCmd, findReg]
  rw [find_inst (by decide) (by decide), if_neg (by unfold adrCmdProxyDbHi; omega)]; dsimp only
  rw [find_inst (by decide) (by decide), if_neg (by unfold adrCmdProxyDbHi; omega)]; dsimp only
  rw [find_inst (by decide) (by decide), if_neg (by unfold adrCmdProxyDbHi; omega)]; dsimp only
  rw [find_inst (by decide) (by decide), if_neg (by unfold adrCmdProxyDbHi; omega)]; dsimp only
  rw [find_inst (by decide) (by decide), if_neg (by unfold adrCmdProxyDbHi; omega)]; dsimp only
  rw [find_two (by decide) (by decide), if_neg (by unfold adrCmdProxyDbHi; omega)]; dsimp only
  rw [find_two (by decide) (by decide), if_neg (by unfold adrCmdProxyDbHi; omega)]; dsimp only
  rw [find_two (by decide) (by decide), if_neg (by unfold adrCmdProxyDbHi; omega)]; dsimp only
  rw [find_two (by decide) (by decide), if_neg (by unfold adrCmdProxyDbHi; omega)]; dsimp only
  rw [find_two (by decide) (by decide), if_neg (by unfold adrCmdProxyDbHi; omega)]; dsimp only
  rw [find_two (by decide) (by decide), if_neg (by unfold adrCmdProxyDbHi; omega)]; dsimp only
  rw [find_two (by decide) (by decide), if_neg (by unfold adrCmdProxyDbHi; omega)]; dsimp only
  rw [find_two (by decide) (by decide), if_neg (by unfold adrCmdProxyDbHi; omega)]; dsimp only
  rw [find_two (by decide) (by decide), if_neg (by unfold adrCmdProxyDbHi; omega)]; dsimp only
  rw [find_two (by decide) (by decide), if_neg (by unfold adrCmdProxyDbHi; omega)]; dsimp only
  rw [find_two (by decide) (by decide), if_neg (by unfold adrCmdProxyDbHi; omega)]; dsimp only
  rw [find_two (by decide) (by decide), if_neg (by unfold adrCmdProxyDbHi; omega)]; dsimp only
  rw [find_two (by decide) (by decide), if_neg (by unfold adrCmdProxyDbHi; omega)]; dsimp only
  rw [find_two (by decide) (by decide), if_neg (by unfold adrCmdProxyDbHi; omega)]; dsimp only
  rw [find_two (by decide) (by decide), if_neg (by unfold adrCmdProxyDbHi; omega)]; dsimp only
  rw [find_two (by decide) (by decide), if_neg (by unfold adrCmdProxyDbHi; omega)]; dsimp only
  rw [find_inst (by decide) (by decide), if_neg (by unfold adrCmdProxyDbHi; omega)]; dsimp only
  rw [find_inst (by decide) (by decide), if_pos (by unfold adrCmdProxyDbHi; omega)]; dsimp only
  have ei : ((adrCmdProxyDbHi i) - 0x00301204) / 0x10000 = i := by unfold adrCmdProxyDbHi; omega
  rw [ei]; simp [noSuch]

theorem locate_adrVecSrSeed {i : Nat} (hi : i < 8) :
    locate (adrVecSrSeed i) = some (⟨"VEC_SR_SEED", 0x00500014, 8, 0x10000, 1, 0x0, [⟨31, 0, .rw, 0x1, 0, 4294967295, .part⟩]⟩, i, 0) := by
  have hb : blkOf (adrVecSrSeed i) = some .vec := by
    have h : (adrVecSrSeed i) / 0x100000 = 5 := by simp only [adrVecSrSeed]; omega
    simp [blkOf, h, allBlks]
  simp only [locate, hb, blkRegs, regsVec, findReg]
  rw [find_inst (by decide) (by decide), if_neg (by unfold adrVecSrSeed; omega)]; dsimp only
  rw [find_inst (by decide) (by decide), if_pos (by unfold adrVecSrSeed; omega)]; dsimp only
  have ei : ((adrVecSrSeed i) - 0x00500014) / 0x10000 = i := by unfold adrVecSrSeed; omega
  rw [ei]; simp [noSuch]

theorem locate_adrHrtGranuleOwner {j : Nat} (hj : j < 128) :
    locate (adrHrtGranuleOwner j) = some (⟨"HRT_GRANULE_OWNER", 0x00600000, 1, 0x0, 128, 0x4, [⟨2, 0, .rw, 0x0, 0, 7, .carve⟩,
    ⟨3, 3, .rw, 0x0, 0, 1, .carve⟩,
    ⟨4, 4, .ro, 0x0, 0, 1, .chip⟩]⟩, 0, j) := by
  have hb : blkOf (adrHrtGranuleOwner j) = some .hrt := by
    have h : (adrHrtGranuleOwner j) / 0x100000 = 6 := by simp only [adrHrtGranuleOwner]; omega
    simp [blkOf, h, allBlks]
  simp only [locate, hb, blkRegs, regsHrt, findReg]
  rw [find_arr (by decide) (by decide), if_pos (by unfold adrHrtGranuleOwner; omega)]; dsimp only
  have ej : ((adrHrtGranuleOwner j) - 0x00600000) / 0x4 = j := by unfold adrHrtGranuleOwner; omega
  rw [ej]; simp [noSuch]

theorem locate_adrSemValue {i j : Nat} (hi : i < 8) (hj : j < 256) :
    locate (adrSemValue i j) = some (⟨"SEM_VALUE", 0x00800000, 8, 0x10000, 256, 0x10, [⟨31, 0, .rw, 0x0, 0, 4294967295, .part⟩]⟩, i, j) := by
  have hb : blkOf (adrSemValue i j) = some .sem := by
    have h : (adrSemValue i j) / 0x100000 = 8 := by simp only [adrSemValue]; omega
    simp [blkOf, h, allBlks]
  simp only [locate, hb, blkRegs, regsSem, findReg]
  rw [find_two (by decide) (by decide), if_pos (by unfold adrSemValue; omega)]; dsimp only
  have ei : ((adrSemValue i j) - 0x00800000) / 0x10000 = i := by unfold adrSemValue; omega
  have ej : ((adrSemValue i j) - 0x00800000) % 0x10000 / 0x10 = j := by unfold adrSemValue; omega
  rw [ei, ej]; simp [noSuch]

theorem locate_adrSemSignal {i j : Nat} (hi : i < 8) (hj : j < 256) :
    locate (adrSemSignal i j) = some (⟨"SEM_SIGNAL", 0x00800004, 8, 0x10000, 256, 0x10, [⟨7, 0, .wo, 0x0, 0, 255, .part⟩,
    ⟨31, 8, .wo, 0x0, 0, 16777215, .part⟩]⟩, i, j) := by
  have hb : blkOf (adrSemSignal i j) = some .sem := by
    have h : (adrSemSignal i j) / 0x100000 = 8 := by simp only [adrSemSignal]; omega
    simp [blkOf, h, allBlks]
  simp only [locate, hb, blkRegs, regsSem, findReg]
  rw [find_two (by decide) (by decide), if_neg (by unfold adrSemSignal; omega)]; dsimp only
  rw [find_two (by decide) (by decide), if_pos (by unfold adrSemSignal; omega)]; dsimp only
  have ei : ((adrSemSignal i j) - 0x00800004) / 0x10000 = i := by unfold adrSemSignal; omega
  have ej : ((adrSemSignal i j) - 0x00800004) % 0x10000 / 0x10 = j := by unfold adrSemSignal; omega
  rw [ei, ej]; simp [noSuch]

theorem locate_adrSemBarrier {i j : Nat} (hi : i < 8) (hj : j < 64) :
    locate (adrSemBarrier i j) = some (⟨"SEM_BARRIER", 0x00802000, 8, 0x10000, 64, 0x10, [⟨10, 0, .rw, 0x1, 1, 1024, .part⟩,
    ⟨18, 11, .rw, 0x0, 0, 255, .part⟩,
    ⟨26, 19, .rw, 0x1, 1, 255, .part⟩]⟩, i, j) := by
  have hb : blkOf (adrSemBarrier i j) = some .sem := by
    have h : (adrSemBarrier i j) / 0x100000 = 8 := by simp only [adrSemBarrier]; omega
    simp [blkOf, h, allBlks]
  simp only [locate, hb, blkRegs, regsSem, findReg]
  rw [find_two (by decide) (by decide), if_neg (by unfold adrSemBarrier; omega)]; dsimp only
  rw [find_two (by decide) (by decide), if_neg (by unfold adrSemBarrier; omega)]; dsimp only
  rw [find_two (by decide) (by decide), if_neg (by unfold adrSemBarrier; omega)]; dsimp only
  rw [find_two (by decide) (by decide), if_pos (by unfold adrSemBarrier; omega)]; dsimp only
  have ei : ((adrSemBarrier i j) - 0x00802000) / 0x10000 = i := by unfold adrSemBarrier; omega
  have ej : ((adrSemBarrier i j) - 0x00802000) % 0x10000 / 0x10 = j := by unfold adrSemBarrier; omega
  rw [ei, ej]; simp [noSuch]

theorem locate_adrSeqSlotCfg {i : Nat} (hi : i < 8) :
    locate (adrSeqSlotCfg i) = some (⟨"SEQ_SLOT_CFG", 0x00900010, 8, 0x10000, 1, 0x0, [⟨7, 0, .rwl, 0x0, 0, 128, .carve⟩,
    ⟨9, 8, .rwl, 0x3, 0, 3, .part⟩,
    ⟨21, 16, .rwl, 0x0, 0, 24, .carve⟩]⟩, i, 0) := by
  have hb : blkOf (adrSeqSlotCfg i) = some .seq := by
    have h : (adrSeqSlotCfg i) / 0x100000 = 9 := by simp only [adrSeqSlotCfg]; omega
    simp [blkOf, h, allBlks]
  simp only [locate, hb, blkRegs, regsSeq, findReg]
  rw [find_inst (by decide) (by decide), if_pos (by unfold adrSeqSlotCfg; omega)]; dsimp only
  have ei : ((adrSeqSlotCfg i) - 0x00900010) / 0x10000 = i := by unfold adrSeqSlotCfg; omega
  rw [ei]; simp [noSuch]

theorem locate_adrSeqPool : locate adrSeqPool = some (⟨"SEQ_POOL", 0x00980000, 1, 0x0, 1, 0x0, [⟨5, 0, .rw, 0x8, 8, 32, .chip⟩,
    ⟨30, 16, .ro, 0x4000, 0, 32767, .chip⟩]⟩, 0, 0) := rfl

theorem locate_adrLnkCtrl {i : Nat} (hi : i < 8) :
    locate (adrLnkCtrl i) = some (⟨"LNK_CTRL", 0x00C00010, 8, 0x10000, 1, 0x0, [⟨3, 0, .rw, 0x8, 1, 8, .chip⟩,
    ⟨4, 4, .w1s, 0x0, 0, 1, .chip⟩,
    ⟨5, 5, .w1s, 0x0, 0, 1, .chip⟩]⟩, i, 0) := by
  have hb : blkOf (adrLnkCtrl i) = some .lnk := by
    have h : (adrLnkCtrl i) / 0x100000 = 12 := by simp only [adrLnkCtrl]; omega
    simp [blkOf, h, allBlks]
  simp only [locate, hb, blkRegs, regsLnk, findReg]
  rw [find_one (by decide) (by decide), if_neg (by unfold adrLnkCtrl; omega)]; dsimp only
  rw [find_one (by decide) (by decide), if_neg (by unfold adrLnkCtrl; omega)]; dsimp only
  rw [find_inst (by decide) (by decide), if_neg (by unfold adrLnkCtrl; omega)]; dsimp only
  rw [find_inst (by decide) (by decide), if_neg (by unfold adrLnkCtrl; omega)]; dsimp only
  rw [find_inst (by decide) (by decide), if_neg (by unfold adrLnkCtrl; omega)]; dsimp only
  rw [find_inst (by decide) (by decide), if_pos (by unfold adrLnkCtrl; omega)]; dsimp only
  have ei : ((adrLnkCtrl i) - 0x00C00010) / 0x10000 = i := by unfold adrLnkCtrl; omega
  rw [ei]; simp [noSuch]

theorem locate_adrAntPortCfg {j : Nat} (hj : j < 8) :
    locate (adrAntPortCfg j) = some (⟨"ANT_PORT_CFG", 0x00D00100, 1, 0x0, 8, 0x10, [⟨2, 0, .rw, 0x0, 0, 7, .carve⟩,
    ⟨3, 3, .rw, 0x0, 0, 1, .carve⟩,
    ⟨4, 4, .rw, 0x0, 0, 1, .chip⟩,
    ⟨5, 5, .w1c, 0x0, 0, 1, .chip⟩]⟩, 0, j) := by
  have hb : blkOf (adrAntPortCfg j) = some .ant := by
    have h : (adrAntPortCfg j) / 0x100000 = 13 := by simp only [adrAntPortCfg]; omega
    simp [blkOf, h, allBlks]
  simp only [locate, hb, blkRegs, regsAnt, findReg]
  rw [find_one (by decide) (by decide), if_neg (by unfold adrAntPortCfg; omega)]; dsimp only
  rw [find_one (by decide) (by decide), if_neg (by unfold adrAntPortCfg; omega)]; dsimp only
  rw [find_one (by decide) (by decide), if_neg (by unfold adrAntPortCfg; omega)]; dsimp only
  rw [find_arr (by decide) (by decide), if_neg (by unfold adrAntPortCfg; omega)]; dsimp only
  rw [find_arr (by decide) (by decide), if_pos (by unfold adrAntPortCfg; omega)]; dsimp only
  have ej : ((adrAntPortCfg j) - 0x00D00100) / 0x10 = j := by unfold adrAntPortCfg; omega
  rw [ej]; simp [noSuch]

theorem locate_adrClkRtLoadLo : locate adrClkRtLoadLo = some (⟨"CLK_RT_LOAD_LO", 0x00F00050, 1, 0x0, 1, 0x0, [⟨31, 0, .rw, 0x0, 0, 4294967295, .chip⟩]⟩, 0, 0) := rfl

theorem locate_adrClkRtLoadHi : locate adrClkRtLoadHi = some (⟨"CLK_RT_LOAD_HI", 0x00F00054, 1, 0x0, 1, 0x0, [⟨11, 0, .rw, 0x0, 0, 4095, .chip⟩,
    ⟨31, 31, .w1s, 0x0, 0, 1, .chip⟩]⟩, 0, 0) := rfl

theorem locate_adrClkMtArm : locate adrClkMtArm = some (⟨"CLK_MT_ARM", 0x00F00060, 1, 0x0, 1, 0x0, [⟨0, 0, .w1s, 0x0, 0, 1, .chip⟩]⟩, 0, 0) := rfl

theorem locate_adrBelCap : locate adrBelCap = some (⟨"BEL_CAP", 0x01000014, 1, 0x0, 1, 0x0, [⟨10, 0, .rw, 0x47E, 400, 1250, .chip⟩]⟩, 0, 0) := rfl

theorem locate_adrBelAclk : locate adrBelAclk = some (⟨"BEL_ACLK", 0x01000018, 1, 0x0, 1, 0x0, [⟨5, 0, .rw, 0x30, 24, 56, .chip⟩]⟩, 0, 0) := rfl

theorem locate_adrQchCtrl : locate adrQchCtrl = some (⟨"QCH_CTRL", 0x01100004, 1, 0x0, 1, 0x0, [⟨0, 0, .w1s, 0x0, 0, 1, .chip⟩]⟩, 0, 0) := rfl

theorem locate_adrQchValveCfg {j : Nat} (hj : j < 8) :
    locate (adrQchValveCfg j) = some (⟨"QCH_VALVE_CFG", 0x01100400, 1, 0x0, 8, 0x10, [⟨5, 0, .rw, 0x14, 5, 50, .chip⟩,
    ⟨12, 6, .rw, 0x78, 50, 120, .chip⟩,
    ⟨19, 13, .rw, 0x23, 20, 60, .chip⟩,
    ⟨20, 20, .rw, 0x0, 0, 1, .chip⟩,
    ⟨27, 21, .rw, 0x64, 0, 100, .chip⟩,
    ⟨28, 28, .w1s, 0x0, 0, 1, .chip⟩]⟩, 0, j) := by
  have hb : blkOf (adrQchValveCfg j) = some .qch := by
    have h : (adrQchValveCfg j) / 0x100000 = 17 := by simp only [adrQchValveCfg]; omega
    simp [blkOf, h, allBlks]
  simp only [locate, hb, blkRegs, regsQch, findReg]
  rw [find_one (by decide) (by decide), if_neg (by unfold adrQchValveCfg; omega)]; dsimp only
  rw [find_one (by decide) (by decide), if_neg (by unfold adrQchValveCfg; omega)]; dsimp only
  rw [find_arr (by decide) (by decide), if_neg (by unfold adrQchValveCfg; omega)]; dsimp only
  rw [find_arr (by decide) (by decide), if_neg (by unfold adrQchValveCfg; omega)]; dsimp only
  rw [find_arr (by decide) (by decide), if_neg (by unfold adrQchValveCfg; omega)]; dsimp only
  rw [find_arr (by decide) (by decide), if_pos (by unfold adrQchValveCfg; omega)]; dsimp only
  have ej : ((adrQchValveCfg j) - 0x01100400) / 0x10 = j := by unfold adrQchValveCfg; omega
  rw [ej]; simp [noSuch]

theorem locate_adrEvrCtrl : locate adrEvrCtrl = some (⟨"EVR_CTRL", 0x01300008, 1, 0x0, 1, 0x0, [⟨0, 0, .w1s, 0x0, 0, 1, .aux⟩,
    ⟨1, 1, .w1s, 0x0, 0, 1, .aux⟩,
    ⟨2, 2, .w1s, 0x0, 0, 1, .aux⟩]⟩, 0, 0) := rfl

theorem locate_adrEvrCursor : locate adrEvrCursor = some (⟨"EVR_CURSOR", 0x01300010, 1, 0x0, 1, 0x0, [⟨11, 0, .rw, 0x0, 0, 4095, .aux⟩,
    ⟨12, 12, .ro, 0x0, 0, 1, .aux⟩,
    ⟨13, 13, .w1s, 0x0, 0, 1, .aux⟩,
    ⟨14, 14, .w1s, 0x0, 0, 1, .aux⟩]⟩, 0, 0) := rfl

end Sys2Proof.Machine
end

