-- ==== Sys2Proof/Laws/State.lean ====
section
/-! SUPPORT. What each elementary update of the state leaves alone, field by field and reader by reader, and what it writes. -/
namespace Sys2Proof.Machine

/-! emit: writes out. -/

@[simp] theorem State.emit_pending (s : State) (o : Out) : (s.emit o).pending = s.pending := rfl
@[simp] theorem State.emit_osc (s : State) (o : Out) : (s.emit o).osc = s.osc := rfl
@[simp] theorem State.emit_freeCtr (s : State) (o : Out) : (s.emit o).freeCtr = s.freeCtr := rfl
@[simp] theorem State.emit_out (s : State) (o : Out) : (s.emit o).out = s.out ++ [o] := rfl
@[simp] theorem State.emit_regs (s : State) (o : Out) : (s.emit o).regs = s.regs := rfl
@[simp] theorem State.emit_latches (s : State) (o : Out) : (s.emit o).latches = s.latches := rfl
@[simp] theorem State.emit_hrt (s : State) (o : Out) : (s.emit o).hrt = s.hrt := rfl
@[simp] theorem State.emit_parts (s : State) (o : Out) : (s.emit o).parts = s.parts := rfl
@[simp] theorem State.emit_pkts (s : State) (o : Out) : (s.emit o).pkts = s.pkts := rfl
@[simp] theorem State.emit_nextPkt (s : State) (o : Out) : (s.emit o).nextPkt = s.nextPkt := rfl
@[simp] theorem State.emit_nextOrder (s : State) (o : Out) : (s.emit o).nextOrder = s.nextOrder := rfl
@[simp] theorem State.emit_grants (s : State) (o : Out) : (s.emit o).grants = s.grants := rfl
@[simp] theorem State.emit_fetchRR (s : State) (o : Out) : (s.emit o).fetchRR = s.fetchRR := rfl
@[simp] theorem State.emit_tongs (s : State) (o : Out) : (s.emit o).tongs = s.tongs := rfl
@[simp] theorem State.emit_egress (s : State) (o : Out) : (s.emit o).egress = s.egress := rfl
@[simp] theorem State.emit_anvils (s : State) (o : Out) : (s.emit o).anvils = s.anvils := rfl
@[simp] theorem State.emit_relays (s : State) (o : Out) : (s.emit o).relays = s.relays := rfl
@[simp] theorem State.emit_banks (s : State) (o : Out) : (s.emit o).banks = s.banks := rfl
@[simp] theorem State.emit_host (s : State) (o : Out) : (s.emit o).host = s.host := rfl
@[simp] theorem State.emit_links (s : State) (o : Out) : (s.emit o).links = s.links := rfl
@[simp] theorem State.emit_delivered (s : State) (o : Out) : (s.emit o).delivered = s.delivered := rfl
@[simp] theorem State.emit_evr (s : State) (o : Out) : (s.emit o).evr = s.evr := rfl
@[simp] theorem State.emit_fatal (s : State) (o : Out) : (s.emit o).fatal = s.fatal := rfl
@[simp] theorem State.emit_fatalDue (s : State) (o : Out) : (s.emit o).fatalDue = s.fatalDue := rfl
@[simp] theorem State.emit_faultTimes (s : State) (o : Out) : (s.emit o).faultTimes = s.faultTimes := rfl
@[simp] theorem State.emit_clk (s : State) (o : Out) : (s.emit o).clk = s.clk := rfl
@[simp] theorem State.emit_measures (s : State) (o : Out) : (s.emit o).measures = s.measures := rfl
@[simp] theorem State.emit_gleeds (s : State) (o : Out) : (s.emit o).gleeds = s.gleeds := rfl
@[simp] theorem State.emit_origin (s : State) (o : Out) : (s.emit o).origin = s.origin := rfl
@[simp] theorem State.emit_bel (s : State) (o : Out) : (s.emit o).bel = s.bel := rfl
@[simp] theorem State.emit_qch (s : State) (o : Out) : (s.emit o).qch = s.qch := rfl
@[simp] theorem State.emit_boot (s : State) (o : Out) : (s.emit o).boot = s.boot := rfl
@[simp] theorem State.emit_nvs (s : State) (o : Out) : (s.emit o).nvs = s.nvs := rfl
@[simp] theorem State.emit_side (s : State) (o : Out) : (s.emit o).side = s.side := rfl
@[simp] theorem State.emit_aux (s : State) (o : Out) : (s.emit o).aux = s.aux := rfl
@[simp] theorem State.emit_auxAt (s : State) (o : Out) : (s.emit o).auxAt = s.auxAt := rfl
@[simp] theorem State.emit_straps (s : State) (o : Out) : (s.emit o).straps = s.straps := rfl
@[simp] theorem State.emit_reg (s : State) (o : Out) (i : Nat) : (s.emit o).reg i = s.reg i := rfl
@[simp] theorem State.emit_part (s : State) (o : Out) (i : Nat) : (s.emit o).part i = s.part i := rfl
@[simp] theorem State.emit_pkt (s : State) (o : Out) (i : Nat) : (s.emit o).pkt i = s.pkt i := rfl
@[simp] theorem State.emit_tong (s : State) (o : Out) (i : Nat) : (s.emit o).tong i = s.tong i := rfl
@[simp] theorem State.emit_anvil (s : State) (o : Out) (i : Nat) : (s.emit o).anvil i = s.anvil i := rfl
@[simp] theorem State.emit_bank (s : State) (o : Out) (i : Nat) : (s.emit o).bank i = s.bank i := rfl
@[simp] theorem State.emit_link (s : State) (o : Out) (i : Nat) : (s.emit o).link i = s.link i := rfl
@[simp] theorem State.emit_gleed (s : State) (o : Out) (i : Nat) : (s.emit o).gleed i = s.gleed i := rfl
@[simp] theorem State.emit_fn (s : State) (o : Out) (i : Nat) : (s.emit o).fn i = s.fn i := rfl

/-! setReg: writes regs. -/

@[simp] theorem State.setReg_pending (s : State) (a : Nat) (w : Word) : (s.setReg a w).pending = s.pending := rfl
@[simp] theorem State.setReg_osc (s : State) (a : Nat) (w : Word) : (s.setReg a w).osc = s.osc := rfl
@[simp] theorem State.setReg_freeCtr (s : State) (a : Nat) (w : Word) : (s.setReg a w).freeCtr = s.freeCtr := rfl
@[simp] theorem State.setReg_out (s : State) (a : Nat) (w : Word) : (s.setReg a w).out = s.out := rfl
@[simp] theorem State.setReg_latches (s : State) (a : Nat) (w : Word) : (s.setReg a w).latches = s.latches := rfl
@[simp] theorem State.setReg_hrt (s : State) (a : Nat) (w : Word) : (s.setReg a w).hrt = s.hrt := rfl
@[simp] theorem State.setReg_parts (s : State) (a : Nat) (w : Word) : (s.setReg a w).parts = s.parts := rfl
@[simp] theorem State.setReg_pkts (s : State) (a : Nat) (w : Word) : (s.setReg a w).pkts = s.pkts := rfl
@[simp] theorem State.setReg_nextPkt (s : State) (a : Nat) (w : Word) : (s.setReg a w).nextPkt = s.nextPkt := rfl
@[simp] theorem State.setReg_nextOrder (s : State) (a : Nat) (w : Word) : (s.setReg a w).nextOrder = s.nextOrder := rfl
@[simp] theorem State.setReg_grants (s : State) (a : Nat) (w : Word) : (s.setReg a w).grants = s.grants := rfl
@[simp] theorem State.setReg_fetchRR (s : State) (a : Nat) (w : Word) : (s.setReg a w).fetchRR = s.fetchRR := rfl
@[simp] theorem State.setReg_tongs (s : State) (a : Nat) (w : Word) : (s.setReg a w).tongs = s.tongs := rfl
@[simp] theorem State.setReg_egress (s : State) (a : Nat) (w : Word) : (s.setReg a w).egress = s.egress := rfl
@[simp] theorem State.setReg_anvils (s : State) (a : Nat) (w : Word) : (s.setReg a w).anvils = s.anvils := rfl
@[simp] theorem State.setReg_relays (s : State) (a : Nat) (w : Word) : (s.setReg a w).relays = s.relays := rfl
@[simp] theorem State.setReg_banks (s : State) (a : Nat) (w : Word) : (s.setReg a w).banks = s.banks := rfl
@[simp] theorem State.setReg_host (s : State) (a : Nat) (w : Word) : (s.setReg a w).host = s.host := rfl
@[simp] theorem State.setReg_links (s : State) (a : Nat) (w : Word) : (s.setReg a w).links = s.links := rfl
@[simp] theorem State.setReg_delivered (s : State) (a : Nat) (w : Word) : (s.setReg a w).delivered = s.delivered := rfl
@[simp] theorem State.setReg_evr (s : State) (a : Nat) (w : Word) : (s.setReg a w).evr = s.evr := rfl
@[simp] theorem State.setReg_fatal (s : State) (a : Nat) (w : Word) : (s.setReg a w).fatal = s.fatal := rfl
@[simp] theorem State.setReg_fatalDue (s : State) (a : Nat) (w : Word) : (s.setReg a w).fatalDue = s.fatalDue := rfl
@[simp] theorem State.setReg_faultTimes (s : State) (a : Nat) (w : Word) : (s.setReg a w).faultTimes = s.faultTimes := rfl
@[simp] theorem State.setReg_clk (s : State) (a : Nat) (w : Word) : (s.setReg a w).clk = s.clk := rfl
@[simp] theorem State.setReg_measures (s : State) (a : Nat) (w : Word) : (s.setReg a w).measures = s.measures := rfl
@[simp] theorem State.setReg_gleeds (s : State) (a : Nat) (w : Word) : (s.setReg a w).gleeds = s.gleeds := rfl
@[simp] theorem State.setReg_origin (s : State) (a : Nat) (w : Word) : (s.setReg a w).origin = s.origin := rfl
@[simp] theorem State.setReg_bel (s : State) (a : Nat) (w : Word) : (s.setReg a w).bel = s.bel := rfl
@[simp] theorem State.setReg_qch (s : State) (a : Nat) (w : Word) : (s.setReg a w).qch = s.qch := rfl
@[simp] theorem State.setReg_boot (s : State) (a : Nat) (w : Word) : (s.setReg a w).boot = s.boot := rfl
@[simp] theorem State.setReg_nvs (s : State) (a : Nat) (w : Word) : (s.setReg a w).nvs = s.nvs := rfl
@[simp] theorem State.setReg_side (s : State) (a : Nat) (w : Word) : (s.setReg a w).side = s.side := rfl
@[simp] theorem State.setReg_aux (s : State) (a : Nat) (w : Word) : (s.setReg a w).aux = s.aux := rfl
@[simp] theorem State.setReg_auxAt (s : State) (a : Nat) (w : Word) : (s.setReg a w).auxAt = s.auxAt := rfl
@[simp] theorem State.setReg_straps (s : State) (a : Nat) (w : Word) : (s.setReg a w).straps = s.straps := rfl
@[simp] theorem State.setReg_part (s : State) (a : Nat) (w : Word) (i : Nat) : (s.setReg a w).part i = s.part i := rfl
@[simp] theorem State.setReg_pkt (s : State) (a : Nat) (w : Word) (i : Nat) : (s.setReg a w).pkt i = s.pkt i := rfl
@[simp] theorem State.setReg_tong (s : State) (a : Nat) (w : Word) (i : Nat) : (s.setReg a w).tong i = s.tong i := rfl
@[simp] theorem State.setReg_anvil (s : State) (a : Nat) (w : Word) (i : Nat) : (s.setReg a w).anvil i = s.anvil i := rfl
@[simp] theorem State.setReg_bank (s : State) (a : Nat) (w : Word) (i : Nat) : (s.setReg a w).bank i = s.bank i := rfl
@[simp] theorem State.setReg_link (s : State) (a : Nat) (w : Word) (i : Nat) : (s.setReg a w).link i = s.link i := rfl
@[simp] theorem State.setReg_gleed (s : State) (a : Nat) (w : Word) (i : Nat) : (s.setReg a w).gleed i = s.gleed i := rfl
@[simp] theorem State.setReg_fn (s : State) (a : Nat) (w : Word) (i : Nat) : (s.setReg a w).fn i = s.fn i := rfl

/-! setPart: writes parts. -/

@[simp] theorem State.setPart_pending (s : State) (p : Nat) (x : Part) : (s.setPart p x).pending = s.pending := rfl
@[simp] theorem State.setPart_osc (s : State) (p : Nat) (x : Part) : (s.setPart p x).osc = s.osc := rfl
@[simp] theorem State.setPart_freeCtr (s : State) (p : Nat) (x : Part) : (s.setPart p x).freeCtr = s.freeCtr := rfl
@[simp] theorem State.setPart_out (s : State) (p : Nat) (x : Part) : (s.setPart p x).out = s.out := rfl
@[simp] theorem State.setPart_regs (s : State) (p : Nat) (x : Part) : (s.setPart p x).regs = s.regs := rfl
@[simp] theorem State.setPart_latches (s : State) (p : Nat) (x : Part) : (s.setPart p x).latches = s.latches := rfl
@[simp] theorem State.setPart_hrt (s : State) (p : Nat) (x : Part) : (s.setPart p x).hrt = s.hrt := rfl
@[simp] theorem State.setPart_pkts (s : State) (p : Nat) (x : Part) : (s.setPart p x).pkts = s.pkts := rfl
@[simp] theorem State.setPart_nextPkt (s : State) (p : Nat) (x : Part) : (s.setPart p x).nextPkt = s.nextPkt := rfl
@[simp] theorem State.setPart_nextOrder (s : State) (p : Nat) (x : Part) : (s.setPart p x).nextOrder = s.nextOrder := rfl
@[simp] theorem State.setPart_grants (s : State) (p : Nat) (x : Part) : (s.setPart p x).grants = s.grants := rfl
@[simp] theorem State.setPart_fetchRR (s : State) (p : Nat) (x : Part) : (s.setPart p x).fetchRR = s.fetchRR := rfl
@[simp] theorem State.setPart_tongs (s : State) (p : Nat) (x : Part) : (s.setPart p x).tongs = s.tongs := rfl
@[simp] theorem State.setPart_egress (s : State) (p : Nat) (x : Part) : (s.setPart p x).egress = s.egress := rfl
@[simp] theorem State.setPart_anvils (s : State) (p : Nat) (x : Part) : (s.setPart p x).anvils = s.anvils := rfl
@[simp] theorem State.setPart_relays (s : State) (p : Nat) (x : Part) : (s.setPart p x).relays = s.relays := rfl
@[simp] theorem State.setPart_banks (s : State) (p : Nat) (x : Part) : (s.setPart p x).banks = s.banks := rfl
@[simp] theorem State.setPart_host (s : State) (p : Nat) (x : Part) : (s.setPart p x).host = s.host := rfl
@[simp] theorem State.setPart_links (s : State) (p : Nat) (x : Part) : (s.setPart p x).links = s.links := rfl
@[simp] theorem State.setPart_delivered (s : State) (p : Nat) (x : Part) : (s.setPart p x).delivered = s.delivered := rfl
@[simp] theorem State.setPart_evr (s : State) (p : Nat) (x : Part) : (s.setPart p x).evr = s.evr := rfl
@[simp] theorem State.setPart_fatal (s : State) (p : Nat) (x : Part) : (s.setPart p x).fatal = s.fatal := rfl
@[simp] theorem State.setPart_fatalDue (s : State) (p : Nat) (x : Part) : (s.setPart p x).fatalDue = s.fatalDue := rfl
@[simp] theorem State.setPart_faultTimes (s : State) (p : Nat) (x : Part) : (s.setPart p x).faultTimes = s.faultTimes := rfl
@[simp] theorem State.setPart_clk (s : State) (p : Nat) (x : Part) : (s.setPart p x).clk = s.clk := rfl
@[simp] theorem State.setPart_measures (s : State) (p : Nat) (x : Part) : (s.setPart p x).measures = s.measures := rfl
@[simp] theorem State.setPart_gleeds (s : State) (p : Nat) (x : Part) : (s.setPart p x).gleeds = s.gleeds := rfl
@[simp] theorem State.setPart_origin (s : State) (p : Nat) (x : Part) : (s.setPart p x).origin = s.origin := rfl
@[simp] theorem State.setPart_bel (s : State) (p : Nat) (x : Part) : (s.setPart p x).bel = s.bel := rfl
@[simp] theorem State.setPart_qch (s : State) (p : Nat) (x : Part) : (s.setPart p x).qch = s.qch := rfl
@[simp] theorem State.setPart_boot (s : State) (p : Nat) (x : Part) : (s.setPart p x).boot = s.boot := rfl
@[simp] theorem State.setPart_nvs (s : State) (p : Nat) (x : Part) : (s.setPart p x).nvs = s.nvs := rfl
@[simp] theorem State.setPart_side (s : State) (p : Nat) (x : Part) : (s.setPart p x).side = s.side := rfl
@[simp] theorem State.setPart_aux (s : State) (p : Nat) (x : Part) : (s.setPart p x).aux = s.aux := rfl
@[simp] theorem State.setPart_auxAt (s : State) (p : Nat) (x : Part) : (s.setPart p x).auxAt = s.auxAt := rfl
@[simp] theorem State.setPart_straps (s : State) (p : Nat) (x : Part) : (s.setPart p x).straps = s.straps := rfl
@[simp] theorem State.setPart_reg (s : State) (p : Nat) (x : Part) (i : Nat) : (s.setPart p x).reg i = s.reg i := rfl
@[simp] theorem State.setPart_pkt (s : State) (p : Nat) (x : Part) (i : Nat) : (s.setPart p x).pkt i = s.pkt i := rfl
@[simp] theorem State.setPart_tong (s : State) (p : Nat) (x : Part) (i : Nat) : (s.setPart p x).tong i = s.tong i := rfl
@[simp] theorem State.setPart_anvil (s : State) (p : Nat) (x : Part) (i : Nat) : (s.setPart p x).anvil i = s.anvil i := rfl
@[simp] theorem State.setPart_bank (s : State) (p : Nat) (x : Part) (i : Nat) : (s.setPart p x).bank i = s.bank i := rfl
@[simp] theorem State.setPart_link (s : State) (p : Nat) (x : Part) (i : Nat) : (s.setPart p x).link i = s.link i := rfl
@[simp] theorem State.setPart_gleed (s : State) (p : Nat) (x : Part) (i : Nat) : (s.setPart p x).gleed i = s.gleed i := rfl
@[simp] theorem State.setPart_fn (s : State) (p : Nat) (x : Part) (i : Nat) : (s.setPart p x).fn i = s.fn i := rfl

/-! setPkt: writes pkts. -/

@[simp] theorem State.setPkt_pending (s : State) (k : Nat) (x : Pkt) : (s.setPkt k x).pending = s.pending := rfl
@[simp] theorem State.setPkt_osc (s : State) (k : Nat) (x : Pkt) : (s.setPkt k x).osc = s.osc := rfl
@[simp] theorem State.setPkt_freeCtr (s : State) (k : Nat) (x : Pkt) : (s.setPkt k x).freeCtr = s.freeCtr := rfl
@[simp] theorem State.setPkt_out (s : State) (k : Nat) (x : Pkt) : (s.setPkt k x).out = s.out := rfl
@[simp] theorem State.setPkt_regs (s : State) (k : Nat) (x : Pkt) : (s.setPkt k x).regs = s.regs := rfl
@[simp] theorem State.setPkt_latches (s : State) (k : Nat) (x : Pkt) : (s.setPkt k x).latches = s.latches := rfl
@[simp] theorem State.setPkt_hrt (s : State) (k : Nat) (x : Pkt) : (s.setPkt k x).hrt = s.hrt := rfl
@[simp] theorem State.setPkt_parts (s : State) (k : Nat) (x : Pkt) : (s.setPkt k x).parts = s.parts := rfl
@[simp] theorem State.setPkt_nextPkt (s : State) (k : Nat) (x : Pkt) : (s.setPkt k x).nextPkt = s.nextPkt := rfl
@[simp] theorem State.setPkt_nextOrder (s : State) (k : Nat) (x : Pkt) : (s.setPkt k x).nextOrder = s.nextOrder := rfl
@[simp] theorem State.setPkt_grants (s : State) (k : Nat) (x : Pkt) : (s.setPkt k x).grants = s.grants := rfl
@[simp] theorem State.setPkt_fetchRR (s : State) (k : Nat) (x : Pkt) : (s.setPkt k x).fetchRR = s.fetchRR := rfl
@[simp] theorem State.setPkt_tongs (s : State) (k : Nat) (x : Pkt) : (s.setPkt k x).tongs = s.tongs := rfl
@[simp] theorem State.setPkt_egress (s : State) (k : Nat) (x : Pkt) : (s.setPkt k x).egress = s.egress := rfl
@[simp] theorem State.setPkt_anvils (s : State) (k : Nat) (x : Pkt) : (s.setPkt k x).anvils = s.anvils := rfl
@[simp] theorem State.setPkt_relays (s : State) (k : Nat) (x : Pkt) : (s.setPkt k x).relays = s.relays := rfl
@[simp] theorem State.setPkt_banks (s : State) (k : Nat) (x : Pkt) : (s.setPkt k x).banks = s.banks := rfl
@[simp] theorem State.setPkt_host (s : State) (k : Nat) (x : Pkt) : (s.setPkt k x).host = s.host := rfl
@[simp] theorem State.setPkt_links (s : State) (k : Nat) (x : Pkt) : (s.setPkt k x).links = s.links := rfl
@[simp] theorem State.setPkt_delivered (s : State) (k : Nat) (x : Pkt) : (s.setPkt k x).delivered = s.delivered := rfl
@[simp] theorem State.setPkt_evr (s : State) (k : Nat) (x : Pkt) : (s.setPkt k x).evr = s.evr := rfl
@[simp] theorem State.setPkt_fatal (s : State) (k : Nat) (x : Pkt) : (s.setPkt k x).fatal = s.fatal := rfl
@[simp] theorem State.setPkt_fatalDue (s : State) (k : Nat) (x : Pkt) : (s.setPkt k x).fatalDue = s.fatalDue := rfl
@[simp] theorem State.setPkt_faultTimes (s : State) (k : Nat) (x : Pkt) : (s.setPkt k x).faultTimes = s.faultTimes := rfl
@[simp] theorem State.setPkt_clk (s : State) (k : Nat) (x : Pkt) : (s.setPkt k x).clk = s.clk := rfl
@[simp] theorem State.setPkt_measures (s : State) (k : Nat) (x : Pkt) : (s.setPkt k x).measures = s.measures := rfl
@[simp] theorem State.setPkt_gleeds (s : State) (k : Nat) (x : Pkt) : (s.setPkt k x).gleeds = s.gleeds := rfl
@[simp] theorem State.setPkt_origin (s : State) (k : Nat) (x : Pkt) : (s.setPkt k x).origin = s.origin := rfl
@[simp] theorem State.setPkt_bel (s : State) (k : Nat) (x : Pkt) : (s.setPkt k x).bel = s.bel := rfl
@[simp] theorem State.setPkt_qch (s : State) (k : Nat) (x : Pkt) : (s.setPkt k x).qch = s.qch := rfl
@[simp] theorem State.setPkt_boot (s : State) (k : Nat) (x : Pkt) : (s.setPkt k x).boot = s.boot := rfl
@[simp] theorem State.setPkt_nvs (s : State) (k : Nat) (x : Pkt) : (s.setPkt k x).nvs = s.nvs := rfl
@[simp] theorem State.setPkt_side (s : State) (k : Nat) (x : Pkt) : (s.setPkt k x).side = s.side := rfl
@[simp] theorem State.setPkt_aux (s : State) (k : Nat) (x : Pkt) : (s.setPkt k x).aux = s.aux := rfl
@[simp] theorem State.setPkt_auxAt (s : State) (k : Nat) (x : Pkt) : (s.setPkt k x).auxAt = s.auxAt := rfl
@[simp] theorem State.setPkt_straps (s : State) (k : Nat) (x : Pkt) : (s.setPkt k x).straps = s.straps := rfl
@[simp] theorem State.setPkt_reg (s : State) (k : Nat) (x : Pkt) (i : Nat) : (s.setPkt k x).reg i = s.reg i := rfl
@[simp] theorem State.setPkt_part (s : State) (k : Nat) (x : Pkt) (i : Nat) : (s.setPkt k x).part i = s.part i := rfl
@[simp] theorem State.setPkt_tong (s : State) (k : Nat) (x : Pkt) (i : Nat) : (s.setPkt k x).tong i = s.tong i := rfl
@[simp] theorem State.setPkt_anvil (s : State) (k : Nat) (x : Pkt) (i : Nat) : (s.setPkt k x).anvil i = s.anvil i := rfl
@[simp] theorem State.setPkt_bank (s : State) (k : Nat) (x : Pkt) (i : Nat) : (s.setPkt k x).bank i = s.bank i := rfl
@[simp] theorem State.setPkt_link (s : State) (k : Nat) (x : Pkt) (i : Nat) : (s.setPkt k x).link i = s.link i := rfl
@[simp] theorem State.setPkt_gleed (s : State) (k : Nat) (x : Pkt) (i : Nat) : (s.setPkt k x).gleed i = s.gleed i := rfl
@[simp] theorem State.setPkt_fn (s : State) (k : Nat) (x : Pkt) (i : Nat) : (s.setPkt k x).fn i = s.fn i := rfl

/-! setTong: writes tongs. -/

@[simp] theorem State.setTong_pending (s : State) (t : Nat) (x : Tong) : (s.setTong t x).pending = s.pending := rfl
@[simp] theorem State.setTong_osc (s : State) (t : Nat) (x : Tong) : (s.setTong t x).osc = s.osc := rfl
@[simp] theorem State.setTong_freeCtr (s : State) (t : Nat) (x : Tong) : (s.setTong t x).freeCtr = s.freeCtr := rfl
@[simp] theorem State.setTong_out (s : State) (t : Nat) (x : Tong) : (s.setTong t x).out = s.out := rfl
@[simp] theorem State.setTong_regs (s : State) (t : Nat) (x : Tong) : (s.setTong t x).regs = s.regs := rfl
@[simp] theorem State.setTong_latches (s : State) (t : Nat) (x : Tong) : (s.setTong t x).latches = s.latches := rfl
@[simp] theorem State.setTong_hrt (s : State) (t : Nat) (x : Tong) : (s.setTong t x).hrt = s.hrt := rfl
@[simp] theorem State.setTong_parts (s : State) (t : Nat) (x : Tong) : (s.setTong t x).parts = s.parts := rfl
@[simp] theorem State.setTong_pkts (s : State) (t : Nat) (x : Tong) : (s.setTong t x).pkts = s.pkts := rfl
@[simp] theorem State.setTong_nextPkt (s : State) (t : Nat) (x : Tong) : (s.setTong t x).nextPkt = s.nextPkt := rfl
@[simp] theorem State.setTong_nextOrder (s : State) (t : Nat) (x : Tong) : (s.setTong t x).nextOrder = s.nextOrder := rfl
@[simp] theorem State.setTong_grants (s : State) (t : Nat) (x : Tong) : (s.setTong t x).grants = s.grants := rfl
@[simp] theorem State.setTong_fetchRR (s : State) (t : Nat) (x : Tong) : (s.setTong t x).fetchRR = s.fetchRR := rfl
@[simp] theorem State.setTong_egress (s : State) (t : Nat) (x : Tong) : (s.setTong t x).egress = s.egress := rfl
@[simp] theorem State.setTong_anvils (s : State) (t : Nat) (x : Tong) : (s.setTong t x).anvils = s.anvils := rfl
@[simp] theorem State.setTong_relays (s : State) (t : Nat) (x : Tong) : (s.setTong t x).relays = s.relays := rfl
@[simp] theorem State.setTong_banks (s : State) (t : Nat) (x : Tong) : (s.setTong t x).banks = s.banks := rfl
@[simp] theorem State.setTong_host (s : State) (t : Nat) (x : Tong) : (s.setTong t x).host = s.host := rfl
@[simp] theorem State.setTong_links (s : State) (t : Nat) (x : Tong) : (s.setTong t x).links = s.links := rfl
@[simp] theorem State.setTong_delivered (s : State) (t : Nat) (x : Tong) : (s.setTong t x).delivered = s.delivered := rfl
@[simp] theorem State.setTong_evr (s : State) (t : Nat) (x : Tong) : (s.setTong t x).evr = s.evr := rfl
@[simp] theorem State.setTong_fatal (s : State) (t : Nat) (x : Tong) : (s.setTong t x).fatal = s.fatal := rfl
@[simp] theorem State.setTong_fatalDue (s : State) (t : Nat) (x : Tong) : (s.setTong t x).fatalDue = s.fatalDue := rfl
@[simp] theorem State.setTong_faultTimes (s : State) (t : Nat) (x : Tong) : (s.setTong t x).faultTimes = s.faultTimes := rfl
@[simp] theorem State.setTong_clk (s : State) (t : Nat) (x : Tong) : (s.setTong t x).clk = s.clk := rfl
@[simp] theorem State.setTong_measures (s : State) (t : Nat) (x : Tong) : (s.setTong t x).measures = s.measures := rfl
@[simp] theorem State.setTong_gleeds (s : State) (t : Nat) (x : Tong) : (s.setTong t x).gleeds = s.gleeds := rfl
@[simp] theorem State.setTong_origin (s : State) (t : Nat) (x : Tong) : (s.setTong t x).origin = s.origin := rfl
@[simp] theorem State.setTong_bel (s : State) (t : Nat) (x : Tong) : (s.setTong t x).bel = s.bel := rfl
@[simp] theorem State.setTong_qch (s : State) (t : Nat) (x : Tong) : (s.setTong t x).qch = s.qch := rfl
@[simp] theorem State.setTong_boot (s : State) (t : Nat) (x : Tong) : (s.setTong t x).boot = s.boot := rfl
@[simp] theorem State.setTong_nvs (s : State) (t : Nat) (x : Tong) : (s.setTong t x).nvs = s.nvs := rfl
@[simp] theorem State.setTong_side (s : State) (t : Nat) (x : Tong) : (s.setTong t x).side = s.side := rfl
@[simp] theorem State.setTong_aux (s : State) (t : Nat) (x : Tong) : (s.setTong t x).aux = s.aux := rfl
@[simp] theorem State.setTong_auxAt (s : State) (t : Nat) (x : Tong) : (s.setTong t x).auxAt = s.auxAt := rfl
@[simp] theorem State.setTong_straps (s : State) (t : Nat) (x : Tong) : (s.setTong t x).straps = s.straps := rfl
@[simp] theorem State.setTong_reg (s : State) (t : Nat) (x : Tong) (i : Nat) : (s.setTong t x).reg i = s.reg i := rfl
@[simp] theorem State.setTong_part (s : State) (t : Nat) (x : Tong) (i : Nat) : (s.setTong t x).part i = s.part i := rfl
@[simp] theorem State.setTong_pkt (s : State) (t : Nat) (x : Tong) (i : Nat) : (s.setTong t x).pkt i = s.pkt i := rfl
@[simp] theorem State.setTong_anvil (s : State) (t : Nat) (x : Tong) (i : Nat) : (s.setTong t x).anvil i = s.anvil i := rfl
@[simp] theorem State.setTong_bank (s : State) (t : Nat) (x : Tong) (i : Nat) : (s.setTong t x).bank i = s.bank i := rfl
@[simp] theorem State.setTong_link (s : State) (t : Nat) (x : Tong) (i : Nat) : (s.setTong t x).link i = s.link i := rfl
@[simp] theorem State.setTong_gleed (s : State) (t : Nat) (x : Tong) (i : Nat) : (s.setTong t x).gleed i = s.gleed i := rfl
@[simp] theorem State.setTong_fn (s : State) (t : Nat) (x : Tong) (i : Nat) : (s.setTong t x).fn i = s.fn i := rfl

/-! setAnvil: writes anvils. -/

@[simp] theorem State.setAnvil_pending (s : State) (a : Nat) (x : Anvil) : (s.setAnvil a x).pending = s.pending := rfl
@[simp] theorem State.setAnvil_osc (s : State) (a : Nat) (x : Anvil) : (s.setAnvil a x).osc = s.osc := rfl
@[simp] theorem State.setAnvil_freeCtr (s : State) (a : Nat) (x : Anvil) : (s.setAnvil a x).freeCtr = s.freeCtr := rfl
@[simp] theorem State.setAnvil_out (s : State) (a : Nat) (x : Anvil) : (s.setAnvil a x).out = s.out := rfl
@[simp] theorem State.setAnvil_regs (s : State) (a : Nat) (x : Anvil) : (s.setAnvil a x).regs = s.regs := rfl
@[simp] theorem State.setAnvil_latches (s : State) (a : Nat) (x : Anvil) : (s.setAnvil a x).latches = s.latches := rfl
@[simp] theorem State.setAnvil_hrt (s : State) (a : Nat) (x : Anvil) : (s.setAnvil a x).hrt = s.hrt := rfl
@[simp] theorem State.setAnvil_parts (s : State) (a : Nat) (x : Anvil) : (s.setAnvil a x).parts = s.parts := rfl
@[simp] theorem State.setAnvil_pkts (s : State) (a : Nat) (x : Anvil) : (s.setAnvil a x).pkts = s.pkts := rfl
@[simp] theorem State.setAnvil_nextPkt (s : State) (a : Nat) (x : Anvil) : (s.setAnvil a x).nextPkt = s.nextPkt := rfl
@[simp] theorem State.setAnvil_nextOrder (s : State) (a : Nat) (x : Anvil) : (s.setAnvil a x).nextOrder = s.nextOrder := rfl
@[simp] theorem State.setAnvil_grants (s : State) (a : Nat) (x : Anvil) : (s.setAnvil a x).grants = s.grants := rfl
@[simp] theorem State.setAnvil_fetchRR (s : State) (a : Nat) (x : Anvil) : (s.setAnvil a x).fetchRR = s.fetchRR := rfl
@[simp] theorem State.setAnvil_tongs (s : State) (a : Nat) (x : Anvil) : (s.setAnvil a x).tongs = s.tongs := rfl
@[simp] theorem State.setAnvil_egress (s : State) (a : Nat) (x : Anvil) : (s.setAnvil a x).egress = s.egress := rfl
@[simp] theorem State.setAnvil_relays (s : State) (a : Nat) (x : Anvil) : (s.setAnvil a x).relays = s.relays := rfl
@[simp] theorem State.setAnvil_banks (s : State) (a : Nat) (x : Anvil) : (s.setAnvil a x).banks = s.banks := rfl
@[simp] theorem State.setAnvil_host (s : State) (a : Nat) (x : Anvil) : (s.setAnvil a x).host = s.host := rfl
@[simp] theorem State.setAnvil_links (s : State) (a : Nat) (x : Anvil) : (s.setAnvil a x).links = s.links := rfl
@[simp] theorem State.setAnvil_delivered (s : State) (a : Nat) (x : Anvil) : (s.setAnvil a x).delivered = s.delivered := rfl
@[simp] theorem State.setAnvil_evr (s : State) (a : Nat) (x : Anvil) : (s.setAnvil a x).evr = s.evr := rfl
@[simp] theorem State.setAnvil_fatal (s : State) (a : Nat) (x : Anvil) : (s.setAnvil a x).fatal = s.fatal := rfl
@[simp] theorem State.setAnvil_fatalDue (s : State) (a : Nat) (x : Anvil) : (s.setAnvil a x).fatalDue = s.fatalDue := rfl
@[simp] theorem State.setAnvil_faultTimes (s : State) (a : Nat) (x : Anvil) : (s.setAnvil a x).faultTimes = s.faultTimes := rfl
@[simp] theorem State.setAnvil_clk (s : State) (a : Nat) (x : Anvil) : (s.setAnvil a x).clk = s.clk := rfl
@[simp] theorem State.setAnvil_measures (s : State) (a : Nat) (x : Anvil) : (s.setAnvil a x).measures = s.measures := rfl
@[simp] theorem State.setAnvil_gleeds (s : State) (a : Nat) (x : Anvil) : (s.setAnvil a x).gleeds = s.gleeds := rfl
@[simp] theorem State.setAnvil_origin (s : State) (a : Nat) (x : Anvil) : (s.setAnvil a x).origin = s.origin := rfl
@[simp] theorem State.setAnvil_bel (s : State) (a : Nat) (x : Anvil) : (s.setAnvil a x).bel = s.bel := rfl
@[simp] theorem State.setAnvil_qch (s : State) (a : Nat) (x : Anvil) : (s.setAnvil a x).qch = s.qch := rfl
@[simp] theorem State.setAnvil_boot (s : State) (a : Nat) (x : Anvil) : (s.setAnvil a x).boot = s.boot := rfl
@[simp] theorem State.setAnvil_nvs (s : State) (a : Nat) (x : Anvil) : (s.setAnvil a x).nvs = s.nvs := rfl
@[simp] theorem State.setAnvil_side (s : State) (a : Nat) (x : Anvil) : (s.setAnvil a x).side = s.side := rfl
@[simp] theorem State.setAnvil_aux (s : State) (a : Nat) (x : Anvil) : (s.setAnvil a x).aux = s.aux := rfl
@[simp] theorem State.setAnvil_auxAt (s : State) (a : Nat) (x : Anvil) : (s.setAnvil a x).auxAt = s.auxAt := rfl
@[simp] theorem State.setAnvil_straps (s : State) (a : Nat) (x : Anvil) : (s.setAnvil a x).straps = s.straps := rfl
@[simp] theorem State.setAnvil_reg (s : State) (a : Nat) (x : Anvil) (i : Nat) : (s.setAnvil a x).reg i = s.reg i := rfl
@[simp] theorem State.setAnvil_part (s : State) (a : Nat) (x : Anvil) (i : Nat) : (s.setAnvil a x).part i = s.part i := rfl
@[simp] theorem State.setAnvil_pkt (s : State) (a : Nat) (x : Anvil) (i : Nat) : (s.setAnvil a x).pkt i = s.pkt i := rfl
@[simp] theorem State.setAnvil_tong (s : State) (a : Nat) (x : Anvil) (i : Nat) : (s.setAnvil a x).tong i = s.tong i := rfl
@[simp] theorem State.setAnvil_bank (s : State) (a : Nat) (x : Anvil) (i : Nat) : (s.setAnvil a x).bank i = s.bank i := rfl
@[simp] theorem State.setAnvil_link (s : State) (a : Nat) (x : Anvil) (i : Nat) : (s.setAnvil a x).link i = s.link i := rfl
@[simp] theorem State.setAnvil_gleed (s : State) (a : Nat) (x : Anvil) (i : Nat) : (s.setAnvil a x).gleed i = s.gleed i := rfl
@[simp] theorem State.setAnvil_fn (s : State) (a : Nat) (x : Anvil) (i : Nat) : (s.setAnvil a x).fn i = s.fn i := rfl

/-! setBank: writes banks. -/

@[simp] theorem State.setBank_pending (s : State) (b : Nat) (x : Bank) : (s.setBank b x).pending = s.pending := rfl
@[simp] theorem State.setBank_osc (s : State) (b : Nat) (x : Bank) : (s.setBank b x).osc = s.osc := rfl
@[simp] theorem State.setBank_freeCtr (s : State) (b : Nat) (x : Bank) : (s.setBank b x).freeCtr = s.freeCtr := rfl
@[simp] theorem State.setBank_out (s : State) (b : Nat) (x : Bank) : (s.setBank b x).out = s.out := rfl
@[simp] theorem State.setBank_regs (s : State) (b : Nat) (x : Bank) : (s.setBank b x).regs = s.regs := rfl
@[simp] theorem State.setBank_latches (s : State) (b : Nat) (x : Bank) : (s.setBank b x).latches = s.latches := rfl
@[simp] theorem State.setBank_hrt (s : State) (b : Nat) (x : Bank) : (s.setBank b x).hrt = s.hrt := rfl
@[simp] theorem State.setBank_parts (s : State) (b : Nat) (x : Bank) : (s.setBank b x).parts = s.parts := rfl
@[simp] theorem State.setBank_pkts (s : State) (b : Nat) (x : Bank) : (s.setBank b x).pkts = s.pkts := rfl
@[simp] theorem State.setBank_nextPkt (s : State) (b : Nat) (x : Bank) : (s.setBank b x).nextPkt = s.nextPkt := rfl
@[simp] theorem State.setBank_nextOrder (s : State) (b : Nat) (x : Bank) : (s.setBank b x).nextOrder = s.nextOrder := rfl
@[simp] theorem State.setBank_grants (s : State) (b : Nat) (x : Bank) : (s.setBank b x).grants = s.grants := rfl
@[simp] theorem State.setBank_fetchRR (s : State) (b : Nat) (x : Bank) : (s.setBank b x).fetchRR = s.fetchRR := rfl
@[simp] theorem State.setBank_tongs (s : State) (b : Nat) (x : Bank) : (s.setBank b x).tongs = s.tongs := rfl
@[simp] theorem State.setBank_egress (s : State) (b : Nat) (x : Bank) : (s.setBank b x).egress = s.egress := rfl
@[simp] theorem State.setBank_anvils (s : State) (b : Nat) (x : Bank) : (s.setBank b x).anvils = s.anvils := rfl
@[simp] theorem State.setBank_relays (s : State) (b : Nat) (x : Bank) : (s.setBank b x).relays = s.relays := rfl
@[simp] theorem State.setBank_host (s : State) (b : Nat) (x : Bank) : (s.setBank b x).host = s.host := rfl
@[simp] theorem State.setBank_links (s : State) (b : Nat) (x : Bank) : (s.setBank b x).links = s.links := rfl
@[simp] theorem State.setBank_delivered (s : State) (b : Nat) (x : Bank) : (s.setBank b x).delivered = s.delivered := rfl
@[simp] theorem State.setBank_evr (s : State) (b : Nat) (x : Bank) : (s.setBank b x).evr = s.evr := rfl
@[simp] theorem State.setBank_fatal (s : State) (b : Nat) (x : Bank) : (s.setBank b x).fatal = s.fatal := rfl
@[simp] theorem State.setBank_fatalDue (s : State) (b : Nat) (x : Bank) : (s.setBank b x).fatalDue = s.fatalDue := rfl
@[simp] theorem State.setBank_faultTimes (s : State) (b : Nat) (x : Bank) : (s.setBank b x).faultTimes = s.faultTimes := rfl
@[simp] theorem State.setBank_clk (s : State) (b : Nat) (x : Bank) : (s.setBank b x).clk = s.clk := rfl
@[simp] theorem State.setBank_measures (s : State) (b : Nat) (x : Bank) : (s.setBank b x).measures = s.measures := rfl
@[simp] theorem State.setBank_gleeds (s : State) (b : Nat) (x : Bank) : (s.setBank b x).gleeds = s.gleeds := rfl
@[simp] theorem State.setBank_origin (s : State) (b : Nat) (x : Bank) : (s.setBank b x).origin = s.origin := rfl
@[simp] theorem State.setBank_bel (s : State) (b : Nat) (x : Bank) : (s.setBank b x).bel = s.bel := rfl
@[simp] theorem State.setBank_qch (s : State) (b : Nat) (x : Bank) : (s.setBank b x).qch = s.qch := rfl
@[simp] theorem State.setBank_boot (s : State) (b : Nat) (x : Bank) : (s.setBank b x).boot = s.boot := rfl
@[simp] theorem State.setBank_nvs (s : State) (b : Nat) (x : Bank) : (s.setBank b x).nvs = s.nvs := rfl
@[simp] theorem State.setBank_side (s : State) (b : Nat) (x : Bank) : (s.setBank b x).side = s.side := rfl
@[simp] theorem State.setBank_aux (s : State) (b : Nat) (x : Bank) : (s.setBank b x).aux = s.aux := rfl
@[simp] theorem State.setBank_auxAt (s : State) (b : Nat) (x : Bank) : (s.setBank b x).auxAt = s.auxAt := rfl
@[simp] theorem State.setBank_straps (s : State) (b : Nat) (x : Bank) : (s.setBank b x).straps = s.straps := rfl
@[simp] theorem State.setBank_reg (s : State) (b : Nat) (x : Bank) (i : Nat) : (s.setBank b x).reg i = s.reg i := rfl
@[simp] theorem State.setBank_part (s : State) (b : Nat) (x : Bank) (i : Nat) : (s.setBank b x).part i = s.part i := rfl
@[simp] theorem State.setBank_pkt (s : State) (b : Nat) (x : Bank) (i : Nat) : (s.setBank b x).pkt i = s.pkt i := rfl
@[simp] theorem State.setBank_tong (s : State) (b : Nat) (x : Bank) (i : Nat) : (s.setBank b x).tong i = s.tong i := rfl
@[simp] theorem State.setBank_anvil (s : State) (b : Nat) (x : Bank) (i : Nat) : (s.setBank b x).anvil i = s.anvil i := rfl
@[simp] theorem State.setBank_link (s : State) (b : Nat) (x : Bank) (i : Nat) : (s.setBank b x).link i = s.link i := rfl
@[simp] theorem State.setBank_gleed (s : State) (b : Nat) (x : Bank) (i : Nat) : (s.setBank b x).gleed i = s.gleed i := rfl
@[simp] theorem State.setBank_fn (s : State) (b : Nat) (x : Bank) (i : Nat) : (s.setBank b x).fn i = s.fn i := rfl

/-! setLink: writes links. -/

@[simp] theorem State.setLink_pending (s : State) (d : Nat) (l : Link) : (s.setLink d l).pending = s.pending := rfl
@[simp] theorem State.setLink_osc (s : State) (d : Nat) (l : Link) : (s.setLink d l).osc = s.osc := rfl
@[simp] theorem State.setLink_freeCtr (s : State) (d : Nat) (l : Link) : (s.setLink d l).freeCtr = s.freeCtr := rfl
@[simp] theorem State.setLink_out (s : State) (d : Nat) (l : Link) : (s.setLink d l).out = s.out := rfl
@[simp] theorem State.setLink_regs (s : State) (d : Nat) (l : Link) : (s.setLink d l).regs = s.regs := rfl
@[simp] theorem State.setLink_latches (s : State) (d : Nat) (l : Link) : (s.setLink d l).latches = s.latches := rfl
@[simp] theorem State.setLink_hrt (s : State) (d : Nat) (l : Link) : (s.setLink d l).hrt = s.hrt := rfl
@[simp] theorem State.setLink_parts (s : State) (d : Nat) (l : Link) : (s.setLink d l).parts = s.parts := rfl
@[simp] theorem State.setLink_pkts (s : State) (d : Nat) (l : Link) : (s.setLink d l).pkts = s.pkts := rfl
@[simp] theorem State.setLink_nextPkt (s : State) (d : Nat) (l : Link) : (s.setLink d l).nextPkt = s.nextPkt := rfl
@[simp] theorem State.setLink_nextOrder (s : State) (d : Nat) (l : Link) : (s.setLink d l).nextOrder = s.nextOrder := rfl
@[simp] theorem State.setLink_grants (s : State) (d : Nat) (l : Link) : (s.setLink d l).grants = s.grants := rfl
@[simp] theorem State.setLink_fetchRR (s : State) (d : Nat) (l : Link) : (s.setLink d l).fetchRR = s.fetchRR := rfl
@[simp] theorem State.setLink_tongs (s : State) (d : Nat) (l : Link) : (s.setLink d l).tongs = s.tongs := rfl
@[simp] theorem State.setLink_egress (s : State) (d : Nat) (l : Link) : (s.setLink d l).egress = s.egress := rfl
@[simp] theorem State.setLink_anvils (s : State) (d : Nat) (l : Link) : (s.setLink d l).anvils = s.anvils := rfl
@[simp] theorem State.setLink_relays (s : State) (d : Nat) (l : Link) : (s.setLink d l).relays = s.relays := rfl
@[simp] theorem State.setLink_banks (s : State) (d : Nat) (l : Link) : (s.setLink d l).banks = s.banks := rfl
@[simp] theorem State.setLink_host (s : State) (d : Nat) (l : Link) : (s.setLink d l).host = s.host := rfl
@[simp] theorem State.setLink_delivered (s : State) (d : Nat) (l : Link) : (s.setLink d l).delivered = s.delivered := rfl
@[simp] theorem State.setLink_evr (s : State) (d : Nat) (l : Link) : (s.setLink d l).evr = s.evr := rfl
@[simp] theorem State.setLink_fatal (s : State) (d : Nat) (l : Link) : (s.setLink d l).fatal = s.fatal := rfl
@[simp] theorem State.setLink_fatalDue (s : State) (d : Nat) (l : Link) : (s.setLink d l).fatalDue = s.fatalDue := rfl
@[simp] theorem State.setLink_faultTimes (s : State) (d : Nat) (l : Link) : (s.setLink d l).faultTimes = s.faultTimes := rfl
@[simp] theorem State.setLink_clk (s : State) (d : Nat) (l : Link) : (s.setLink d l).clk = s.clk := rfl
@[simp] theorem State.setLink_measures (s : State) (d : Nat) (l : Link) : (s.setLink d l).measures = s.measures := rfl
@[simp] theorem State.setLink_gleeds (s : State) (d : Nat) (l : Link) : (s.setLink d l).gleeds = s.gleeds := rfl
@[simp] theorem State.setLink_origin (s : State) (d : Nat) (l : Link) : (s.setLink d l).origin = s.origin := rfl
@[simp] theorem State.setLink_bel (s : State) (d : Nat) (l : Link) : (s.setLink d l).bel = s.bel := rfl
@[simp] theorem State.setLink_qch (s : State) (d : Nat) (l : Link) : (s.setLink d l).qch = s.qch := rfl
@[simp] theorem State.setLink_boot (s : State) (d : Nat) (l : Link) : (s.setLink d l).boot = s.boot := rfl
@[simp] theorem State.setLink_nvs (s : State) (d : Nat) (l : Link) : (s.setLink d l).nvs = s.nvs := rfl
@[simp] theorem State.setLink_side (s : State) (d : Nat) (l : Link) : (s.setLink d l).side = s.side := rfl
@[simp] theorem State.setLink_aux (s : State) (d : Nat) (l : Link) : (s.setLink d l).aux = s.aux := rfl
@[simp] theorem State.setLink_auxAt (s : State) (d : Nat) (l : Link) : (s.setLink d l).auxAt = s.auxAt := rfl
@[simp] theorem State.setLink_straps (s : State) (d : Nat) (l : Link) : (s.setLink d l).straps = s.straps := rfl
@[simp] theorem State.setLink_reg (s : State) (d : Nat) (l : Link) (i : Nat) : (s.setLink d l).reg i = s.reg i := rfl
@[simp] theorem State.setLink_part (s : State) (d : Nat) (l : Link) (i : Nat) : (s.setLink d l).part i = s.part i := rfl
@[simp] theorem State.setLink_pkt (s : State) (d : Nat) (l : Link) (i : Nat) : (s.setLink d l).pkt i = s.pkt i := rfl
@[simp] theorem State.setLink_tong (s : State) (d : Nat) (l : Link) (i : Nat) : (s.setLink d l).tong i = s.tong i := rfl
@[simp] theorem State.setLink_anvil (s : State) (d : Nat) (l : Link) (i : Nat) : (s.setLink d l).anvil i = s.anvil i := rfl
@[simp] theorem State.setLink_bank (s : State) (d : Nat) (l : Link) (i : Nat) : (s.setLink d l).bank i = s.bank i := rfl
@[simp] theorem State.setLink_gleed (s : State) (d : Nat) (l : Link) (i : Nat) : (s.setLink d l).gleed i = s.gleed i := rfl
@[simp] theorem State.setLink_fn (s : State) (d : Nat) (l : Link) (i : Nat) : (s.setLink d l).fn i = s.fn i := rfl

/-! setGleed: writes gleeds. -/

@[simp] theorem State.setGleed_pending (s : State) (d : Nat) (g : Gleed) : (s.setGleed d g).pending = s.pending := rfl
@[simp] theorem State.setGleed_osc (s : State) (d : Nat) (g : Gleed) : (s.setGleed d g).osc = s.osc := rfl
@[simp] theorem State.setGleed_freeCtr (s : State) (d : Nat) (g : Gleed) : (s.setGleed d g).freeCtr = s.freeCtr := rfl
@[simp] theorem State.setGleed_out (s : State) (d : Nat) (g : Gleed) : (s.setGleed d g).out = s.out := rfl
@[simp] theorem State.setGleed_regs (s : State) (d : Nat) (g : Gleed) : (s.setGleed d g).regs = s.regs := rfl
@[simp] theorem State.setGleed_latches (s : State) (d : Nat) (g : Gleed) : (s.setGleed d g).latches = s.latches := rfl
@[simp] theorem State.setGleed_hrt (s : State) (d : Nat) (g : Gleed) : (s.setGleed d g).hrt = s.hrt := rfl
@[simp] theorem State.setGleed_parts (s : State) (d : Nat) (g : Gleed) : (s.setGleed d g).parts = s.parts := rfl
@[simp] theorem State.setGleed_pkts (s : State) (d : Nat) (g : Gleed) : (s.setGleed d g).pkts = s.pkts := rfl
@[simp] theorem State.setGleed_nextPkt (s : State) (d : Nat) (g : Gleed) : (s.setGleed d g).nextPkt = s.nextPkt := rfl
@[simp] theorem State.setGleed_nextOrder (s : State) (d : Nat) (g : Gleed) : (s.setGleed d g).nextOrder = s.nextOrder := rfl
@[simp] theorem State.setGleed_grants (s : State) (d : Nat) (g : Gleed) : (s.setGleed d g).grants = s.grants := rfl
@[simp] theorem State.setGleed_fetchRR (s : State) (d : Nat) (g : Gleed) : (s.setGleed d g).fetchRR = s.fetchRR := rfl
@[simp] theorem State.setGleed_tongs (s : State) (d : Nat) (g : Gleed) : (s.setGleed d g).tongs = s.tongs := rfl
@[simp] theorem State.setGleed_egress (s : State) (d : Nat) (g : Gleed) : (s.setGleed d g).egress = s.egress := rfl
@[simp] theorem State.setGleed_anvils (s : State) (d : Nat) (g : Gleed) : (s.setGleed d g).anvils = s.anvils := rfl
@[simp] theorem State.setGleed_relays (s : State) (d : Nat) (g : Gleed) : (s.setGleed d g).relays = s.relays := rfl
@[simp] theorem State.setGleed_banks (s : State) (d : Nat) (g : Gleed) : (s.setGleed d g).banks = s.banks := rfl
@[simp] theorem State.setGleed_host (s : State) (d : Nat) (g : Gleed) : (s.setGleed d g).host = s.host := rfl
@[simp] theorem State.setGleed_links (s : State) (d : Nat) (g : Gleed) : (s.setGleed d g).links = s.links := rfl
@[simp] theorem State.setGleed_delivered (s : State) (d : Nat) (g : Gleed) : (s.setGleed d g).delivered = s.delivered := rfl
@[simp] theorem State.setGleed_evr (s : State) (d : Nat) (g : Gleed) : (s.setGleed d g).evr = s.evr := rfl
@[simp] theorem State.setGleed_fatal (s : State) (d : Nat) (g : Gleed) : (s.setGleed d g).fatal = s.fatal := rfl
@[simp] theorem State.setGleed_fatalDue (s : State) (d : Nat) (g : Gleed) : (s.setGleed d g).fatalDue = s.fatalDue := rfl
@[simp] theorem State.setGleed_faultTimes (s : State) (d : Nat) (g : Gleed) : (s.setGleed d g).faultTimes = s.faultTimes := rfl
@[simp] theorem State.setGleed_clk (s : State) (d : Nat) (g : Gleed) : (s.setGleed d g).clk = s.clk := rfl
@[simp] theorem State.setGleed_measures (s : State) (d : Nat) (g : Gleed) : (s.setGleed d g).measures = s.measures := rfl
@[simp] theorem State.setGleed_origin (s : State) (d : Nat) (g : Gleed) : (s.setGleed d g).origin = s.origin := rfl
@[simp] theorem State.setGleed_bel (s : State) (d : Nat) (g : Gleed) : (s.setGleed d g).bel = s.bel := rfl
@[simp] theorem State.setGleed_qch (s : State) (d : Nat) (g : Gleed) : (s.setGleed d g).qch = s.qch := rfl
@[simp] theorem State.setGleed_boot (s : State) (d : Nat) (g : Gleed) : (s.setGleed d g).boot = s.boot := rfl
@[simp] theorem State.setGleed_nvs (s : State) (d : Nat) (g : Gleed) : (s.setGleed d g).nvs = s.nvs := rfl
@[simp] theorem State.setGleed_side (s : State) (d : Nat) (g : Gleed) : (s.setGleed d g).side = s.side := rfl
@[simp] theorem State.setGleed_aux (s : State) (d : Nat) (g : Gleed) : (s.setGleed d g).aux = s.aux := rfl
@[simp] theorem State.setGleed_auxAt (s : State) (d : Nat) (g : Gleed) : (s.setGleed d g).auxAt = s.auxAt := rfl
@[simp] theorem State.setGleed_straps (s : State) (d : Nat) (g : Gleed) : (s.setGleed d g).straps = s.straps := rfl
@[simp] theorem State.setGleed_reg (s : State) (d : Nat) (g : Gleed) (i : Nat) : (s.setGleed d g).reg i = s.reg i := rfl
@[simp] theorem State.setGleed_part (s : State) (d : Nat) (g : Gleed) (i : Nat) : (s.setGleed d g).part i = s.part i := rfl
@[simp] theorem State.setGleed_pkt (s : State) (d : Nat) (g : Gleed) (i : Nat) : (s.setGleed d g).pkt i = s.pkt i := rfl
@[simp] theorem State.setGleed_tong (s : State) (d : Nat) (g : Gleed) (i : Nat) : (s.setGleed d g).tong i = s.tong i := rfl
@[simp] theorem State.setGleed_anvil (s : State) (d : Nat) (g : Gleed) (i : Nat) : (s.setGleed d g).anvil i = s.anvil i := rfl
@[simp] theorem State.setGleed_bank (s : State) (d : Nat) (g : Gleed) (i : Nat) : (s.setGleed d g).bank i = s.bank i := rfl
@[simp] theorem State.setGleed_link (s : State) (d : Nat) (g : Gleed) (i : Nat) : (s.setGleed d g).link i = s.link i := rfl
@[simp] theorem State.setGleed_fn (s : State) (d : Nat) (g : Gleed) (i : Nat) : (s.setGleed d g).fn i = s.fn i := rfl

/-! setMeasure: writes measures. -/

@[simp] theorem State.setMeasure_pending (s : State) (d : Nat) (m : Measure) : (s.setMeasure d m).pending = s.pending := rfl
@[simp] theorem State.setMeasure_osc (s : State) (d : Nat) (m : Measure) : (s.setMeasure d m).osc = s.osc := rfl
@[simp] theorem State.setMeasure_freeCtr (s : State) (d : Nat) (m : Measure) : (s.setMeasure d m).freeCtr = s.freeCtr := rfl
@[simp] theorem State.setMeasure_out (s : State) (d : Nat) (m : Measure) : (s.setMeasure d m).out = s.out := rfl
@[simp] theorem State.setMeasure_regs (s : State) (d : Nat) (m : Measure) : (s.setMeasure d m).regs = s.regs := rfl
@[simp] theorem State.setMeasure_latches (s : State) (d : Nat) (m : Measure) : (s.setMeasure d m).latches = s.latches := rfl
@[simp] theorem State.setMeasure_hrt (s : State) (d : Nat) (m : Measure) : (s.setMeasure d m).hrt = s.hrt := rfl
@[simp] theorem State.setMeasure_parts (s : State) (d : Nat) (m : Measure) : (s.setMeasure d m).parts = s.parts := rfl
@[simp] theorem State.setMeasure_pkts (s : State) (d : Nat) (m : Measure) : (s.setMeasure d m).pkts = s.pkts := rfl
@[simp] theorem State.setMeasure_nextPkt (s : State) (d : Nat) (m : Measure) : (s.setMeasure d m).nextPkt = s.nextPkt := rfl
@[simp] theorem State.setMeasure_nextOrder (s : State) (d : Nat) (m : Measure) : (s.setMeasure d m).nextOrder = s.nextOrder := rfl
@[simp] theorem State.setMeasure_grants (s : State) (d : Nat) (m : Measure) : (s.setMeasure d m).grants = s.grants := rfl
@[simp] theorem State.setMeasure_fetchRR (s : State) (d : Nat) (m : Measure) : (s.setMeasure d m).fetchRR = s.fetchRR := rfl
@[simp] theorem State.setMeasure_tongs (s : State) (d : Nat) (m : Measure) : (s.setMeasure d m).tongs = s.tongs := rfl
@[simp] theorem State.setMeasure_egress (s : State) (d : Nat) (m : Measure) : (s.setMeasure d m).egress = s.egress := rfl
@[simp] theorem State.setMeasure_anvils (s : State) (d : Nat) (m : Measure) : (s.setMeasure d m).anvils = s.anvils := rfl
@[simp] theorem State.setMeasure_relays (s : State) (d : Nat) (m : Measure) : (s.setMeasure d m).relays = s.relays := rfl
@[simp] theorem State.setMeasure_banks (s : State) (d : Nat) (m : Measure) : (s.setMeasure d m).banks = s.banks := rfl
@[simp] theorem State.setMeasure_host (s : State) (d : Nat) (m : Measure) : (s.setMeasure d m).host = s.host := rfl
@[simp] theorem State.setMeasure_links (s : State) (d : Nat) (m : Measure) : (s.setMeasure d m).links = s.links := rfl
@[simp] theorem State.setMeasure_delivered (s : State) (d : Nat) (m : Measure) : (s.setMeasure d m).delivered = s.delivered := rfl
@[simp] theorem State.setMeasure_evr (s : State) (d : Nat) (m : Measure) : (s.setMeasure d m).evr = s.evr := rfl
@[simp] theorem State.setMeasure_fatal (s : State) (d : Nat) (m : Measure) : (s.setMeasure d m).fatal = s.fatal := rfl
@[simp] theorem State.setMeasure_fatalDue (s : State) (d : Nat) (m : Measure) : (s.setMeasure d m).fatalDue = s.fatalDue := rfl
@[simp] theorem State.setMeasure_faultTimes (s : State) (d : Nat) (m : Measure) : (s.setMeasure d m).faultTimes = s.faultTimes := rfl
@[simp] theorem State.setMeasure_clk (s : State) (d : Nat) (m : Measure) : (s.setMeasure d m).clk = s.clk := rfl
@[simp] theorem State.setMeasure_gleeds (s : State) (d : Nat) (m : Measure) : (s.setMeasure d m).gleeds = s.gleeds := rfl
@[simp] theorem State.setMeasure_origin (s : State) (d : Nat) (m : Measure) : (s.setMeasure d m).origin = s.origin := rfl
@[simp] theorem State.setMeasure_bel (s : State) (d : Nat) (m : Measure) : (s.setMeasure d m).bel = s.bel := rfl
@[simp] theorem State.setMeasure_qch (s : State) (d : Nat) (m : Measure) : (s.setMeasure d m).qch = s.qch := rfl
@[simp] theorem State.setMeasure_boot (s : State) (d : Nat) (m : Measure) : (s.setMeasure d m).boot = s.boot := rfl
@[simp] theorem State.setMeasure_nvs (s : State) (d : Nat) (m : Measure) : (s.setMeasure d m).nvs = s.nvs := rfl
@[simp] theorem State.setMeasure_side (s : State) (d : Nat) (m : Measure) : (s.setMeasure d m).side = s.side := rfl
@[simp] theorem State.setMeasure_aux (s : State) (d : Nat) (m : Measure) : (s.setMeasure d m).aux = s.aux := rfl
@[simp] theorem State.setMeasure_auxAt (s : State) (d : Nat) (m : Measure) : (s.setMeasure d m).auxAt = s.auxAt := rfl
@[simp] theorem State.setMeasure_straps (s : State) (d : Nat) (m : Measure) : (s.setMeasure d m).straps = s.straps := rfl
@[simp] theorem State.setMeasure_reg (s : State) (d : Nat) (m : Measure) (i : Nat) : (s.setMeasure d m).reg i = s.reg i := rfl
@[simp] theorem State.setMeasure_part (s : State) (d : Nat) (m : Measure) (i : Nat) : (s.setMeasure d m).part i = s.part i := rfl
@[simp] theorem State.setMeasure_pkt (s : State) (d : Nat) (m : Measure) (i : Nat) : (s.setMeasure d m).pkt i = s.pkt i := rfl
@[simp] theorem State.setMeasure_tong (s : State) (d : Nat) (m : Measure) (i : Nat) : (s.setMeasure d m).tong i = s.tong i := rfl
@[simp] theorem State.setMeasure_anvil (s : State) (d : Nat) (m : Measure) (i : Nat) : (s.setMeasure d m).anvil i = s.anvil i := rfl
@[simp] theorem State.setMeasure_bank (s : State) (d : Nat) (m : Measure) (i : Nat) : (s.setMeasure d m).bank i = s.bank i := rfl
@[simp] theorem State.setMeasure_link (s : State) (d : Nat) (m : Measure) (i : Nat) : (s.setMeasure d m).link i = s.link i := rfl
@[simp] theorem State.setMeasure_gleed (s : State) (d : Nat) (m : Measure) (i : Nat) : (s.setMeasure d m).gleed i = s.gleed i := rfl
@[simp] theorem State.setMeasure_fn (s : State) (d : Nat) (m : Measure) (i : Nat) : (s.setMeasure d m).fn i = s.fn i := rfl

/-! setFn: writes host. -/

@[simp] theorem State.setFn_pending (s : State) (f : Nat) (c : FnCfg) : (s.setFn f c).pending = s.pending := rfl
@[simp] theorem State.setFn_osc (s : State) (f : Nat) (c : FnCfg) : (s.setFn f c).osc = s.osc := rfl
@[simp] theorem State.setFn_freeCtr (s : State) (f : Nat) (c : FnCfg) : (s.setFn f c).freeCtr = s.freeCtr := rfl
@[simp] theorem State.setFn_out (s : State) (f : Nat) (c : FnCfg) : (s.setFn f c).out = s.out := rfl
@[simp] theorem State.setFn_regs (s : State) (f : Nat) (c : FnCfg) : (s.setFn f c).regs = s.regs := rfl
@[simp] theorem State.setFn_latches (s : State) (f : Nat) (c : FnCfg) : (s.setFn f c).latches = s.latches := rfl
@[simp] theorem State.setFn_hrt (s : State) (f : Nat) (c : FnCfg) : (s.setFn f c).hrt = s.hrt := rfl
@[simp] theorem State.setFn_parts (s : State) (f : Nat) (c : FnCfg) : (s.setFn f c).parts = s.parts := rfl
@[simp] theorem State.setFn_pkts (s : State) (f : Nat) (c : FnCfg) : (s.setFn f c).pkts = s.pkts := rfl
@[simp] theorem State.setFn_nextPkt (s : State) (f : Nat) (c : FnCfg) : (s.setFn f c).nextPkt = s.nextPkt := rfl
@[simp] theorem State.setFn_nextOrder (s : State) (f : Nat) (c : FnCfg) : (s.setFn f c).nextOrder = s.nextOrder := rfl
@[simp] theorem State.setFn_grants (s : State) (f : Nat) (c : FnCfg) : (s.setFn f c).grants = s.grants := rfl
@[simp] theorem State.setFn_fetchRR (s : State) (f : Nat) (c : FnCfg) : (s.setFn f c).fetchRR = s.fetchRR := rfl
@[simp] theorem State.setFn_tongs (s : State) (f : Nat) (c : FnCfg) : (s.setFn f c).tongs = s.tongs := rfl
@[simp] theorem State.setFn_egress (s : State) (f : Nat) (c : FnCfg) : (s.setFn f c).egress = s.egress := rfl
@[simp] theorem State.setFn_anvils (s : State) (f : Nat) (c : FnCfg) : (s.setFn f c).anvils = s.anvils := rfl
@[simp] theorem State.setFn_relays (s : State) (f : Nat) (c : FnCfg) : (s.setFn f c).relays = s.relays := rfl
@[simp] theorem State.setFn_banks (s : State) (f : Nat) (c : FnCfg) : (s.setFn f c).banks = s.banks := rfl
@[simp] theorem State.setFn_links (s : State) (f : Nat) (c : FnCfg) : (s.setFn f c).links = s.links := rfl
@[simp] theorem State.setFn_delivered (s : State) (f : Nat) (c : FnCfg) : (s.setFn f c).delivered = s.delivered := rfl
@[simp] theorem State.setFn_evr (s : State) (f : Nat) (c : FnCfg) : (s.setFn f c).evr = s.evr := rfl
@[simp] theorem State.setFn_fatal (s : State) (f : Nat) (c : FnCfg) : (s.setFn f c).fatal = s.fatal := rfl
@[simp] theorem State.setFn_fatalDue (s : State) (f : Nat) (c : FnCfg) : (s.setFn f c).fatalDue = s.fatalDue := rfl
@[simp] theorem State.setFn_faultTimes (s : State) (f : Nat) (c : FnCfg) : (s.setFn f c).faultTimes = s.faultTimes := rfl
@[simp] theorem State.setFn_clk (s : State) (f : Nat) (c : FnCfg) : (s.setFn f c).clk = s.clk := rfl
@[simp] theorem State.setFn_measures (s : State) (f : Nat) (c : FnCfg) : (s.setFn f c).measures = s.measures := rfl
@[simp] theorem State.setFn_gleeds (s : State) (f : Nat) (c : FnCfg) : (s.setFn f c).gleeds = s.gleeds := rfl
@[simp] theorem State.setFn_origin (s : State) (f : Nat) (c : FnCfg) : (s.setFn f c).origin = s.origin := rfl
@[simp] theorem State.setFn_bel (s : State) (f : Nat) (c : FnCfg) : (s.setFn f c).bel = s.bel := rfl
@[simp] theorem State.setFn_qch (s : State) (f : Nat) (c : FnCfg) : (s.setFn f c).qch = s.qch := rfl
@[simp] theorem State.setFn_boot (s : State) (f : Nat) (c : FnCfg) : (s.setFn f c).boot = s.boot := rfl
@[simp] theorem State.setFn_nvs (s : State) (f : Nat) (c : FnCfg) : (s.setFn f c).nvs = s.nvs := rfl
@[simp] theorem State.setFn_side (s : State) (f : Nat) (c : FnCfg) : (s.setFn f c).side = s.side := rfl
@[simp] theorem State.setFn_aux (s : State) (f : Nat) (c : FnCfg) : (s.setFn f c).aux = s.aux := rfl
@[simp] theorem State.setFn_auxAt (s : State) (f : Nat) (c : FnCfg) : (s.setFn f c).auxAt = s.auxAt := rfl
@[simp] theorem State.setFn_straps (s : State) (f : Nat) (c : FnCfg) : (s.setFn f c).straps = s.straps := rfl
@[simp] theorem State.setFn_reg (s : State) (f : Nat) (c : FnCfg) (i : Nat) : (s.setFn f c).reg i = s.reg i := rfl
@[simp] theorem State.setFn_part (s : State) (f : Nat) (c : FnCfg) (i : Nat) : (s.setFn f c).part i = s.part i := rfl
@[simp] theorem State.setFn_pkt (s : State) (f : Nat) (c : FnCfg) (i : Nat) : (s.setFn f c).pkt i = s.pkt i := rfl
@[simp] theorem State.setFn_tong (s : State) (f : Nat) (c : FnCfg) (i : Nat) : (s.setFn f c).tong i = s.tong i := rfl
@[simp] theorem State.setFn_anvil (s : State) (f : Nat) (c : FnCfg) (i : Nat) : (s.setFn f c).anvil i = s.anvil i := rfl
@[simp] theorem State.setFn_bank (s : State) (f : Nat) (c : FnCfg) (i : Nat) : (s.setFn f c).bank i = s.bank i := rfl
@[simp] theorem State.setFn_link (s : State) (f : Nat) (c : FnCfg) (i : Nat) : (s.setFn f c).link i = s.link i := rfl
@[simp] theorem State.setFn_gleed (s : State) (f : Nat) (c : FnCfg) (i : Nat) : (s.setFn f c).gleed i = s.gleed i := rfl

/-! setHost: writes host. -/

@[simp] theorem State.setHost_pending (s : State) (f : HostPort → HostPort) : (s.setHost f).pending = s.pending := rfl
@[simp] theorem State.setHost_osc (s : State) (f : HostPort → HostPort) : (s.setHost f).osc = s.osc := rfl
@[simp] theorem State.setHost_freeCtr (s : State) (f : HostPort → HostPort) : (s.setHost f).freeCtr = s.freeCtr := rfl
@[simp] theorem State.setHost_out (s : State) (f : HostPort → HostPort) : (s.setHost f).out = s.out := rfl
@[simp] theorem State.setHost_regs (s : State) (f : HostPort → HostPort) : (s.setHost f).regs = s.regs := rfl
@[simp] theorem State.setHost_latches (s : State) (f : HostPort → HostPort) : (s.setHost f).latches = s.latches := rfl
@[simp] theorem State.setHost_hrt (s : State) (f : HostPort → HostPort) : (s.setHost f).hrt = s.hrt := rfl
@[simp] theorem State.setHost_parts (s : State) (f : HostPort → HostPort) : (s.setHost f).parts = s.parts := rfl
@[simp] theorem State.setHost_pkts (s : State) (f : HostPort → HostPort) : (s.setHost f).pkts = s.pkts := rfl
@[simp] theorem State.setHost_nextPkt (s : State) (f : HostPort → HostPort) : (s.setHost f).nextPkt = s.nextPkt := rfl
@[simp] theorem State.setHost_nextOrder (s : State) (f : HostPort → HostPort) : (s.setHost f).nextOrder = s.nextOrder := rfl
@[simp] theorem State.setHost_grants (s : State) (f : HostPort → HostPort) : (s.setHost f).grants = s.grants := rfl
@[simp] theorem State.setHost_fetchRR (s : State) (f : HostPort → HostPort) : (s.setHost f).fetchRR = s.fetchRR := rfl
@[simp] theorem State.setHost_tongs (s : State) (f : HostPort → HostPort) : (s.setHost f).tongs = s.tongs := rfl
@[simp] theorem State.setHost_egress (s : State) (f : HostPort → HostPort) : (s.setHost f).egress = s.egress := rfl
@[simp] theorem State.setHost_anvils (s : State) (f : HostPort → HostPort) : (s.setHost f).anvils = s.anvils := rfl
@[simp] theorem State.setHost_relays (s : State) (f : HostPort → HostPort) : (s.setHost f).relays = s.relays := rfl
@[simp] theorem State.setHost_banks (s : State) (f : HostPort → HostPort) : (s.setHost f).banks = s.banks := rfl
@[simp] theorem State.setHost_host (s : State) (f : HostPort → HostPort) : (s.setHost f).host = f s.host := rfl
@[simp] theorem State.setHost_links (s : State) (f : HostPort → HostPort) : (s.setHost f).links = s.links := rfl
@[simp] theorem State.setHost_delivered (s : State) (f : HostPort → HostPort) : (s.setHost f).delivered = s.delivered := rfl
@[simp] theorem State.setHost_evr (s : State) (f : HostPort → HostPort) : (s.setHost f).evr = s.evr := rfl
@[simp] theorem State.setHost_fatal (s : State) (f : HostPort → HostPort) : (s.setHost f).fatal = s.fatal := rfl
@[simp] theorem State.setHost_fatalDue (s : State) (f : HostPort → HostPort) : (s.setHost f).fatalDue = s.fatalDue := rfl
@[simp] theorem State.setHost_faultTimes (s : State) (f : HostPort → HostPort) : (s.setHost f).faultTimes = s.faultTimes := rfl
@[simp] theorem State.setHost_clk (s : State) (f : HostPort → HostPort) : (s.setHost f).clk = s.clk := rfl
@[simp] theorem State.setHost_measures (s : State) (f : HostPort → HostPort) : (s.setHost f).measures = s.measures := rfl
@[simp] theorem State.setHost_gleeds (s : State) (f : HostPort → HostPort) : (s.setHost f).gleeds = s.gleeds := rfl
@[simp] theorem State.setHost_origin (s : State) (f : HostPort → HostPort) : (s.setHost f).origin = s.origin := rfl
@[simp] theorem State.setHost_bel (s : State) (f : HostPort → HostPort) : (s.setHost f).bel = s.bel := rfl
@[simp] theorem State.setHost_qch (s : State) (f : HostPort → HostPort) : (s.setHost f).qch = s.qch := rfl
@[simp] theorem State.setHost_boot (s : State) (f : HostPort → HostPort) : (s.setHost f).boot = s.boot := rfl
@[simp] theorem State.setHost_nvs (s : State) (f : HostPort → HostPort) : (s.setHost f).nvs = s.nvs := rfl
@[simp] theorem State.setHost_side (s : State) (f : HostPort → HostPort) : (s.setHost f).side = s.side := rfl
@[simp] theorem State.setHost_aux (s : State) (f : HostPort → HostPort) : (s.setHost f).aux = s.aux := rfl
@[simp] theorem State.setHost_auxAt (s : State) (f : HostPort → HostPort) : (s.setHost f).auxAt = s.auxAt := rfl
@[simp] theorem State.setHost_straps (s : State) (f : HostPort → HostPort) : (s.setHost f).straps = s.straps := rfl
@[simp] theorem State.setHost_reg (s : State) (f : HostPort → HostPort) (i : Nat) : (s.setHost f).reg i = s.reg i := rfl
@[simp] theorem State.setHost_part (s : State) (f : HostPort → HostPort) (i : Nat) : (s.setHost f).part i = s.part i := rfl
@[simp] theorem State.setHost_pkt (s : State) (f : HostPort → HostPort) (i : Nat) : (s.setHost f).pkt i = s.pkt i := rfl
@[simp] theorem State.setHost_tong (s : State) (f : HostPort → HostPort) (i : Nat) : (s.setHost f).tong i = s.tong i := rfl
@[simp] theorem State.setHost_anvil (s : State) (f : HostPort → HostPort) (i : Nat) : (s.setHost f).anvil i = s.anvil i := rfl
@[simp] theorem State.setHost_bank (s : State) (f : HostPort → HostPort) (i : Nat) : (s.setHost f).bank i = s.bank i := rfl
@[simp] theorem State.setHost_link (s : State) (f : HostPort → HostPort) (i : Nat) : (s.setHost f).link i = s.link i := rfl
@[simp] theorem State.setHost_gleed (s : State) (f : HostPort → HostPort) (i : Nat) : (s.setHost f).gleed i = s.gleed i := rfl

/-! setEvr: writes evr. -/

@[simp] theorem State.setEvr_pending (s : State) (f : Evr → Evr) : (s.setEvr f).pending = s.pending := rfl
@[simp] theorem State.setEvr_osc (s : State) (f : Evr → Evr) : (s.setEvr f).osc = s.osc := rfl
@[simp] theorem State.setEvr_freeCtr (s : State) (f : Evr → Evr) : (s.setEvr f).freeCtr = s.freeCtr := rfl
@[simp] theorem State.setEvr_out (s : State) (f : Evr → Evr) : (s.setEvr f).out = s.out := rfl
@[simp] theorem State.setEvr_regs (s : State) (f : Evr → Evr) : (s.setEvr f).regs = s.regs := rfl
@[simp] theorem State.setEvr_latches (s : State) (f : Evr → Evr) : (s.setEvr f).latches = s.latches := rfl
@[simp] theorem State.setEvr_hrt (s : State) (f : Evr → Evr) : (s.setEvr f).hrt = s.hrt := rfl
@[simp] theorem State.setEvr_parts (s : State) (f : Evr → Evr) : (s.setEvr f).parts = s.parts := rfl
@[simp] theorem State.setEvr_pkts (s : State) (f : Evr → Evr) : (s.setEvr f).pkts = s.pkts := rfl
@[simp] theorem State.setEvr_nextPkt (s : State) (f : Evr → Evr) : (s.setEvr f).nextPkt = s.nextPkt := rfl
@[simp] theorem State.setEvr_nextOrder (s : State) (f : Evr → Evr) : (s.setEvr f).nextOrder = s.nextOrder := rfl
@[simp] theorem State.setEvr_grants (s : State) (f : Evr → Evr) : (s.setEvr f).grants = s.grants := rfl
@[simp] theorem State.setEvr_fetchRR (s : State) (f : Evr → Evr) : (s.setEvr f).fetchRR = s.fetchRR := rfl
@[simp] theorem State.setEvr_tongs (s : State) (f : Evr → Evr) : (s.setEvr f).tongs = s.tongs := rfl
@[simp] theorem State.setEvr_egress (s : State) (f : Evr → Evr) : (s.setEvr f).egress = s.egress := rfl
@[simp] theorem State.setEvr_anvils (s : State) (f : Evr → Evr) : (s.setEvr f).anvils = s.anvils := rfl
@[simp] theorem State.setEvr_relays (s : State) (f : Evr → Evr) : (s.setEvr f).relays = s.relays := rfl
@[simp] theorem State.setEvr_banks (s : State) (f : Evr → Evr) : (s.setEvr f).banks = s.banks := rfl
@[simp] theorem State.setEvr_host (s : State) (f : Evr → Evr) : (s.setEvr f).host = s.host := rfl
@[simp] theorem State.setEvr_links (s : State) (f : Evr → Evr) : (s.setEvr f).links = s.links := rfl
@[simp] theorem State.setEvr_delivered (s : State) (f : Evr → Evr) : (s.setEvr f).delivered = s.delivered := rfl
@[simp] theorem State.setEvr_evr (s : State) (f : Evr → Evr) : (s.setEvr f).evr = f s.evr := rfl
@[simp] theorem State.setEvr_fatal (s : State) (f : Evr → Evr) : (s.setEvr f).fatal = s.fatal := rfl
@[simp] theorem State.setEvr_fatalDue (s : State) (f : Evr → Evr) : (s.setEvr f).fatalDue = s.fatalDue := rfl
@[simp] theorem State.setEvr_faultTimes (s : State) (f : Evr → Evr) : (s.setEvr f).faultTimes = s.faultTimes := rfl
@[simp] theorem State.setEvr_clk (s : State) (f : Evr → Evr) : (s.setEvr f).clk = s.clk := rfl
@[simp] theorem State.setEvr_measures (s : State) (f : Evr → Evr) : (s.setEvr f).measures = s.measures := rfl
@[simp] theorem State.setEvr_gleeds (s : State) (f : Evr → Evr) : (s.setEvr f).gleeds = s.gleeds := rfl
@[simp] theorem State.setEvr_origin (s : State) (f : Evr → Evr) : (s.setEvr f).origin = s.origin := rfl
@[simp] theorem State.setEvr_bel (s : State) (f : Evr → Evr) : (s.setEvr f).bel = s.bel := rfl
@[simp] theorem State.setEvr_qch (s : State) (f : Evr → Evr) : (s.setEvr f).qch = s.qch := rfl
@[simp] theorem State.setEvr_boot (s : State) (f : Evr → Evr) : (s.setEvr f).boot = s.boot := rfl
@[simp] theorem State.setEvr_nvs (s : State) (f : Evr → Evr) : (s.setEvr f).nvs = s.nvs := rfl
@[simp] theorem State.setEvr_side (s : State) (f : Evr → Evr) : (s.setEvr f).side = s.side := rfl
@[simp] theorem State.setEvr_aux (s : State) (f : Evr → Evr) : (s.setEvr f).aux = s.aux := rfl
@[simp] theorem State.setEvr_auxAt (s : State) (f : Evr → Evr) : (s.setEvr f).auxAt = s.auxAt := rfl
@[simp] theorem State.setEvr_straps (s : State) (f : Evr → Evr) : (s.setEvr f).straps = s.straps := rfl
@[simp] theorem State.setEvr_reg (s : State) (f : Evr → Evr) (i : Nat) : (s.setEvr f).reg i = s.reg i := rfl
@[simp] theorem State.setEvr_part (s : State) (f : Evr → Evr) (i : Nat) : (s.setEvr f).part i = s.part i := rfl
@[simp] theorem State.setEvr_pkt (s : State) (f : Evr → Evr) (i : Nat) : (s.setEvr f).pkt i = s.pkt i := rfl
@[simp] theorem State.setEvr_tong (s : State) (f : Evr → Evr) (i : Nat) : (s.setEvr f).tong i = s.tong i := rfl
@[simp] theorem State.setEvr_anvil (s : State) (f : Evr → Evr) (i : Nat) : (s.setEvr f).anvil i = s.anvil i := rfl
@[simp] theorem State.setEvr_bank (s : State) (f : Evr → Evr) (i : Nat) : (s.setEvr f).bank i = s.bank i := rfl
@[simp] theorem State.setEvr_link (s : State) (f : Evr → Evr) (i : Nat) : (s.setEvr f).link i = s.link i := rfl
@[simp] theorem State.setEvr_gleed (s : State) (f : Evr → Evr) (i : Nat) : (s.setEvr f).gleed i = s.gleed i := rfl
@[simp] theorem State.setEvr_fn (s : State) (f : Evr → Evr) (i : Nat) : (s.setEvr f).fn i = s.fn i := rfl

/-! setNvs: writes nvs. -/

@[simp] theorem State.setNvs_pending (s : State) (f : Nvs → Nvs) : (s.setNvs f).pending = s.pending := rfl
@[simp] theorem State.setNvs_osc (s : State) (f : Nvs → Nvs) : (s.setNvs f).osc = s.osc := rfl
@[simp] theorem State.setNvs_freeCtr (s : State) (f : Nvs → Nvs) : (s.setNvs f).freeCtr = s.freeCtr := rfl
@[simp] theorem State.setNvs_out (s : State) (f : Nvs → Nvs) : (s.setNvs f).out = s.out := rfl
@[simp] theorem State.setNvs_regs (s : State) (f : Nvs → Nvs) : (s.setNvs f).regs = s.regs := rfl
@[simp] theorem State.setNvs_latches (s : State) (f : Nvs → Nvs) : (s.setNvs f).latches = s.latches := rfl
@[simp] theorem State.setNvs_hrt (s : State) (f : Nvs → Nvs) : (s.setNvs f).hrt = s.hrt := rfl
@[simp] theorem State.setNvs_parts (s : State) (f : Nvs → Nvs) : (s.setNvs f).parts = s.parts := rfl
@[simp] theorem State.setNvs_pkts (s : State) (f : Nvs → Nvs) : (s.setNvs f).pkts = s.pkts := rfl
@[simp] theorem State.setNvs_nextPkt (s : State) (f : Nvs → Nvs) : (s.setNvs f).nextPkt = s.nextPkt := rfl
@[simp] theorem State.setNvs_nextOrder (s : State) (f : Nvs → Nvs) : (s.setNvs f).nextOrder = s.nextOrder := rfl
@[simp] theorem State.setNvs_grants (s : State) (f : Nvs → Nvs) : (s.setNvs f).grants = s.grants := rfl
@[simp] theorem State.setNvs_fetchRR (s : State) (f : Nvs → Nvs) : (s.setNvs f).fetchRR = s.fetchRR := rfl
@[simp] theorem State.setNvs_tongs (s : State) (f : Nvs → Nvs) : (s.setNvs f).tongs = s.tongs := rfl
@[simp] theorem State.setNvs_egress (s : State) (f : Nvs → Nvs) : (s.setNvs f).egress = s.egress := rfl
@[simp] theorem State.setNvs_anvils (s : State) (f : Nvs → Nvs) : (s.setNvs f).anvils = s.anvils := rfl
@[simp] theorem State.setNvs_relays (s : State) (f : Nvs → Nvs) : (s.setNvs f).relays = s.relays := rfl
@[simp] theorem State.setNvs_banks (s : State) (f : Nvs → Nvs) : (s.setNvs f).banks = s.banks := rfl
@[simp] theorem State.setNvs_host (s : State) (f : Nvs → Nvs) : (s.setNvs f).host = s.host := rfl
@[simp] theorem State.setNvs_links (s : State) (f : Nvs → Nvs) : (s.setNvs f).links = s.links := rfl
@[simp] theorem State.setNvs_delivered (s : State) (f : Nvs → Nvs) : (s.setNvs f).delivered = s.delivered := rfl
@[simp] theorem State.setNvs_evr (s : State) (f : Nvs → Nvs) : (s.setNvs f).evr = s.evr := rfl
@[simp] theorem State.setNvs_fatal (s : State) (f : Nvs → Nvs) : (s.setNvs f).fatal = s.fatal := rfl
@[simp] theorem State.setNvs_fatalDue (s : State) (f : Nvs → Nvs) : (s.setNvs f).fatalDue = s.fatalDue := rfl
@[simp] theorem State.setNvs_faultTimes (s : State) (f : Nvs → Nvs) : (s.setNvs f).faultTimes = s.faultTimes := rfl
@[simp] theorem State.setNvs_clk (s : State) (f : Nvs → Nvs) : (s.setNvs f).clk = s.clk := rfl
@[simp] theorem State.setNvs_measures (s : State) (f : Nvs → Nvs) : (s.setNvs f).measures = s.measures := rfl
@[simp] theorem State.setNvs_gleeds (s : State) (f : Nvs → Nvs) : (s.setNvs f).gleeds = s.gleeds := rfl
@[simp] theorem State.setNvs_origin (s : State) (f : Nvs → Nvs) : (s.setNvs f).origin = s.origin := rfl
@[simp] theorem State.setNvs_bel (s : State) (f : Nvs → Nvs) : (s.setNvs f).bel = s.bel := rfl
@[simp] theorem State.setNvs_qch (s : State) (f : Nvs → Nvs) : (s.setNvs f).qch = s.qch := rfl
@[simp] theorem State.setNvs_boot (s : State) (f : Nvs → Nvs) : (s.setNvs f).boot = s.boot := rfl
@[simp] theorem State.setNvs_nvs (s : State) (f : Nvs → Nvs) : (s.setNvs f).nvs = f s.nvs := rfl
@[simp] theorem State.setNvs_side (s : State) (f : Nvs → Nvs) : (s.setNvs f).side = s.side := rfl
@[simp] theorem State.setNvs_aux (s : State) (f : Nvs → Nvs) : (s.setNvs f).aux = s.aux := rfl
@[simp] theorem State.setNvs_auxAt (s : State) (f : Nvs → Nvs) : (s.setNvs f).auxAt = s.auxAt := rfl
@[simp] theorem State.setNvs_straps (s : State) (f : Nvs → Nvs) : (s.setNvs f).straps = s.straps := rfl
@[simp] theorem State.setNvs_reg (s : State) (f : Nvs → Nvs) (i : Nat) : (s.setNvs f).reg i = s.reg i := rfl
@[simp] theorem State.setNvs_part (s : State) (f : Nvs → Nvs) (i : Nat) : (s.setNvs f).part i = s.part i := rfl
@[simp] theorem State.setNvs_pkt (s : State) (f : Nvs → Nvs) (i : Nat) : (s.setNvs f).pkt i = s.pkt i := rfl
@[simp] theorem State.setNvs_tong (s : State) (f : Nvs → Nvs) (i : Nat) : (s.setNvs f).tong i = s.tong i := rfl
@[simp] theorem State.setNvs_anvil (s : State) (f : Nvs → Nvs) (i : Nat) : (s.setNvs f).anvil i = s.anvil i := rfl
@[simp] theorem State.setNvs_bank (s : State) (f : Nvs → Nvs) (i : Nat) : (s.setNvs f).bank i = s.bank i := rfl
@[simp] theorem State.setNvs_link (s : State) (f : Nvs → Nvs) (i : Nat) : (s.setNvs f).link i = s.link i := rfl
@[simp] theorem State.setNvs_gleed (s : State) (f : Nvs → Nvs) (i : Nat) : (s.setNvs f).gleed i = s.gleed i := rfl
@[simp] theorem State.setNvs_fn (s : State) (f : Nvs → Nvs) (i : Nat) : (s.setNvs f).fn i = s.fn i := rfl

/-! modBel: writes bel. -/

@[simp] theorem State.modBel_pending (s : State) (f : Bel → Bel) : (s.modBel f).pending = s.pending := rfl
@[simp] theorem State.modBel_osc (s : State) (f : Bel → Bel) : (s.modBel f).osc = s.osc := rfl
@[simp] theorem State.modBel_freeCtr (s : State) (f : Bel → Bel) : (s.modBel f).freeCtr = s.freeCtr := rfl
@[simp] theorem State.modBel_out (s : State) (f : Bel → Bel) : (s.modBel f).out = s.out := rfl
@[simp] theorem State.modBel_regs (s : State) (f : Bel → Bel) : (s.modBel f).regs = s.regs := rfl
@[simp] theorem State.modBel_latches (s : State) (f : Bel → Bel) : (s.modBel f).latches = s.latches := rfl
@[simp] theorem State.modBel_hrt (s : State) (f : Bel → Bel) : (s.modBel f).hrt = s.hrt := rfl
@[simp] theorem State.modBel_parts (s : State) (f : Bel → Bel) : (s.modBel f).parts = s.parts := rfl
@[simp] theorem State.modBel_pkts (s : State) (f : Bel → Bel) : (s.modBel f).pkts = s.pkts := rfl
@[simp] theorem State.modBel_nextPkt (s : State) (f : Bel → Bel) : (s.modBel f).nextPkt = s.nextPkt := rfl
@[simp] theorem State.modBel_nextOrder (s : State) (f : Bel → Bel) : (s.modBel f).nextOrder = s.nextOrder := rfl
@[simp] theorem State.modBel_grants (s : State) (f : Bel → Bel) : (s.modBel f).grants = s.grants := rfl
@[simp] theorem State.modBel_fetchRR (s : State) (f : Bel → Bel) : (s.modBel f).fetchRR = s.fetchRR := rfl
@[simp] theorem State.modBel_tongs (s : State) (f : Bel → Bel) : (s.modBel f).tongs = s.tongs := rfl
@[simp] theorem State.modBel_egress (s : State) (f : Bel → Bel) : (s.modBel f).egress = s.egress := rfl
@[simp] theorem State.modBel_anvils (s : State) (f : Bel → Bel) : (s.modBel f).anvils = s.anvils := rfl
@[simp] theorem State.modBel_relays (s : State) (f : Bel → Bel) : (s.modBel f).relays = s.relays := rfl
@[simp] theorem State.modBel_banks (s : State) (f : Bel → Bel) : (s.modBel f).banks = s.banks := rfl
@[simp] theorem State.modBel_host (s : State) (f : Bel → Bel) : (s.modBel f).host = s.host := rfl
@[simp] theorem State.modBel_links (s : State) (f : Bel → Bel) : (s.modBel f).links = s.links := rfl
@[simp] theorem State.modBel_delivered (s : State) (f : Bel → Bel) : (s.modBel f).delivered = s.delivered := rfl
@[simp] theorem State.modBel_evr (s : State) (f : Bel → Bel) : (s.modBel f).evr = s.evr := rfl
@[simp] theorem State.modBel_fatal (s : State) (f : Bel → Bel) : (s.modBel f).fatal = s.fatal := rfl
@[simp] theorem State.modBel_fatalDue (s : State) (f : Bel → Bel) : (s.modBel f).fatalDue = s.fatalDue := rfl
@[simp] theorem State.modBel_faultTimes (s : State) (f : Bel → Bel) : (s.modBel f).faultTimes = s.faultTimes := rfl
@[simp] theorem State.modBel_clk (s : State) (f : Bel → Bel) : (s.modBel f).clk = s.clk := rfl
@[simp] theorem State.modBel_measures (s : State) (f : Bel → Bel) : (s.modBel f).measures = s.measures := rfl
@[simp] theorem State.modBel_gleeds (s : State) (f : Bel → Bel) : (s.modBel f).gleeds = s.gleeds := rfl
@[simp] theorem State.modBel_origin (s : State) (f : Bel → Bel) : (s.modBel f).origin = s.origin := rfl
@[simp] theorem State.modBel_bel (s : State) (f : Bel → Bel) : (s.modBel f).bel = f s.bel := rfl
@[simp] theorem State.modBel_qch (s : State) (f : Bel → Bel) : (s.modBel f).qch = s.qch := rfl
@[simp] theorem State.modBel_boot (s : State) (f : Bel → Bel) : (s.modBel f).boot = s.boot := rfl
@[simp] theorem State.modBel_nvs (s : State) (f : Bel → Bel) : (s.modBel f).nvs = s.nvs := rfl
@[simp] theorem State.modBel_side (s : State) (f : Bel → Bel) : (s.modBel f).side = s.side := rfl
@[simp] theorem State.modBel_aux (s : State) (f : Bel → Bel) : (s.modBel f).aux = s.aux := rfl
@[simp] theorem State.modBel_auxAt (s : State) (f : Bel → Bel) : (s.modBel f).auxAt = s.auxAt := rfl
@[simp] theorem State.modBel_straps (s : State) (f : Bel → Bel) : (s.modBel f).straps = s.straps := rfl
@[simp] theorem State.modBel_reg (s : State) (f : Bel → Bel) (i : Nat) : (s.modBel f).reg i = s.reg i := rfl
@[simp] theorem State.modBel_part (s : State) (f : Bel → Bel) (i : Nat) : (s.modBel f).part i = s.part i := rfl
@[simp] theorem State.modBel_pkt (s : State) (f : Bel → Bel) (i : Nat) : (s.modBel f).pkt i = s.pkt i := rfl
@[simp] theorem State.modBel_tong (s : State) (f : Bel → Bel) (i : Nat) : (s.modBel f).tong i = s.tong i := rfl
@[simp] theorem State.modBel_anvil (s : State) (f : Bel → Bel) (i : Nat) : (s.modBel f).anvil i = s.anvil i := rfl
@[simp] theorem State.modBel_bank (s : State) (f : Bel → Bel) (i : Nat) : (s.modBel f).bank i = s.bank i := rfl
@[simp] theorem State.modBel_link (s : State) (f : Bel → Bel) (i : Nat) : (s.modBel f).link i = s.link i := rfl
@[simp] theorem State.modBel_gleed (s : State) (f : Bel → Bel) (i : Nat) : (s.modBel f).gleed i = s.gleed i := rfl
@[simp] theorem State.modBel_fn (s : State) (f : Bel → Bel) (i : Nat) : (s.modBel f).fn i = s.fn i := rfl

/-! modQch: writes qch. -/

@[simp] theorem State.modQch_pending (s : State) (f : Qch → Qch) : (s.modQch f).pending = s.pending := rfl
@[simp] theorem State.modQch_osc (s : State) (f : Qch → Qch) : (s.modQch f).osc = s.osc := rfl
@[simp] theorem State.modQch_freeCtr (s : State) (f : Qch → Qch) : (s.modQch f).freeCtr = s.freeCtr := rfl
@[simp] theorem State.modQch_out (s : State) (f : Qch → Qch) : (s.modQch f).out = s.out := rfl
@[simp] theorem State.modQch_regs (s : State) (f : Qch → Qch) : (s.modQch f).regs = s.regs := rfl
@[simp] theorem State.modQch_latches (s : State) (f : Qch → Qch) : (s.modQch f).latches = s.latches := rfl
@[simp] theorem State.modQch_hrt (s : State) (f : Qch → Qch) : (s.modQch f).hrt = s.hrt := rfl
@[simp] theorem State.modQch_parts (s : State) (f : Qch → Qch) : (s.modQch f).parts = s.parts := rfl
@[simp] theorem State.modQch_pkts (s : State) (f : Qch → Qch) : (s.modQch f).pkts = s.pkts := rfl
@[simp] theorem State.modQch_nextPkt (s : State) (f : Qch → Qch) : (s.modQch f).nextPkt = s.nextPkt := rfl
@[simp] theorem State.modQch_nextOrder (s : State) (f : Qch → Qch) : (s.modQch f).nextOrder = s.nextOrder := rfl
@[simp] theorem State.modQch_grants (s : State) (f : Qch → Qch) : (s.modQch f).grants = s.grants := rfl
@[simp] theorem State.modQch_fetchRR (s : State) (f : Qch → Qch) : (s.modQch f).fetchRR = s.fetchRR := rfl
@[simp] theorem State.modQch_tongs (s : State) (f : Qch → Qch) : (s.modQch f).tongs = s.tongs := rfl
@[simp] theorem State.modQch_egress (s : State) (f : Qch → Qch) : (s.modQch f).egress = s.egress := rfl
@[simp] theorem State.modQch_anvils (s : State) (f : Qch → Qch) : (s.modQch f).anvils = s.anvils := rfl
@[simp] theorem State.modQch_relays (s : State) (f : Qch → Qch) : (s.modQch f).relays = s.relays := rfl
@[simp] theorem State.modQch_banks (s : State) (f : Qch → Qch) : (s.modQch f).banks = s.banks := rfl
@[simp] theorem State.modQch_host (s : State) (f : Qch → Qch) : (s.modQch f).host = s.host := rfl
@[simp] theorem State.modQch_links (s : State) (f : Qch → Qch) : (s.modQch f).links = s.links := rfl
@[simp] theorem State.modQch_delivered (s : State) (f : Qch → Qch) : (s.modQch f).delivered = s.delivered := rfl
@[simp] theorem State.modQch_evr (s : State) (f : Qch → Qch) : (s.modQch f).evr = s.evr := rfl
@[simp] theorem State.modQch_fatal (s : State) (f : Qch → Qch) : (s.modQch f).fatal = s.fatal := rfl
@[simp] theorem State.modQch_fatalDue (s : State) (f : Qch → Qch) : (s.modQch f).fatalDue = s.fatalDue := rfl
@[simp] theorem State.modQch_faultTimes (s : State) (f : Qch → Qch) : (s.modQch f).faultTimes = s.faultTimes := rfl
@[simp] theorem State.modQch_clk (s : State) (f : Qch → Qch) : (s.modQch f).clk = s.clk := rfl
@[simp] theorem State.modQch_measures (s : State) (f : Qch → Qch) : (s.modQch f).measures = s.measures := rfl
@[simp] theorem State.modQch_gleeds (s : State) (f : Qch → Qch) : (s.modQch f).gleeds = s.gleeds := rfl
@[simp] theorem State.modQch_origin (s : State) (f : Qch → Qch) : (s.modQch f).origin = s.origin := rfl
@[simp] theorem State.modQch_bel (s : State) (f : Qch → Qch) : (s.modQch f).bel = s.bel := rfl
@[simp] theorem State.modQch_qch (s : State) (f : Qch → Qch) : (s.modQch f).qch = f s.qch := rfl
@[simp] theorem State.modQch_boot (s : State) (f : Qch → Qch) : (s.modQch f).boot = s.boot := rfl
@[simp] theorem State.modQch_nvs (s : State) (f : Qch → Qch) : (s.modQch f).nvs = s.nvs := rfl
@[simp] theorem State.modQch_side (s : State) (f : Qch → Qch) : (s.modQch f).side = s.side := rfl
@[simp] theorem State.modQch_aux (s : State) (f : Qch → Qch) : (s.modQch f).aux = s.aux := rfl
@[simp] theorem State.modQch_auxAt (s : State) (f : Qch → Qch) : (s.modQch f).auxAt = s.auxAt := rfl
@[simp] theorem State.modQch_straps (s : State) (f : Qch → Qch) : (s.modQch f).straps = s.straps := rfl
@[simp] theorem State.modQch_reg (s : State) (f : Qch → Qch) (i : Nat) : (s.modQch f).reg i = s.reg i := rfl
@[simp] theorem State.modQch_part (s : State) (f : Qch → Qch) (i : Nat) : (s.modQch f).part i = s.part i := rfl
@[simp] theorem State.modQch_pkt (s : State) (f : Qch → Qch) (i : Nat) : (s.modQch f).pkt i = s.pkt i := rfl
@[simp] theorem State.modQch_tong (s : State) (f : Qch → Qch) (i : Nat) : (s.modQch f).tong i = s.tong i := rfl
@[simp] theorem State.modQch_anvil (s : State) (f : Qch → Qch) (i : Nat) : (s.modQch f).anvil i = s.anvil i := rfl
@[simp] theorem State.modQch_bank (s : State) (f : Qch → Qch) (i : Nat) : (s.modQch f).bank i = s.bank i := rfl
@[simp] theorem State.modQch_link (s : State) (f : Qch → Qch) (i : Nat) : (s.modQch f).link i = s.link i := rfl
@[simp] theorem State.modQch_gleed (s : State) (f : Qch → Qch) (i : Nat) : (s.modQch f).gleed i = s.gleed i := rfl
@[simp] theorem State.modQch_fn (s : State) (f : Qch → Qch) (i : Nat) : (s.modQch f).fn i = s.fn i := rfl

/-! modClk: writes clk. -/

@[simp] theorem State.modClk_pending (s : State) (f : Clk → Clk) : (s.modClk f).pending = s.pending := rfl
@[simp] theorem State.modClk_osc (s : State) (f : Clk → Clk) : (s.modClk f).osc = s.osc := rfl
@[simp] theorem State.modClk_freeCtr (s : State) (f : Clk → Clk) : (s.modClk f).freeCtr = s.freeCtr := rfl
@[simp] theorem State.modClk_out (s : State) (f : Clk → Clk) : (s.modClk f).out = s.out := rfl
@[simp] theorem State.modClk_regs (s : State) (f : Clk → Clk) : (s.modClk f).regs = s.regs := rfl
@[simp] theorem State.modClk_latches (s : State) (f : Clk → Clk) : (s.modClk f).latches = s.latches := rfl
@[simp] theorem State.modClk_hrt (s : State) (f : Clk → Clk) : (s.modClk f).hrt = s.hrt := rfl
@[simp] theorem State.modClk_parts (s : State) (f : Clk → Clk) : (s.modClk f).parts = s.parts := rfl
@[simp] theorem State.modClk_pkts (s : State) (f : Clk → Clk) : (s.modClk f).pkts = s.pkts := rfl
@[simp] theorem State.modClk_nextPkt (s : State) (f : Clk → Clk) : (s.modClk f).nextPkt = s.nextPkt := rfl
@[simp] theorem State.modClk_nextOrder (s : State) (f : Clk → Clk) : (s.modClk f).nextOrder = s.nextOrder := rfl
@[simp] theorem State.modClk_grants (s : State) (f : Clk → Clk) : (s.modClk f).grants = s.grants := rfl
@[simp] theorem State.modClk_fetchRR (s : State) (f : Clk → Clk) : (s.modClk f).fetchRR = s.fetchRR := rfl
@[simp] theorem State.modClk_tongs (s : State) (f : Clk → Clk) : (s.modClk f).tongs = s.tongs := rfl
@[simp] theorem State.modClk_egress (s : State) (f : Clk → Clk) : (s.modClk f).egress = s.egress := rfl
@[simp] theorem State.modClk_anvils (s : State) (f : Clk → Clk) : (s.modClk f).anvils = s.anvils := rfl
@[simp] theorem State.modClk_relays (s : State) (f : Clk → Clk) : (s.modClk f).relays = s.relays := rfl
@[simp] theorem State.modClk_banks (s : State) (f : Clk → Clk) : (s.modClk f).banks = s.banks := rfl
@[simp] theorem State.modClk_host (s : State) (f : Clk → Clk) : (s.modClk f).host = s.host := rfl
@[simp] theorem State.modClk_links (s : State) (f : Clk → Clk) : (s.modClk f).links = s.links := rfl
@[simp] theorem State.modClk_delivered (s : State) (f : Clk → Clk) : (s.modClk f).delivered = s.delivered := rfl
@[simp] theorem State.modClk_evr (s : State) (f : Clk → Clk) : (s.modClk f).evr = s.evr := rfl
@[simp] theorem State.modClk_fatal (s : State) (f : Clk → Clk) : (s.modClk f).fatal = s.fatal := rfl
@[simp] theorem State.modClk_fatalDue (s : State) (f : Clk → Clk) : (s.modClk f).fatalDue = s.fatalDue := rfl
@[simp] theorem State.modClk_faultTimes (s : State) (f : Clk → Clk) : (s.modClk f).faultTimes = s.faultTimes := rfl
@[simp] theorem State.modClk_clk (s : State) (f : Clk → Clk) : (s.modClk f).clk = f s.clk := rfl
@[simp] theorem State.modClk_measures (s : State) (f : Clk → Clk) : (s.modClk f).measures = s.measures := rfl
@[simp] theorem State.modClk_gleeds (s : State) (f : Clk → Clk) : (s.modClk f).gleeds = s.gleeds := rfl
@[simp] theorem State.modClk_origin (s : State) (f : Clk → Clk) : (s.modClk f).origin = s.origin := rfl
@[simp] theorem State.modClk_bel (s : State) (f : Clk → Clk) : (s.modClk f).bel = s.bel := rfl
@[simp] theorem State.modClk_qch (s : State) (f : Clk → Clk) : (s.modClk f).qch = s.qch := rfl
@[simp] theorem State.modClk_boot (s : State) (f : Clk → Clk) : (s.modClk f).boot = s.boot := rfl
@[simp] theorem State.modClk_nvs (s : State) (f : Clk → Clk) : (s.modClk f).nvs = s.nvs := rfl
@[simp] theorem State.modClk_side (s : State) (f : Clk → Clk) : (s.modClk f).side = s.side := rfl
@[simp] theorem State.modClk_aux (s : State) (f : Clk → Clk) : (s.modClk f).aux = s.aux := rfl
@[simp] theorem State.modClk_auxAt (s : State) (f : Clk → Clk) : (s.modClk f).auxAt = s.auxAt := rfl
@[simp] theorem State.modClk_straps (s : State) (f : Clk → Clk) : (s.modClk f).straps = s.straps := rfl
@[simp] theorem State.modClk_reg (s : State) (f : Clk → Clk) (i : Nat) : (s.modClk f).reg i = s.reg i := rfl
@[simp] theorem State.modClk_part (s : State) (f : Clk → Clk) (i : Nat) : (s.modClk f).part i = s.part i := rfl
@[simp] theorem State.modClk_pkt (s : State) (f : Clk → Clk) (i : Nat) : (s.modClk f).pkt i = s.pkt i := rfl
@[simp] theorem State.modClk_tong (s : State) (f : Clk → Clk) (i : Nat) : (s.modClk f).tong i = s.tong i := rfl
@[simp] theorem State.modClk_anvil (s : State) (f : Clk → Clk) (i : Nat) : (s.modClk f).anvil i = s.anvil i := rfl
@[simp] theorem State.modClk_bank (s : State) (f : Clk → Clk) (i : Nat) : (s.modClk f).bank i = s.bank i := rfl
@[simp] theorem State.modClk_link (s : State) (f : Clk → Clk) (i : Nat) : (s.modClk f).link i = s.link i := rfl
@[simp] theorem State.modClk_gleed (s : State) (f : Clk → Clk) (i : Nat) : (s.modClk f).gleed i = s.gleed i := rfl
@[simp] theorem State.modClk_fn (s : State) (f : Clk → Clk) (i : Nat) : (s.modClk f).fn i = s.fn i := rfl

/-! writePhys: writes hrt. -/

@[simp] theorem State.writePhys_pending (s : State) (a : Nat) (bs : List Byte) : (s.writePhys a bs).pending = s.pending := rfl
@[simp] theorem State.writePhys_osc (s : State) (a : Nat) (bs : List Byte) : (s.writePhys a bs).osc = s.osc := rfl
@[simp] theorem State.writePhys_freeCtr (s : State) (a : Nat) (bs : List Byte) : (s.writePhys a bs).freeCtr = s.freeCtr := rfl
@[simp] theorem State.writePhys_out (s : State) (a : Nat) (bs : List Byte) : (s.writePhys a bs).out = s.out := rfl
@[simp] theorem State.writePhys_regs (s : State) (a : Nat) (bs : List Byte) : (s.writePhys a bs).regs = s.regs := rfl
@[simp] theorem State.writePhys_latches (s : State) (a : Nat) (bs : List Byte) : (s.writePhys a bs).latches = s.latches := rfl
@[simp] theorem State.writePhys_parts (s : State) (a : Nat) (bs : List Byte) : (s.writePhys a bs).parts = s.parts := rfl
@[simp] theorem State.writePhys_pkts (s : State) (a : Nat) (bs : List Byte) : (s.writePhys a bs).pkts = s.pkts := rfl
@[simp] theorem State.writePhys_nextPkt (s : State) (a : Nat) (bs : List Byte) : (s.writePhys a bs).nextPkt = s.nextPkt := rfl
@[simp] theorem State.writePhys_nextOrder (s : State) (a : Nat) (bs : List Byte) : (s.writePhys a bs).nextOrder = s.nextOrder := rfl
@[simp] theorem State.writePhys_grants (s : State) (a : Nat) (bs : List Byte) : (s.writePhys a bs).grants = s.grants := rfl
@[simp] theorem State.writePhys_fetchRR (s : State) (a : Nat) (bs : List Byte) : (s.writePhys a bs).fetchRR = s.fetchRR := rfl
@[simp] theorem State.writePhys_tongs (s : State) (a : Nat) (bs : List Byte) : (s.writePhys a bs).tongs = s.tongs := rfl
@[simp] theorem State.writePhys_egress (s : State) (a : Nat) (bs : List Byte) : (s.writePhys a bs).egress = s.egress := rfl
@[simp] theorem State.writePhys_anvils (s : State) (a : Nat) (bs : List Byte) : (s.writePhys a bs).anvils = s.anvils := rfl
@[simp] theorem State.writePhys_relays (s : State) (a : Nat) (bs : List Byte) : (s.writePhys a bs).relays = s.relays := rfl
@[simp] theorem State.writePhys_banks (s : State) (a : Nat) (bs : List Byte) : (s.writePhys a bs).banks = s.banks := rfl
@[simp] theorem State.writePhys_host (s : State) (a : Nat) (bs : List Byte) : (s.writePhys a bs).host = s.host := rfl
@[simp] theorem State.writePhys_links (s : State) (a : Nat) (bs : List Byte) : (s.writePhys a bs).links = s.links := rfl
@[simp] theorem State.writePhys_delivered (s : State) (a : Nat) (bs : List Byte) : (s.writePhys a bs).delivered = s.delivered := rfl
@[simp] theorem State.writePhys_evr (s : State) (a : Nat) (bs : List Byte) : (s.writePhys a bs).evr = s.evr := rfl
@[simp] theorem State.writePhys_fatal (s : State) (a : Nat) (bs : List Byte) : (s.writePhys a bs).fatal = s.fatal := rfl
@[simp] theorem State.writePhys_fatalDue (s : State) (a : Nat) (bs : List Byte) : (s.writePhys a bs).fatalDue = s.fatalDue := rfl
@[simp] theorem State.writePhys_faultTimes (s : State) (a : Nat) (bs : List Byte) : (s.writePhys a bs).faultTimes = s.faultTimes := rfl
@[simp] theorem State.writePhys_clk (s : State) (a : Nat) (bs : List Byte) : (s.writePhys a bs).clk = s.clk := rfl
@[simp] theorem State.writePhys_measures (s : State) (a : Nat) (bs : List Byte) : (s.writePhys a bs).measures = s.measures := rfl
@[simp] theorem State.writePhys_gleeds (s : State) (a : Nat) (bs : List Byte) : (s.writePhys a bs).gleeds = s.gleeds := rfl
@[simp] theorem State.writePhys_origin (s : State) (a : Nat) (bs : List Byte) : (s.writePhys a bs).origin = s.origin := rfl
@[simp] theorem State.writePhys_bel (s : State) (a : Nat) (bs : List Byte) : (s.writePhys a bs).bel = s.bel := rfl
@[simp] theorem State.writePhys_qch (s : State) (a : Nat) (bs : List Byte) : (s.writePhys a bs).qch = s.qch := rfl
@[simp] theorem State.writePhys_boot (s : State) (a : Nat) (bs : List Byte) : (s.writePhys a bs).boot = s.boot := rfl
@[simp] theorem State.writePhys_nvs (s : State) (a : Nat) (bs : List Byte) : (s.writePhys a bs).nvs = s.nvs := rfl
@[simp] theorem State.writePhys_side (s : State) (a : Nat) (bs : List Byte) : (s.writePhys a bs).side = s.side := rfl
@[simp] theorem State.writePhys_aux (s : State) (a : Nat) (bs : List Byte) : (s.writePhys a bs).aux = s.aux := rfl
@[simp] theorem State.writePhys_auxAt (s : State) (a : Nat) (bs : List Byte) : (s.writePhys a bs).auxAt = s.auxAt := rfl
@[simp] theorem State.writePhys_straps (s : State) (a : Nat) (bs : List Byte) : (s.writePhys a bs).straps = s.straps := rfl
@[simp] theorem State.writePhys_reg (s : State) (a : Nat) (bs : List Byte) (i : Nat) : (s.writePhys a bs).reg i = s.reg i := rfl
@[simp] theorem State.writePhys_part (s : State) (a : Nat) (bs : List Byte) (i : Nat) : (s.writePhys a bs).part i = s.part i := rfl
@[simp] theorem State.writePhys_pkt (s : State) (a : Nat) (bs : List Byte) (i : Nat) : (s.writePhys a bs).pkt i = s.pkt i := rfl
@[simp] theorem State.writePhys_tong (s : State) (a : Nat) (bs : List Byte) (i : Nat) : (s.writePhys a bs).tong i = s.tong i := rfl
@[simp] theorem State.writePhys_anvil (s : State) (a : Nat) (bs : List Byte) (i : Nat) : (s.writePhys a bs).anvil i = s.anvil i := rfl
@[simp] theorem State.writePhys_bank (s : State) (a : Nat) (bs : List Byte) (i : Nat) : (s.writePhys a bs).bank i = s.bank i := rfl
@[simp] theorem State.writePhys_link (s : State) (a : Nat) (bs : List Byte) (i : Nat) : (s.writePhys a bs).link i = s.link i := rfl
@[simp] theorem State.writePhys_gleed (s : State) (a : Nat) (bs : List Byte) (i : Nat) : (s.writePhys a bs).gleed i = s.gleed i := rfl
@[simp] theorem State.writePhys_fn (s : State) (a : Nat) (bs : List Byte) (i : Nat) : (s.writePhys a bs).fn i = s.fn i := rfl

/-! Read after write. -/

@[simp] theorem State.setReg_reg_same (s : State) (a : Nat) (w : Word) : (s.setReg a w).reg a = w := tget_tset_same _ _ _ _
theorem State.setReg_reg_other (s : State) (a : Nat) (w : Word) (j : Nat) (h : j ≠ a) : (s.setReg a w).reg j = s.reg j :=
  tget_tset_other _ _ _ _ _ _ h
@[simp] theorem State.setPart_part_same (s : State) (p : Nat) (x : Part) : (s.setPart p x).part p = x := tget_tset_same _ _ _ _
theorem State.setPart_part_other (s : State) (p : Nat) (x : Part) (j : Nat) (h : j ≠ p) : (s.setPart p x).part j = s.part j :=
  tget_tset_other _ _ _ _ _ _ h
@[simp] theorem State.setTong_tong_same (s : State) (t : Nat) (x : Tong) : (s.setTong t x).tong t = x := tget_tset_same _ _ _ _
theorem State.setTong_tong_other (s : State) (t : Nat) (x : Tong) (j : Nat) (h : j ≠ t) : (s.setTong t x).tong j = s.tong j :=
  tget_tset_other _ _ _ _ _ _ h
@[simp] theorem State.setAnvil_anvil_same (s : State) (a : Nat) (x : Anvil) : (s.setAnvil a x).anvil a = x := tget_tset_same _ _ _ _
theorem State.setAnvil_anvil_other (s : State) (a : Nat) (x : Anvil) (j : Nat) (h : j ≠ a) : (s.setAnvil a x).anvil j = s.anvil j :=
  tget_tset_other _ _ _ _ _ _ h
@[simp] theorem State.setBank_bank_same (s : State) (b : Nat) (x : Bank) : (s.setBank b x).bank b = x := tget_tset_same _ _ _ _
theorem State.setBank_bank_other (s : State) (b : Nat) (x : Bank) (j : Nat) (h : j ≠ b) : (s.setBank b x).bank j = s.bank j :=
  tget_tset_other _ _ _ _ _ _ h
@[simp] theorem State.setLink_link_same (s : State) (d : Nat) (l : Link) : (s.setLink d l).link d = l := tget_tset_same _ _ _ _
theorem State.setLink_link_other (s : State) (d : Nat) (l : Link) (j : Nat) (h : j ≠ d) : (s.setLink d l).link j = s.link j :=
  tget_tset_other _ _ _ _ _ _ h
@[simp] theorem State.setFn_fn_same (s : State) (f : Nat) (c : FnCfg) : (s.setFn f c).fn f = c := tget_tset_same _ _ _ _
theorem State.setFn_fn_other (s : State) (f : Nat) (c : FnCfg) (j : Nat) (h : j ≠ f) : (s.setFn f c).fn j = s.fn j :=
  tget_tset_other _ _ _ _ _ _ h
@[simp] theorem State.setPkt_pkt_same (s : State) (k : Nat) (x : Pkt) : (s.setPkt k x).pkt k = some x := tfind_tput_same _ _ _
theorem State.setPkt_pkt_other (s : State) (k : Nat) (x : Pkt) (j : Nat) (h : j ≠ k) : (s.setPkt k x).pkt j = s.pkt j :=
  tfind_tput_other _ _ _ _ h

end Sys2Proof.Machine
end

