-- ==== Sys2Proof/Laws/Ops.lean ====
section
/-! SUPPORT. Shared operations: each lemma says once which fields its operation can change. -/
namespace Sys2Proof.Machine

theorem State.bump_touches (s : State) (a : Nat) : ∃ r, s.bump a = { s with regs := r } := ⟨_, rfl⟩

theorem State.setRf_touches (s : State) (a hi lo v : Nat) : ∃ r, s.setRf a hi lo v = { s with regs := r } := ⟨_, rfl⟩

theorem State.eventD_touches (s : State) (c x p : Nat) (l : List Nat) :
    ∃ r e, s.eventD c x p l = { s with regs := r, evr := e } := by
  unfold State.eventD
  split
  · exact ⟨_, s.evr, rfl⟩
  · exact ⟨s.regs, _, rfl⟩

theorem State.event_touches (s : State) (c x p : Nat) : ∃ r e, s.event c x p = { s with regs := r, evr := e } :=
  eventD_touches s c x p []

theorem State.semServe_touches (s : State) (p i : Nat) : ∃ q g, s.semServe p i = { s with parts := q, grants := g } := ⟨_, _, rfl⟩

theorem State.semWait_touches (s : State) (p i c : Nat) (w : Waiter) :
    ∃ q g, s.semWait p i c w = { s with parts := q, grants := g } := ⟨_, _, rfl⟩

theorem State.semDrop_touches (s : State) (p i : Nat) (w : Waiter) :
    ∃ q g, s.semDrop p i w = { s with parts := q, grants := g } := ⟨_, _, rfl⟩

theorem State.semWrite_touches (s : State) (p i v : Nat) :
    ∃ q g, s.semWrite p i v = { s with parts := q, grants := g } := ⟨_, _, rfl⟩

theorem State.semSignal_touches (s : State) (p i c : Nat) :
    ∃ q g r e, s.semSignal p i c = { s with parts := q, grants := g, regs := r, evr := e } := by
  unfold State.semSignal
  dsimp only
  split
  · obtain ⟨r, e, h⟩ := event_touches (s.setSem p i { s.sem p i with value := 0xFFFFFFFF, ovf := true }) 0x1105 i p
    rw [h]
    exact ⟨_, _, r, e, rfl⟩
  · exact ⟨_, _, s.regs, s.evr, rfl⟩

theorem State.arrive_touches (s : State) (p j c : Nat) :
    ∃ q g r e, s.arrive p j c = { s with parts := q, grants := g, regs := r, evr := e } := by
  unfold State.arrive
  dsimp only
  generalize (if fld (s.reg (adrSemBarrier p j)) 10 0 == 0 then 0 else _ : Nat) = n
  split
  · exact ⟨_, s.grants, s.regs, s.evr, rfl⟩
  · exact semSignal_touches _ p _ _

theorem State.unitAdvance_touches (s : State) (u : Nat) :
    ∃ q k g, s.unitAdvance u = { s with parts := q, pkts := k, grants := g } := by
  unfold State.unitAdvance
  split
  · exact ⟨s.parts, s.pkts, s.grants, rfl⟩
  · split
    · exact ⟨s.parts, s.pkts, s.grants, rfl⟩
    · exact ⟨_, _, _, rfl⟩

theorem State.startPkt_touches (s : State) (k : Nat) (x : Pkt) :
    ∃ q j g, s.startPkt k x = { s with parts := q, pkts := j, grants := g } := by
  obtain ⟨q, j, g, h⟩ := unitAdvance_touches ((s.setPkt k { x with phase := .started, waitMet := true }).takeGrant (.pkt k)) x.unit
  exact ⟨q, j, g, h⟩

/-- What a packet's start leaves alone, by reader. -/
theorem State.startPkt_reg (s : State) (k : Nat) (x : Pkt) (a : Nat) : (s.startPkt k x).reg a = s.reg a := by
  obtain ⟨q, j, g, h⟩ := startPkt_touches s k x
  rw [h]; rfl

theorem State.startPkt_anvil (s : State) (k : Nat) (x : Pkt) (a : Nat) : (s.startPkt k x).anvil a = s.anvil a := by
  obtain ⟨q, j, g, h⟩ := startPkt_touches s k x
  rw [h]; rfl

theorem State.startPkt_tong (s : State) (k : Nat) (x : Pkt) (a : Nat) : (s.startPkt k x).tong a = s.tong a := by
  obtain ⟨q, j, g, h⟩ := startPkt_touches s k x
  rw [h]; rfl

theorem State.startPkt_bank (s : State) (k : Nat) (x : Pkt) (a : Nat) : (s.startPkt k x).bank a = s.bank a := by
  obtain ⟨q, j, g, h⟩ := startPkt_touches s k x
  rw [h]; rfl

end Sys2Proof.Machine
end

