-- ==== Sys2Proof/Laws/Writes.lean ====
section
/-! SUPPORT. When a register write acts, and that it then has the effect of its register (R516 to R518, R526). -/
namespace Sys2Proof.Machine

/-- A change of owner waits for reads of its granule; no other register does (R139). -/
theorem granuleBusy_of_name {s : State} {a i j : Nat} {d : RegDesc} (h : locate a = some (d, i, j)) (hd : d.name ≠ "HRT_GRANULE_OWNER") :
    s.granuleBusy a = false := by
  simp [State.granuleBusy, h, hd]

/-- A write of a register acts at once while no earlier posted write waits (R303). -/
theorem hostWrites_acts {s : State} {fn a v : Nat} (h : s.hostHeld = false) (hf : s.fnExists fn = true) (hg : s.granuleBusy a = false) :
    s.hostWrites fn a v = s.writeAt fn a v := by
  simp [State.hostWrites, State.hostReq, State.hostWaits, State.hostAct, h, hf, hg]

/-- A write of a partition's own registers reaches them. -/
theorem partWrite_reaches {s : State} {fn p a v : Nat} (h : Reaches s fn p) (hg : s.granuleBusy a = false) :
    s.partWrite fn p a v = s.writeAt fn a v := by
  obtain ⟨h1, h2, h3, h4, h5⟩ := h
  simp only [State.partWrite, h1, hostWrites_acts h5 h2 hg]
  rcases h3 with h3 | h3 <;> simp [h3]

/-- A write that breaks no rule has the effect of its register. -/
theorem applyWrite_acts {s : State} {fn i j a v : Nat} {d : RegDesc} {r : RegWrite}
    (hr : regWrite (fn == 0) (s.rwlLocked d i j) d (s.reg a).toNat (v % 2 ^ 32) = r)
    (hc : fn = 0 → s.carveBad d i j (s.reg a).toNat (regWrite (fn == 0) false d (s.reg a).toNat (v % 2 ^ 32)).new = none)
    (hcv : r.carve = false) (hb : r.bad = false) (hl : r.locked = false) (hv : r.live = true)
    (hw : s.writeOk d i j (s.reg a).toNat r.new = true) (ho : roRecorded d = false) :
    s.applyWrite fn d i j a v = s.effect fn d i j a (s.reg a).toNat r.new (v % 2 ^ 32) := by
  unfold State.applyWrite
  simp only [hr]
  by_cases h : fn = 0
  · simp [h] at hc ⊢; simp [hc, hcv, hb, hl, hv, hw, ho]
  · simp [h, hcv, hb, hl, hv, hw, ho]

end Sys2Proof.Machine
end

