-- ==== Sys2Proof/Tests/Slice0.lean ====
section
/-! SUPPORT. The model's own tests: ill-formed commands that the check refuses, values worked out from the manual, and for
every statement with hypotheses, states and operands that meet them, clause by clause. -/
namespace Sys2Proof.Tests
set_option Elab.async false
set_option maxRecDepth 20000

open Sys2Proof Sys2Proof.Machine

/-- A dispatched packet of partition 0 without a header wait: its opcode and its bytes from 0x10. -/
def wPkt (op : Nat) (body : List Byte) : Pkt :=
  { part := 0, sq := 0, slot := 0, pf := true, phase := .dispatched,
    bytes := leBytes 8 op ++ leBytes 2 0xFFFF ++ leBytes 6 0 ++ body }

/-- State `s` with that packet alone, under handle 0. -/
def wOne (op : Nat) (body : List Byte) (s : State) : State := { s with pkts := [(0, wPkt op body)] }

/-- State `s` with these registers set. -/
def wSet (s : State) (l : List (Nat × Nat)) : State := l.foldl (fun s (a, v) => s.setReg a (BitVec.ofNat 32 v)) s

/-- Partition 0 owns granule 0, and these bytes stand at its address 0. -/
def wMem (s : State) (b : List Byte) : State := (wSet s [(adrHrtGranuleOwner 0, 8)]).writeHearth 0 0 b

/-- A fabric frame of a TYPE and VC without an address. -/
def wFrame (typ vc : Nat) (body : List Byte) : List Byte := hdrBytes ⟨0, typ, 0, 0, 0, vc, 32 + body.length, 0, 0⟩ ++ body

/-- State `s` with that frame delivered to partition 0, or to the chip as partition 8. -/
def wGot (s : State) (p : Nat) (f : List Byte) : State := { s with delivered := [⟨8, (parseHdr f).vc, p, f, 0⟩] }

/-- State `s` with partition 0 as given. -/
def wPart (s : State) (q : Part) : State := { s with parts := [(0, q)] }

/-- A tong descriptor of one byte from host to host. -/
def wDesc : List Byte :=
  leBytes 16 0 ++ leBytes 4 1 ++ leBytes 2 1 ++ [0x11, 0] ++ leBytes 4 1 ++ leBytes 4 1 ++ leBytes 4 0xFFFFFFFF ++ [0, 0]
    ++ leBytes 2 0xFFFF ++ leBytes 4 0 ++ leBytes 4 0xFFFFFFFF

/-- A weight region of one cell in BF16. -/
def wRegion : Region := { id := 0, fmt := 0, paired := false, rowBase := 0, rows := 1, colBase := 0, cols := 1, tile := [0, 0], tile2 := [] }

/-- A billet record. -/
def wRec (home kind fmt len : Nat) : BRec :=
  { id := 7, home := home, kind := kind, format := fmt, tiles := 0, rows := 0, cols := 0, len := len, homeSrc := 0, contrib := 0, gradOf := 0 }

/-- A plan of this partition and another member, with one billet. -/
def wPlan (other : Nat) (b : BRec) : Plan :=
  { members := [0, other], position := 0, hopKind := 0, recvSlots := 3, vc1 := 0, vc3 := 0, recvBase := 0, retainBase := 0,
    retainBytes := 0x800000, holdBase := 0, holdBytes := 0, keepBase := 0, keepBytes := 0, semFull := 0, semEmpty := 1, semUsed := 2,
    semContrib := 3, backupS := 0, backupR := 0, billets := [b] }

/-- The accepted lap of that plan. -/
def wJob (other : Nat) (b : BRec) : LapJob :=
  { pkt := 0, plan := wPlan other b, replay := false, sr := false, opt := 0, start := 0, leader := 0, lr := 0, beta1 := 0, beta2 := 0,
    eps := 0, wd := 0, optStep := 0, rehome := false }

/-- The bytes of such a plan (R379). -/
def wPlanBytes (kind fmt : Nat) : List Byte :=
  withCrc (leBytes 4 2 ++ [0, 3, 0, 0] ++ leBytes 8 0 ++ leBytes 4 0x800000 ++ leBytes 16 0 ++ leBytes 4 0x03020100 ++ leBytes 8 0
    ++ leBytes 4 1 ++ leBytes 8 0) ++ leBytes 4 0 ++ leBytes 4 2 ++ leBytes 56 0 ++ leBytes 8 7
    ++ leBytes 1 kind ++ leBytes 1 fmt ++ leBytes 2 0 ++ leBytes 2 1 ++ leBytes 2 1 ++ leBytes 4 0x100000 ++ leBytes 12 0

/-- The header alone of a weight billet of 1 MiB from a home, with its flags (R228). -/
def wBillet (home flags : Nat) : List Byte :=
  wFrame 1 1 (withCrc (leBytes 4 7 ++ leBytes 2 0 ++ [1, 0] ++ leBytes 8 0 ++ leBytes 4 home ++ leBytes 4 0x100000 ++ leBytes 2 256
    ++ leBytes 2 flags ++ leBytes 32 0))

/-- A verdict or token frame (R232). -/
def wVerdict (id code : Nat) : List Byte :=
  wFrame 2 0 (withCrc (leBytes 4 id ++ leBytes 3 0 ++ leBytes 1 code ++ leBytes 20 0))

/-- Partition 0 with that lap on ring 0. -/
def wLap (l : Lap) : State := wPart {} { laps := [(0, l)] }

/-- A diagonal layer of one lane without tables. -/
def wLayer : LayerRec :=
  { kind := 0, recur := 0, dacBits := 0, wFmt := 0, w := 1, r := 0, kIn := 1, gates := 2, shadowAnvil := 0, inTiles := 0, outTiles := 0,
    u := 0, tables := [0xFF, 0xFF, 0xFF, 0xFF], anvils := 1, bankIn := 0, bankRow := 0, shadowN := 0, divThresh := 0 }

/-- The bytes of a line's setup record with one such layer: this member's position, and the two members (R384). -/
def wLineBytes (pos a b : Nat) : List Byte :=
  withCrc (leBytes 2 2 ++ leBytes 2 pos ++ leBytes 2 0 ++ leBytes 2 1 ++ leBytes 2 1 ++ leBytes 18 0) ++ leBytes 4 a ++ leBytes 4 b
    ++ leBytes 56 0 ++ ([0, 0, 0, 0, 1, 0, 0, 0, 1, 0, 2, 0] : List Byte) ++ leBytes 12 0 ++ leBytes 4 0xFFFFFFFF ++ [1] ++ leBytes 35 0

/-- The operands of a line-setup packet for that record. -/
def wLineOps (entry : Nat) : List Byte :=
  leBytes 2 0 ++ leBytes 2 entry ++ leBytes 4 0 ++ leBytes 4 160 ++ leBytes 4 1 ++ leBytes 4 64 ++ leBytes 4 0

/-- The line that a member holds for it. -/
def wLine (entry : Bool) : Line :=
  { id := 0, entry := entry, members := if entry then [0, 2] else [2, 0], position := if entry then 0 else 1, firstLayer := 0, total := 1,
    layers := [wLayer], actFmt := 0, maxChunk := 1, maxPayload := 64, actBuf := 0, broken := false }

/-- This packet and that record in Hearth, the chip's address valid, one stream slot. -/
def wSetup (op : Nat) (entry : Bool) (q : Part) : State :=
  wMem (wSet (wPart (wOne op (wLineOps (if entry then 1 else 0)) {}) q) [(adrAntAddr, 2 ^ 24), (adrPrtAnvils 0, 1)])
    (if entry then wLineBytes 0 0 2 else wLineBytes 1 2 0)

/-- A line frame (R385, R80). -/
def wLineFrame (op : Nat) : List Byte := wFrame 4 4 (lineBody op 0 0 0 0)

/-- A stream frame. -/
def wStrmFrame (op : Nat) : List Byte := wFrame 4 4 (streamBody op 0 0 0 0 0 0 [])

/-- A job of stream 0 on line 0 for packet 0. -/
def wWork : Work := { line := 0, hdr := leBytes 32 0, xs := [[0]], layer := 0, pos := 0, flags := 0, ready := true }

/-- A record of the event recorder. -/
def wRecord : Rec := ⟨0x0101, 0, 0, 0, 0, 0, []⟩

/-- A 16-byte ordered set with a sender of its own (R184, R203, R249, R281). -/
def wOs (typ b1 b2 b3 id info : Nat) : List Byte :=
  let b := leBytes 1 typ ++ leBytes 1 b1 ++ leBytes 1 b2 ++ leBytes 1 b3 ++ leBytes 8 id ++ leBytes 2 info
  b ++ leBytes 2 (crc16 b)

/-- A flit of a KIND whose payload is one value over and over (R186). -/
def wFlit (kind v : Nat) : List Byte :=
  flitBytes { vc := 0, kind := kind, pos := 0, abort := false, seq := 0, ack := 0, nak := false, cvc := 0, ctot := 0,
              pay := (List.replicate 120 v).flatMap (leBytes 1) }

/-- Port 0 with this link. -/
def wLink (l : Link) : State := { links := [(0, l)] }

/-- A run of flash work with one operation. -/
def wNv (o : NvOp) : Nvs :=
  { running := some true, host := some { kind := 0, pkt := 0, slot := 0, config := false, seq := 0, data := [], ops := [o], checked := false } }

/-- What the calibration of a channel found: the fields that it has. -/
def wCal : ChanCal := ⟨0, 0, 0, [0, 0, 0, 0], 0, [0, 0, 0, 0, 0, 0]⟩

/-- A member with one work at its one layer, whose header begins with these bytes. -/
def wSteps (h : List Byte) : State :=
  wMem (wPart {} { lines := [wLine true], slots := [⟨.busy, 0, 0, [⟨0, [0], none, false, false⟩]⟩], works := [if h.isEmpty then wWork else { wWork with hdr := h }] }) []

/-- What that layer reads. -/
def wEnv : LayerEnv :=
  ⟨[none, none], (wSteps []).readHearth 0 0 wLayer.inBytes, (wSteps []).readHearth 0 0 wLayer.outBytes,
    (wSteps []).rf (adrVecCvtCfg 0) 12 8, 0, false⟩

/-- A lightbank product of a partition that does not exist. -/
def wProduct : Instr := .lbkProductDone 8 0 [] [] none none

/-- Two members of a ring in procession mode. -/
def wPair : State := { parts := [(0, { procession := true }), (1, { procession := true })] }

/-- Byte strings of a legal length, for the checks of other operands. -/
def frame32 : List Byte := List.replicate 32 0
def os16 : List Byte := List.replicate 16 0
def flit128 : List Byte := List.replicate 128 0
def line4128 : List Byte := List.replicate 4128 0

theorem slice_left (a b : List Byte) : slice (a ++ b) 0 a.length = a := by simp [slice]

theorem slice_right (a b : List Byte) : slice (a ++ b) a.length b.length = b := by simp [slice]

/-- Fourteen bytes closed by their CRC are a good ordered set (R184). -/
theorem os_good (b : List Byte) (h : b.length = 14) : osGood (b ++ leBytes 2 (crc16 b)) = true := by
  have hc : crc16 b < 65536 := BitVec.isLt _
  have h1 : slice (b ++ leBytes 2 (crc16 b)) 0 14 = b := h ▸ slice_left b _
  have h2 : slice (b ++ leBytes 2 (crc16 b)) 14 2 = leBytes 2 (crc16 b) := h ▸ slice_right b (leBytes 2 (crc16 b))
  have h3 : leVal (leBytes 2 (crc16 b)) = crc16 b := by simp [leBytes, leVal]; omega
  unfold osGood u16
  rw [h2, h3, h1]
  simp [h, leBytes]

/-- An ordered set of this chip is good, and names this chip, whatever its CHIP_ID is. -/
theorem osBytes_good (t b1 su g i : Nat) : osGood (osBytes t b1 su g i) = true := os_good _ rfl

/-- Its sender is this chip. -/
theorem osBytes_id (t b1 su g i : Nat) : u64 (osBytes t b1 su g i) 4 = ownId := by
  have h : ownId < 2 ^ 64 := BitVec.isLt _
  show leVal (leBytes 8 ownId) = ownId
  simp only [leBytes, leVal, BitVec.toNat_ofNat]
  omega

/-! Ill-formed commands: one for each check of an operand's range, which the check refuses. -/

theorem test_wf_refuses_1 : ([
    .tongDescriptorStart 32, .tongDescriptorDone 32 [], .tongWaitTimeout 32, .fillDone 32, .weightLoadDone 8 [],
    .passDone 8 false [] [], .epilogueDone 8 [], .vecOpDone 8 [], .cqInterruptTimer 8 0, .cqInterruptTimer 0 16, .lapOpen 8 0,
    .lapOpen 0 2, .billetDepart 8 0 0 false, .billetDepart 0 2 0 false, .billetReceived 8 frame32, .billetReceived 0 [],
    .gradientAdmit 8 0 0, .gradientAdmit 0 2 0, .verdictReceived 8 frame32, .verdictReceived 0 [],
    .notOpenResendTimer 8 0 false 0, .notOpenResendTimer 0 2 false 0, .custodyDeadlineExpiry 8 0 false 0,
    .custodyDeadlineExpiry 0 2 false 0, .hopRecoveryExpiry 8 0 false 0, .hopRecoveryExpiry 0 2 false 0, .landingSlotGrant 8 0 0,
    .landingSlotGrant 0 8 0, .landingSlotGrant 0 0 2, .memberPrepared 8 0, .memberPrepared 0 2, .prepareTokenReceived 8 frame32,
    .prepareTokenReceived 0 [], .commitTokenReceived 8 frame32, .commitTokenReceived 0 [], .abortTokenReceived 8 frame32,
    .abortTokenReceived 0 [], .commitWindowExpiry 8 0, .commitWindowExpiry 0 2, .relayWindowExpiry 8 0, .relayWindowExpiry 0 2,
    .setupFrameReceived 8 frame32, .setupFrameReceived 0 [], .setupCommitReceived 8 frame32] : List Instr).all (fun c => !c.wf) = true := by decide +kernel

theorem test_wf_refuses_2 : ([
    .setupCommitReceived 0 [], .setupUndoReceived 8 frame32, .setupUndoReceived 0 [], .setupFetchTimeout 8 frame32,
    .setupFetchTimeout 0 [], .admitFrameReceived 8 frame32, .admitFrameReceived 0 [], .undoFrameReceived 8 frame32,
    .undoFrameReceived 0 [], .streamStateFrameReceived 8 frame32, .streamStateFrameReceived 0 [], .stepDispatch 8 0,
    .activationFrameReceived 8 frame32, .activationFrameReceived 0 [], .layerComputeDone 8 0,
    .lineBrokenNoticeReceived 8 frame32, .lineBrokenNoticeReceived 0 [], .batchWindowExpiry 8 0 0,
    wProduct, .shadowVerdict 8 0, .lbkTempSample 2 0, .lbkSweepTimer 2, .rowSettled 2 0,
    .rowSettled 0 68, .rowFitDone 2 0 [], .lbkTablesStale 2, .lbkStagePowerLoss 2 0 0, .lbkStagePowerLoss 0 5 0,
    .lbkLaserChangeDone 2, .semWaitTimeout 8 0 0, .semWaitTimeout 0 256 0, .bulkFrameReceived 8 frame32,
    .bulkFrameReceived 0 [], .managementFrameReceived 8 frame32, .managementFrameReceived 0 [], .sqDoorbell 9 0 0 0,
    .sqDoorbell 0 8 0 0, .sqDoorbell 0 0 16 0, .sqDoorbell 0 0 0 (2 ^ 32), .cqDoorbell 9 0 0 0, .cqDoorbell 0 8 0 0,
    .cqDoorbell 0 0 16 0, .cqDoorbell 0 0 0 (2 ^ 32), .proxyDoorbellWrite 9 0 0 0] : List Instr).all (fun c => !c.wf) = true := by decide +kernel

theorem test_wf_refuses_3 : ([
    .proxyDoorbellWrite 0 8 0 0, .proxyDoorbellWrite 0 0 (2 ^ 32) 0, .proxyDoorbellWrite 0 0 0 (2 ^ 32), .sqStop 9 0 0,
    .sqStop 0 8 0, .sqStop 0 0 16, .sqRestart 9 0 0, .sqRestart 0 8 0, .sqRestart 0 0 16, .ringEnable 9 0 false 0 0,
    .ringEnable 0 8 false 0 0, .ringEnable 0 0 false 16 0, .ringEnable 0 0 false 0 (2 ^ 32), .ringDisable 9 0 false 0 0,
    .ringDisable 0 8 false 0 0, .ringDisable 0 0 false 16 0, .ringDisable 0 0 false 0 (2 ^ 32), .fetchBurstArrive 8 0,
    .fetchBurstArrive 0 16, .packetDispatch 8 0, .packetDispatch 0 16, .prtLock 9 0, .prtLock 0 8, .prtReset 8, .prtRelease 8,
    .partitionResetDone 8, .partitionStateLost 8, .granuleOwnerWrite 128 0, .granuleOwnerWrite 0 (2 ^ 32),
    .granuleZeroingDone 128, .anvilOwnerWrite 8 0, .slotQuotaWrite 9 0 0, .slotQuotaWrite 0 8 0, .slotQuotaWrite 0 0 (2 ^ 32),
    .poolLimitWrite (2 ^ 32), .vecSrSeedWrite 9 0 0, .vecSrSeedWrite 0 8 0, .vecSrSeedWrite 0 0 (2 ^ 32),
    .semValueWrite 9 0 0 0, .semValueWrite 0 8 0 0, .semValueWrite 0 0 256 0, .semValueWrite 0 0 0 (2 ^ 32),
    .semSignalWrite 9 0 0 0, .semSignalWrite 0 8 0 0] : List Instr).all (fun c => !c.wf) = true := by decide +kernel

theorem test_wf_refuses_4 : ([
    .semSignalWrite 0 0 256 0, .semSignalWrite 0 0 0 (2 ^ 32), .semBarrierWrite 9 0 0 0, .semBarrierWrite 0 8 0 0,
    .semBarrierWrite 0 0 64 0, .semBarrierWrite 0 0 0 (2 ^ 32), .registerWrite 9 0 4 0, .registerWrite 0 (2 ^ 26) 4 0,
    .registerWrite 0 0 3 0, .lowWordRead 9 0 4, .lowWordRead 0 (2 ^ 26) 4, .lowWordRead 0 0 3, .bar0IllegalAccess 9 0 0 false,
    .bar0IllegalAccess 0 (2 ^ 26) 0 false, .hostBar2Read 9 0 0 [], .hostBar2Write 9 0 [] [], .pciConfigWrite 9 0 0,
    .hostPortReset 4, .functionLevelReset 9, .hostRequestIssue 9, .hostCompletionReceived 0 9 0 false [], .msixUnmask 9 0,
    .proxyRequestReceived 8 frame32, .proxyRequestReceived 0 [], .proxyResponseReceived 8 frame32, .proxyResponseReceived 0 [],
    .proxyDeadlineExpiry 8 0, .proxyTagQuarantineExpiry 8 0, .linkTrainingStart 8, .trainingStepTimeout 8 0,
    .linkInitReceived 8 os16, .linkInitReceived 0 [], .configFlitReceived 8 flit128 false 0, .configFlitReceived 0 [] false 0,
    .dataFlitReceived 8 flit128 false 0, .dataFlitReceived 0 [] false 0, .controlFlitReceived 8 flit128 false 0,
    .controlFlitReceived 0 [] false 0, .ackReportDue 8, .nakRepeatTimer 8, .replayTimerExpiry 8 false, .linkReqReceived 8 os16,
    .linkReqReceived 0 [], .linkAckReceived 8 os16] : List Instr).all (fun c => !c.wf) = true := by decide +kernel

theorem test_wf_refuses_5 : ([
    .linkAckReceived 0 [], .linkReqResendTimer 8, .linkReqTimeout 8, .pauseReceived 8, .quadsReady 8, .resumeReceived 8 os16,
    .resumeReceived 0 [], .pauseLimitExpiry 8, .linkSilenceExpiry 8, .quadFault 8 0, .quadFault 0 256, .failedQuadRetrain 8,
    .quadPrbsPassed 8 0, .quadPrbsPassed 0 8, .lnkCtrlRetrain 8, .lnkCtrlDown 8, .lnkTargetQuadsWrite 8 0, .helloSendTimer 8,
    .helloReceived 8 frame32, .helloReceived 0 [], .neighbourLostTimer 8, .assignReceived 8 frame32, .assignReceived 0 [],
    .frameIngress 8 0, .frameIngress 0 8, .antFenceWrite 8 false, .lineFrameReceived 8 0 line4128 false,
    .lineFrameReceived 0 5 line4128 false, .lineFrameReceived 0 0 [] false, .swapReqReceived 8 os16, .swapReqReceived 0 [],
    .swapToVerified 8 false, .swapAckReceived 8 os16, .swapAckReceived 0 [], .swapDoneReceived 8 os16, .swapDoneReceived 0 [],
    .swapTimeLimit 8, .channelCalVisit 8, .channelCalDone 8 false wCal, .channelCalDone 4 true { wCal with dac := [0, 0, 0, 256] },
    .laserFailed 50 0 0, .laserWorn 50 0 0, .ringLockLost 8 0 false 0,
    .ringLockLost 0 18 false 0, .lightMonitorLow 8 0 0 0] : List Instr).all (fun c => !c.wf) = true := by decide +kernel

theorem test_wf_refuses_6 : ([
    .lightMonitorLow 0 6 0 0, .signalAbsent 8, .aprProbeTimer 8, .signalRestored 8, .timeMeasureStart 8, .timeReqSend 8,
    .timeReqReceived 8 os16, .timeReqReceived 0 [], .timeRspReceived 8 os16, .timeRspReceived 0 [], .timeMeasureEnd 8,
    .railPowerGood 8 0 0, .railRampTimeout 8, .railRetryTimer 8, .railFault 8 0 false, .belCapWrite (2 ^ 32),
    .belAclkWrite (2 ^ 32), .valveCycleStart 8 0 0, .pullTimeEnd 8 none, .profileEnd 8 none, .releaseWaitEnd 8, .forcedOffEnd 8,
    .pullInLimit 8, .onTimeLimit 8, .coilFault 8, .sectionTempSample 8 0 0, .tempSourceFault 8, .valveClear 8, .chipReset 1,
    .smithWatchdogExpiry 4, .debugTapToken 2 [], .jtagInstruction 6, .evrTokenRefill 4096, .evrCursorFirst 9,
    .evrCursorNext 9 0, .chipFatalFault 5 0, .scrubRead 3, .flitSlot 8, .trainingLockAchieved 8, .retrainAdvanceTimeout 8,
    .anvilClearingDone 8, .armatureNoMotion 8] : List Instr).all (fun c => !c.wf) = true := by decide +kernel

/-! Values that the manual works out. -/

/-- The chapter on scope: CRC-32C of the ASCII bytes of the digits 1 to 9. -/
theorem test_crc32c : crc32c [0x31, 0x32, 0x33, 0x34, 0x35, 0x36, 0x37, 0x38, 0x39] = 0xE3069283 := by decide +kernel

/-- R113: the tile of 512 rows and 512 columns in FP4, with its scales. -/
theorem test_fp4_tile : tileBytes 5 512 512 = 139264 := by decide +kernel

/-- R112: one FP4 block, its codes and its scale. -/
theorem test_fp4_block : (vecEncode 5 true (([0x41580000, 0x3F666666, 0xC0266666] ++ List.replicate 29 0).map val32) none).take 17
    = [0x17, 0x0B] ++ List.replicate 14 0 ++ [0x80] := by decide +kernel

/-- R374: the pass over 1,024 vectors of 512 elements runs 1,199 cycles. -/
theorem test_pass_cycles : passLatency 512 + 1023 = 1199 := by decide +kernel

/-- R343: the doorbell with WRAP 1 and INDEX 2 announces five entries of a ring of 64 whose tail is 61. -/
theorem test_sq_wrap : ((State.sqBell (wPart {} { st := .locked, sqs := [(0, { head := 61, tail := 61, st := .running })] }) 0 0 0x10002
    true).sq 0 0).tail = 66 := by decide +kernel

/-- R344: the completion doorbell with WRAP 1 and INDEX 0 returns three entries. -/
theorem test_cq_wrap : ((State.cqDoorbell (wPart {} { st := .locked, cqs := [(0, { head := 61, tail := 64 })] }) 0 0 0x10000).cq 0 0).head
    = 64 := by decide +kernel

/-- R514, R516: CMD_CQ_IRQ of CQ 3 of partition 5, and ANV_STATUS of anvil 6, seen by the PF and through VF 6. -/
theorem test_two_views : adrCmdCqIrq 5 3 = 0x35046C ∧ vfAddr 5 3 0x046C = 0x35046C ∧ adrAnvStatus 6 = 0x460000
    ∧ vfAddr 5 4 0xC000 = 0x460000 := by decide +kernel

/-- R518: a write of CMD_CQ_IRQ with COUNT 0 is out of range in one field; with COUNT 4 it is not. -/
theorem test_count_zero : (State.written {} true (adrCmdCqIrq 5 3) 0x00140045).bad = true
    ∧ (State.written {} true (adrCmdCqIrq 5 3) 0x00140445).bad = false := by decide +kernel

/-- R204, R206: crossing requests of which one drops quad 1 agree on quads 0, 2 and 3. -/
theorem test_new_set : agree 0b1101 0b1111 4 4 = 0b1101 := by decide +kernel

/-- R156, R158: the drive of 0.73 at 6 bits, and the code of the weight -0.37 in a row of scale 0.5. -/
theorem test_lightbank_row : ceilLog2 0x3F3AE148 = 0 ∧ driveOf 0 31 0x3F3AE148 = 23 ∧ weightCode 0xBEBD 0x3F000000 = -94 := by
  decide +kernel

/-- R425, R426: the coil of the worked table, after its command at 180 ms and after its RELEASE_WAIT. -/
def wCoil : State :=
  State.energise (State.release (State.energise (State.setValve
    (State.energise (State.energise (wSet {} [(adrQchValveCfg 0, 20)]) 0 0 80) 0 10 160) 0
      { phase := .hold, endAt := 160 }) 0 120 170) 0 170) 0 180 280

theorem test_coil_pending : wCoil.valve 0 = { phase := .releaseWait, endAt := 190, startAt := 0, pend := some 280 } := by decide +kernel

theorem test_coil_again : ((wCoil.waitOver 0).valve 0).phase = .pullIn ∧ ((wCoil.waitOver 0).valve 0).endAt = 280 := by decide +kernel

/-- The table gives no row any bits (log entry 1). -/
theorem test_no_words : decodeTableWord 8 0 = none ∧ decodeTableWord 0 0 = none := by decide +kernel

/-! The queue. -/

/-- A step takes the command at the front of the queue. -/
theorem test_front : step { ({} : State) with pending := [.auxFall, .auxRise] } = exec .auxFall { ({} : State) with pending := [.auxRise] } :=
  rfl

/-! AdminOpcodesComplete. -/

theorem witness_AdminOpcodesComplete_1 : ∃ k, ∃ s : State, ∃ x, ∃ t, Starts s 0x00 k x t :=
  ⟨0, wOne 0x00 [] {}, wPkt 0x00 [], _, ⟨by decide +kernel, rfl⟩⟩

theorem witness_AdminOpcodesComplete_2 : ∃ k, ∃ s : State, ∃ x, ∃ t, Starts s 0x02 k x t :=
  ⟨0, wOne 0x02 [] {}, wPkt 0x02 [], _, ⟨by decide +kernel, rfl⟩⟩

theorem witness_AdminOpcodesComplete_3 : ∃ k, ∃ s : State, ∃ x, ∃ t, Starts s 0x01 k x t ∧ ((s.part x.part).modePend = none ∨
    (u8 x.bytes 0x10 == 1) = (s.part x.part).procession) ∧ (u8 x.bytes 0x10 == 1) = (t.part x.part).procession :=
  ⟨0, wOne 0x01 [0] {}, wPkt 0x01 [0], _, ⟨by decide +kernel, rfl⟩, by decide +kernel⟩

theorem witness_AdminOpcodesComplete_4 : ∃ k, ∃ s : State, ∃ x, ∃ t, Starts s 0x01 k x t ∧ (s.part x.part).modePend = none ∧ u8
    x.bytes 0x10 = 1 ∧ (t.part x.part).procession = false ∧ (t.part x.part).slots = [] :=
  ⟨0, wOne 0x01 [1] {}, wPkt 0x01 [1], _, ⟨by decide +kernel, rfl⟩, by decide +kernel⟩

theorem witness_AdminOpcodesComplete_5 : ∃ k, ∃ s : State, ∃ x, ∃ t, Starts s 0x01 k x t ∧ (s.part x.part).modePend = none ∧ u8
    x.bytes 0x10 = 0 ∧ (t.part x.part).procession = true :=
  ⟨0, wOne 0x01 [0] { parts := [(0, { procession := true })] }, wPkt 0x01 [0], _, ⟨by decide +kernel, rfl⟩, by decide +kernel⟩

/-! SemaphoreOpcodesComplete. -/

theorem witness_SemaphoreOpcodesComplete_1 : ∃ k, ∃ s : State, ∃ x, ∃ t, ∃ i, Starts s 0x70 k x t ∧ i = u16 x.bytes 0x10 ∧
    (t.sem x.part i).waiters = [] :=
  ⟨0, wOne 0x70 [] {}, wPkt 0x70 [], _, _, ⟨by decide +kernel, rfl⟩, rfl, by decide +kernel⟩

theorem witness_SemaphoreOpcodesComplete_2 : ∃ k, ∃ s : State, ∃ x, ∃ t, ∃ i, ∃ u, Starts s 0x71 k x t ∧ i = u16 x.bytes 0x10 ∧
    u = t.semSignal x.part i (u8 x.bytes 0x12) :=
  ⟨0, wOne 0x71 [] {}, wPkt 0x71 [], _, _, _, ⟨by decide +kernel, rfl⟩, rfl, rfl⟩

theorem witness_SemaphoreOpcodesComplete_3 : ∃ k, ∃ s : State, ∃ x, ∃ t, ∃ j, ∃ w, Starts s 0x72 k x t ∧ j = u16 x.bytes 0x10 ∧
    w = barrierWord (u16 x.bytes 0x12) (u8 x.bytes 0x14) (u8 x.bytes 0x15) ∧ ((t.barrier x.part j).arrivals = 0 ∨ w = s.reg
    (adrSemBarrier x.part j)) :=
  ⟨0, wOne 0x72 [] {}, wPkt 0x72 [], _, _, _, ⟨by decide +kernel, rfl⟩, rfl, rfl, by decide +kernel⟩

theorem witness_SemaphoreOpcodesComplete_4 : ∃ k, ∃ s : State, ∃ x, ∃ t, ∃ j, ∃ u, Starts s 0x73 k x t ∧ j = u16 x.bytes 0x10 ∧
    u = t.arrive x.part j (u16 x.bytes 0x12) :=
  ⟨0, wOne 0x73 [] {}, wPkt 0x73 [], _, _, _, ⟨by decide +kernel, rfl⟩, rfl, rfl⟩

/-! FetchAndDispatchComplete. -/

theorem witness_FetchAndDispatchComplete_1 : ∃ s : State, ∃ p, ∃ i, ∃ t, s.nextPart 8 (s.fetchRR + 1) = some p ∧ s.pickRing p
    288 (s.part p).ringPtr = some (i, t) :=
  ⟨wSet (wPart { host := { fns := [(0, { bme := true })] } }
    { st := .locked, sqs := [(0, { st := .running, tail := 1, deficit := 288 })] }) [(adrCmdSqCfg 0 0, 2 ^ 31 + 1)], 0, 0,
    State.modPart (wSet (wPart { host := { fns := [(0, { bme := true })] } }
    { st := .locked, sqs := [(0, { st := .running, tail := 1, deficit := 288 })] }) [(adrCmdSqCfg 0 0, 2 ^ 31 + 1)]) 0 fun x =>
    { x with ringPtr := 0 }, by decide +kernel⟩

theorem witness_FetchAndDispatchComplete_2 : ∃ s : State, ∃ p, ∃ i, ∃ b, ∃ t, ∃ n, (s.sq p i).burst = some b ∧ b.fail = 0 ∧
    b.got = 64 * b.count ∧ n = s.sqSize p i ∧ t = State.each (s.setSq p i
    { s.sq p i with burst := none, head := ((s.sq p i).head + b.count) % (2 * n) }) (entriesOf b.count b.data).zipIdx (fun u e
    => State.takeEntry State.fetchCheck u p i ((b.start + e.2) % n) e.1) ∧ (t.sq p i).stopReq = false :=
  ⟨wPart {} { sqs := [(0, { st := .running, burst := some ⟨0, 1, List.replicate 64 0, 64, 0⟩ })] }, 0, 0, ⟨0, 1, List.replicate 64
    0, 64, 0⟩, _, _, by decide +kernel, by decide +kernel, by decide +kernel, rfl, rfl, by decide +kernel⟩

theorem witness_FetchAndDispatchComplete_3 : ∃ s : State, ∃ p, ∃ i, ∃ k, ∃ ks, ∃ x, (s.sq p i).fetched = k :: ks ∧ s.pkt k =
    some x ∧ (x.fence = false ∨ s.fenceClear p i k = true) ∧ (x.pfence = false ∨ s.pfenceClear p = true) :=
  ⟨wPart (wOne 0 [] {}) { sqs := [(0, { fetched := [0] })] }, 0, 0, 0, [], wPkt 0 [], by decide +kernel⟩

theorem witness_FetchAndDispatchComplete_4 : ∃ s : State, ∃ k, ∃ x, s.pkt k = some x ∧ s.timeoutOf x ≠ 0 ∧ x.late = false ∧
    x.phase ≠ .started ∧ s.granted (.pkt k) = false ∧ x.waitMade = false :=
  ⟨wOne 0x50000 [] {}, 0, wPkt 0x50000 [], by decide +kernel⟩

theorem witness_FetchAndDispatchComplete_5 : ∃ s : State, ∃ p : Nat, ∃ i : Nat, ∃ j : Nat, ∃ k : Nat, ∃ c : Nat, ∃ x : Pkt,
    (s.sem p i).waiters[j]? = some (.pkt k, c) ∧ s.pkt k = some x ∧ s.timeoutOf x ≠ 0 ∧ x.phase ≠ .started ∧ s.granted (.pkt k)
    = false ∧ x.waitMade = true :=
  ⟨{ wPart {} { sems := [(0, { waiters := [(.pkt 0, 1)] })] } with pkts := [(0, { wPkt 0x50000 [] with waitMade := true })] }, 0,
    0, 0, 0, 1, { wPkt 0x50000 [] with waitMade := true }, by decide +kernel⟩

theorem witness_FetchAndDispatchComplete_6 : ∃ s : State, ∃ p, ∃ j, (s.cq p j).timer = true ∧ s.rf (adrCmdCqIrq p j) 6 6 = 1 :=
  ⟨wSet (wPart {} { cqs := [(0, { timer := true })] }) [(adrCmdCqIrq 0 0, 0x40)], 0, 0, by decide +kernel⟩

theorem witness_FetchAndDispatchComplete_7 : ∃ s : State, ∃ p, ∃ f, ∃ t, s.arrived 8 p f = true ∧ t = s.consume p f ∧ mgmtGood f
    = true ∧ u8 f 32 = 1 ∧ t.rf (adrPciProxyCfg p) 24 24 = 1 :=
  ⟨wGot (wSet {} [(adrPciProxyCfg 0, 0x1000000)]) 0 (wFrame 8 6 (mgmtBody 1 0 0 0)), 0, wFrame 8 6 (mgmtBody 1 0 0 0), _,
    by decide +kernel, rfl, by decide +kernel⟩

/-! TongOpcodesStart. -/

theorem witness_TongOpcodesStart_1 : ∃ k, ∃ s : State, ∃ x, ∃ t, Starts s 0x10 k x t ∧ s.tongFree (u8 x.bytes 0x40) = true :=
  ⟨0, wOne 0x10 [] {}, wPkt 0x10 [], _, ⟨by decide +kernel, rfl⟩, by decide +kernel⟩

theorem witness_TongOpcodesStart_2 : ∃ k, ∃ s : State, ∃ x, ∃ t, Starts s 0x11 k x t ∧ s.tongFree (u8 x.bytes 0x10) = true :=
  ⟨0, wOne 0x11 [] {}, wPkt 0x11 [], _, ⟨by decide +kernel, rfl⟩, by decide +kernel⟩

theorem witness_TongOpcodesStart_3 : ∃ k, ∃ s : State, ∃ x, ∃ t, Starts s 0x12 k x t ∧ s.tongFree (u8 x.bytes 0x10) = true :=
  ⟨0, wOne 0x12 [] {}, wPkt 0x12 [], _, ⟨by decide +kernel, rfl⟩, by decide +kernel⟩

/-! TongEngineCompletes. -/

theorem witness_TongEngineCompletes_1 : ∃ s : State, ∃ n, ∃ k, ∃ x, (s.tong n).pkt = some k ∧ s.pkt k = some x ∧ (s.tong
    n).copying = false ∧ (s.tong n).fill = false ∧ s.issueOn x.part = true ∧ s.descBad x.part (s.tong n).desc = 0 :=
  ⟨{ wOne 0x10 [] {} with tongs := [(0, { pkt := some 0, desc := wDesc })] }, 0, 0, wPkt 0x10 [], by decide +kernel⟩

theorem witness_TongEngineCompletes_2 : ∃ s : State, ∃ n, ∃ k, ∃ x, ∃ ecc, ∃ t, (s.tong n).pkt = some k ∧ (s.tong n).copying =
    true ∧ (s.tong n).reads = 0 ∧ (s.tong n).acking = false ∧ t = s.eccFinds ecc ∧ t.pkt k = some x :=
  ⟨{ wOne 0x10 [] {} with tongs := [(0, { pkt := some 0, desc := wDesc, copying := true })] }, 0, 0, wPkt 0x10 [], [], _,
    by decide +kernel, by decide +kernel, by decide +kernel, by decide +kernel, rfl, by decide +kernel⟩

theorem witness_TongEngineCompletes_3 : ∃ s : State, ∃ n, ∃ k, ∃ x, (s.tong n).pkt = some k ∧ s.pkt k = some x ∧ (s.tong
    n).waitMade = true ∧ s.granted (.tong n) = false ∧ u32 (s.tong n).desc 0x28 ≠ 0 :=
  ⟨{ wOne 0x10 [] {} with tongs := [(0, { pkt := some 0, desc := List.replicate 48 1, waitMade := true })] }, 0, 0, wPkt 0x10 [],
    by decide +kernel⟩

theorem witness_TongEngineCompletes_4 : ∃ s : State, ∃ n, ∃ k, ∃ x, (s.tong n).pkt = some k ∧ s.pkt k = some x ∧ (s.tong n).fill
    = true :=
  ⟨{ wOne 0x10 [] {} with tongs := [(0, { pkt := some 0, fill := true })] }, 0, 0, wPkt 0x10 [], by decide +kernel⟩

/-! BulkCommandsComplete. -/

theorem witness_BulkCommandsComplete_1 : ∃ k, ∃ s : State, ∃ x, ∃ t, ∃ y, Starts s 0x13 k x t ∧ tfind (t.part x.part).bulk (u8
    x.bytes 0x10) = none ∧ y =
    { slots := u8 x.bytes 0x11, full := u8 x.bytes 0x12, empty := u8 x.bytes 0x13, base := u32 x.bytes 0x14, size := u32 x.bytes 0x18 : Bulk }
    :=
  ⟨0, wOne 0x13 [] {}, wPkt 0x13 [], _, _, ⟨by decide +kernel, rfl⟩, by decide +kernel, rfl⟩

theorem witness_BulkCommandsComplete_2 : ∃ k, ∃ s : State, ∃ x, ∃ t, ∃ b, Starts s 0x14 k x t ∧ tfind (t.part x.part).bulk (u8
    x.bytes 0x10) = some b ∧ s.bulkFilling x.part (u8 x.bytes 0x10) 8 = false :=
  ⟨0, wOne 0x14 [] (wPart {} { bulk := [(0, { slots := 1, full := 0, empty := 1, base := 0, size := 64 })] }), wPkt 0x14 [], _,
    { slots := 1, full := 0, empty := 1, base := 0, size := 64 }, ⟨by decide +kernel, rfl⟩, by decide +kernel⟩

theorem witness_BulkCommandsComplete_3 : ∃ s : State, ∃ p, ∃ f, ∃ j, ∃ b, ∃ t, ∃ u, s.arrived 6 p f = true ∧ j = u8 f 0x20 ∧
    tfind (s.part p).bulk j = some b ∧ bulkOk (some b) f = true ∧ bulkDataGood f = true ∧ b.taken = false ∧ b.asked = false ∧ t
    = (s.setBulk p j { b with asked := true }).semWait p b.empty 1 (.bulk p j) ∧ t.granted (.bulk p j) = true ∧ u =
    State.setBulk (State.setBulk (t.takeGrant (.bulk p j)) p j { b with asked := false, taken := true }) p j
    { b with asked := false, taken := false, next := (b.next + 1) % b.slots } :=
  ⟨wGot (wPart {} { bulk := [(0, { slots := 1, full := 0, empty := 1, base := 0, size := 64 })], sems := [(1, { value := 1 })] })
    0 (wFrame 6 5 (withCrc (leBytes 8 0 ++ leBytes 4 4) ++ withCrc [1, 2, 3, 4])), 0, wFrame 6 5 (withCrc (leBytes 8 0 ++
    leBytes 4 4) ++ withCrc [1, 2, 3, 4]), _, { slots := 1, full := 0, empty := 1, base := 0, size := 64 }, _, _,
    by decide +kernel, rfl, by decide +kernel, by decide +kernel, by decide +kernel, by decide +kernel, by decide +kernel, rfl,
    by decide +kernel, rfl⟩

/-! AnvilOpcodesStart. -/

theorem witness_AnvilOpcodesStart_1 : ∃ k, ∃ s : State, ∃ x, ∃ t, ∃ a, ∃ b, Starts s 0x20 k x t ∧ a = u8 x.bytes 0x10 ∧ (s.anvil
    a).load = none ∧ s.stopOn a = false ∧ loadNew x.bytes = false ∧ (s.anvil a).loading.invalid = false ∧ b = (s.anvil
    a).loading.drop (loadRegion x.bytes).id ∧ b.regions.any (loadRegion x.bytes).overlaps = false ∧ (s.anvil a).shadow.any (fun
    (_, _, q) => q.overlaps (loadRegion x.bytes)) = false ∧ b.regions.length + (s.anvil a).shadow.length < 16 :=
  ⟨0, wOne 0x20 [] {}, wPkt 0x20 [], _, _, _, ⟨by decide +kernel, rfl⟩, rfl, by decide +kernel, by decide +kernel,
    by decide +kernel, by decide +kernel, rfl, by decide +kernel⟩

theorem witness_AnvilOpcodesStart_2 : ∃ k, ∃ s : State, ∃ x, ∃ t, ∃ a, Starts s 0x20 k x t ∧ a = u8 x.bytes 0x10 ∧ (s.anvil
    a).load = none ∧ s.stopOn a = false ∧ loadNew x.bytes = true ∧ (s.anvil a).shadow.any (fun (_, _, q) => q.overlaps
    (loadRegion x.bytes)) = false ∧ (s.anvil a).shadow.length < 16 :=
  ⟨0, wOne 0x20 [0, 0, 0, 2] {}, wPkt 0x20 [0, 0, 0, 2], _, _, ⟨by decide +kernel, rfl⟩, rfl, by decide +kernel⟩

theorem witness_AnvilOpcodesStart_3 : ∃ k, ∃ s : State, ∃ x, ∃ t, ∃ a, Starts s 0x21 k x t ∧ a = u8 x.bytes 0x10 ∧ s.issueOn
    x.part = true ∧ s.stopOn a = false ∧ passSwap x.bytes = false ∧ t.passBad x.part x.bytes (s.anvil a).activeBuf = none :=
  ⟨0, wOne 0x21 [0, 0, 0, 0, 1, 0] (wMem
    { anvils := [(0, { buf0 := { regions := [wRegion] }, buf1 := { regions := [wRegion] } })] } []), wPkt 0x21 [0, 0, 0, 0, 1,
    0], _, _, ⟨by decide +kernel, rfl⟩, rfl, by decide +kernel⟩

theorem witness_AnvilOpcodesStart_4 : ∃ k, ∃ s : State, ∃ x, ∃ t, ∃ a, Starts s 0x21 k x t ∧ a = u8 x.bytes 0x10 ∧ s.issueOn
    x.part = true ∧ s.stopOn a = false ∧ passSwap x.bytes = true ∧ (s.anvil a).load = none ∧ (s.anvil a).passes = [] ∧ t.passBad
    x.part x.bytes (s.anvil a).loading = none :=
  ⟨0, wOne 0x21 [0, 0, 0, 0, 1, 0, 0, 0, 2] (wMem
    { anvils := [(0, { buf0 := { regions := [wRegion] }, buf1 := { regions := [wRegion] } })] } []), wPkt 0x21 [0, 0, 0, 0, 1,
    0, 0, 0, 2], _, _, ⟨by decide +kernel, rfl⟩, rfl, by decide +kernel⟩

theorem witness_AnvilOpcodesStart_5 : ∃ k, ∃ s : State, ∃ x, ∃ t, ∃ a, Starts s 0x22 k x t ∧ a = u8 x.bytes 0x10 ∧ (s.anvil
    a).vecFree = true ∧ s.issueOn x.part = true ∧ s.stopOn a = false ∧ (u8 x.bytes 0x12 = 0xFF ∨ tableValid (t.table x.part (u8
    x.bytes 0x12)) = true) :=
  ⟨0, wOne 0x22 [0, 0, 0xFF] {}, wPkt 0x22 [0, 0, 0xFF], _, _, ⟨by decide +kernel, rfl⟩, rfl, by decide +kernel⟩

theorem witness_AnvilOpcodesStart_6 : ∃ k, ∃ s : State, ∃ x, ∃ t, ∃ a, Starts s 0x23 k x t ∧ a = u8 x.bytes 0x13 ∧ (s.anvil
    a).vecFree = true ∧ s.issueOn x.part = true ∧ s.stopOn a = false ∧ (u8 x.bytes 0x10 ≠ 0x19 ∨ tableValid (t.table x.part (u8
    x.bytes 0x28)) = true) :=
  ⟨0, wOne 0x23 [] {}, wPkt 0x23 [], _, _, ⟨by decide +kernel, rfl⟩, rfl, by decide +kernel⟩

/-! AnvilWorkEnds. -/

theorem witness_AnvilWorkEnds_1 : ∃ s : State, ∃ a, ∃ k, ∃ x, ∃ ecc, ∃ t, ∃ d, ∃ v, ∃ r, (s.anvil a).load = some k ∧ t =
    s.eccFinds ecc ∧ t.pkt k = some x ∧ r = loadRegion x.bytes ∧ r.paired = false ∧ t.load x.part (u32 x.bytes 0x1C) (loadLen
    x.bytes) = (some d, t) ∧ v = { t.anvil a with load := none } :=
  ⟨wMem { wOne 0x20 [0, 0, 0, 0, 0, 0, 1, 0, 0, 0, 1, 0] {} with anvils := [(0, { load := some 0 })] } [], 0, 0, wPkt 0x20 [0, 0,
    0, 0, 0, 0, 1, 0, 0, 0, 1, 0], [], _, ((State.load (wMem
    { wOne 0x20 [0, 0, 0, 0, 0, 0, 1, 0, 0, 0, 1, 0] {} with anvils := [(0, { load := some 0 })] } []) 0 0 (loadLen (Pkt.bytes
    (wPkt 0x20 [0, 0, 0, 0, 0, 0, 1, 0, 0, 0, 1, 0])))).1).getD [], _, _, by decide +kernel, rfl, by decide +kernel, rfl,
    by decide +kernel, by decide +kernel, rfl⟩

theorem witness_AnvilWorkEnds_2 : ∃ s : State, ∃ a, ∃ k, ∃ ks, ∃ x, ∃ ecc, ∃ acc, ∃ t, ∃ v, ∃ r, ∃ nv, ∃ d, ∃ w, (s.anvil
    a).passes = k :: ks ∧ t = (s.eccFinds ecc).accFinds a acc ∧ t.pkt k = some x ∧ v =
    { t.anvil a with passes := (t.anvil a).passes.filter (· != k) } ∧ v.activeBuf.region? (u8 x.bytes 0x11) = some r ∧ nv = u16
    x.bytes 0x14 ∧ t.load x.part (u32 x.bytes 0x1C) (nv * vecBytes (u8 x.bytes 0x13) r.rows) = (some d, t) ∧ bitAt (u8 x.bytes
    0x18) 0 = false ∧ passRows v r (u8 x.bytes 0x13) (t.rf (adrVecCvtCfg x.part) 12 8) nv (u16 x.bytes 0x16) false d = (w, 0, 0)
    :=
  ⟨wMem { wOne 0x21 [0, 0, 0, 0, 1, 0] {} with anvils := [(0, { passes := [0], buf0 := { regions := [wRegion] } })] } [], 0, 0,
    [], wPkt 0x21 [0, 0, 0, 0, 1, 0], [], [], _, _, wRegion, _, ((State.load (wMem
    { wOne 0x21 [0, 0, 0, 0, 1, 0] {} with anvils := [(0, { passes := [0], buf0 := { regions := [wRegion] } })] } []) 0 0 (1 *
    vecBytes 0 1)).1).getD [], (passRows { passes := [], buf0 := { regions := [wRegion] } } wRegion 0 (State.rf (wMem
    { wOne 0x21 [0, 0, 0, 0, 1, 0] {} with anvils := [(0, { passes := [0], buf0 := { regions := [wRegion] } })] } [])
    (adrVecCvtCfg 0) 12 8) 1 0 false (((State.load (wMem
    { wOne 0x21 [0, 0, 0, 0, 1, 0] {} with anvils := [(0, { passes := [0], buf0 := { regions := [wRegion] } })] } []) 0 0 (1 *
    vecBytes 0 1)).1).getD [])).1, by decide +kernel, rfl, by decide +kernel, rfl, by decide +kernel, rfl, by decide +kernel⟩

theorem witness_AnvilWorkEnds_3 : ∃ s : State, ∃ a, ∃ k, ∃ x, ∃ acc, ∃ t, ∃ v, ∃ b, ∃ rows, ∃ d, ∃ w, (s.anvil a).vec = some k ∧
    t = s.accFinds a acc ∧ t.pkt k = some x ∧ x.opcode = 0x22 ∧ v = (t.anvil a).leaveVec ∧ b = x.bytes ∧ v.uncIn (u16 b 0x14)
    (u16 b 0x16) (u16 b 0x18) (u16 b 0x1A) = false ∧ u8 b 0x12 = 0xFF ∧ rows = v.rowsF32 (u16 b 0x14) (u16 b 0x16) (u16 b 0x18)
    (u16 b 0x1A) ∧ convertRows (u8 b 0x11) (t.satOf x.part (u8 b 0x13)) (bitAt (u8 b 0x13) 0) a (u16 b 0x18) rows (t.anvil a) =
    (d, w) :=
  ⟨wMem { wOne 0x22 [0, 0, 0xFF, 0, 0, 0, 1, 0, 0, 0, 1, 0] {} with anvils := [(0, { vec := some 0 })] } [], 0, 0, wPkt 0x22 [0,
    0, 0xFF, 0, 0, 0, 1, 0, 0, 0, 1, 0], [], _, _, _, _, (convertRows 0 (State.satOf (wMem
    { wOne 0x22 [0, 0, 0xFF, 0, 0, 0, 1, 0, 0, 0, 1, 0] {} with anvils := [(0, { vec := some 0 })] } []) 0 0) false 0 0
    (Anvil.rowsF32 {} 0 1 0 1) { vec := some 0 }).1, (convertRows 0 (State.satOf (wMem
    { wOne 0x22 [0, 0, 0xFF, 0, 0, 0, 1, 0, 0, 0, 1, 0] {} with anvils := [(0, { vec := some 0 })] } []) 0 0) false 0 0
    (Anvil.rowsF32 {} 0 1 0 1) { vec := some 0 }).2, by decide +kernel, rfl, by decide +kernel, by decide +kernel, rfl, rfl,
    by decide +kernel, by decide +kernel, rfl, by decide +kernel⟩

theorem witness_AnvilWorkEnds_4 : ∃ s : State, ∃ a, ∃ k, ∃ x, ∃ ecc, ∃ t, ∃ b, ∃ n, ∃ da, ∃ db, ∃ dc, ∃ u, (s.anvil a).vec =
    some k ∧ t = s.eccFinds ecc ∧ t.pkt k = some x ∧ x.opcode = 0x23 ∧ b = x.bytes ∧ u8 b 0x10 ≤ 0xC ∧ n = u16 b 0x24 * roundUp
    (4 * u16 b 0x26) 64 ∧ t.vecSrc x.part (vecOpUses (u8 b 0x10)).1 (u32 b 0x14) n = (some da, t) ∧ t.vecSrc x.part (vecOpUses
    (u8 b 0x10)).2.1 (u32 b 0x18) n = (some db, t) ∧ t.vecSrc x.part (vecOpUses (u8 b 0x10)).2.2 (u32 b 0x1C) n = (some dc, t) ∧
    u = t.setAnvil a (t.anvil a).leaveVec :=
  ⟨wMem { wOne 0x23 (List.replicate 20 0 ++ [1, 0, 1, 0]) {} with anvils := [(0, { vec := some 0 })] } [], 0, 0, wPkt 0x23
    (List.replicate 20 0 ++ [1, 0, 1, 0]), [], _, _, _, ((State.vecSrc (wMem
    { wOne 0x23 (List.replicate 20 0 ++ [1, 0, 1, 0]) {} with anvils := [(0, { vec := some 0 })] } []) 0 (vecOpUses 0).1 0
    64).1).getD [], ((State.vecSrc (wMem
    { wOne 0x23 (List.replicate 20 0 ++ [1, 0, 1, 0]) {} with anvils := [(0, { vec := some 0 })] } []) 0 (vecOpUses 0).2.1 0
    64).1).getD [], ((State.vecSrc (wMem
    { wOne 0x23 (List.replicate 20 0 ++ [1, 0, 1, 0]) {} with anvils := [(0, { vec := some 0 })] } []) 0 (vecOpUses 0).2.2 0
    64).1).getD [], _, by decide +kernel, rfl, by decide +kernel, by decide +kernel, rfl, by decide +kernel, rfl,
    by decide +kernel, by decide +kernel, by decide +kernel, rfl⟩

/-! LapPacketsComplete. -/

theorem witness_LapPacketsComplete_1 : ∃ k, ∃ s : State, ∃ x, ∃ t, ∃ d, ∃ j, Starts s 0x30 k x t ∧ t.load x.part (u32 x.bytes
    0x14) (u32 x.bytes 0x18) = (some d, t) ∧ t.lapForbidden x.part (u8 x.bytes 0x10) = false ∧ t.lapBad k x false d = none ∧ j =
    lapJob k x.bytes (parsePlan d) false ∧ (t.lap x.part (u8 x.bytes 0x10)).phase = .closed :=
  ⟨0, wMem (wSet (wOne 0x30 (leBytes 8 0 ++ leBytes 4 160) wPair) [(adrAntAddr, 2 ^ 24)]) (wPlanBytes 1 0), wPkt 0x30 (leBytes 8 0
    ++ leBytes 4 160), _, wPlanBytes 1 0, _, ⟨by decide +kernel, rfl⟩, by decide +kernel, by decide +kernel, by decide +kernel,
    rfl, by decide +kernel⟩

theorem witness_LapPacketsComplete_2 : ∃ k, ∃ s : State, ∃ x, ∃ t, ∃ d, ∃ j, Starts s 0x32 k x t ∧ t.load x.part (u32 x.bytes
    0x14) (u32 x.bytes 0x18) = (some d, t) ∧ t.lapForbidden x.part (u8 x.bytes 0x10) = false ∧ t.lapBad k x true d = none ∧ j =
    lapJob k x.bytes (parsePlan d) true ∧ (t.lap x.part (u8 x.bytes 0x10)).phase = .closed :=
  ⟨0, wMem (wSet (wOne 0x32 (leBytes 8 0 ++ leBytes 4 160) wPair) [(adrAntAddr, 2 ^ 24)]) (wPlanBytes 3 8), wPkt 0x32 (leBytes 8 0
    ++ leBytes 4 160), _, wPlanBytes 3 8, _, ⟨by decide +kernel, rfl⟩, by decide +kernel, by decide +kernel, by decide +kernel,
    rfl, by decide +kernel⟩

theorem witness_LapPacketsComplete_3 : ∃ s : State, ∃ p, ∃ r, ∃ j, (s.lap p r).job = some j ∧ (s.lap p r).phase = .opening ∧
    j.start ≤ s.machineTime ∧ j.replay = false :=
  ⟨wLap { job := some (wJob 2 (wRec 0 1 0 64)), phase := .opening }, 0, 0, wJob 2 (wRec 0 1 0 64), by decide +kernel⟩

theorem witness_LapPacketsComplete_4 : ∃ k, ∃ s : State, ∃ x, ∃ t, ∃ l, ∃ u, Starts s 0x31 k x t ∧ l = t.lap x.part (u8 x.bytes
    0x10) ∧ l.inDoubt = true ∧ u16 x.bytes 0x12 = l.epoch ∧ u = t.setLap x.part (u8 x.bytes 0x10) { l with resolver := some k }
    :=
  ⟨0, wOne 0x31 [] (wLap { inDoubt := true }), wPkt 0x31 [], _, _, _, ⟨by decide +kernel, rfl⟩, rfl, by decide +kernel,
    by decide +kernel, rfl⟩

/-! BilletCommandsComplete. -/

theorem witness_BilletCommandsComplete_1 : ∃ s : State, ∃ p, ∃ r, ∃ n, ∃ u, ∃ j, ∃ b, ∃ i, ∃ t, (s.lap p r).job = some j ∧
    (s.lap p r).rec? n = some b ∧ (s.lap p r).isOpen = true ∧ s.mayDepart p r n u j b = true ∧ j.plan.returnHop b = false ∧
    (s.lap p r).nextRetain j.plan = some i ∧ s.stage p r n b (j.plan.retainAddr i) = some t :=
  ⟨wMem (wLap { job := some (wJob 2 (wRec 0 1 0 64)), phase := .forward, entries := [(0, { st := .home })] }) [], 0, 0, 0, false,
    wJob 2 (wRec 0 1 0 64), wRec 0 1 0 64, 1, (State.stage (wMem (wLap
    { job := some (wJob 2 (wRec 0 1 0 64)), phase := .forward, entries := [(0, { st := .home })] }) []) 0 0 0 (wRec 0 1 0 64)
    0).getD (wMem (wLap { job := some (wJob 2 (wRec 0 1 0 64)), phase := .forward, entries := [(0, { st := .home })] }) []),
    by decide +kernel⟩

theorem witness_BilletCommandsComplete_2 : ∃ s : State, ∃ p, ∃ f, ∃ h, ∃ l, ∃ j, ∃ b, ∃ i, ∃ u, ∃ v, ∃ w, ∃ port, s.arrived 1 p
    f = true ∧ h = parseBillet f ∧ l = s.lap p h.ring ∧ billetGood f = true ∧ s.relay? p h.ring = none ∧ kindOk h.kind h.format
    = true ∧ h.segs * 4096 = h.len ∧ 1048576 ≤ h.len ∧ h.len ≤ 8388608 ∧ h.epoch = l.epoch ∧ l.isOpen = true ∧ l.job = some j ∧
    l.rec? h.order = some b ∧ planAgrees j h = true ∧ bitAt h.flags 0 = false ∧ (l.entry h.order).st = .fresh ∧ (l.entry
    h.order).waiting = false ∧ b.kind = 1 ∧ b.home ≠ j.plan.self ∧ port = s.arrivalPort p f ∧ s.recvSlot p h.ring h.order port 1
    j.plan = (some i, u) ∧ v = (u.consume p f).modLap p h.ring (fun y => y.setEntry h.order
    { y.entry h.order with slot := i, recv := j.plan.recvAddr i, sr := bitAt h.flags 1, hdr := true, from_ := (parseHdr f).src, back := (parseHdr f).back, seq := h.resend })
    ∧ w = (v.storeSegs p h.ring h.order f h).askAgain p f h ∧ h.segs ≤ ((w.lap p h.ring).entry h.order).segs.length :=
  ⟨wGot (wLap
    { job := some (wJob 2 (wRec 2 1 0 0x100000)), phase := .forward, entries := [(0, { slot := 1, segs := List.range 256 })] })
    0 (wBillet 2 0), 0, wBillet 2 0, _, _, wJob 2 (wRec 2 1 0 0x100000), wRec 2 1 0 0x100000, 1, (wGot (wLap
    { job := some (wJob 2 (wRec 2 1 0 0x100000)), phase := .forward, entries := [(0, { slot := 1, segs := List.range 256 })] })
    0 (wBillet 2 0)), _, _, _, by and_intros <;> first | decide +kernel | rfl⟩

theorem witness_BilletCommandsComplete_3 : ∃ s : State, ∃ p, ∃ f, ∃ h, ∃ l, ∃ j, ∃ b, ∃ t, ∃ e, s.arrived 1 p f = true ∧ h =
    parseBillet f ∧ l = s.lap p h.ring ∧ billetGood f = true ∧ s.relay? p h.ring = none ∧ kindOk h.kind h.format = true ∧ h.segs
    * 4096 = h.len ∧ 1048576 ≤ h.len ∧ h.len ≤ 8388608 ∧ h.epoch = l.epoch ∧ l.isOpen = true ∧ l.job = some j ∧ l.rec? h.order =
    some b ∧ planAgrees j h = true ∧ bitAt h.flags 0 = true ∧ b.kind = 1 ∧ b.home = j.plan.self ∧ t = s.discard p f ∧ e = (t.lap
    p h.ring).entry h.order ∧ e.returned = false :=
  ⟨wGot (wLap { job := some (wJob 2 (wRec 0 1 0 0x100000)), phase := .forward, entries := [(0, { st := .passed })] }) 0 (wBillet 0
    1), 0, wBillet 0 1, _, _, wJob 2 (wRec 0 1 0 0x100000), wRec 0 1 0 0x100000, _, _,
    by and_intros <;> first | decide +kernel | rfl⟩

theorem witness_BilletCommandsComplete_4 : ∃ s : State, ∃ p, ∃ r, ∃ n, ∃ j, ∃ b, (s.lap p r).job = some j ∧ (s.lap p r).rec? n =
    some b ∧ ((s.lap p r).entry n).waiting = true ∧ s.granted (.contrib p r n) = true :=
  ⟨{ wLap { job := some (wJob 2 (wRec 2 2 8 64)), phase := .forward, entries := [(0, { waiting := true })] } with grants := [.contrib 0 0 0] },
    0, 0, 0, wJob 2 (wRec 2 2 8 64), wRec 2 2 8 64, by decide +kernel⟩

theorem witness_BilletCommandsComplete_5 : ∃ s : State, ∃ p, ∃ f, ∃ v, ∃ t, ∃ j, ∃ n, s.arrived 2 p f = true ∧ v = parseVerdict
    f ∧ verdictGood f = true ∧ t = s.consume p f ∧ v.id ≠ tokenId ∧ v.code = 1 ∧ (t.lap p v.ring).job = some j ∧
    j.plan.billets.findIdx? (fun b => b.id == v.id) = some n ∧ (t.lap p v.ring).isOpen = true ∧ v.epoch = (t.lap p v.ring).epoch
    ∧ ((t.lap p v.ring).entry n).st = .onWire :=
  ⟨wGot (wLap { job := some (wJob 2 (wRec 0 1 0 64)), phase := .forward, entries := [(0, { st := .onWire })] }) 0 (wVerdict 7 1),
    0, wVerdict 7 1, _, _, wJob 2 (wRec 0 1 0 64), 0, by decide +kernel, rfl, by decide +kernel, rfl, by decide +kernel⟩

theorem witness_BilletCommandsComplete_6 : ∃ s : State, ∃ d, ∃ p, ∃ r, ∃ j, (s.lap p r).job = some j ∧ (d = 6 ∨ d = 7) ∧ (s.lap
    p r).isOpen = true ∧ s.wiredPort j.plan.pred = some d :=
  ⟨wSet (wLap { job := some (wJob 512 (wRec 0 1 0 64)), phase := .forward, entries := [(0, {})] }) [(adrAntRouteAction 0,
    0x2006)], 6, 0, 0, wJob 512 (wRec 0 1 0 64), by decide +kernel⟩

/-! HopTimersComplete. -/

theorem witness_HopTimersComplete_1 : ∃ s : State, ∃ p, ∃ r, ∃ n, ∃ l, ∃ e, l = s.lap p r ∧ e = l.entry n ∧ e.st = .onWire ∧
    e.notOpen = true ∧ s.retainPoisoned p r n = false :=
  ⟨wLap { job := some (wJob 2 (wRec 0 1 0 64)), phase := .forward, entries := [(0, { st := .onWire, notOpen := true })] }, 0, 0,
    0, _, _, rfl, rfl, by decide +kernel⟩

theorem witness_HopTimersComplete_2 : ∃ s : State, ∃ p, ∃ r, ∃ n, ∃ e, e = (s.lap p r).entry n ∧ e.st = .onWire ∧ e.notOpen =
    true ∧ s.retainPoisoned p r n = true :=
  ⟨{ wSet (wLap { job := some (wJob 2 (wRec 0 1 0 64)), phase := .forward, entries := [(0, { st := .onWire, notOpen := true })] }) [(adrHrtGranuleOwner 0, 8)] with hrt := { poison := [0] } },
    0, 0, 0, _, rfl, by decide +kernel⟩

theorem witness_HopTimersComplete_3 : ∃ s : State, ∃ p : Nat, ∃ r : Nat, ∃ n : Nat, ∃ t : Token, ∃ u : Token, (s.lapTokens p
    r)[n]? = some t ∧ t.notOpen = true ∧ u = { t with notOpen := false, deadline := false } :=
  ⟨wLap { tokens := [{ code := 0x11, epoch := 0, dst := 2, ways := [], notOpen := true }] }, 0, 0, 0,
    { code := 0x11, epoch := 0, dst := 2, ways := [], notOpen := true }, _, by decide +kernel, by decide +kernel, rfl⟩

theorem witness_HopTimersComplete_4 : ∃ s : State, ∃ p, ∃ r, ∃ n, ∃ e, e = (s.lap p r).entry n ∧ e.st = .onWire ∧ e.deadline =
    true ∧ e.stopped = false :=
  ⟨wLap { job := some (wJob 2 (wRec 0 1 0 64)), phase := .forward, entries := [(0, { st := .onWire, deadline := true })] }, 0, 0,
    0, _, rfl, by decide +kernel⟩

theorem witness_HopTimersComplete_5 : ∃ s : State, ∃ p : Nat, ∃ r : Nat, ∃ n : Nat, ∃ t : Token, (s.lapTokens p r)[n]? = some t
    ∧ t.deadline = true :=
  ⟨wLap { tokens := [{ code := 0x11, epoch := 0, dst := 2, ways := [], deadline := true }] }, 0, 0, 0,
    { code := 0x11, epoch := 0, dst := 2, ways := [], deadline := true }, by decide +kernel⟩

theorem witness_HopTimersComplete_6 : ∃ s : State, ∃ p, ∃ r, ∃ n, ∃ l, ∃ e, l = s.lap p r ∧ e = l.entry n ∧ e.st = .onWire ∧
    e.recovery = true :=
  ⟨wLap { job := some (wJob 2 (wRec 0 1 0 64)), phase := .forward, entries := [(0, { st := .onWire, recovery := true })] }, 0, 0,
    0, _, _, rfl, rfl, by decide +kernel⟩

theorem witness_HopTimersComplete_7 : ∃ s : State, ∃ p : Nat, ∃ r : Nat, ∃ n : Nat, ∃ t : Token, ∃ u, (s.lapTokens p r)[n]? =
    some t ∧ t.recovery = true ∧ u = (s.setToken p r n { t with recovery := false }).event 0x1306 r p :=
  ⟨wLap { tokens := [{ code := 0x11, epoch := 0, dst := 2, ways := [], recovery := true }] }, 0, 0, 0,
    { code := 0x11, epoch := 0, dst := 2, ways := [], recovery := true }, _, by decide +kernel, by decide +kernel, rfl⟩

/-! LapTokensComplete. -/

theorem witness_LapTokensComplete_1 : ∃ s : State, ∃ p, ∃ r, (s.lap p r).phase = .backward ∧ s.preparedNow p r = true :=
  ⟨wLap { job := some (wJob 2 (wRec 2 1 0 64)), phase := .backward }, 0, 0, by decide +kernel⟩

theorem witness_LapTokensComplete_2 : ∃ s : State, ∃ p, ∃ f, ∃ v, ∃ t, ∃ u, ∃ l, ∃ j, s.arrived 2 p f = true ∧ v = parseVerdict
    f ∧ v.id = tokenId ∧ v.code = 0x11 ∧ verdictGood f = true ∧ t = s.consume p f ∧ t.relay? p v.ring = none ∧ (t.lap p
    v.ring).isOpen = true ∧ v.epoch = (t.lap p v.ring).epoch ∧ u = t.tokenAck p f v 1 ∧ l = u.lap p v.ring ∧ l.job = some j ∧
    l.leader = true ∧ l.prepSent = true ∧ l.decision = 0 :=
  ⟨wGot (wLap { job := some (wJob 2 (wRec 0 1 0 64)), phase := .prepared, leader := true, prepSent := true }) 0 (wVerdict
    0xFFFFFFFF 0x11), 0, wVerdict 0xFFFFFFFF 0x11, _, _, _, _, wJob 2 (wRec 0 1 0 64), by decide +kernel, rfl,
    by decide +kernel, by decide +kernel, by decide +kernel, rfl, by decide +kernel, by decide +kernel, by decide +kernel, rfl,
    rfl, by decide +kernel⟩

theorem witness_LapTokensComplete_3 : ∃ s : State, ∃ p, ∃ f, ∃ v, ∃ t, ∃ u, ∃ l, ∃ j, s.arrived 2 p f = true ∧ v = parseVerdict
    f ∧ v.id = tokenId ∧ v.code = 0x12 ∧ verdictGood f = true ∧ t = s.consume p f ∧ t.relay? p v.ring = none ∧ (t.lap p
    v.ring).isOpen = true ∧ v.epoch = (t.lap p v.ring).epoch ∧ u = t.tokenAck p f v 1 ∧ l = u.lap p v.ring ∧ l.job = some j ∧
    l.phase = .prepared ∧ l.deferred = false :=
  ⟨wGot (wLap { job := some (wJob 2 (wRec 0 1 0 64)), phase := .prepared }) 0 (wVerdict 0xFFFFFFFF 0x12), 0, wVerdict 0xFFFFFFFF
    0x12, _, _, _, _, wJob 2 (wRec 0 1 0 64), by decide +kernel, rfl, by decide +kernel, by decide +kernel, by decide +kernel,
    rfl, by decide +kernel, by decide +kernel, by decide +kernel, rfl, rfl, by decide +kernel⟩

theorem witness_LapTokensComplete_4 : ∃ s : State, ∃ p, ∃ f, ∃ v, ∃ t, ∃ u, ∃ j, s.arrived 2 p f = true ∧ v = parseVerdict f ∧
    v.id = tokenId ∧ v.code = 0x13 ∧ verdictGood f = true ∧ t = s.consume p f ∧ t.relay? p v.ring = none ∧ (t.lap p
    v.ring).isOpen = true ∧ v.epoch = (t.lap p v.ring).epoch ∧ u = t.tokenAck p f v 1 ∧ (u.lap p v.ring).job = some j :=
  ⟨wGot (wLap { job := some (wJob 2 (wRec 0 1 0 64)), phase := .forward }) 0 (wVerdict 0xFFFFFFFF 0x13), 0, wVerdict 0xFFFFFFFF
    0x13, _, _, _, wJob 2 (wRec 0 1 0 64), by decide +kernel, rfl, by decide +kernel, by decide +kernel, by decide +kernel, rfl,
    by decide +kernel, by decide +kernel, by decide +kernel, rfl, by decide +kernel⟩

theorem witness_LapTokensComplete_5 : ∃ s : State, ∃ p, ∃ r, ∃ l, l = s.lap p r ∧ l.window = true ∧ l.leader = true :=
  ⟨wLap { window := true, leader := true }, 0, 0, _, rfl, by decide +kernel⟩

theorem witness_LapTokensComplete_6 : ∃ s : State, ∃ p, ∃ r, ∃ l, l = s.lap p r ∧ l.window = true ∧ l.leader = false :=
  ⟨wLap { window := true }, 0, 0, _, rfl, by decide +kernel⟩

/-! LineSetupStarts. -/

theorem witness_LineSetupStarts_1 : ∃ k, ∃ s : State, ∃ x, ∃ t, ∃ l, ∃ u, Starts s 0x40 k x t ∧ l = t.lineOf x.part x.bytes ∧
    l.entry = true ∧ u = t.noteDesc x.part x.bytes false ∧ (u.part x.part).procession = false ∧ u.addrValid = true ∧ u.lineShape
    x.part x.bytes = true ∧ u.hopCredits l = true ∧ u.lineCheck x.part x.bytes false = 0 :=
  ⟨0, wSetup 0x40 true {}, wPkt 0x40 (wLineOps 1), _, _, _, ⟨by decide +kernel, rfl⟩, rfl, by decide +kernel, rfl,
    by decide +kernel⟩

theorem witness_LineSetupStarts_2 : ∃ k, ∃ s : State, ∃ x, ∃ t, ∃ l, Starts s 0x40 k x t ∧ l = t.lineOf x.part x.bytes ∧ l.entry
    = false ∧ (t.part x.part).procession = false ∧ t.addrValid = true :=
  ⟨0, wSetup 0x40 false {}, wPkt 0x40 (wLineOps 0), _, _, ⟨by decide +kernel, rfl⟩, rfl, by decide +kernel⟩

theorem witness_LineSetupStarts_3 : ∃ k, ∃ s : State, ∃ x, ∃ t, ∃ l, ∃ u, Starts s 0x41 k x t ∧ l = t.lineOf x.part x.bytes ∧
    l.entry = true ∧ u = t.noteDesc x.part x.bytes true ∧ (u.part x.part).procession = false ∧ u.addrValid = true ∧ u.lineShape
    x.part x.bytes = true ∧ u.hopCredits l = true ∧ u.lineCheck x.part x.bytes true = 0 :=
  ⟨0, wSetup 0x41 true { lines := [wLine true] }, wPkt 0x41 (wLineOps 1), _, _, _, ⟨by decide +kernel, rfl⟩, rfl,
    by decide +kernel, rfl, by decide +kernel⟩

theorem witness_LineSetupStarts_4 : ∃ k, ∃ s : State, ∃ x, ∃ t, ∃ l, Starts s 0x42 k x t ∧ t.line? x.part (u16 x.bytes 0x10) =
    some l ∧ l.entry = true ∧ (t.part x.part).strms.any (fun y => y.line == l.id) = false :=
  ⟨0, wOne 0x42 [] (wPart {} { lines := [wLine true] }), wPkt 0x42 [], _, wLine true, ⟨by decide +kernel, rfl⟩, by decide +kernel⟩

/-! LineSetupCompletes. -/

theorem witness_LineSetupCompletes_1 : ∃ s : State, ∃ p, ∃ f, ∃ x, ∃ t, u8 f 0x20 = 0x10 ∧ lineFrameGood f = true ∧ s.arrived 4
    p f = true ∧ (s.setup? p (u16 f 0x24)).isSome = true ∧ t = s.consume p f ∧ t.setup? p (u16 f 0x24) = some x ∧ x.line.entry =
    true :=
  ⟨wGot (wSetup 0x40 true { setups := [⟨0, wLine true, false, 0, true, 0⟩] }) 0 (wLineFrame 0x10), 0, wLineFrame 0x10, ⟨0, wLine
    true, false, 0, true, 0⟩, _, by decide +kernel, by decide +kernel, by decide +kernel, by decide +kernel, rfl,
    by decide +kernel⟩

theorem witness_LineSetupCompletes_2 : ∃ s : State, ∃ p, ∃ f, ∃ x, ∃ t, ∃ b, ∃ own, u8 f 0x20 = 0x10 ∧ lineFrameGood f = true ∧
    s.arrived 4 p f = true ∧ (s.setup? p (u16 f 0x24)).isSome = true ∧ t = s.consume p f ∧ t.setup? p (u16 f 0x24) = some x ∧
    x.line.entry = false ∧ b = ((t.pkt x.pkt).map (·.bytes)).getD [] ∧ own = (t.noteDesc p b x.reroute).lineCheck p b x.reroute
    ∧ u8 f 0x21 = 0 ∧ own = 0 ∧ State.lineShape ((t.noteDesc p b x.reroute).modPart p fun q =>
    { q with setups := q.setups.map fun y => if y.pkt == x.pkt then { y with passed := true, result := 0 } else y }) p b = true
    :=
  ⟨wGot (wSetup 0x40 false { setups := [⟨0, wLine false, false, 0, false, 0⟩] }) 0 (wLineFrame 0x10), 0, wLineFrame 0x10, ⟨0,
    wLine false, false, 0, false, 0⟩, _, _, _, by decide +kernel, by decide +kernel, by decide +kernel, by decide +kernel, rfl,
    by decide +kernel, by decide +kernel, rfl, rfl, by decide +kernel, rfl, by decide +kernel⟩

theorem witness_LineSetupCompletes_3 : ∃ s : State, ∃ p, ∃ f, ∃ x, ∃ t, u8 f 0x20 = 0x11 ∧ lineFrameGood f = true ∧ s.arrived 4
    p f = true ∧ t = s.consume p f ∧ t.setup? p (u16 f 0x24) = some x ∧ x.passed = true ∧ x.line.entry = false :=
  ⟨wGot (wSetup 0x40 false { setups := [⟨0, wLine false, false, 0, true, 0⟩] }) 0 (wLineFrame 0x11), 0, wLineFrame 0x11, ⟨0, wLine
    false, false, 0, true, 0⟩, _, by decide +kernel, by decide +kernel, by decide +kernel, rfl, by decide +kernel⟩

theorem witness_LineSetupCompletes_4 : ∃ s : State, ∃ p, ∃ f, ∃ x, ∃ t, u8 f 0x20 = 0x12 ∧ lineFrameGood f = true ∧ s.arrived 4
    p f = true ∧ t = s.consume p f ∧ t.setup? p (u16 f 0x24) = some x ∧ x.line.entry = false :=
  ⟨wGot (wSetup 0x40 false { setups := [⟨0, wLine false, false, 0, true, 0⟩] }) 0 (wLineFrame 0x12), 0, wLineFrame 0x12, ⟨0, wLine
    false, false, 0, true, 0⟩, _, by decide +kernel, by decide +kernel, by decide +kernel, rfl, by decide +kernel⟩

theorem witness_LineSetupCompletes_5 : ∃ s : State, ∃ p, ∃ f, u8 f 0x20 = 0x10 ∧ s.arrived 4 p f = true ∧ s.setup? p (u16 f
    0x24) = none ∧ u8 f 0x21 = 0 :=
  ⟨wGot {} 0 (wLineFrame 0x10), 0, wLineFrame 0x10, by decide +kernel⟩

theorem witness_LineSetupCompletes_6 : ∃ s : State, ∃ k, ∃ x, ∃ y, s.pkt k = some x ∧ (s.part x.part).setups.find? (fun y =>
    y.pkt == k && !y.passed) = some y :=
  ⟨wSetup 0x40 false { setups := [⟨0, wLine false, false, 0, false, 0⟩] }, 0, wPkt 0x40 (wLineOps 0), ⟨0, wLine false, false, 0,
    false, 0⟩, by decide +kernel⟩

/-! StreamPacketsJoin. -/

theorem witness_StreamPacketsJoin_1 : ∀ op, op = 0x43 ∨ op = 0x44 ∨ op = 0x45 ∨ op = 0x46 → ∃ k, ∃ s : State, ∃ x, ∃ t, ∃ l,
    t.line? x.part (u16 x.bytes 0x14) = some l ∧ l.entry = true ∧ s.queueFull x.part = false ∧ (t.part x.part).procession =
    false ∧ Starts s op k x t := by
  have h : ∀ op, op = 0x43 ∨ op = 0x44 ∨ op = 0x45 ∨ op = 0x46 →
      (wOne op [] (wPart {} { lines := [wLine true] })).startable 0 op = some (wPkt op []) := by
    rintro op (rfl | rfl | rfl | rfl) <;> decide +kernel
  intro op ho
  refine ⟨0, wOne op [] (wPart {} { lines := [wLine true] }), wPkt op [], _, wLine true, ?_, rfl, rfl, ?_, h op ho, rfl⟩ <;>
    rcases ho with rfl | rfl | rfl | rfl <;> decide +kernel

theorem witness_StreamPacketsJoin_2 : ∃ k, ∃ s : State, ∃ x, ∃ t, ∃ l, t.line? x.part (u16 x.bytes 0x14) = some l ∧ l.entry =
    true ∧ s.queueFull x.part = false ∧ Starts s 0x46 k x t :=
  ⟨0, wOne 0x46 [] (wPart {} { lines := [wLine true], procession := true }), wPkt 0x46 [], State.startPkt (wOne 0x46 [] (wPart {}
    { lines := [wLine true], procession := true })) 0 (wPkt 0x46 []), wLine true, by decide +kernel, by decide +kernel,
    by decide +kernel, by decide +kernel, rfl⟩

theorem witness_StreamPacketsJoin_3 : ∃ k, ∃ s : State, ∃ x, ∃ t, ∃ l, Starts s 0x47 k x t ∧ t.line? x.part (u16 x.bytes 0x14) =
    some l ∧ l.entry = true ∧ s.queueFull x.part = false ∧ (t.part x.part).procession = false ∧ l.vec ≤ u32 x.bytes 0x28 ∧ u32
    x.bytes 0x28 ≤ l.maxPayload ∧ l.vec ≤ u32 x.bytes 0x2C ∧ 1 ≤ l.maxChunk :=
  ⟨0, wOne 0x47 (leBytes 24 0 ++ leBytes 4 64 ++ leBytes 4 64) (wPart {} { lines := [wLine true] }), wPkt 0x47 (leBytes 24 0 ++
    leBytes 4 64 ++ leBytes 4 64), _, wLine true, ⟨by decide +kernel, rfl⟩, by decide +kernel⟩

theorem witness_StreamPacketsJoin_4 : ∃ k, ∃ s : State, ∃ x, ∃ t, ∃ l, ∃ n, Starts s 0x48 k x t ∧ t.line? x.part (u16 x.bytes
    0x14) = some l ∧ l.entry = true ∧ n = u16 x.bytes 0x30 ∧ s.queueFull x.part = false ∧ (t.part x.part).procession = false ∧ n
    * l.vec ≤ u32 x.bytes 0x28 ∧ u32 x.bytes 0x28 ≤ n * l.maxPayload ∧ n * l.vec ≤ u32 x.bytes 0x2C ∧ n ≤ l.maxChunk :=
  ⟨0, wOne 0x48 (leBytes 24 0 ++ leBytes 4 64 ++ leBytes 4 64 ++ leBytes 2 1) (wPart {} { lines := [wLine true] }), wPkt 0x48
    (leBytes 24 0 ++ leBytes 4 64 ++ leBytes 4 64 ++ leBytes 2 1), _, wLine true, _, ⟨by decide +kernel, rfl⟩,
    by decide +kernel, by decide +kernel, rfl, by decide +kernel⟩

theorem witness_StreamPacketsJoin_5 : ∃ k : Nat, ∃ s : State, ∃ x : Pkt, ∃ t, ∃ j : Job, Starts s 0x49 k x t ∧ t.tableBusy
    x.part (u8 x.bytes 0x10) = false ∧ j = ⟨k, 0x49, u8 x.bytes 0x10, 0x10000, 0, 0, true, [], 0, 0⟩ :=
  ⟨0, wOne 0x49 [] {}, wPkt 0x49 [], _, _, ⟨by decide +kernel, rfl⟩, by decide +kernel, rfl⟩

/-! StreamFramesComplete. -/

theorem witness_StreamFramesComplete_1 : ∃ s : State, ∃ p, ∃ f, ∃ t, ∃ l, ∃ d, ∃ u, u8 f 0x20 = 0x20 ∧ lineFrameGood f = true ∧
    s.arrived 4 p f = true ∧ t = s.consume p f ∧ t.line? p (u16 f 0x24) = some l ∧ l.entry = false ∧ t.memberPart p l 0x20 (u16
    f 0x22) (u32 f 0x30) (strmData f) = (0, d, u) :=
  ⟨wGot (wSet (wPart {} { lines := [wLine false] }) [(adrSeqSlotCfg 0, 1)]) 0 (wStrmFrame 0x20), 0, wStrmFrame 0x20, _, wLine
    false, (State.memberPart (State.consume (wGot (wSet (wPart {} { lines := [wLine false] }) [(adrSeqSlotCfg 0, 1)]) 0
    (wStrmFrame 0x20)) 0 (wStrmFrame 0x20)) 0 (wLine false) 0x20 0 0 []).2.1, (State.memberPart (State.consume (wGot (wSet
    (wPart {} { lines := [wLine false] }) [(adrSeqSlotCfg 0, 1)]) 0 (wStrmFrame 0x20)) 0 (wStrmFrame 0x20)) 0 (wLine false) 0x20
    0 0 []).2.2, by decide +kernel, by decide +kernel, by decide +kernel, rfl, by decide +kernel⟩

theorem witness_StreamFramesComplete_2 : ∃ s : State, ∃ p, ∃ f, ∃ t, ∃ l, ∃ j, u8 f 0x20 = 0x20 ∧ lineFrameGood f = true ∧
    s.arrived 4 p f = true ∧ t = s.consume p f ∧ t.line? p (u16 f 0x24) = some l ∧ l.entry = true ∧ t.jobTag? p (u32 f 0x28) =
    some j :=
  ⟨wGot (wSet (wPart {} { lines := [wLine true], jobs := [⟨0, 0x43, 0, 0, 0, 1, true, [], 0, 0⟩] }) [(adrSeqSlotCfg 0, 1)]) 0
    (wStrmFrame 0x20), 0, wStrmFrame 0x20, _, wLine true, ⟨0, 0x43, 0, 0, 0, 1, true, [], 0, 0⟩, by decide +kernel,
    by decide +kernel, by decide +kernel, rfl, by decide +kernel⟩

theorem witness_StreamFramesComplete_3 : ∃ s : State, ∃ p, ∃ f, ∃ t, ∃ l, u8 f 0x20 = 0x21 ∧ lineFrameGood f = true ∧ s.arrived
    4 p f = true ∧ t = s.consume p f ∧ t.line? p (u16 f 0x24) = some l ∧ l.entry = false :=
  ⟨wGot (wSet (wPart {} { lines := [wLine false] }) [(adrSeqSlotCfg 0, 1)]) 0 (wStrmFrame 0x21), 0, wStrmFrame 0x21, _, wLine
    false, by decide +kernel, by decide +kernel, by decide +kernel, rfl, by decide +kernel⟩

theorem witness_StreamFramesComplete_4 : ∃ s : State, ∃ p, ∃ f, ∃ t, ∃ l, ∃ e, ∃ d, ∃ u, ∃ op, op = u8 f 0x20 ∧ 0x22 ≤ op ∧ op ≤
    0x24 ∧ lineFrameGood f = true ∧ s.arrived 4 p f = true ∧ t = s.consume p f ∧ t.line? p (u16 f 0x24) = some l ∧ l.entry =
    false ∧ u8 f 0x21 = 0 ∧ u16 f 0x22 ≠ 2 ∧ s.slotBusy p (u16 f 0x24) (u32 f 0x30) = false ∧ t.memberPart p l op (u16 f 0x22)
    (u32 f 0x30) (strmData f) = (e, d, u) :=
  ⟨wGot (wSet (wPart {} { lines := [wLine false] }) [(adrSeqSlotCfg 0, 1)]) 0 (wStrmFrame 0x24), 0, wStrmFrame 0x24, _, wLine
    false, 0, (State.memberPart (State.consume (wGot (wSet (wPart {} { lines := [wLine false] }) [(adrSeqSlotCfg 0, 1)]) 0
    (wStrmFrame 0x24)) 0 (wStrmFrame 0x24)) 0 (wLine false) 0x24 0 0 []).2.1, (State.memberPart (State.consume (wGot (wSet
    (wPart {} { lines := [wLine false] }) [(adrSeqSlotCfg 0, 1)]) 0 (wStrmFrame 0x24)) 0 (wStrmFrame 0x24)) 0 (wLine false) 0x24
    0 0 []).2.2, _, rfl, by decide +kernel, by decide +kernel, by decide +kernel, by decide +kernel, rfl, by decide +kernel⟩

theorem witness_StreamFramesComplete_5 : ∃ s : State, ∃ p, ∃ f, ∃ t, ∃ l, s.arrived 5 p f = true ∧ t = s.consume p f ∧ u32 f
    0x24 = crc32c (slice f 0x20 4) ∧ t.line? p (u16 f 0x20) = some l ∧ u8 f 0x22 = 0 ∧ l.entry = true :=
  ⟨wGot (wPart {} { lines := [wLine true] }) 0 (wFrame 5 6 (withCrc (leBytes 4 0))), 0, wFrame 5 6 (withCrc (leBytes 4 0)), _,
    wLine true, by decide +kernel, rfl, by decide +kernel⟩

/-! StepEngineCompletes. -/

theorem witness_StepEngineCompletes_1 : ∃ s : State, ∃ p, ∃ k, ∃ j, ∃ x, ∃ l, ∃ y, ∃ z, ∃ u, s.job? p k = some j ∧ s.pkt k =
    some x ∧ j.inFlight = false ∧ (j.op = 0x47 ∨ j.op = 0x48) ∧ ((s.part p).jobs.takeWhile (fun e => e.pkt != k)).any (fun e =>
    (e.line == j.line && e.stream == j.stream) && (!e.inFlight || e.op < 0x47)) = false ∧ (s.inFlight p j.line j.stream = 0 ∨
    s.inFlight p j.line j.stream + j.count ≤ s.rf (adrSeqStepCfg p) 22 16) ∧ s.line? p j.line = some l ∧ s.strm? p j.line
    j.stream = some y ∧ l.broken = false ∧ y.st = .admitted ∧ y.sq = x.sq ∧ z = { j with inFlight := true, first := y.next } ∧ u
    = (s.modJob p k fun _ => z).putStrm p { y with next := (y.next + j.count) % 2 ^ 32 } :=
  ⟨wPart (wOne 0x47 [] {})
    { lines := [wLine true], strms := [⟨0, 0, .admitted, 0, 0⟩], jobs := [⟨0, 0x47, 0, 0, 0, 1, false, [], 0, 0⟩] }, 0, 0, ⟨0,
    0x47, 0, 0, 0, 1, false, [], 0, 0⟩, wPkt 0x47 [], wLine true, ⟨0, 0, .admitted, 0, 0⟩, _, _,
    by and_intros <;> first | decide +kernel | rfl⟩

theorem witness_StepEngineCompletes_2 : ∃ s : State, ∃ p, ∃ f, ∃ t, ∃ l, ∃ h, ∃ pay, ∃ u, s.arrived 3 p f = true ∧ t = s.consume
    p f ∧ h = slice f 32 32 ∧ pay = slice f 64 (f.length - 68) ∧ u32 h 0x1C = crc32c (slice h 0 0x1C) ∧ u32 f (f.length - 4) =
    crc32c pay ∧ s.line? p (u16 h 8) = some l ∧ s.actFirst p f = true ∧ l.entry = false ∧ (s.actDrained p f = true ∨ s.bufFree p
    l.id 8 = true) ∧ u = t.fillBuf p l pay ∧ u.parked = false ∧ bitAt (u16 h 0x14) 1 = false ∧ actFits l h (u.slot? p l.id (u32
    h 0)).isSome pay.length = true :=
  ⟨wGot (wPart {} { lines := [wLine false], slots := [⟨.bound, 0, 0, []⟩] }) 0 (wFrame 3 2 (withCrc (leBytes 12 0 ++ leBytes 4 1
    ++ leBytes 4 64 ++ leBytes 8 0) ++ withCrc (leBytes 64 0))), 0, wFrame 3 2 (withCrc (leBytes 12 0 ++ leBytes 4 1 ++ leBytes
    4 64 ++ leBytes 8 0) ++ withCrc (leBytes 64 0)), _, wLine false, _, _, _, by and_intros <;> first | decide +kernel | rfl⟩

theorem witness_StepEngineCompletes_3 : ∃ s : State, ∃ p, ∃ i, ∃ w : Work, ∃ l : Line, ∃ r : LayerRec, ∃ e : LayerEnv, ∃ t, ∃
    ws, ∃ tal : Tally, ∃ u, (s.part p).works[i]? = some w ∧ s.line? p w.line = some l ∧ l.layers[w.layer]? = some r ∧ ws =
    s.batch p i w r ∧ ws ≠ [] ∧ s.layerEnv p l r = (.ok e, t) ∧ u8 w.hdr 0xE ≠ 1 ∧ State.runSteps p l r e ws (t.takeWorks p
    (ws.map (·.1))) = (tal, u) :=
  ⟨wSteps [], 0, 0, wWork, wLine true, wLayer, wEnv, wSteps [], _, (State.runSteps 0 (wLine true) wLayer wEnv [(0, wWork)]
    ((wSteps []).takeWorks 0 [0])).1, (State.runSteps 0 (wLine true) wLayer wEnv [(0, wWork)] ((wSteps []).takeWorks 0 [0])).2,
    by decide +kernel, by decide +kernel, by decide +kernel, rfl, by decide +kernel, rfl, by decide +kernel⟩

theorem witness_StepEngineCompletes_4 : ∃ s : State, ∃ p, ∃ i, ∃ w : Work, ∃ l : Line, ∃ r : LayerRec, ∃ e : LayerEnv, ∃ t,
    (s.part p).works[i]? = some w ∧ s.line? p w.line = some l ∧ l.layers[w.layer]? = some r ∧ s.batch p i w r ≠ [] ∧ s.layerEnv
    p l r = (.ok e, t) ∧ u8 w.hdr 0xE = 1 :=
  ⟨wSteps (List.replicate 14 0 ++ [1]), 0, 0, { wWork with hdr := List.replicate 14 0 ++ [1] }, wLine true, wLayer, wEnv, wSteps
    (List.replicate 14 0 ++ [1]), by decide +kernel, by decide +kernel, by decide +kernel, by decide +kernel, rfl,
    by decide +kernel⟩

theorem witness_StepEngineCompletes_5 : ∃ s : State, ∃ k, ∃ x, ∃ j, s.pkt k = some x ∧ s.job? x.part k = some j ∧ j.inFlight =
    true ∧ (j.op = 0x47 ∨ j.op = 0x48) :=
  ⟨wPart (wOne 0x47 [] {}) { jobs := [⟨0, 0x47, 0, 0, 0, 1, true, [], 0, 0⟩] }, 0, wPkt 0x47 [], ⟨0, 0x47, 0, 0, 0, 1, true, [],
    0, 0⟩, by decide +kernel⟩

/-! LightbankProductsComplete. -/

theorem witness_LightbankProductsComplete_1 : ∃ s : State, ∃ p : Nat, ∃ i : Nat, ∃ c0 : List Int, ∃ c1 : List Int, ∃ r :
    Sys2Proof.Machine.Prod, ∃ b, ∃ k, ∃ x : LBlock, (s.part p).prods[i]? = some r ∧ r.analog = true ∧ r.y = none ∧ s.layerBlocks
    p r.line r.layer = [(b, k, x)] :=
  ⟨{ wPart {} { prods := [⟨0, 0, 0, [0], [0], true, false, none⟩] } with banks := [(0, { blocks := [(0, { part := 0, line := 0, layer := 0, inOff := 0, inCnt := 1, rowOff := 0, rowCnt := 1, q := [[0]], sRow := [0] })] })] },
    0, 0, [], [], ⟨0, 0, 0, [0], [0], true, false, none⟩, 0, 0,
    { part := 0, line := 0, layer := 0, inOff := 0, inCnt := 1, rowOff := 0, rowCnt := 1, q := [[0]], sRow := [0] },
    by decide +kernel⟩

theorem witness_LightbankProductsComplete_2 : ∃ s : State, ∃ p : Nat, ∃ i : Nat, ∃ r : Sys2Proof.Machine.Prod, ∃ l, ∃ q, (s.part
    p).prods[i]? = some r ∧ s.line? p r.line = some l ∧ l.layers[r.layer]? = some q ∧ r.analog = false :=
  ⟨wPart {} { lines := [wLine true], prods := [⟨0, 0, 0, [0], [0], false, false, none⟩] }, 0, 0, ⟨0, 0, 0, [0], [0], false, false,
    none⟩, wLine true, wLayer, by decide +kernel⟩

theorem witness_LightbankProductsComplete_3 : ∃ s : State, ∃ p : Nat, ∃ i : Nat, ∃ r : Sys2Proof.Machine.Prod, ∃ l, ∃ q, ∃ b, ∃
    k, ∃ x, ∃ y, ∃ u, (s.part p).prods[i]? = some r ∧ s.line? p r.line = some l ∧ l.layers[r.layer]? = some q ∧ r.analog = true
    ∧ r.y = some y ∧ u = s.bump (adrPasses q.shadowAnvil) ∧ u.layerBlocks p r.line r.layer = [(b, k, x)] ∧ firstDiverging q
    (ceilLog2 (stateMax r.h)) (joinScales [x]) y (digitalTerm q (s.rf (adrVecCvtCfg p) 0 0 == 1) r.h) = none :=
  ⟨{ wPart {} { lines := [wLine true], prods := [⟨0, 0, 0, [0], [0], true, false, some [0]⟩] } with banks := [(0, { blocks := [(0, { part := 0, line := 0, layer := 0, inOff := 0, inCnt := 1, rowOff := 0, rowCnt := 1, q := [[0]], sRow := [0] })] })] },
    0, 0, ⟨0, 0, 0, [0], [0], true, false, some [0]⟩, wLine true, wLayer, 0, 0,
    { part := 0, line := 0, layer := 0, inOff := 0, inCnt := 1, rowOff := 0, rowCnt := 1, q := [[0]], sRow := [0] }, [0], _,
    by decide +kernel, by decide +kernel, by decide +kernel, by decide +kernel, by decide +kernel, rfl, by decide +kernel⟩

/-! LightbankCommandsComplete. -/

theorem witness_LightbankCommandsComplete_1 : ∃ s : State, ∃ b, ∃ t, ∃ u, u = s.setRf (adrLbkStatus b) 31 16 t ∧ 4000 ≤ t ∧ t ≤
    7000 ∧ (u.bank b).hot = false ∧ gap t (u.bank b).codeTemp ≤ u.rf (adrLbkCalCfg b) 17 12 * 5 :=
  ⟨{ banks := [(0, { codeTemp := 7000 })] }, 0, 7000, _, rfl, by decide +kernel⟩

theorem witness_LightbankCommandsComplete_2 : ∃ s : State, ∃ b, ∃ t, ∃ u, u = s.setRf (adrLbkStatus b) 31 16 t ∧ 4000 ≤ t ∧ t ≤
    7000 ∧ (u.bank b).hot = false ∧ u.rf (adrLbkCalCfg b) 17 12 * 5 < gap t (u.bank b).codeTemp ∧ (u.bank b).rot = none :=
  ⟨{}, 0, 7000, _, rfl, by decide +kernel⟩

theorem witness_LightbankCommandsComplete_3 : ∃ s : State, ∃ b, ∃ t, ∃ u, u = s.setRf (adrLbkStatus b) 31 16 t ∧ (t < 4000 ∨
    7000 < t) ∧ (u.bank b).hot = false ∧ gap t (u.bank b).codeTemp ≤ u.rf (adrLbkCalCfg b) 17 12 * 5 :=
  ⟨{ banks := [(0, { codeTemp := 3999 })] }, 0, 3999, _, rfl, by decide +kernel⟩

theorem witness_LightbankCommandsComplete_4 : ∃ s : State, ∃ b, (s.bank b).sweep = none :=
  ⟨{}, 0, by decide +kernel⟩

theorem witness_LightbankCommandsComplete_5 : ∃ k, ∃ s : State, ∃ x, ∃ t, ∃ b, Starts s 0x50 k x t ∧ b = u8 x.bytes 0x10 % 2 ∧
    (s.bank b).stopped = false ∧ (s.bank b).sweep = none :=
  ⟨0, wOne 0x50 [] {}, wPkt 0x50 [], _, _, ⟨by decide +kernel, rfl⟩, rfl, by decide +kernel⟩

theorem witness_LightbankCommandsComplete_6 : ∃ s : State, ∃ b, ∃ r : Nat, ∃ t : Rot, (s.bank b).settling.contains r = false ∧
    (s.bank b).rot = some t ∧ t.spare = r ∧ t.phase = .settling :=
  ⟨{ banks := [(0, { rot := some ⟨0, 64, .settling, false⟩ })] }, 0, 64, ⟨0, 64, .settling, false⟩, by decide +kernel⟩

theorem witness_LightbankCommandsComplete_7 : ∃ s : State, ∃ b, ∃ n, ∃ inp, ∃ r : Rot, ∃ u, (s.bank b).rot = some r ∧ r.phase =
    .fitting ∧ r.retry = false ∧ n ≤ 8 ∧ u = State.setHealth (State.modBank (((s.setRf (adrLbkRowHealth b r.spare) 15 8
    n).stagesHealthy b inp).refitRow b r.spare) b fun x => { x with rot := none }) b r.spare 1 ∧ (u.bank b).stopped = false :=
  ⟨{ banks := [(0, { rot := some ⟨0, 64, .fitting, false⟩ })] }, 0, 8, [], ⟨0, 64, .fitting, false⟩, _, by decide +kernel,
    by decide +kernel, by decide +kernel, by decide +kernel, rfl, by decide +kernel⟩

theorem witness_LightbankCommandsComplete_8 : ∃ s : State, ∃ b, (s.bank b).stopped = true :=
  ⟨{ banks := [(0, { stopped := true })] }, 0, by decide +kernel⟩

theorem witness_LightbankCommandsComplete_10 : ∃ s : State, ∃ b, ∃ n, ∃ u, u = s.bankEvent 0x1405 b [3, n] ∧ n < 68 ∧
    u.rowHealth b n ≠ 3 :=
  ⟨{}, 0, 67, _, rfl, by decide +kernel⟩

theorem witness_LightbankCommandsComplete_11 : ∃ s : State, ∃ b, (s.bank b).laserLost = true ∧ s.rf (adrLbkStatus b) 7 7 = 0 ∧
    s.rf (adrGldLaser (47 + 2 * b)) 2 0 ≠ 5 :=
  ⟨{ banks := [(0, { laserLost := true })] }, 0, by decide +kernel⟩

theorem witness_LightbankCommandsComplete_12 : ∃ k, ∃ s : State, ∃ x, ∃ t, ∃ y, Starts s 0x51 k x t ∧ tfind (s.bank (u8 x.bytes
    0x10 % 2)).blocks (u8 x.bytes 0x11) = some y :=
  ⟨0, wOne 0x51 []
    ({ banks := [(0, { blocks := [(0, { part := 0, line := 0, layer := 0, inOff := 0, inCnt := 1, rowOff := 0, rowCnt := 1, q := [[0]], sRow := [0] })] })] }),
    wPkt 0x51 [], _,
    { part := 0, line := 0, layer := 0, inOff := 0, inCnt := 1, rowOff := 0, rowCnt := 1, q := [[0]], sRow := [0] },
    ⟨by decide +kernel, rfl⟩, by decide +kernel⟩

theorem witness_LightbankCommandsComplete_13 : ∃ k, ∃ s : State, ∃ x, ∃ t, ∃ y, ∃ b, Starts s 0x52 k x t ∧ b = u8 x.bytes 0x10 %
    2 ∧ tfind (s.bank b).blocks (u8 x.bytes 0x11) = some y ∧ u8 x.bytes 0x12 = 1 :=
  ⟨0, wOne 0x52 [0, 0, 1]
    ({ banks := [(0, { blocks := [(0, { part := 0, line := 0, layer := 0, inOff := 0, inCnt := 1, rowOff := 0, rowCnt := 1, q := [[0]], sRow := [0] })] })] }),
    wPkt 0x52 [0, 0, 1], _,
    { part := 0, line := 0, layer := 0, inOff := 0, inCnt := 1, rowOff := 0, rowCnt := 1, q := [[0]], sRow := [0] }, _,
    ⟨by decide +kernel, rfl⟩, rfl, by decide +kernel⟩

/-! ChangeoverCompletes. -/

theorem witness_ChangeoverCompletes_1 : ∃ s : State, ∃ vb, ∃ vr, ∃ vn, ∃ t, inWithin vb = false ∧ t = s.sampleVolts vb vr vn ∧
    t.bel.st = .sourceBus ∧ t.bel.within false = true :=
  ⟨{ bel := { st := .sourceBus } }, 399, 400, 480, _, by decide +kernel, rfl, by decide +kernel⟩

theorem witness_ChangeoverCompletes_2 : ∃ s : State, ∃ vb, ∃ vr, ∃ vn, ∃ t, inWithin vb = false ∧ t = s.sampleVolts vb vr vn ∧
    t.bel.st = .sourceBus ∧ t.bel.within false = false :=
  ⟨{ bel := { st := .sourceBus } }, 601, 0, 480, _, by decide +kernel, rfl, by decide +kernel⟩

theorem witness_ChangeoverCompletes_3 : ∃ s : State, ∃ vb, ∃ vr, ∃ vn, ∃ t, inWithin vr = false ∧ t = s.sampleVolts vb vr vn ∧
    t.bel.st = .sourceReserve ∧ t.bel.within true = true :=
  ⟨{ bel := { st := .sourceReserve } }, 600, 399, 480, _, by decide +kernel, rfl, by decide +kernel⟩

theorem witness_ChangeoverCompletes_4 : ∃ s : State, ∃ vb, ∃ vr, ∃ vn, ∃ t, inWithin vb = true ∧ t = s.sampleVolts vb vr vn ∧
    t.bel.st = .sourceReserve :=
  ⟨{ bel := { st := .sourceReserve } }, 400, 480, 480, _, by decide +kernel, rfl, by decide +kernel⟩

theorem witness_ChangeoverCompletes_5 : ∃ s : State, ∃ b : Bool, ∃ vb, ∃ vr, ∃ vn, ∃ t, inWithin (if b then vb else vr) = true ∧
    t = s.sampleVolts vb vr vn ∧ t.bel.st = .dark ∧ t.aux = true ∧ t.bel.up = none ∧ t.bel.retry = none ∧ t.bel.tries < 4 :=
  ⟨{}, true, 600, 0, 0, _, by decide +kernel, rfl, by decide +kernel⟩

theorem witness_ChangeoverCompletes_6 : ∃ s : State, ∃ b, s.bel.dead = some b :=
  ⟨{ bel := { dead := some true } }, true, by decide +kernel⟩

theorem witness_ChangeoverCompletes_7 : ∃ s : State, ∃ vb : Nat, ∃ vr : Nat, ∃ vn, inWithin vn = true ∧ s.bel.st = .toReserve ∧
    s.bel.resEn = true :=
  ⟨{ bel := { st := .toReserve, resEn := true } }, 0, 0, 400, by decide +kernel⟩

theorem witness_ChangeoverCompletes_8 : ∃ s : State, ∃ vb : Nat, ∃ vr : Nat, ∃ vn, inWithin vn = true ∧ s.bel.st = .toBus ∧
    s.bel.busEn = true :=
  ⟨{ bel := { st := .toBus, busEn := true } }, 0, 0, 600, by decide +kernel⟩

theorem witness_ChangeoverCompletes_9 : ∃ s : State, ∃ vn, s.parked = true ∧ vn ≤ 320 :=
  ⟨{ bel := { st := .park } }, 320, by decide +kernel⟩

/-! RailsComplete. -/

theorem witness_RailsComplete_1 : ∃ s : State, ∃ r, ∃ v, ∃ w : Nat, ∃ b, tget 0 s.bel.rails r = 1 ∧ s.voutGood r v = true ∧
    s.bel.up = some (b, r) ∧ 1 ≤ r ∧ r < 7 :=
  ⟨{ bel := { rails := [(1, 1)], up := some (true, 1) } }, 1, State.setpoint
    ({ bel := { rails := [(1, 1)], up := some (true, 1) } }) 1, 0, true, by decide +kernel⟩

theorem witness_RailsComplete_2 : ∃ s : State, ∃ v, ∃ w : Nat, ∃ b : Bool, ∃ t, tget 0 s.bel.rails 7 = 1 ∧ s.voutGood 7 v = true
    ∧ s.bel.up = some (b, 7) ∧ t = (s.setRail 7 2 (some v)).modBel (fun x => { x with up := none, fresh := false }) :=
  ⟨{ bel := { rails := [(7, 1)], up := some (true, 7) } }, State.setpoint ({ bel := { rails := [(7, 1)], up := some (true, 7) } })
    7, 0, true, _, by decide +kernel, by decide +kernel, by decide +kernel, rfl⟩

theorem witness_RailsComplete_3 : ∃ s : State, ∃ r, ∃ b, ∃ n, tget 0 s.bel.rails r = 1 ∧ s.bel.up = some (b, n) :=
  ⟨{ bel := { rails := [(0, 1)], up := some (true, 0) } }, 0, true, 0, by decide +kernel⟩

theorem witness_RailsComplete_4 : ∃ s : State, ∃ r : Nat, ∃ b, s.bel.st = .dark ∧ s.bel.retry = some b ∧ s.bel.within b = true
    :=
  ⟨{ bel := { retry := some true, bus := 480 } }, 0, true, by decide +kernel⟩

theorem witness_RailsComplete_5 : ∃ s : State, ∃ r, s.bel.st ≠ .dark ∧ s.bel.restart.contains r = true :=
  ⟨{ bel := { st := .sourceBus, restart := [3] } }, 3, by decide +kernel⟩

theorem witness_RailsComplete_6 : ∃ s : State, ∃ r, ∃ w : Nat, ∃ c : Bool, r < 8 ∧ s.bel.st ≠ .dark ∧ s.railGood r = true :=
  ⟨{ bel := { st := .sourceBus, rails := [(7, 2)] } }, 7, 0, false, by decide +kernel⟩

/-! PowerControlCompletes. -/

theorem witness_PowerControlCompletes_1 : ∃ s : State, ∃ po : Nat, ∃ es : Nat, ∃ se : Nat, ∃ st : Nat, ∃ he : Nat, ∃ fl : Nat, ∃
    ba : Nat, ∃ sw : Nat, ∃ vb : Nat, ∃ vr : Nat, ∃ vn : Nat, s.bel.st ≠ .dark ∧ s.boot ≠ .off ∧ s.boot ≠ .rom ∧ s.boot ≠
    .recovery :=
  ⟨{ bel := { st := .park }, boot := .ready }, 0, 0, 0, 0, 0, 0, 0, 0, 0, 0, 0, by decide +kernel⟩

theorem witness_PowerControlCompletes_2 : ∃ s : State, s.bel.st ≠ .dark ∧ s.bel.droop = false :=
  ⟨{ bel := { st := .sourceBus } }, by decide +kernel⟩

theorem witness_PowerControlCompletes_4 : ∃ s : State, ∃ n, s.bel.rise = some n :=
  ⟨{ bel := { rise := some 56 } }, 56, by decide +kernel⟩

theorem witness_PowerControlCompletes_5 : ∃ s : State, ∃ n, ∃ t, s.bel.changing = some n ∧ t = (s.setRf adrClkAclk 5 0 n).modBel
    (fun b => { b with changing := none }) :=
  ⟨{ bel := { changing := some 24 } }, 24, _, by decide +kernel, rfl⟩

theorem witness_PowerControlCompletes_6 : ∃ k, ∃ s : State, ∃ x, ∃ t, Starts s 0x80 k x t :=
  ⟨0, wOne 0x80 [] {}, wPkt 0x80 [], _, ⟨by decide +kernel, rfl⟩⟩

theorem witness_PowerControlCompletes_7 : ∃ k, ∃ s : State, ∃ x, ∃ t, Starts s 0x82 k x t :=
  ⟨0, wOne 0x82 [] {}, wPkt 0x82 [], _, ⟨by decide +kernel, rfl⟩⟩

/-! RingRegisterWritesComplete. -/

theorem witness_RingRegisterWritesComplete_1 : ∃ s : State, ∃ fn, ∃ p, ∃ i, ∃ v, Reaches s fn p ∧ i < 16 ∧ v < 2 ^ 32 :=
  ⟨{}, 0, 0, 15, 0xFFFFFFFF, ⟨by decide +kernel, by decide +kernel, by decide +kernel, by decide +kernel⟩, by decide +kernel⟩

theorem witness_RingRegisterWritesComplete_2 : ∃ s : State, ∃ fn, ∃ p, ∃ j, ∃ v, Reaches s fn p ∧ j < 16 ∧ v < 2 ^ 32 :=
  ⟨{}, 0, 0, 15, 0xFFFFFFFF, ⟨by decide +kernel, by decide +kernel, by decide +kernel, by decide +kernel⟩, by decide +kernel⟩

theorem witness_RingRegisterWritesComplete_3 : ∃ s : State, ∃ fn, ∃ p, ∃ i, Reaches s fn p ∧ i < 16 :=
  ⟨{}, 0, 0, 15, ⟨by decide +kernel, by decide +kernel, by decide +kernel, by decide +kernel⟩, by decide +kernel⟩

theorem witness_RingRegisterWritesComplete_4 : ∃ s : State, ∃ fn, ∃ p, ∃ i, Reaches s fn p ∧ i < 16 :=
  ⟨{}, 0, 0, 15, ⟨by decide +kernel, by decide +kernel, by decide +kernel, by decide +kernel⟩, by decide +kernel⟩

theorem witness_RingRegisterWritesComplete_5 : ∃ s : State, ∃ fn, ∃ p, ∃ lo, ∃ hi, ∃ t, Reaches s fn p ∧ lo < 2 ^ 32 ∧ hi < 2 ^
    32 ∧ t = s.setReg (adrCmdProxyDbLo p) (wd (s.written true (adrCmdProxyDbLo p) lo).new) :=
  ⟨{}, 0, 7, 0xFFFFFFFF, 0, _, ⟨by decide +kernel, by decide +kernel, by decide +kernel, by decide +kernel⟩, by decide +kernel,
    by decide +kernel, rfl⟩

theorem witness_RingRegisterWritesComplete_6 : ∃ s : State, ∃ fn, ∃ p, ∃ i, ∃ v, ∃ u, Reaches s fn p ∧ i < 16 ∧ v < 2 ^ 32 ∧
    s.hasLock p = false ∧ s.rf (adrCmdSqCfg p i) 31 31 = 0 ∧ u = s.written true (adrCmdSqCfg p i) (putBits v 31 31 1) ∧ u.bad =
    false ∧ s.sqCfgOk p i (s.reg (adrCmdSqCfg p i)).toNat u.new = true :=
  ⟨wSet {} [(adrCmdCqCfg 0 0, 2 ^ 31 + 6)], 0, 0, 0, (resetWord (adrCmdSqCfg 0 0)).toNat, _, ⟨by decide +kernel,
    by decide +kernel, by decide +kernel, by decide +kernel⟩, by decide +kernel, by decide +kernel, by decide +kernel,
    by decide +kernel, rfl, by decide +kernel⟩

theorem witness_RingRegisterWritesComplete_7 : ∃ s : State, ∃ fn, ∃ p, ∃ j, ∃ v, ∃ u, Reaches s fn p ∧ j < 16 ∧ v < 2 ^ 32 ∧
    s.hasLock p = false ∧ s.rf (adrCmdCqCfg p j) 31 31 = 0 ∧ u = s.written true (adrCmdCqCfg p j) (putBits v 31 31 1) ∧ u.bad =
    false ∧ s.cqCfgOk p j (s.reg (adrCmdCqCfg p j)).toNat u.new = true :=
  ⟨{}, 0, 0, 0, (resetWord (adrCmdCqCfg 0 0)).toNat, _, ⟨by decide +kernel, by decide +kernel, by decide +kernel,
    by decide +kernel⟩, by decide +kernel, by decide +kernel, by decide +kernel, by decide +kernel, rfl, by decide +kernel⟩

theorem witness_RingRegisterWritesComplete_8 : ∃ s : State, ∃ fn, ∃ p, ∃ i, ∃ v, ∃ u, Reaches s fn p ∧ i < 16 ∧ v < 2 ^ 32 ∧
    s.hasLock p = false ∧ s.rf (adrCmdSqCfg p i) 31 31 = 1 ∧ u = s.written true (adrCmdSqCfg p i) (putBits v 31 31 0) ∧ u.bad =
    false ∧ s.sqCfgOk p i (s.reg (adrCmdSqCfg p i)).toNat u.new = true :=
  ⟨wSet {} [(adrCmdSqCfg 0 0, 2 ^ 31 + (resetWord (adrCmdSqCfg 0 0)).toNat)], 0, 0, 0, (resetWord (adrCmdSqCfg 0 0)).toNat, _,
    ⟨by decide +kernel, by decide +kernel, by decide +kernel, by decide +kernel⟩, by decide +kernel, by decide +kernel,
    by decide +kernel, by decide +kernel, rfl, by decide +kernel⟩

theorem witness_RingRegisterWritesComplete_9 : ∃ s : State, ∃ fn, ∃ p, ∃ j, ∃ v, ∃ u, Reaches s fn p ∧ j < 16 ∧ v < 2 ^ 32 ∧
    s.hasLock p = false ∧ s.rf (adrCmdCqCfg p j) 31 31 = 1 ∧ u = s.written true (adrCmdCqCfg p j) (putBits v 31 31 0) ∧ u.bad =
    false ∧ s.cqCfgOk p j (s.reg (adrCmdCqCfg p j)).toNat u.new = true :=
  ⟨wSet {} [(adrCmdCqCfg 0 0, 2 ^ 31 + (resetWord (adrCmdCqCfg 0 0)).toNat)], 0, 0, 0, (resetWord (adrCmdCqCfg 0 0)).toNat, _,
    ⟨by decide +kernel, by decide +kernel, by decide +kernel, by decide +kernel⟩, by decide +kernel, by decide +kernel,
    by decide +kernel, by decide +kernel, rfl, by decide +kernel⟩

/-! PartitionRegisterWritesComplete. -/

theorem witness_PartitionRegisterWritesComplete_1 : ∃ s : State, ∃ fn, ∃ p, Reaches s fn p ∧ s.hasLock p = false ∧ s.rf
    adrGlbStatus 0 0 = 1 ∧ s.lockFails p = none :=
  ⟨wSet {} [(adrGlbStatus, 1), (adrHrtGranuleOwner 0, 8)], 0, 0, ⟨by decide +kernel, by decide +kernel, by decide +kernel,
    by decide +kernel⟩, by decide +kernel⟩

theorem witness_PartitionRegisterWritesComplete_2 : ∃ s : State, ∃ fn, ∃ p, ∃ n, Reaches s fn p ∧ s.hasLock p = false ∧ s.rf
    adrGlbStatus 0 0 = 1 ∧ s.lockFails p = some n :=
  ⟨wSet {} [(adrGlbStatus, 1)], 0, 0, 1, ⟨by decide +kernel, by decide +kernel, by decide +kernel, by decide +kernel⟩,
    by decide +kernel⟩

theorem witness_PartitionRegisterWritesComplete_3 : ∃ s : State, ∃ p, p < 8 ∧ s.hostHeld = false :=
  ⟨{}, 7, by decide +kernel⟩

theorem witness_PartitionRegisterWritesComplete_4 : ∃ s : State, ∃ p, p < 8 ∧ s.hostHeld = false :=
  ⟨{}, 7, by decide +kernel⟩

theorem witness_PartitionRegisterWritesComplete_5 : ∃ s : State, ∃ g, ∃ v, ∃ o, ∃ t, s.hostHeld = false ∧ s.granuleBusy
    (adrHrtGranuleOwner g) = false ∧ g < 128 ∧ v < 16 ∧ o = (s.reg (adrHrtGranuleOwner g)).toNat ∧ ownerField o ≠ ownerField v ∧
    s.handBad (ownerField o) (ownerField v) = false ∧ t = State.zeroGranule (s.setRf (adrHrtGranuleOwner g) 3 0 v) g :=
  ⟨{}, 127, 15, _, _, by decide +kernel, by decide +kernel, by decide +kernel, by decide +kernel, rfl, by decide +kernel,
    by decide +kernel, rfl⟩

theorem witness_PartitionRegisterWritesComplete_6 : ∃ s : State, ∃ p, ∃ m, ∃ o, p < 8 ∧ s.hostHeld = false ∧ s.inReset p = false
    ∧ m < 256 ∧ o = (s.reg (adrPrtAnvils p)).toNat ∧ o < 256 ∧ s.frozen p = false ∧ (∀ a, a < 8 → bitAt m a = true →
    s.anvilTaken p a = false) :=
  ⟨{}, 0, 255, _, by decide +kernel, by decide +kernel, by decide +kernel, by decide +kernel, rfl, by decide +kernel⟩

theorem witness_PartitionRegisterWritesComplete_7 : ∃ s : State, ∃ fn, ∃ p, ∃ v, ∃ u, Reaches s fn p ∧ v < 2 ^ 32 ∧ s.hasLock p
    = false ∧ s.frozen p = false ∧ u = s.written (fn == 0) (adrSeqSlotCfg p) v ∧ u.carve = false ∧ u.bad = false ∧ s.slotCfgOk p
    (s.reg (adrSeqSlotCfg p)).toNat u.new = true :=
  ⟨{}, 0, 0, 1, _, ⟨by decide +kernel, by decide +kernel, by decide +kernel, by decide +kernel⟩, by decide +kernel,
    by decide +kernel, by decide +kernel, rfl, by decide +kernel⟩

theorem witness_PartitionRegisterWritesComplete_8 : ∃ s : State, ∃ v, s.hostHeld = false ∧ 8 ≤ v ∧ v ≤ 32 ∧ (∀ p, p < 8 →
    s.hasLock p = false) ∧ s.backingBut 8 ≤ v :=
  ⟨{}, 32, by decide +kernel⟩

theorem witness_PartitionRegisterWritesComplete_9 : ∃ s : State, ∃ fn, ∃ p, ∃ v, Reaches s fn p ∧ v < 2 ^ 32 :=
  ⟨{}, 0, 0, 0xFFFFFFFF, ⟨by decide +kernel, by decide +kernel, by decide +kernel, by decide +kernel⟩, by decide +kernel⟩

theorem witness_PartitionRegisterWritesComplete_10 : ∃ s : State, ∃ fn, ∃ p, ∃ i, ∃ v, Reaches s fn p ∧ i < 256 ∧ v < 2 ^ 32 ∧
    (s.sem p i).waiters = [] :=
  ⟨{}, 0, 0, 255, 0xFFFFFFFF, ⟨by decide +kernel, by decide +kernel, by decide +kernel, by decide +kernel⟩, by decide +kernel⟩

theorem witness_PartitionRegisterWritesComplete_11 : ∃ s : State, ∃ fn, ∃ p, ∃ i, ∃ v, Reaches s fn p ∧ i < 256 ∧ 0 < v ∧ v <
    256 :=
  ⟨{}, 0, 0, 255, 255, ⟨by decide +kernel, by decide +kernel, by decide +kernel, by decide +kernel⟩, by decide +kernel⟩

theorem witness_PartitionRegisterWritesComplete_12 : ∃ s : State, ∃ fn, ∃ p, ∃ j, ∃ v, ∃ u, Reaches s fn p ∧ j < 64 ∧ v < 2 ^ 32
    ∧ u = s.written true (adrSemBarrier p j) v ∧ u.bad = false ∧ (s.barrier p j).arrivals = 0 :=
  ⟨{}, 0, 0, 63, (barrierWord 1 0 1).toNat, _, ⟨by decide +kernel, by decide +kernel, by decide +kernel, by decide +kernel⟩,
    by decide +kernel, by decide +kernel, rfl, by decide +kernel⟩

/-! UnitRegisterWritesComplete. -/

theorem witness_UnitRegisterWritesComplete_1 : ∃ s : State, ∃ d, ∃ t, s.hostHeld = false ∧ d < 8 ∧ 1 ≤ s.rf (adrLnkCtrl d) 3 0 ∧
    s.rf (adrLnkCtrl d) 3 0 ≤ 8 ∧ t = s.setReg (adrLnkCtrl d) (s.reg (adrLnkCtrl d)) ∧ t.flitUp d = true :=
  ⟨wSet { links := [(0, { st := .active })] } [(adrLnkCtrl 0, 8)], 0, _, by decide +kernel, by decide +kernel, by decide +kernel,
    by decide +kernel, rfl, by decide +kernel⟩

theorem witness_UnitRegisterWritesComplete_2 : ∃ s : State, ∃ d, ∃ t, s.hostHeld = false ∧ d < 8 ∧ 1 ≤ s.rf (adrLnkCtrl d) 3 0 ∧
    s.rf (adrLnkCtrl d) 3 0 ≤ 8 ∧ t = s.setReg (adrLnkCtrl d) (s.reg (adrLnkCtrl d)) ∧ t.quiet d = false ∧ (t.link d).st ≠
    .fenced :=
  ⟨wSet { links := [(0, { st := .active })] } [(adrLnkCtrl 0, 8)], 0, _, by decide +kernel, by decide +kernel, by decide +kernel,
    by decide +kernel, rfl, by decide +kernel⟩

theorem witness_UnitRegisterWritesComplete_3 : ∃ s : State, ∃ d, ∃ n, ∃ t, s.hostHeld = false ∧ d < 8 ∧ 1 ≤ n ∧ n ≤ 8 ∧ n ≠ s.rf
    (adrLnkCtrl d) 3 0 ∧ t = s.setRf (adrLnkCtrl d) 3 0 n :=
  ⟨wSet { links := [(0, { st := .active })] } [(adrLnkCtrl 0, 8)], 0, 1, _, by decide +kernel, by decide +kernel,
    by decide +kernel, by decide +kernel, by decide +kernel, rfl⟩

theorem witness_UnitRegisterWritesComplete_4 : ∃ s : State, ∃ d, s.hostHeld = false ∧ d < 8 ∧ s.rf (adrAntPortCfg d) 4 4 = 0 :=
  ⟨{}, 7, by decide +kernel⟩

theorem witness_UnitRegisterWritesComplete_5 : ∃ s : State, ∃ d, s.hostHeld = false ∧ d < 8 ∧ s.rf (adrAntPortCfg d) 4 4 = 1 ∧
    (s.link d).st = .fenced :=
  ⟨wSet { links := [(0, { st := .fenced })] } [(adrAntPortCfg 0, 16)], 0, by decide +kernel⟩

theorem witness_UnitRegisterWritesComplete_6 : ∃ s : State, ∃ n, s.hostHeld = false ∧ n < 2 ^ 44 :=
  ⟨{}, 2 ^ 44 - 1, by decide +kernel⟩

theorem witness_UnitRegisterWritesComplete_7 : ∃ s : State, s.hostHeld = false :=
  ⟨{}, by decide +kernel⟩

theorem witness_UnitRegisterWritesComplete_8 : ∃ s : State, ∃ n, s.hostHeld = false ∧ 400 ≤ n ∧ n ≤ 1250 :=
  ⟨{}, 1250, by decide +kernel⟩

theorem witness_UnitRegisterWritesComplete_9 : ∃ s : State, ∃ n, s.hostHeld = false ∧ 24 ≤ n ∧ n ≤ 56 :=
  ⟨{}, 56, by decide +kernel⟩

theorem witness_UnitRegisterWritesComplete_10 : ∃ s : State, s.hostHeld = false ∧ (∀ p, p < 8 → s.locked p = false) :=
  ⟨{}, by decide +kernel⟩

theorem witness_UnitRegisterWritesComplete_11 : ∃ s : State, ∃ v, ∃ o, ∃ u, s.hostHeld = false ∧ v < 8 ∧ o = (s.reg
    (adrQchValveCfg v)).toNat ∧ u = s.written true (adrQchValveCfg v) (bits o 27 0 + 2 ^ 28) ∧ u.bad = false :=
  ⟨{}, 7, _, _, by decide +kernel, by decide +kernel, rfl, rfl, by decide +kernel⟩

/-! ChipRegisterWritesComplete. -/

theorem witness_ChipRegisterWritesComplete_1 : ∃ s : State, ∃ fn, ∃ a, ∃ v, ∃ b, s.hostHeld = false ∧ s.granuleBusy b = false ∧
    s.fnExists fn = true ∧ a % 4 = 0 ∧ v < 2 ^ 32 ∧ s.place fn a = .reg b :=
  ⟨{}, 0, 0x10, 0xFFFFFFFF, 0x10, by decide +kernel⟩

theorem witness_ChipRegisterWritesComplete_2 : ∃ s : State, ∃ fn, ∃ a, ∃ v, ∃ t, s.fnExists fn = true ∧ a % 8 = 0 ∧ v < 2 ^ 64 ∧
    s.hostWaits (.wordWrite fn a (v % 2 ^ 32)) = false ∧ t = s.writeWord fn a (v % 2 ^ 32) ∧ t.hostWaits (.wordWrite fn (a + 4)
    (v / 2 ^ 32)) = false :=
  ⟨{}, 0, 0x10, 2 ^ 64 - 1, _, by decide +kernel, by decide +kernel, by decide +kernel, by decide +kernel, rfl, by decide +kernel⟩

theorem witness_ChipRegisterWritesComplete_3 : ∃ s : State, ∃ fn, ∃ a, ∃ v, s.fnExists fn = true ∧ a % 4 = 0 ∧ v < 2 ^ 32 ∧
    s.hostWaits (.wordWrite fn a v) = true :=
  ⟨{ hrt := { hostWait := [.regWrite 0 0 0] } }, 0, 0x10, 0xFFFFFFFF, by decide +kernel⟩

theorem witness_ChipRegisterWritesComplete_4 : ∃ s : State, s.hostHeld = false :=
  ⟨{}, by decide +kernel⟩

theorem witness_ChipRegisterWritesComplete_5 : ∃ s : State, ∃ t, s.hostHeld = false ∧ s.rf adrGlbFaultStatus 20 20 = 1 ∧ s.boot
    = .stage ∧ t = (s.setRf adrGlbFaultStatus 20 20 0).setRf adrGlbFaultStatus 19 16 0 :=
  ⟨wSet { boot := .stage } [(adrGlbFaultStatus, 2 ^ 20)], _, by decide +kernel, by decide +kernel, by decide +kernel, rfl⟩

theorem witness_ChipRegisterWritesComplete_6 : ∃ s : State, ∃ f, s.hostHeld = false ∧ s.clearRefused f = false :=
  ⟨{}, false, by decide +kernel⟩

theorem witness_ChipRegisterWritesComplete_7 : ∃ s : State, s.hostHeld = false :=
  ⟨{}, by decide +kernel⟩

theorem witness_ChipRegisterWritesComplete_8 : ∃ s : State, ∃ fn, ∃ k, s.hostHeld = false ∧ s.fnExists fn = true ∧ s.seekRec fn
    0 = some k :=
  ⟨{ evr := { slots := [(4095, wRecord)] } }, 0, 4095, by decide +kernel⟩

theorem witness_ChipRegisterWritesComplete_9 : ∃ s : State, ∃ fn, s.hostHeld = false ∧ s.fnExists fn = true ∧ s.seekRec fn 0 =
    none :=
  ⟨{}, 0, by decide +kernel⟩

theorem witness_ChipRegisterWritesComplete_10 : ∃ s : State, ∃ fn, ∃ i, ∃ k, s.hostHeld = false ∧ s.fnExists fn = true ∧ i <
    4096 ∧ s.seekRec fn (i + 1) = some k :=
  ⟨{ evr := { slots := [(4095, wRecord)] } }, 0, 4094, 4095, by decide +kernel⟩

theorem witness_ChipRegisterWritesComplete_11 : ∃ s : State, ∃ fn, ∃ i, s.hostHeld = false ∧ s.fnExists fn = true ∧ i < 4096 ∧
    s.seekRec fn (i + 1) = none :=
  ⟨{}, 0, 4095, by decide +kernel⟩

/-! PartitionCommandsComplete. -/

theorem witness_PartitionCommandsComplete_1 : ∃ s : State, ∃ p, ∃ x, p < 8 ∧ (s.part p).st = .resetting x ∧ x.release = false :=
  ⟨wPart {} { st := .resetting ⟨3, false, false, false⟩ }, 0, ⟨3, false, false, false⟩, by decide +kernel⟩

theorem witness_PartitionCommandsComplete_2 : ∃ s : State, ∃ p, ∃ x, p < 8 ∧ (s.part p).st = .resetting x ∧ x.release = true :=
  ⟨wPart {} { st := .resetting ⟨3, true, false, false⟩ }, 0, ⟨3, true, false, false⟩, by decide +kernel⟩

theorem witness_PartitionCommandsComplete_3 : ∃ s : State, ∃ p, p < 8 :=
  ⟨{}, 7, by decide +kernel⟩

theorem witness_PartitionCommandsComplete_4 : ∃ s : State, ∃ g, s.hrt.zeroing.contains g = true :=
  ⟨{ hrt := { zeroing := [127] } }, 127, by decide +kernel⟩

theorem witness_PartitionCommandsComplete_5 : ∃ s : State, ∃ a, ∃ o, ∃ t, a < 8 ∧ (s.anvil a).clearing = some o ∧ o < 8 ∧ t =
    s.each allParts (fun u p => u.setRf (adrPrtAnvils p) a a (b2n (p == o))) :=
  ⟨{ anvils := [(7, { clearing := some 7 })] }, 7, 7, _, by decide +kernel, by decide +kernel, by decide +kernel, rfl⟩

theorem witness_PartitionCommandsComplete_6 : ∃ s : State, ∃ n : Nat, ∃ t, s.boot ≠ .off ∧ t =
    { s with hrt := { s.hrt with scrubPos := (s.hrt.scrubPos + 1) % hearthWords } } :=
  ⟨{ boot := .rom }, 0, _, by decide +kernel, rfl⟩

theorem witness_PartitionCommandsComplete_7 : ∃ s : State, ∃ c, ∃ b : Bool, s.boot ≠ .off ∧ 1 ≤ c ∧ c ≤ 4 :=
  ⟨{ boot := .ready }, 4, false, by decide +kernel⟩

theorem witness_PartitionCommandsComplete_8 : ∃ s : State, ∃ c, s.fatal = some c :=
  ⟨{ fatal := some 1 }, 1, by decide +kernel⟩

/-! HostAccessesComplete. -/

theorem witness_HostAccessesComplete_1 : ∃ s : State, ∃ fn, ∃ a, ∃ v, ∃ t, s.hostHeld = false ∧ s.fnExists fn = true ∧ a % 4 = 0
    ∧ s.readWord fn a = (some v, t) :=
  ⟨{}, 0, 0x10, ((State.readWord ({}) 0 0x10).1).getD 0, (State.readWord ({}) 0 0x10).2, by decide +kernel⟩

theorem witness_HostAccessesComplete_2 : ∃ s : State, ∃ fn, ∃ a, ∃ v, ∃ u, ∃ t, ∃ r, s.hostHeld = false ∧ s.fnExists fn = true ∧
    a % 8 = 0 ∧ s.readWord fn a = (some v, t) ∧ t.readWord fn (a + 4) = (some u, r) :=
  ⟨{}, 0, 0x10, ((State.readWord ({}) 0 0x10).1).getD 0, ((State.readWord (State.readWord ({}) 0 0x10).2 0 0x14).1).getD 0,
    (State.readWord ({}) 0 0x10).2, (State.readWord (State.readWord ({}) 0 0x10).2 0 0x14).2, by decide +kernel⟩

theorem witness_HostAccessesComplete_3 : ∃ s : State, ∃ fn, ∃ a, ∃ n, ∃ w : Bool, s.hostHeld = false ∧ s.fnExists fn = true ∧
    ¬(n = 4 ∧ a % 4 = 0 ∨ n = 8 ∧ a % 8 = 0) :=
  ⟨{}, 0, 2, 4, true, by decide +kernel⟩

theorem witness_HostAccessesComplete_4 : ∃ s : State, ∃ fn, ∃ a, s.hostHeld = false ∧ s.fnExists fn = true ∧ s.place fn a =
    .none :=
  ⟨{}, 0, 0xFF0, by decide +kernel⟩

theorem witness_HostAccessesComplete_5 : ∃ s : State, ∃ fn, ∃ a, ∃ n, ∃ e, s.fnExists fn = true ∧ 0 < n ∧ s.hostWaits (.bar2Read
    fn a n e) = false :=
  ⟨{}, 0, 0, 4, [], by decide +kernel⟩

theorem witness_HostAccessesComplete_6 : ∃ s : State, ∃ fn, ∃ a, ∃ n, ∃ e, s.fnExists fn = true ∧ 0 < n ∧ s.hostWaits (.bar2Read
    fn a n e) = true :=
  ⟨{ hrt := { hostWait := [.regWrite 0 0 0] } }, 0, 0, 4, [], by decide +kernel⟩

theorem witness_HostAccessesComplete_7 : ∃ s : State, ∃ fn, ∃ a, ∃ d, ∃ e, s.fnExists fn = true ∧ d ≠ [] ∧ s.barReset fn a
    d.length = none ∧ s.hostWaits (.bar2Write fn a d e) = false :=
  ⟨{}, 0, 0, [1], [], by decide +kernel⟩

theorem witness_HostAccessesComplete_8 : ∃ s : State, ∃ fn, ∃ a, ∃ d : List Byte, ∃ e, s.fnExists fn = true ∧ d ≠ [] ∧
    s.hostWaits (.bar2Write fn a d e) = true :=
  ⟨{ hrt := { hostWait := [.regWrite 0 0 0] } }, 0, 0, [1], [], by decide +kernel⟩

theorem witness_HostAccessesComplete_9 : ∃ s : State, ∃ fn, ∃ a, ∃ d : List Byte, ∃ e : List (Nat × Bool), ∃ p, s.fnExists fn =
    true ∧ d ≠ [] ∧ s.hostHeld = false ∧ s.barReset fn a d.length = some p :=
  ⟨wSet (wPart {} { st := .resetting ⟨3, false, false, false⟩ }) [(adrHrtGranuleOwner 0, 8)], 0, 0, [1], [], 0, by decide +kernel⟩

/-! HostPortCommandsComplete. -/

theorem witness_HostPortCommandsComplete_1 : ∃ s : State, ∃ fn, ∃ f, ∃ v, s.hostHeld = false ∧ s.fnExists fn = true ∧
    s.hostStage = true ∧ (fn = 0 ∨ vfReserved f = false) ∧ f ≠ 14 ∧ cfgBad f v = false :=
  ⟨{ boot := .ready }, 0, 13, 0, by decide +kernel⟩

theorem witness_HostPortCommandsComplete_2 : ∃ s : State, ∃ v : Nat, s.hostHeld = false ∧ s.hostStage = true :=
  ⟨{ boot := .ready }, 0, by decide +kernel⟩

theorem witness_HostPortCommandsComplete_3 : ∃ s : State, ∃ fn, ∃ f : Nat, ∃ v : Nat, s.hostHeld = false ∧ s.fnExists fn = true
    ∧ s.hostStage = false :=
  ⟨{}, 0, 0, 0, by decide +kernel⟩

theorem witness_HostPortCommandsComplete_4 : ∃ s : State, ∃ e : Bool, ∃ n, s.hostHeld = false ∧ s.hostStage = true ∧ s.allFree =
    true ∧ n ≤ 8 :=
  ⟨{ boot := .ready }, true, 8, by decide +kernel⟩

theorem witness_HostPortCommandsComplete_5 : ∃ s : State, s.host.perst = false ∧ s.host.refclk = true ∧ s.boot ≠ .off :=
  ⟨{ boot := .ready, host := { perst := false, refclk := true } }, by decide +kernel⟩

theorem witness_HostPortCommandsComplete_6 : ∃ s : State, ∃ k, s.host.perst = false ∧ s.host.refclk = true ∧ s.boot ≠ .off ∧ 1 ≤
    k ∧ k ≤ 2 :=
  ⟨{ boot := .ready, host := { perst := false, refclk := true } }, 2, by decide +kernel⟩

theorem witness_HostPortCommandsComplete_7 : ∃ s : State, s.host.perst = false ∧ s.host.refclk = true ∧ s.boot ≠ .off :=
  ⟨{ boot := .ready, host := { perst := false, refclk := true } }, by decide +kernel⟩

theorem witness_HostPortCommandsComplete_8 : ∃ s : State, s.host.perst = true :=
  ⟨{}, by decide +kernel⟩

theorem witness_HostPortCommandsComplete_9 : ∃ s : State, s.host.refclk = false :=
  ⟨{}, by decide +kernel⟩

theorem witness_HostPortCommandsComplete_10 : ∃ s : State, ∃ r, ∃ w, ∃ f, ∃ t, linkForm r w f = true ∧ s.host.training = true ∧
    s.boot ≠ .off ∧ s.railGood 3 = true ∧ s.railGood 4 = true ∧ t = s.setHost (fun h =>
    { h with training := false, rate := r, width := w, flit := f, degraded := decide (r < 4) || decide (w < 4) }) :=
  ⟨{ boot := .ready, bel := { rails := [(3, 2), (4, 2)] }, host := { training := true } }, 1, 1, false, _, by decide +kernel,
    by decide +kernel, by decide +kernel, by decide +kernel, by decide +kernel, rfl⟩

theorem witness_HostPortCommandsComplete_11 : ∃ s : State, ∃ v, s.hostHeld = false ∧ s.hostStage = true ∧ 0 < v ∧ s.fnExists v =
    true :=
  ⟨{ boot := .ready, host := { vfEnable := true, numVfs := 8 } }, 8, by decide +kernel⟩

theorem witness_HostPortCommandsComplete_12 : ∃ s : State, ∃ fn, ∃ v, s.hostHeld = false ∧ s.fnExists fn = true ∧ v < vectors fn
    :=
  ⟨{}, 0, 0, by decide +kernel⟩

theorem witness_HostPortCommandsComplete_13 : ∃ s : State, ∃ t, s.boot = .firmware ∧ t = State.setRf (State.emit
    (((s.applyConfig).applyRole).lightBanks) (.avs (State.vcoreAt (((s.applyConfig).applyRole).lightBanks) (State.chipSteps
    (((s.applyConfig).applyRole).lightBanks))))) adrGlbStatus 2 2 1 ∧ t.rf adrGlbFaultStatus 19 16 < 3 :=
  ⟨{ boot := .firmware }, _, by decide +kernel, rfl, by decide +kernel⟩

/-! HostRequestsComplete. -/

theorem witness_HostRequestsComplete_1 : ∃ s : State, ∃ r, ∃ t, s.issueNext r = some t :=
  ⟨{ host := { reqQ := [(0, [.ack 0])] } }, 0, (State.issueNext ({ host := { reqQ := [(0, [.ack 0])] } }) 0).getD {},
    by decide +kernel⟩

theorem witness_HostRequestsComplete_2 : ∃ s : State, ∃ v, ∃ t : Nat, ∃ f : Nat, ∃ d : List Byte, ∃ u : TagUse, s.tagOf f v =
    some (t, u) ∧ u.quarantined = false ∧ u.got + d.length < u.len :=
  ⟨{ host := { tags := [(0, ⟨0, 0, 0, 0, 8, .other, 0, 0, 0, false, false⟩)] } }, 0, 0, 0, [1, 2, 3, 4], ⟨0, 0, 0, 0, 8, .other,
    0, 0, 0, false, false⟩, by decide +kernel⟩

theorem witness_HostRequestsComplete_3 : ∃ s : State, ∃ v, ∃ t : Nat, ∃ f : Nat, ∃ d : List Byte, ∃ u : TagUse, s.tagOf f v =
    some (t, u) ∧ u.quarantined = false ∧ u.got + d.length = u.len :=
  ⟨{ host := { tags := [(0, ⟨0, 0, 0, 0, 8, .other, 0, 0, 0, false, false⟩)] } }, 0, 0, 0, [1, 2, 3, 4, 5, 6, 7, 8], ⟨0, 0, 0, 0,
    8, .other, 0, 0, 0, false, false⟩, by decide +kernel⟩

theorem witness_HostRequestsComplete_4 : ∃ s : State, ∃ v, ∃ t, ∃ f, ∃ x : Nat, ∃ d : List Byte, ∃ u, s.tagOf f v = some (t, u)
    ∧ u.quarantined = false :=
  ⟨{ host := { tags := [(0, ⟨0, 0, 0, 0, 8, .other, 0, 0, 0, false, false⟩)] } }, 0, 0, 0, 0, [], ⟨0, 0, 0, 0, 8, .other, 0, 0, 0,
    false, false⟩, by decide +kernel⟩

theorem witness_HostRequestsComplete_5 : ∃ s : State, ∃ v, ∃ f, ∃ x, ∃ po : Bool, ∃ d : List Byte, x < 3 ∧ s.tagOf f v = none :=
  ⟨{}, 0, 0, 2, false, [], by decide +kernel⟩

theorem witness_HostRequestsComplete_6 : ∃ s : State, ∃ n, ∃ u, ∃ t, tfind s.host.tags n = some u ∧ u.quarantined = false ∧ t =
    State.event (State.pciCount (s.setHost fun h =>
    { h with tags := tput h.tags n { u with quarantined := true, iss := .other } }) 0 u.req) 0x0101 u.req (reqPart u.req) :=
  ⟨{ host := { tags := [(0, ⟨0, 0, 0, 0, 8, .other, 0, 0, 0, false, false⟩)] } }, 0, ⟨0, 0, 0, 0, 8, .other, 0, 0, 0, false,
    false⟩, _, by decide +kernel, by decide +kernel, rfl⟩

theorem witness_HostRequestsComplete_7 : ∃ s : State, ∃ t, ∃ u, tfind s.host.tags t = some u ∧ u.quarantined = true :=
  ⟨{ host := { tags := [(0, ⟨0, 0, 0, 0, 8, .other, 0, 0, 0, true, false⟩)] } }, 0, ⟨0, 0, 0, 0, 8, .other, 0, 0, 0, true, false⟩,
    by decide +kernel⟩

/-! ProxyCommandsComplete. -/

theorem witness_ProxyCommandsComplete_1 : ∃ s : State, ∃ p, ∃ f, s.arrived 7 p f = true ∧ proxyGood f = true ∧ u8 f 32 ≤ 2 ∧
    s.proxyBehind p f = false :=
  ⟨wGot (wPart {} { proxy := [(0, ⟨0, true, false, .other, 0, 4, false⟩)] }) 0 (wFrame 7 5 (proxyBody 1 0 0 0 4)), 0, wFrame 7 5
    (proxyBody 1 0 0 0 4), by decide +kernel⟩

theorem witness_ProxyCommandsComplete_2 : ∃ s : State, ∃ p, ∃ f, s.arrived 7 p f = true ∧ proxyGood f = false :=
  ⟨wGot (wPart {} { proxy := [(0, ⟨0, true, false, .other, 0, 4, false⟩)] }) 0 (wFrame 7 5 (leBytes 32 0)), 0, wFrame 7 5 (leBytes
    32 0), by decide +kernel⟩

theorem witness_ProxyCommandsComplete_3 : ∃ s : State, ∃ p, ∃ f, ∃ r, ∃ t, s.arrived 7 p f = true ∧ proxyGood f = true ∧ u8 f 32
    = 3 ∧ t = s.consume p f ∧ tfind (t.part p).proxy (u32 f 36) = some r ∧ r.quarantined = false ∧ r.write = false ∧ u8 f 33 ≠ 0
    :=
  ⟨wGot (wPart {} { proxy := [(0, ⟨0, false, false, .other, 0, 4, false⟩)] }) 0 (wFrame 7 5 (proxyBody 3 0x14 0 0 4)), 0, wFrame 7
    5 (proxyBody 3 0x14 0 0 4), ⟨0, false, false, .other, 0, 4, false⟩, _, by decide +kernel, by decide +kernel,
    by decide +kernel, rfl, by decide +kernel⟩

theorem witness_ProxyCommandsComplete_4 : ∃ s : State, ∃ p, ∃ f, ∃ r, ∃ t, s.arrived 7 p f = true ∧ proxyGood f = true ∧ u8 f 32
    = 4 ∧ t = s.consume p f ∧ tfind (t.part p).proxy (u32 f 36) = some r ∧ r.quarantined = false ∧ r.write = true :=
  ⟨wGot (wPart {} { proxy := [(0, ⟨0, true, false, .other, 0, 4, false⟩)] }) 0 (wFrame 7 5 (proxyBody 4 0 0 0 4)), 0, wFrame 7 5
    (proxyBody 4 0 0 0 4), ⟨0, true, false, .other, 0, 4, false⟩, _, by decide +kernel, by decide +kernel, by decide +kernel,
    rfl, by decide +kernel⟩

theorem witness_ProxyCommandsComplete_5 : ∃ s : State, ∃ p, ∃ n, ∃ r, ∃ t, tfind (s.part p).proxy n = some r ∧ r.quarantined =
    false ∧ r.sent = true ∧ t = s.modPart p (fun q =>
    { q with proxy := tput q.proxy n { r with quarantined := true, iss := .other } }) :=
  ⟨wGot (wPart {} { proxy := [(0, ⟨0, true, false, .other, 0, 4, true⟩)] }) 0 (wFrame 7 5 (leBytes 32 0)), 0, 0, ⟨0, true, false,
    .other, 0, 4, true⟩, _, by decide +kernel, by decide +kernel, by decide +kernel, rfl⟩

theorem witness_ProxyCommandsComplete_6 : ∃ s : State, ∃ p, ∃ n, ∃ r, ∃ t, tfind (s.part p).proxy n = some r ∧ r.quarantined =
    true ∧ t = s.modPart p (fun q => { q with proxy := tdel q.proxy n }) :=
  ⟨wGot (wPart {} { proxy := [(0, ⟨0, true, true, .other, 0, 4, false⟩)] }) 0 (wFrame 7 5 (leBytes 32 0)), 0, 0, ⟨0, true, true,
    .other, 0, 4, false⟩, _, by decide +kernel, by decide +kernel, rfl⟩

/-! LinkTrainingCompletes. -/

theorem witness_LinkTrainingCompletes_1 : ∃ s : State, ∃ d, d < 8 ∧ (s.link d).st = .down ∧ 0 < (s.link d).allot ∧ (s.link
    d).heldDown = false ∧ s.fenced d = false ∧ s.portPowered d = true ∧ (d < 4 ∨ (s.gleed d).apr = false) :=
  ⟨{ links := [(0, { st := .down, allot := 8 })], clk := { tclk := true }, bel := { rails := [(3, 2), (4, 2)] } }, 0,
    by decide +kernel⟩

theorem witness_LinkTrainingCompletes_2 : ∃ s : State, ∃ d, ∃ m, ∃ u, (s.link d).st = .training ∧ (s.link d).step = 1 ∧ Nat.land
    m (s.link d).allotMask ≠ 0 ∧ u = s.each (onesOf 8 (s.link d).allotMask) (fun t k => if bitAt (Nat.land m (s.link
    d).allotMask) k then t.modLink d fun l => { l with fails := tset 0 l.fails k 0 } else t.failQuad d k) :=
  ⟨wLink { st := .training, step := 1, allot := 8 }, 0, 0x80, _, by decide +kernel, by decide +kernel, by decide +kernel, rfl⟩

theorem witness_LinkTrainingCompletes_3 : ∃ s : State, ∃ d, ∃ m, ∃ u, (s.link d).st = .training ∧ (s.link d).step = 1 ∧ Nat.land
    m (s.link d).allotMask = 0 ∧ u = State.modLink (s.each (onesOf 8 (s.link d).allotMask) (fun t k => t.failQuad d k)) d (fun l
    => { l with st := .down, step := 0 }) :=
  ⟨wLink { st := .training, step := 1, allot := 8 }, 0, 0x100, _, by decide +kernel, by decide +kernel, by decide +kernel, rfl⟩

theorem witness_LinkTrainingCompletes_4 : ∃ s : State, ∃ d, ∃ m : Nat, (s.link d).st = .training ∧ ((s.link d).step = 5 ∨
    (s.link d).step = 6) :=
  ⟨wLink { st := .training, step := 6, allot := 8 }, 0, 0, by decide +kernel⟩

theorem witness_LinkTrainingCompletes_5 : ∃ s : State, ∃ d, (s.link d).st = .training ∧ (s.link d).step = 1 :=
  ⟨wLink { st := .training, step := 1 }, 0, by decide +kernel⟩

theorem witness_LinkTrainingCompletes_6 : ∃ s : State, ∃ d, ∃ b, ∃ w, osGood b = true ∧ u8 b 0 = 0xA1 ∧ (s.link d).st =
    .training ∧ (s.link d).step = 5 ∧ u64 b 4 ≠ ownId ∧ bits (u16 b 0xC) 7 4 = (s.link d).allot ∧ w = agree (s.link d).sustain
    (u8 b 2) (s.desired d) (u8 b 1 / 16) ∧ w ≠ 0 := by
  by_cases h : ownId = 0
  · exact ⟨wSet (wLink { st := .training, step := 5, allot := 8, sustain := 255 }) [(adrLnkCtrl 0, 8)], 0, wOs 0xA1 0x80 255 0 1 0x80, _,
      by decide +kernel, by decide +kernel, by decide +kernel, by decide +kernel,
      by rw [h, show u64 (wOs 0xA1 0x80 255 0 1 0x80) 4 = 1 by decide +kernel]; decide, by decide +kernel, rfl, by decide +kernel⟩
  · exact ⟨wSet (wLink { st := .training, step := 5, allot := 8, sustain := 255 }) [(adrLnkCtrl 0, 8)], 0, wOs 0xA1 0x80 255 0 0 0x80, _,
      by decide +kernel, by decide +kernel, by decide +kernel, by decide +kernel,
      by rw [show u64 (wOs 0xA1 0x80 255 0 0 0x80) 4 = 0 by decide +kernel]; exact fun e => h e.symm, by decide +kernel, rfl,
      by decide +kernel⟩

theorem witness_LinkTrainingCompletes_7 : ∃ s : State, ∃ d, ∃ b, osGood b = true ∧ u8 b 0 = 0xA1 ∧ (s.link d).st = .training ∧
    (s.link d).step = 5 ∧ u64 b 4 = ownId :=
  ⟨wLink { st := .training, step := 5 }, 0, osBytes 0xA1 0x80 255 0 0, osBytes_good _ _ _ _ _, rfl, rfl, rfl, osBytes_id _ _ _ _
    _⟩

theorem witness_LinkTrainingCompletes_8 : ∃ s : State, ∃ d, ∃ b, ∃ f, ∃ n, ∃ u, flitGood b = true ∧ f = parseFlit b ∧ f.kind = 2
    ∧ u8 f.pay 0x10 = 1 ∧ (s.link d).step = 6 ∧ (s.link d).seen = true ∧ u = s.bumpBy (adrFecCorrected d) n :=
  ⟨wLink { step := 6, seen := true }, 0, wFlit 2 1, _, 1, _, by decide +kernel, rfl, by decide +kernel, by decide +kernel,
    by decide +kernel, by decide +kernel, rfl⟩

theorem witness_LinkTrainingCompletes_9 : ∃ s : State, ∃ d, ∃ b, ∃ n, ∃ u, flitGood b = true ∧ (parseFlit b).kind = 2 ∧ (s.link
    d).step ≠ 6 ∧ s.flitUp d = true ∧ (s.link d).seen = true ∧ u = s.bumpBy (adrFecCorrected d) n :=
  ⟨wLink { st := .active, seen := true }, 0, wFlit 2 1, 1, _, by decide +kernel, by decide +kernel, by decide +kernel,
    by decide +kernel, by decide +kernel, rfl⟩

/-! FlitCommandsComplete. -/

theorem witness_FlitCommandsComplete_1 : ∃ s : State, ∃ d, ∃ b, ∃ n, ∃ u, u = s.bumpBy (adrFecCorrected d) n ∧ u.flitUp d = true
    ∧ flitGood b = true ∧ (parseFlit b).kind = 0 :=
  ⟨wLink { st := .active }, 0, wFlit 0 0, 1, _, rfl, by decide +kernel⟩

theorem witness_FlitCommandsComplete_2 : ∃ s : State, ∃ d, ∃ b, ∃ n, ∃ u, u = s.bumpBy (adrFecCorrected d) n ∧ u.flitUp d = true
    ∧ flitGood b = true ∧ (parseFlit b).kind = 1 :=
  ⟨wLink { st := .active }, 0, wFlit 1 0, 1, _, rfl, by decide +kernel⟩

theorem witness_FlitCommandsComplete_3 : ∃ s : State, ∃ d, ∃ b, ∃ e, ∃ n, ∃ u, u = s.bumpBy (adrFecCorrected d) n ∧ u.flitUp d =
    true ∧ (e = true ∨ flitGood b = false) :=
  ⟨wLink { st := .active }, 0, [], true, 1, _, rfl, by decide +kernel⟩

theorem witness_FlitCommandsComplete_4 : ∃ s : State, ∃ d, ∃ f, ∃ fs, (s.link d).st = .active ∧ (s.link d).step ≠ 6 ∧ (s.link
    d).replay = f :: fs :=
  ⟨wLink { st := .active, replay := [⟨0, 0, 0, false, []⟩] }, 0, ⟨0, 0, 0, false, []⟩, [], by decide +kernel⟩

theorem witness_FlitCommandsComplete_5 : ∃ s : State, ∃ d, ∃ x, ∃ xs, ((s.link d).step = 6 ∨ (s.link d).st = .active ∧ (s.link
    d).replay = []) ∧ (s.link d).timeQ = x :: xs :=
  ⟨wLink { st := .active, timeQ := [.req 0] }, 0, .req 0, [], by decide +kernel⟩

theorem witness_FlitCommandsComplete_6 : ∃ s : State, ∃ d, (s.link d).step = 6 ∧ (s.link d).timeQ = [] :=
  ⟨wLink { step := 6 }, 0, by decide +kernel⟩

theorem witness_FlitCommandsComplete_7 : ∃ s : State, ∃ d, (s.link d).st = .active ∧ (s.link d).step ≠ 6 ∧ (s.link d).replay =
    [] ∧ (s.link d).timeQ = [] ∧ (s.link d).config = true :=
  ⟨wLink { st := .active, config := true }, 0, by decide +kernel⟩

theorem witness_FlitCommandsComplete_8 : ∃ s : State, ∃ d, (s.link d).st = .active ∧ (s.link d).step ≠ 6 ∧ (s.link d).replay =
    [] ∧ (s.link d).timeQ = [] ∧ (s.link d).config = false ∧ ((s.link d).due = true ∨ 32 ≤ (s.link d).unacked) :=
  ⟨wLink { st := .active, unacked := 32 }, 0, by decide +kernel⟩

theorem witness_FlitCommandsComplete_9 : ∃ s : State, ∃ d, ∃ v, ∃ t, ∃ u, (s.link d).st = .active ∧ (s.link d).step ≠ 6 ∧
    (s.link d).replay = [] ∧ (s.link d).timeQ = [] ∧ (s.link d).config = false ∧ (s.link d).due = false ∧ (s.link d).unacked <
    32 ∧ u = s.setLink d { s.link d with share := min 256 ((s.link d).share + s.rf adrAntCfg 22 18) } ∧ u.pickVc d = some (v, t)
    :=
  ⟨wLink { st := .active, txq := [{ vc := 0, bytes := [0], first := true, abort := false, cls := false }], peerBuf := [(0, 8)] },
    0, 0, [], _, by and_intros <;> first | decide +kernel | rfl⟩

theorem witness_FlitCommandsComplete_10 : ∃ s : State, ∃ d, (s.link d).owed = true :=
  ⟨wLink { owed := true }, 0, by decide +kernel⟩

theorem witness_FlitCommandsComplete_11 : ∃ s : State, ∃ d, (s.link d).gap = true :=
  ⟨wLink { gap := true }, 0, by decide +kernel⟩

theorem witness_FlitCommandsComplete_12 : ∃ s : State, ∃ d, (s.link d).st = .active :=
  ⟨wLink { st := .active }, 0, by decide +kernel⟩

theorem witness_FlitCommandsComplete_14 : ∃ s : State, ∃ d, (s.link d).escal = 2 :=
  ⟨wLink { escal := 2 }, 0, by decide +kernel⟩

/-! HandshakesComplete. -/

theorem witness_HandshakesComplete_1 : ∃ s : State, ∃ d, ∃ b, osGood b = true ∧ u8 b 0 = 0xA2 ∧ (s.link d).st = .active ∧
    (s.link d).req = none :=
  ⟨wLink { st := .active }, 0, wOs 0xA2 0x80 0xFF 1 0 0, by decide +kernel⟩

theorem witness_HandshakesComplete_2 : ∃ s : State, ∃ d, ∃ b, ∃ r, ∃ t, osGood b = true ∧ u8 b 0 = 0xA2 ∧ (s.link d).st =
    .active ∧ (s.link d).req = some r ∧ t = s.portEvent 0x200D d [] :=
  ⟨wLink { st := .active, req := some ⟨0, 1, 8, 255⟩ }, 0, wOs 0xA2 0x80 0xFF 1 0 0, ⟨0, 1, 8, 255⟩, _, by decide +kernel,
    by decide +kernel, by decide +kernel, by decide +kernel, rfl⟩

theorem witness_HandshakesComplete_3 : ∃ s : State, ∃ d, ∃ b, ∃ p, osGood b = true ∧ u8 b 0 = 0xA2 ∧ (s.link d).st = .paused ∧
    (s.link d).pause = some p :=
  ⟨wLink { st := .paused, pause := some ⟨1, true, 8, 255, 8, 255, false, false, none, 255⟩ }, 0, wOs 0xA2 0x80 0xFF 1 0 0, ⟨1,
    true, 8, 255, 8, 255, false, false, none, 255⟩, by decide +kernel⟩

theorem witness_HandshakesComplete_4 : ∃ s : State, ∃ d, ∃ b, ∃ r, osGood b = true ∧ u8 b 0 = 0xA3 ∧ (s.link d).req = some r ∧
    u8 b 3 = r.num :=
  ⟨wLink { st := .active, req := some ⟨0, 1, 8, 255⟩ }, 0, wOs 0xA3 0x80 0xFF 1 0 0, ⟨0, 1, 8, 255⟩, by decide +kernel⟩

theorem witness_HandshakesComplete_5 : ∃ s : State, ∃ d, ∃ r, (s.link d).req = some r :=
  ⟨wLink { req := some ⟨0, 1, 8, 255⟩ }, 0, ⟨0, 1, 8, 255⟩, by decide +kernel⟩

theorem witness_HandshakesComplete_6 : ∃ s : State, ∃ d, ∃ p, ∃ w, (s.link d).pause = some p ∧ p.recv = false ∧ w = agree
    p.ownSustain p.sustain p.ownDesired p.desired :=
  ⟨wLink { pause := some ⟨1, true, 8, 255, 8, 255, false, false, none, 255⟩ }, 0, ⟨1, true, 8, 255, 8, 255, false, false, none,
    255⟩, _, by decide +kernel, by decide +kernel, rfl⟩

theorem witness_HandshakesComplete_7 : ∃ s : State, ∃ d, ∃ r, (s.link d).pause = none ∧ (s.link d).st = .active ∧ (s.link d).req
    = some r :=
  ⟨wLink { st := .active, req := some ⟨1, 1, 8, 255⟩ }, 0, ⟨1, 1, 8, 255⟩, by decide +kernel⟩

theorem witness_HandshakesComplete_8 : ∃ s : State, ∃ d, ∃ p, (s.link d).pause = some p ∧ p.recv = true ∧ p.ready = false :=
  ⟨wLink { pause := some ⟨1, true, 8, 255, 8, 255, true, false, none, 255⟩ }, 0, ⟨1, true, 8, 255, 8, 255, true, false, none,
    255⟩, by decide +kernel⟩

theorem witness_HandshakesComplete_9 : ∃ s : State, ∃ d, ∃ p, ∃ b, (s.link d).pause = some p ∧ osGood b = true ∧ u8 b 0 = 0xA5
    :=
  ⟨wLink { pause := some ⟨1, true, 8, 255, 8, 255, true, true, none, 255⟩ }, 0, ⟨1, true, 8, 255, 8, 255, true, true, none, 255⟩,
    wOs 0xA5 0 0 0 0 0, by decide +kernel⟩

theorem witness_HandshakesComplete_10 : ∃ s : State, ∃ d, ∃ p, (s.link d).pause = some p :=
  ⟨wLink { pause := some ⟨1, true, 8, 255, 8, 255, true, true, none, 255⟩ }, 0, ⟨1, true, 8, 255, 8, 255, true, true, none, 255⟩,
    by decide +kernel⟩

theorem witness_HandshakesComplete_11 : ∃ s : State, ∃ d, s.flitUp d = true :=
  ⟨wLink { st := .paused }, 0, by decide +kernel⟩

theorem witness_HandshakesComplete_12 : ∃ s : State, ∃ d, ∃ q, ∃ ks, ∃ m, ∃ t, s.flitUp d = true ∧ ks = onesOf 8 (Nat.land
    (s.link d).sustain q) ∧ ks ≠ [] ∧ m = (ks.map fun k => 2 ^ k).sum ∧ t = State.each (s.setLink d
    { s.link d with sustain := (s.link d).sustain - m, failed := Nat.lor (s.link d).failed m }) ks (fun u k => u.portEvent
    0x2005 d [k]) :=
  ⟨wLink { st := .active, active := 255, sustain := 255 }, 0, 0x80, _, _, _, by decide +kernel, rfl, by decide +kernel, rfl, rfl⟩

theorem witness_HandshakesComplete_13 : ∃ s : State, ∃ d, ((s.link d).st = .active ∨ (s.link d).st = .down ∧ s.fenced d = false)
    :=
  ⟨wLink { st := .active }, 0, by decide +kernel⟩

theorem witness_HandshakesComplete_14 : ∃ s : State, ∃ d, ∃ k, bitAt (s.link d).trying k = true :=
  ⟨wLink { trying := 0x80 }, 0, 7, by decide +kernel⟩

/-! FabricCommandsComplete. -/

theorem witness_FabricCommandsComplete_1 : ∃ s : State, ∃ d, ∃ v, ∃ f, (s.link d).frames.find? (fun g => g.1 == v) = some f :=
  ⟨wLink { frames := [(6, [], 1)] }, 0, 6, (6, [], 1), by decide +kernel⟩

theorem witness_FabricCommandsComplete_2 : ∃ s : State, ∃ d, ∃ c, ∃ b, ∃ e, ∃ n, ∃ t, ∃ u, ∃ q, (d = 6 ∨ d = 7) ∧ c < 5 ∧ n =
    Align.next (tget {} (s.gleed d).aligns c) (lineGood b && !e) ∧ t = s.modGleed d (fun g =>
    { g with aligns := tset {} g.aligns c n }) ∧ u = (if e then t.bump (adrFecUncorrected (d - 4)) else t) ∧ u.rxLaneOf d c =
    some q ∧ n.locked = true :=
  ⟨{ gleeds := [(2, { aligns := [(State.rxChan {} 6 0, { good := 2 })] })] }, 6, State.rxChan {} 6 0, leBytes 8 0xA5C3690FF0963C5A
    ++ leBytes 20 0 ++ leBytes 4 (crc32c (leBytes 8 0xA5C3690FF0963C5A ++ leBytes 20 0)) ++ List.replicate 4096 0, false, _, _,
    _, 0, by decide +kernel, by decide +kernel, rfl, rfl, rfl, by decide +kernel⟩

theorem witness_FabricCommandsComplete_3 : ∃ s : State, ∃ d, ∃ c, ∃ b, ∃ e, ∃ n, ∃ t, ∃ u, ∃ q, (d = 6 ∨ d = 7) ∧ c < 5 ∧ n =
    Align.next (tget {} (s.gleed d).aligns c) (lineGood b && !e) ∧ t = s.modGleed d (fun g =>
    { g with aligns := tset {} g.aligns c n }) ∧ u = (if e then t.bump (adrFecUncorrected (d - 4)) else t) ∧ u.rxLaneOf d c =
    some q ∧ n.locked = false ∧ (tget {} (s.gleed d).aligns c).locked = true :=
  ⟨{ gleeds := [(2, { aligns := [(State.rxChan {} 6 0, { bad := 3, locked := true })] })] }, 6, State.rxChan {} 6 0, [], true, _,
    _, _, 0, by decide +kernel, by decide +kernel, rfl, rfl, rfl, by decide +kernel⟩

theorem witness_FabricCommandsComplete_4 : ∃ k, ∃ s : State, ∃ x, ∃ t, Starts s 0x60 k x t :=
  ⟨0, wOne 0x60 [] {}, wPkt 0x60 [], _, ⟨by decide +kernel, rfl⟩⟩

theorem witness_FabricCommandsComplete_5 : ∃ k, ∃ s : State, ∃ x, ∃ t, ∃ u, Starts s 0x61 k x t ∧ newer (u16 x.bytes 0x14) (t.rf
    adrAntGen 15 0) = true ∧ u = t.takeAddress (u16 x.bytes 0x14) (u32 x.bytes 0x10) ownId true 8 :=
  ⟨0, wOne 0x61 (leBytes 4 0 ++ leBytes 2 1) {}, wPkt 0x61 (leBytes 4 0 ++ leBytes 2 1), _, _, ⟨by decide +kernel, rfl⟩,
    by decide +kernel, rfl⟩

theorem witness_FabricCommandsComplete_6 : ∃ k, ∃ s : State, ∃ x, ∃ t, Starts s 0x61 k x t ∧ newer (u16 x.bytes 0x14) (t.rf
    adrAntGen 15 0) = false :=
  ⟨0, wOne 0x61 [] {}, wPkt 0x61 [], _, ⟨by decide +kernel, rfl⟩, by decide +kernel⟩

theorem witness_FabricCommandsComplete_7 : ∃ k, ∃ s : State, ∃ x, ∃ t, Starts s 0x62 k x t ∧ (t.link (u8 x.bytes 0x10)).st =
    .active :=
  ⟨0, wOne 0x62 [] (wLink { st := .active }), wPkt 0x62 [], _, ⟨by decide +kernel, rfl⟩, by decide +kernel⟩

theorem witness_FabricCommandsComplete_8 : ∃ k, ∃ s : State, ∃ x, ∃ t, Starts s 0x62 k x t ∧ (t.link (u8 x.bytes 0x10)).st ≠
    .active :=
  ⟨0, wOne 0x62 [] {}, wPkt 0x62 [], _, ⟨by decide +kernel, rfl⟩, by decide +kernel⟩

/-! SwapsComplete. -/

theorem witness_SwapsComplete_1 : ∃ s : State, ∃ d, ∃ b, 4 ≤ d ∧ d < 8 ∧ swapGood d 0xA6 b = true ∧ s.flitUp d = true ∧ (d < 6 ∨
    (s.gleed d).tx = none) :=
  ⟨wSet { links := [(4, { st := .active })], gleeds := [(0, {})] } [], 4, wOs 0xA6 0 0 17 0 0, by decide +kernel⟩

theorem witness_SwapsComplete_2 : ∃ s : State, ∃ d, ∃ b, ∃ w, 6 ≤ d ∧ d < 8 ∧ swapGood d 0xA6 b = true ∧ s.flitUp d = true ∧
    (s.gleed d).tx = some w ∧ u64 b 4 ≤ ownId ∧ w.mode ≠ 1 :=
  ⟨wSet { links := [(7, { st := .active })], gleeds := [(3, { tx := some ⟨0, 0, 1, 0, false, false⟩ })] } [], 7, wOs 0xA6 0 0 1 0
    0, ⟨0, 0, 1, 0, false, false⟩, by decide +kernel, by decide +kernel, by decide +kernel, by decide +kernel,
    by decide +kernel, Nat.le_trans (Nat.le_of_eq (m := 0) (by decide +kernel)) (Nat.zero_le _), by decide +kernel⟩

theorem witness_SwapsComplete_3 : ∃ s : State, ∃ d, ∃ w, 4 ≤ d ∧ d < 8 ∧ (s.gleed d).rx = some w ∧ s.rxChan d w.lane ≠ w.dest :=
  ⟨wSet { links := [(4, { st := .active })], gleeds := [(0, { rx := some ⟨0, 0, 1, 0, false, false⟩ })] } [], 4, ⟨0, 0, 1, 0,
    false, false⟩, by decide +kernel⟩

theorem witness_SwapsComplete_4 : ∃ s : State, ∃ d, ∃ w, 4 ≤ d ∧ d < 8 ∧ (s.gleed d).rx = some w :=
  ⟨wSet { links := [(4, { st := .active })], gleeds := [(0, { rx := some ⟨0, 0, 1, 0, false, false⟩ })] } [], 4, ⟨0, 0, 1, 0,
    false, false⟩, by decide +kernel⟩

theorem witness_SwapsComplete_5 : ∃ s : State, ∃ d, ∃ b, ∃ w, 4 ≤ d ∧ d < 8 ∧ (s.gleed d).tx = some w ∧ swapGood d 0xA7 b = true
    ∧ sameSwap (swapOf b) w = true :=
  ⟨wSet { links := [(4, { st := .active })], gleeds := [(0, { tx := some ⟨0, 0, 1, 0, false, false⟩ })] } [], 4, wOs 0xA7 0 0 1 0
    0, ⟨0, 0, 1, 0, false, false⟩, by decide +kernel⟩

theorem witness_SwapsComplete_6 : ∃ s : State, ∃ d, ∃ b, ∃ w, ∃ t, 4 ≤ d ∧ d < 6 ∧ (s.gleed d).rx = some w ∧ swapGood d 0xA8 b =
    true ∧ sameSwap (swapOf b) w = true ∧ t = s.modGleed d (fun g => { g with rx := none }) :=
  ⟨wSet { links := [(5, { st := .active })], gleeds := [(1, { rx := some ⟨0, 0, 1, 0, false, false⟩ })] } [], 5, wOs 0xA8 0 0 1 0
    0, ⟨0, 0, 1, 0, false, false⟩, _, by decide +kernel, by decide +kernel, by decide +kernel, by decide +kernel,
    by decide +kernel, rfl⟩

theorem witness_SwapsComplete_7 : ∃ s : State, ∃ d, ∃ w, 4 ≤ d ∧ d < 8 ∧ (s.gleed d).tx = some w ∧ w.mode ≠ 1 :=
  ⟨wSet { links := [(7, { st := .active })], gleeds := [(3, { tx := some ⟨0, 0, 1, 0, false, false⟩ })] } [], 7, ⟨0, 0, 1, 0,
    false, false⟩, by decide +kernel⟩

theorem witness_SwapsComplete_8 : ∃ s : State, ∃ d, ∃ c, ∃ l, ∃ n, 4 ≤ d ∧ d < 8 ∧ (s.gleed d).cal = none ∧ s.swapFree d = true
    ∧ s.nextChan d = some c ∧ s.laneOf d c = some l ∧ s.bestSpare d = some n :=
  ⟨wSet { links := [(4, { st := .active })], gleeds := [(0, {})] } [(adrGldChanHealth 0 17, 1)], 4, 0, 0, 16, by decide +kernel⟩

theorem witness_SwapsComplete_9 : ∃ s : State, ∃ d, ∃ c, 4 ≤ d ∧ d < 8 ∧ (s.gleed d).cal = none ∧ s.swapFree d = true ∧
    s.nextChan d = some c ∧ s.laneOf d c = none :=
  ⟨wSet { links := [(4, { st := .active })], gleeds := [(0, { visited := 16 })] } [(adrGldChanHealth 0 16, 3)], 4, 16,
    by decide +kernel⟩

theorem witness_SwapsComplete_10 : ∃ s : State, ∃ d, ∃ c, ∃ b : Bool, ∃ m : ChanCal, ∃ t, 4 ≤ d ∧ d < 8 ∧ (s.gleed d).cal = some
    c ∧ t = (if b then s.chanCal d c m else s) :=
  ⟨wSet { links := [(4, { st := .active })], gleeds := [(0, { cal := some 3 })] } [], 4, 3, true, ⟨1, 2, 3, [], 0, []⟩, _,
    by decide +kernel, by decide +kernel, by decide +kernel, rfl⟩

/-! LightCommandsComplete. -/

theorem witness_LightCommandsComplete_1 : ∃ s : State, ∃ i, ∃ n : Nat, ∃ w : Nat, i < 50 ∧ s.rf (adrGldLaser i) 2 0 ≠ 5 :=
  ⟨{}, 49, 0, 0, by decide +kernel⟩

theorem witness_LightCommandsComplete_2 : ∃ s : State, ∃ i, ∃ n, ∃ w, ∃ d, ∃ c, ∃ t, i < 46 ∧ s.rf (adrGldLaser i) 2 0 ≠ 5 ∧
    laserPort i = (d, c) ∧ t = State.laserReads (s.setRf (adrGldLaser i) 2 0 4) i n w :=
  ⟨{}, 45, 8, 0, 7, 4, _, by decide +kernel, by decide +kernel, by decide +kernel, rfl⟩

theorem witness_LightCommandsComplete_3 : ∃ s : State, ∃ d, ∃ c, ∃ e : Nat, (d = 4 ∨ d = 5) ∧ c < 18 :=
  ⟨{}, 5, 17, 0, by decide +kernel⟩

theorem witness_LightCommandsComplete_4 : ∃ s : State, ∃ d, ∃ c, ∃ e : Nat, (d = 4 ∨ d = 5) ∧ c < 18 :=
  ⟨{}, 5, 17, 0, by decide +kernel⟩

theorem witness_LightCommandsComplete_5 : ∃ s : State, ∃ d, ∃ c, ∃ r : Nat, ∃ t, ∃ i, 4 ≤ d ∧ d < 8 ∧ c < gldChans (d - 4) ∧ t =
    s.portEvent 0x2206 d [0, c] ∧ i = gldLaser0 (d - 4) + c :=
  ⟨{}, 7, 4, 0, _, _, by decide +kernel, by decide +kernel, by decide +kernel, rfl, rfl⟩

theorem witness_LightCommandsComplete_6 : ∃ s : State, ∃ d, ∃ n, ∃ c, ∃ r : Nat, ∃ t, 4 ≤ d ∧ d < 8 ∧ c < gldChans (d - 4) ∧ (n
    = 3 ∨ n = 1 ∧ 6 ≤ d) ∧ t = s.portEvent 0x2206 d [n, c] :=
  ⟨{}, 4, 3, 17, 0, _, by decide +kernel, by decide +kernel, by decide +kernel, by decide +kernel, rfl⟩

theorem witness_LightCommandsComplete_7 : ∃ s : State, ∃ d, ∃ c, ∃ r : Nat, ∃ t, 6 ≤ d ∧ d < 8 ∧ c < gldChans (d - 4) ∧ t =
    s.portEvent 0x2206 d [2, c] :=
  ⟨{}, 7, 4, 0, _, by decide +kernel, by decide +kernel, by decide +kernel, rfl⟩

theorem witness_LightCommandsComplete_8 : ∃ s : State, ∃ d, ∃ c, ∃ r : Nat, ∃ t, 4 ≤ d ∧ d < 8 ∧ c < gldChans (d - 4) ∧ t =
    s.portEvent 0x2206 d [4, c] :=
  ⟨{}, 7, 4, 0, _, by decide +kernel, by decide +kernel, by decide +kernel, rfl⟩

theorem witness_LightCommandsComplete_9 : ∃ s : State, ∃ d, ∃ c, ∃ r : Nat, ∃ t, 4 ≤ d ∧ d < 8 ∧ c < gldChans (d - 4) ∧ t =
    s.portEvent 0x2206 d [5, c] :=
  ⟨{}, 7, 4, 0, _, by decide +kernel, by decide +kernel, by decide +kernel, rfl⟩

theorem witness_LightCommandsComplete_10 : ∃ s : State, ∃ d, 4 ≤ d ∧ d < 8 ∧ (s.gleed d).apr = false :=
  ⟨{}, 4, by decide +kernel⟩

theorem witness_LightCommandsComplete_11 : ∃ s : State, ∃ d, 4 ≤ d ∧ d < 8 ∧ (s.gleed d).apr = true :=
  ⟨{ gleeds := [(3, { apr := true })] }, 7, by decide +kernel⟩

theorem witness_LightCommandsComplete_12 : ∃ s : State, ∃ d, ∃ t, 4 ≤ d ∧ d < 8 ∧ (s.gleed d).apr = true ∧ t = s.modGleed d (fun
    g => { g with apr := false }) :=
  ⟨{ gleeds := [(3, { apr := true })] }, 7, _, by decide +kernel, by decide +kernel, by decide +kernel, rfl⟩

theorem witness_LightCommandsComplete_13 : ∃ s : State, s.boot ≠ .off :=
  ⟨{ boot := .rom }, by decide +kernel⟩

/-! ClockCommandsComplete. -/

theorem witness_ClockCommandsComplete_1 : ∃ s : State, ∃ t, s.clk.tclk = false ∧ s.boot ≠ .off ∧ t = s.modClk (fun c =>
    { c with tclk := true, running := true, holdover := false }) :=
  ⟨{ boot := .rom }, _, by decide +kernel, by decide +kernel, rfl⟩

theorem witness_ClockCommandsComplete_2 : ∃ s : State, ∃ t, s.clk.tclk = true ∧ t = s.modClk (fun c =>
    { c with tclk := false, holdover := true, synced := false, misses := 0, pulse := none, ignored := none, sampled := false })
    :=
  ⟨{ clk := { tclk := true } }, _, by decide +kernel, rfl⟩

theorem witness_ClockCommandsComplete_3 : ∃ s : State, ∃ t, s.clk.running = true ∧ s.clk.tclk = true ∧ s.clk.synced = false ∧
    s.clk.rack % tickLen = 0 ∧ t = s.modClk (fun c => { c with sampled := true, misses := 0 }) :=
  ⟨{ clk := { running := true, tclk := true } }, _, by decide +kernel, by decide +kernel, by decide +kernel, by decide +kernel,
    rfl⟩

theorem witness_ClockCommandsComplete_4 : ∃ s : State, ∃ e : Int, ∃ t, s.clk.running = true ∧ s.clk.tclk = true ∧ s.clk.synced =
    true ∧ e = sext 20 (s.clk.rack % tickLen) ∧ e.natAbs ≤ 16 ∧ t = s.modClk (fun c => { c with sampled := true, misses := 0 })
    :=
  ⟨{ clk := { running := true, tclk := true, synced := true, rack := 16 } }, _, _, by decide +kernel, by decide +kernel,
    by decide +kernel, rfl, by decide +kernel, rfl⟩

theorem witness_ClockCommandsComplete_5 : ∃ s : State, ∃ e : Int, ∃ t, s.clk.running = true ∧ s.clk.tclk = true ∧ s.clk.synced =
    true ∧ e = sext 20 (s.clk.rack % tickLen) ∧ 16 < e.natAbs ∧ s.clk.ignored = none ∧ t = s.modClk (fun c =>
    { c with sampled := true, misses := 0 }) :=
  ⟨{ clk := { running := true, tclk := true, synced := true, rack := 17 } }, _, _, by decide +kernel, by decide +kernel,
    by decide +kernel, rfl, by decide +kernel, by decide +kernel, rfl⟩

theorem witness_ClockCommandsComplete_6 : ∃ s : State, ∃ n, s.clk.synced = true ∧ s.clk.sampled = false ∧ n = s.clk.misses + 1
    :=
  ⟨{ clk := { synced := true, misses := 3 } }, _, by decide +kernel, by decide +kernel, rfl⟩

theorem witness_ClockCommandsComplete_7 : ∃ s : State, s.clk.synced = true ∧ s.clk.sampled = true :=
  ⟨{ clk := { synced := true, sampled := true } }, by decide +kernel⟩

theorem witness_ClockCommandsComplete_8 : ∃ s : State, s.clk.running = true ∧ s.clk.rack % tickLen < 2 :=
  ⟨{ clk := { running := true, rack := 1 } }, by decide +kernel⟩

theorem witness_ClockCommandsComplete_9 : ∃ s : State, s.clk.aclkLost = false ∧ s.boot ≠ .off :=
  ⟨{ boot := .rom }, by decide +kernel⟩

/-! TimeMeasurementsComplete. -/

theorem witness_TimeMeasurementsComplete_1 : ∃ s : State, ∃ d, d < 8 ∧ s.timeUp d = true ∧ s.measure d = none :=
  ⟨wLink { st := .active }, 0, by decide +kernel⟩

theorem witness_TimeMeasurementsComplete_2 : ∃ s : State, ∃ d, ∃ m, s.timeUp d = true ∧ s.measure d = some m ∧ m.next < 8 :=
  ⟨{ links := [(0, { st := .active })], measures := [(0, { next := 7 })] }, 0, { next := 7 }, by decide +kernel⟩

theorem witness_TimeMeasurementsComplete_3 : ∃ s : State, ∃ d, ∃ b, ∃ t, d < 8 ∧ osGood b = true ∧ u8 b 0 = 0xA9 ∧ s.timeUp d =
    true ∧ t = s.machineTime % 2 ^ 48 :=
  ⟨wLink { st := .active }, 0, wOs 0xA9 0 0 0 0 0, _, by decide +kernel, by decide +kernel, by decide +kernel, by decide +kernel,
    rfl⟩

theorem witness_TimeMeasurementsComplete_4 : ∃ s : State, ∃ d, ∃ b, ∃ m : Measure, ∃ t1, ∃ r : Int, ∃ o : Int, d < 8 ∧ osGood b
    = true ∧ u8 b 0 = 0xAA ∧ s.measure d = some m ∧ tfind m.t1 (u8 b 1) = some t1 ∧ r = sext 48 ((s.machineTime % 2 ^ 48 + 2 ^
    48 - t1) % 2 ^ 48) - sext 48 ((u48 b 8 + 2 ^ 48 - u48 b 2) % 2 ^ 48) ∧ o = sext 48 ((u48 b 2 + 2 ^ 48 - t1) % 2 ^ 48) - sext
    48 ((s.machineTime % 2 ^ 48 + 2 ^ 48 - u48 b 8) % 2 ^ 48) :=
  ⟨{ links := [(0, { st := .active })], measures := [(0, { t1 := [(7, 5)] })] }, 0, wOs 0xAA 7 0 0 0 0, { t1 := [(7, 5)] }, 5, _,
    _, by decide +kernel, by decide +kernel, by decide +kernel, by decide +kernel, by decide +kernel, rfl, rfl⟩

theorem witness_TimeMeasurementsComplete_5 : ∃ s : State, ∃ d, ∃ m, s.measure d = some m ∧ m.pairs.length < 4 :=
  ⟨{ links := [(0, { st := .active })], measures := [(0, { pairs := [(0, 0, 0), (1, 0, 0), (2, 0, 0)] })] }, 0,
    { pairs := [(0, 0, 0), (1, 0, 0), (2, 0, 0)] }, by decide +kernel⟩

theorem witness_TimeMeasurementsComplete_6 : ∃ s : State, ∃ d, ∃ m : Measure, ∃ g : Nat, ∃ r : Int, ∃ o : Int, ∃ t, d < 4 ∧
    s.measure d = some m ∧ 4 ≤ m.pairs.length ∧ bestPair m.pairs = some (g, r, o) ∧ t = (State.setReg
    { s with measures := tdel s.measures d } (adrClkPortOffset d) (wd (twos 32 (5 * o)))).setReg (adrClkPortDelay d) (wd (twos
    31 (5 * r) + 2 ^ 31)) ∧ (5 * o).natAbs ≤ t.rf adrClkTimeCfg 31 16 :=
  ⟨{ links := [(0, { st := .active })], measures := [(0, { pairs := [(0, 5, 1), (1, 4, 2), (2, 3, 3), (3, 2, 4)] })] }, 0,
    { pairs := [(0, 5, 1), (1, 4, 2), (2, 3, 3), (3, 2, 4)] }, 3, 2, 4, _, by decide +kernel, by decide +kernel,
    by decide +kernel, by decide +kernel, rfl, by decide +kernel⟩

/-! ValveCommandsComplete. -/

theorem witness_ValveCommandsComplete_1 : ∃ s : State, ∃ v, ∃ du, ∃ me, ∃ o, ∃ t, ∃ c, v < 8 ∧ s.valveMs % 100 = 12 * v % 100 ∧
    s.aux = true ∧ s.bel.st ≠ .dark ∧ v ≠ 5 ∧ o = s.openAt v s.valveMs du me ∧ t = s.setSection v
    { s.section v with openMs := o } ∧ c = t.closedMs v o ∧ 0 < c :=
  ⟨wSet { bel := { st := .sourceBus } } [(adrQchCfg, 2), (adrQchValveCfg 0, 50 * 2 ^ 21 + 20)], 0, 0, 0, _, _, _,
    by decide +kernel, by decide +kernel, by decide +kernel, by decide +kernel, by decide +kernel, rfl, rfl, rfl,
    by decide +kernel⟩

theorem witness_ValveCommandsComplete_2 : ∃ s : State, ∃ v, ∃ du, ∃ me, ∃ o, ∃ t, v < 8 ∧ s.valveMs % 100 = 12 * v % 100 ∧ s.aux
    = true ∧ s.bel.st ≠ .dark ∧ v ≠ 5 ∧ o = s.openAt v s.valveMs du me ∧ t = s.setSection v { s.section v with openMs := o } ∧
    t.closedMs v o = 0 :=
  ⟨wSet { bel := { st := .sourceBus } } [(adrQchCfg, 2), (adrQchValveCfg 0, 100 * 2 ^ 21 + 20)], 0, 0, 0, _, _, by decide +kernel,
    by decide +kernel, by decide +kernel, by decide +kernel, by decide +kernel, rfl, rfl, by decide +kernel⟩

theorem witness_ValveCommandsComplete_3 : ∃ s : State, ∃ v, ∃ c, ∃ t, v < 8 ∧ (s.valve v).phase = .pullIn ∧ t = s.dip v c ∧
    (t.valve v).startAt + t.pullTime v < (t.valve v).endAt :=
  ⟨{ bel := { st := .sourceBus }, qch := { valves := [(0, { phase := .pullIn, endAt := 100 })] } }, 0, none, _, by decide +kernel,
    by decide +kernel, rfl, by decide +kernel⟩

theorem witness_ValveCommandsComplete_4 : ∃ s : State, ∃ v, ∃ c, ∃ t, v < 8 ∧ (s.valve v).phase = .pullIn ∧ t = s.dip v c ∧
    (t.valve v).endAt ≤ (t.valve v).startAt + t.pullTime v :=
  ⟨{ bel := { st := .sourceBus }, qch := { valves := [(0, { phase := .pullIn })] } }, 0, none, _, by decide +kernel,
    by decide +kernel, rfl, by decide +kernel⟩

theorem witness_ValveCommandsComplete_5 : ∃ s : State, ∃ v, ∃ c, ∃ t, v < 8 ∧ (s.valve v).phase = .hold ∧ t = s.dip v c :=
  ⟨{ bel := { st := .sourceBus }, qch := { valves := [(0, { phase := .hold })] } }, 0, none, _, by decide +kernel,
    by decide +kernel, rfl⟩

theorem witness_ValveCommandsComplete_6 : ∃ s : State, ∃ v, v < 8 ∧ (s.valve v).phase = .releaseWait :=
  ⟨{ bel := { st := .sourceBus }, qch := { valves := [(0, { phase := .releaseWait })] } }, 0, by decide +kernel⟩

theorem witness_ValveCommandsComplete_7 : ∃ s : State, ∃ v, v < 8 ∧ (s.valve v).phase = .forcedOff :=
  ⟨{ bel := { st := .sourceBus }, qch := { valves := [(0, { phase := .forcedOff })] } }, 0, by decide +kernel⟩

theorem witness_ValveCommandsComplete_8 : ∃ s : State, ∃ v, v < 8 ∧ (s.valve v).phase = .pullIn :=
  ⟨{ bel := { st := .sourceBus }, qch := { valves := [(0, { phase := .pullIn })] } }, 0, by decide +kernel⟩

theorem witness_ValveCommandsComplete_9 : ∃ s : State, ∃ v, v < 8 ∧ ((s.valve v).phase = .pullIn ∨ (s.valve v).phase = .hold) :=
  ⟨{ bel := { st := .sourceBus }, qch := { valves := [(0, { phase := .hold })] } }, 0, by decide +kernel⟩

/-! HeatCommandsComplete. -/

theorem witness_HeatCommandsComplete_1 : ∃ s : State, ∃ h : List (List (List Nat)), ∃ m : List Nat, ∃ t, ∃ u, s.boot ≠ .off ∧
    s.boot ≠ .rom ∧ s.boot ≠ .recovery ∧ t = State.each (s.each allParts State.dropHints) allSections (fun y x => y.setSection x
    (judgeBin (y.section x) (m.getD x 0))) ∧ u = t.each allSections (fun y x => y.setSection x
    { y.section x with bins := (allSections.map fun z => (List.range 64).map (t.binHeat h z)).getD x [] }) :=
  ⟨{ boot := .firmware }, [], [], _, _, by decide +kernel, by decide +kernel, by decide +kernel, rfl, rfl⟩

theorem witness_HeatCommandsComplete_2 : ∃ s : State, s.aux = true :=
  ⟨{}, by decide +kernel⟩

theorem witness_HeatCommandsComplete_3 : ∃ k, ∃ s : State, ∃ x, ∃ t, ∃ d, ∃ u, ∃ n, Starts s 0x81 k x t ∧ (t.dropHints
    x.part).load x.part (u32 x.bytes 0x10) (16 * u16 x.bytes 0x14) = (some d, u) ∧ n = u.takeHints x.part ((List.range (u16
    x.bytes 0x14)).map fun i => slice d (16 * i) 16) 0 :=
  ⟨0, wOne 0x81 [] {}, wPkt 0x81 [], _, [], State.dropHints (State.startPkt (wOne 0x81 [] {}) 0 (wPkt 0x81 [])) 0, _,
    ⟨by decide +kernel, rfl⟩, by decide +kernel, rfl⟩

theorem witness_HeatCommandsComplete_4 : ∃ s : State, ∃ x, ∃ t, ∃ ma : Nat, ∃ c, x < 8 ∧ s.aux = true ∧ c = [1, 2, 3].map (fun j
    => if t + 200 ≤ 100 * s.limit x j then min 100 ((s.section x).cool.getD (j - 1) 0 + 1) else 0) :=
  ⟨{}, 7, 8000, 0, _, by decide +kernel, by decide +kernel, rfl⟩

theorem witness_HeatCommandsComplete_5 : ∃ s : State, ∃ x, ∃ t, x < 8 ∧ s.level x ≠ 4 ∧ t = s.event 0x410A x 0xFF ∧ (t.section
    x).level < 2 :=
  ⟨{}, 7, _, by decide +kernel, by decide +kernel, rfl, by decide +kernel⟩

theorem witness_HeatCommandsComplete_7 : ∃ s : State, ∃ k, ∃ x, ∃ a, s.startable k x.opcode = some x ∧ s.pkt k = some x ∧
    stopAnvil x = some a ∧ s.stopOn a = true :=
  ⟨wOne 0x20 [] { qch := { sections := [(0, { level := 2 })] } }, 0, wPkt 0x20 [], 0, by decide +kernel⟩

theorem witness_HeatCommandsComplete_8 : ∃ s : State, ∃ c, ∃ o, ∃ tr, ∃ id : Nat, ∃ x, ∃ t, s.qch.cal = some x ∧ x < 7 ∧ 8 ≤ c ∧
    c ≤ 60 ∧ o ≤ c ∧ 5 ≤ tr ∧ tr ≤ 96 ∧ t = s.setReg (adrQchValveCal x) (wd (c + 2 ^ 7 * tr + 2 ^ 14)) :=
  ⟨{ qch := { cal := some 6 } }, 60, 60, 96, 0, 6, _, by and_intros <;> first | decide +kernel | rfl⟩

/-! BringUpCompletes. -/

theorem witness_BringUpCompletes_1 : ∃ s : State, s.aux = false :=
  ⟨{ aux := false }, by decide +kernel⟩

theorem witness_BringUpCompletes_2 : ∃ s : State, s.aux = true ∧ s.nvs.busy = none :=
  ⟨{}, by decide +kernel⟩

theorem witness_BringUpCompletes_3 : ∃ s : State, ∃ o, s.aux = true ∧ s.nvs.busy = some o :=
  ⟨{ nvs := wNv .boundary }, .boundary, by decide +kernel⟩

theorem witness_BringUpCompletes_4 : ∃ s : State, ∃ c, s.boot ≠ .off ∧ 2 ≤ c ∧ c ≤ 5 :=
  ⟨{ boot := .recovery }, 5, by decide +kernel⟩

theorem witness_BringUpCompletes_5 : ∃ s : State, s.boot ≠ .off :=
  ⟨{ boot := .rom }, by decide +kernel⟩

theorem witness_BringUpCompletes_6 : ∃ s : State, ∃ k, s.boot ≠ .off ∧ 1 ≤ k ∧ k ≤ 3 :=
  ⟨{ boot := .ready }, 3, by decide +kernel⟩

theorem witness_BringUpCompletes_7 : ∃ s : State, s.boot = .rom :=
  ⟨{ boot := .rom }, by decide +kernel⟩

theorem witness_BringUpCompletes_8 : ∃ s : State, ∃ f : List Nat, ∃ b, s.boot = .recovery ∧ s.nvs.sideImage = some b :=
  ⟨{ boot := .recovery, nvs := { sideImage := some [] } }, [], [], by decide +kernel⟩

theorem witness_BringUpCompletes_9 : ∃ s : State, s.rf adrGlbFaultStatus 20 20 = 0 ∧ s.boot = .stage ∧ s.valvesOpen = false :=
  ⟨wSet { boot := .stage } ((List.range 8).map fun v => (adrQchValveCal v, 2 ^ 14)), by decide +kernel⟩

theorem witness_BringUpCompletes_10 : ∃ s : State, s.rf adrGlbFaultStatus 20 20 = 0 ∧ s.boot = .stage ∧ s.valvesOpen = true :=
  ⟨{ boot := .stage }, by decide +kernel⟩

theorem witness_BringUpCompletes_11 : ∃ s : State, s.rf adrGlbFaultStatus 20 20 = 0 ∧ s.boot = .calibrating ∧ s.qch.cal = none
    :=
  ⟨{ boot := .calibrating }, by decide +kernel⟩

/-! AntennationCompletes. -/

theorem witness_AntennationCompletes_1 : ∃ s : State, ∃ d, s.flitUp d = true :=
  ⟨wLink { st := .active }, 0, by decide +kernel⟩

theorem witness_AntennationCompletes_2 : ∃ s : State, ∃ d, ∃ b, ∃ x, s.delivered.find? (fun y => y.part == 8 && y.port == d &&
    y.bytes == b) = some x ∧ u8 b 32 = 1 :=
  ⟨{ delivered := [⟨0, 6, 8, wFrame 9 6 [1], 0⟩] }, 0, wFrame 9 6 [1], ⟨0, 6, 8, wFrame 9 6 [1], 0⟩, by decide +kernel⟩

theorem witness_AntennationCompletes_3 : ∃ s : State, ∃ d, ∃ b, ∃ x, s.delivered.find? (fun y => y.part == 8 && y.port == d &&
    y.bytes == b) = some x ∧ u8 b 32 = 2 :=
  ⟨{ delivered := [⟨0, 6, 8, wFrame 9 6 [2], 0⟩] }, 0, wFrame 9 6 [2], ⟨0, 6, 8, wFrame 9 6 [2], 0⟩, by decide +kernel⟩

theorem witness_AntennationCompletes_4 : ∃ s : State, ∃ d, ∃ n, (s.link d).st = .active ∧ n = s.rf (adrAntPortState d) 1 0 ∧ (n
    = 1 ∨ n = 2) :=
  ⟨wSet (wLink { st := .active }) [(adrAntPortState 0, 1)], 0, _, by decide +kernel, rfl, by decide +kernel⟩

/-! RecorderCompletes. -/

theorem witness_RecorderCompletes_1 : ∃ s : State, ∃ e, ∃ q, s.boot ≠ .off ∧ s.evr.queue = e :: q :=
  ⟨{ boot := .rom, evr := { queue := [⟨0x0101, 0, 0, [], 0, 0, 0⟩] } }, ⟨0x0101, 0, 0, [], 0, 0, 0⟩, [], by decide +kernel⟩

theorem witness_RecorderCompletes_3 : ∃ s : State, ∃ i, ∃ r, s.boot ≠ .off ∧ s.nvs.running = none ∧ s.nvs.host = none ∧
    s.unarchived = some (i, r) :=
  ⟨{ boot := .rom, evr := { slots := [(0, wRecord)] } }, 0, wRecord, by decide +kernel⟩

theorem witness_RecorderCompletes_4 : ∃ s : State, ∃ x, s.boot ≠ .off ∧ s.nvs.running = none ∧ s.unarchived = none ∧
    s.evr.persist = some x ∧ s.evr.queue = [] :=
  ⟨{ boot := .rom, evr := { persist := some ⟨0, 2, 0, []⟩ } }, ⟨0, 2, 0, []⟩, by decide +kernel⟩

theorem witness_RecorderCompletes_5 : ∃ k, ∃ s : State, ∃ x, ∃ t, ∃ rs, Starts s 0x90 k x t ∧ bitAt (u8 x.bytes 0x14) 0 = true ∧
    rs = (t.evr.slots.filter fun (i, r) => decide (u16 x.bytes 0x10 ≤ i) && sees x.fn r).take (u16 x.bytes 0x12) ∧ rs.length =
    u16 x.bytes 0x12 :=
  ⟨0, wOne 0x90 [0, 0, 1, 0, 1] { evr := { slots := [(0, wRecord)] } }, wPkt 0x90 [0, 0, 1, 0, 1], _, _, ⟨by decide +kernel, rfl⟩,
    by decide +kernel, rfl, by decide +kernel⟩

theorem witness_RecorderCompletes_6 : ∃ k, ∃ s : State, ∃ x, ∃ t, Starts s 0x91 k x t ∧ t.clearRefused false = false :=
  ⟨0, wOne 0x91 [] {}, wPkt 0x91 [], _, ⟨by decide +kernel, rfl⟩, by decide +kernel⟩

theorem witness_RecorderCompletes_7 : ∃ k, ∃ s : State, ∃ x, ∃ t, Starts s 0x91 k x t ∧ t.clearRefused false = true :=
  ⟨0, wOne 0x91 [] { evr := { slots := [(0, wRecord)] } }, wPkt 0x91 [], _, ⟨by decide +kernel, rfl⟩, by decide +kernel⟩

theorem witness_RecorderCompletes_8 : ∃ k, ∃ s : State, ∃ x, ∃ t, Starts s 0x92 k x t :=
  ⟨0, wOne 0x92 [] {}, wPkt 0x92 [], _, ⟨by decide +kernel, rfl⟩⟩

/-! FlashCommandsComplete. -/

theorem witness_FlashCommandsComplete_1 : ∃ k, ∃ s : State, ∃ x, ∃ t, ∃ o, Starts s 0xA0 k x t ∧ t.flashBusy = false ∧
    t.slotInUse false ≠ some (u8 x.bytes 0x10) ∧ u32 x.bytes 0x20 ≤ slotBytesMax false ∧ o = t.readOps 8 (u64 x.bytes 0x18) (u32
    x.bytes 0x20) (.firmware k) 0 ∧ o ≠ [] :=
  ⟨0, wOne 0xA0 ([1] ++ leBytes 15 0 ++ leBytes 4 64) {}, wPkt 0xA0 ([1] ++ leBytes 15 0 ++ leBytes 4 64), _, _,
    ⟨by decide +kernel, rfl⟩, by decide +kernel, by decide +kernel, by decide +kernel, rfl, by decide +kernel⟩

theorem witness_FlashCommandsComplete_2 : ∃ k, ∃ s : State, ∃ x, ∃ t, ∃ o, Starts s 0xA2 k x t ∧ t.flashBusy = false ∧
    t.slotInUse true ≠ some (u8 x.bytes 0x10) ∧ u32 x.bytes 0x20 ≤ slotBytesMax true ∧ o = t.readOps 8 (u64 x.bytes 0x18) (u32
    x.bytes 0x20) (.firmware k) 0 ∧ o ≠ [] :=
  ⟨0, wOne 0xA2 ([1] ++ leBytes 15 0 ++ leBytes 4 64) {}, wPkt 0xA2 ([1] ++ leBytes 15 0 ++ leBytes 4 64), _, _,
    ⟨by decide +kernel, rfl⟩, by decide +kernel, by decide +kernel, by decide +kernel, rfl, by decide +kernel⟩

theorem witness_FlashCommandsComplete_3 : ∃ k, ∃ s : State, ∃ x, ∃ t, Starts s 0xA1 k x t ∧ t.flashBusy = false ∧
    t.activateRefused (u8 x.bytes 0x10) = false :=
  ⟨0, wOne 0xA1 [] {}, wPkt 0xA1 [], _, ⟨by decide +kernel, rfl⟩, by decide +kernel⟩

theorem witness_FlashCommandsComplete_4 : ∃ k, ∃ s : State, ∃ x, ∃ t, Starts s 0xA3 k x t ∧ t.flashBusy = false :=
  ⟨0, wOne 0xA3 [] {}, wPkt 0xA3 [], _, ⟨by decide +kernel, rfl⟩, by decide +kernel⟩

theorem witness_FlashCommandsComplete_5 : ∃ s : State, ∃ h, ∃ j, ∃ n, ∃ c, ∃ w, ∃ o, s.nvs.current = some (h, j) ∧ j.ops =
    .erase n c w :: o :=
  ⟨{ nvs := wNv (.erase 4 1 1) }, true, ((wNv (.erase 4 1 1)).host).getD ⟨0, 0, 0, false, 0, [], [], false⟩, 4, 1, 1, [],
    by decide +kernel⟩

theorem witness_FlashCommandsComplete_6 : ∃ s : State, ∃ h, ∃ j, ∃ a, ∃ d, ∃ o, ∃ b : Nat, s.nvs.current = some (h, j) ∧ j.ops =
    .prog a d :: o :=
  ⟨{ nvs := wNv (.prog 0 [0]) }, true, ((wNv (.prog 0 [0])).host).getD ⟨0, 0, 0, false, 0, [], [], false⟩, 0, [0], [], 0,
    by decide +kernel⟩

theorem witness_FlashCommandsComplete_7 : ∃ s : State, ∃ h, ∃ j, ∃ n, ∃ c, ∃ w, ∃ o, ∃ t, s.nvs.current = some (h, j) ∧ j.ops =
    .erase n c w :: o ∧ 4 ≤ n ∧ t = State.bump (s.nvCut (.erase n c w)) adrFlashFaults :=
  ⟨{ nvs := wNv (.erase 4 1 1) }, true, ((wNv (.erase 4 1 1)).host).getD ⟨0, 0, 0, false, 0, [], [], false⟩, 4, 1, 1, [], _,
    by decide +kernel, by decide +kernel, by decide +kernel, rfl⟩

theorem witness_FlashCommandsComplete_8 : ∃ s : State, s.boot = .ready :=
  ⟨{ boot := .ready }, by decide +kernel⟩

/-! SidebandCompletes. -/

theorem witness_SidebandCompletes_1 : ∃ s : State, ∃ d, ∃ t, s.boot ≠ .off ∧ t =
    { s with side := { s.side with eid := u8 d 1 } } :=
  ⟨{ boot := .recovery }, [0, 8], _, by decide +kernel, rfl⟩

theorem witness_SidebandCompletes_2 : ∃ s : State, ∃ d, ∃ v, s.boot ≠ .off ∧ s.boot ≠ .recovery ∧ s.sensor (u16 d 0) = some v ∧
    u16 d 0 ≠ 17 :=
  ⟨{ boot := .rom }, [0, 0], (State.sensor ({ boot := .rom }) 0).getD 0, by decide +kernel⟩

theorem witness_SidebandCompletes_3 : ∃ s : State, ∃ d, ∃ v, s.boot ≠ .off ∧ s.boot ≠ .recovery ∧ s.sensor 17 = some v ∧ u16 d 0
    = 17 :=
  ⟨{ boot := .rom }, [17, 0], (State.sensor ({ boot := .rom }) 17).getD 0, by decide +kernel⟩

theorem witness_SidebandCompletes_4 : ∃ s : State, ∃ d : List Byte, s.boot ≠ .off ∧ s.flashBusy = false :=
  ⟨{ boot := .ready }, [], by decide +kernel⟩

theorem witness_SidebandCompletes_5 : ∃ s : State, ∃ d : List Byte, s.boot ≠ .off ∧ s.nvs.pldm.st = 3 :=
  ⟨{ boot := .ready, nvs := { pldm := { st := 3 } } }, [], by decide +kernel⟩

theorem witness_SidebandCompletes_6 : ∃ s : State, ∃ d : List Byte, s.boot ≠ .off ∧ s.nvs.pldm.st = 4 :=
  ⟨{ boot := .ready, nvs := { pldm := { st := 4 } } }, [], by decide +kernel⟩

theorem witness_SidebandCompletes_7 : ∃ s : State, ∃ d : List Byte, s.boot ≠ .off ∧ s.nvs.pldm.st = 5 ∧ s.nvs.host = none :=
  ⟨{ boot := .ready, nvs := { pldm := { st := 5 } } }, [], by decide +kernel⟩

theorem witness_SidebandCompletes_8 : ∃ s : State, s.boot ≠ .off ∧ s.boot ≠ .recovery ∧ s.nvs.pldm.st = 6 :=
  ⟨{ boot := .ready, nvs := { pldm := { st := 6 } } }, by decide +kernel⟩

theorem witness_SidebandCompletes_9 : ∃ s : State, s.boot = .recovery ∧ s.nvs.pldm.st = 6 :=
  ⟨{ boot := .recovery, nvs := { pldm := { st := 6 } } }, by decide +kernel⟩

theorem witness_SidebandCompletes_10 : ∃ s : State, ∃ a : Nat, ∃ b : Nat, ∃ d : List Byte, s.boot ≠ .off ∧ s.boot ≠ .recovery :=
  ⟨{ boot := .rom }, 0, 0, [], by decide +kernel⟩

theorem witness_SidebandCompletes_11 : ∃ s : State, ∃ p, ∃ d : List Byte, s.boot ≠ .off ∧ s.boot ≠ .recovery ∧ s.side.spdm = 3 ∧
    1 ≤ p ∧ p ≤ 4 :=
  ⟨{ boot := .rom, side := { spdm := 3 } }, 4, [], by decide +kernel⟩

theorem witness_SidebandCompletes_12 : ∃ s : State, ∃ k : Nat, ∃ b : Nat, s.boot ≠ .off ∧ s.rf adrSecState 16 16 = 0 :=
  ⟨{ boot := .rom }, 0, 0, by decide +kernel⟩

theorem witness_SidebandCompletes_13 : ∃ s : State, ∃ i, s.aux = true ∧ i ≤ 5 :=
  ⟨{}, 5, by decide +kernel⟩

/-! LinkCommandsFrame. -/

theorem witness_LinkCommandsFrame_1 : ∃ d, ∃ m, ∃ s : State, ∃ t, d < 8 ∧ (s.link d).step = 1 ∧ exec (.trainingStepTimeout d m)
    s = .next t :=
  ⟨0, 1, wLink { st := .training, step := 1, allot := 8 }, _, by decide +kernel, by decide +kernel, rfl⟩

theorem witness_LinkCommandsFrame_2 : ∃ d, d < 8 :=
  ⟨7, by decide +kernel⟩

theorem witness_LinkCommandsFrame_3 : ∃ d, ∃ s : State, ∃ t, d < 8 ∧ (s.link d).txq = [] ∧ exec (.flitSlot d) s = .next t :=
  ⟨0, wLink { st := .active }, _, by decide +kernel, by decide +kernel, rfl⟩

theorem witness_LinkCommandsFrame_7 : ∃ d, ∃ b, ∃ s : State, ∃ t, d < 8 ∧ (s.link d).early = false ∧ exec (.linkReqReceived d b)
    s = .next t :=
  ⟨0, osBytes 0xA2 0x80 255 1 0, wLink { st := .active, active := 1 }, _, by decide +kernel, by decide +kernel, rfl⟩

theorem witness_LinkCommandsFrame_8 : ∃ d, ∃ b, ∃ s : State, ∃ t, d < 8 ∧ (s.link d).early = false ∧ exec (.linkAckReceived d b)
    s = .next t :=
  ⟨0, osBytes 0xA3 0x80 255 1 0, wLink { st := .active, active := 1, req := some ⟨1, 1, 8, 255⟩ }, _, by decide +kernel,
    by decide +kernel, rfl⟩

/-! PfHearthWrite. -/

theorem witness_PfHearthWrite_1 : ∃ s : State, ∃ a, ∃ d, ∃ e, d ≠ [] ∧ a + d.length ≤ 128 * granBytes ∧ s.barReset 0 a d.length
    = none ∧ (∀ x ∈ e, x.2 = false) ∧ s.hostWaits (.bar2Write 0 a d e) = false :=
  ⟨{}, 128 * granBytes - 2, [1, 2], [], by decide +kernel⟩

/-! WritesWhileResettingDrop. -/

theorem witness_WritesWhileResettingDrop_1 : ∃ s : State, ∃ fn, ∃ o, ∃ a, ∃ v : Nat, ∃ d, ∃ i, ∃ j, ∃ p, s.fnExists fn = true ∧
    o % 4 = 0 ∧ s.place fn o = .reg a ∧ locate a = some (d, i, j) ∧ instPart d i = some p ∧ s.inReset p = true ∧ d.name ≠
    "PRT_CTRL" ∧ s.hostHeld = false ∧ s.granuleBusy a = false :=
  ⟨wPart {} { st := .resetting ⟨3, false, false, false⟩ }, 0, 0x800000, 0x800000, 1, ((locate 0x800000).get
    (by decide +kernel)).1, ((locate 0x800000).get (by decide +kernel)).2.1, ((locate 0x800000).get (by decide +kernel)).2.2, 0,
    by decide +kernel⟩

theorem witness_WritesWhileResettingDrop_2 : ∃ s : State, ∃ fn, ∃ o, ∃ a, ∃ v : Nat, ∃ d, ∃ i, ∃ j, ∃ p, s.fnExists fn = true ∧
    o % 4 = 0 ∧ s.place fn o = .reg a ∧ locate a = some (d, i, j) ∧ instPart d i = some p ∧ s.inReset p = true ∧ d.name =
    "PRT_CTRL" ∧ s.hostHeld = false ∧ s.granuleBusy a = false :=
  ⟨wPart {} { st := .resetting ⟨3, false, false, false⟩ }, 0, 0x200004, 0x200004, 1, ((locate 0x200004).get
    (by decide +kernel)).1, ((locate 0x200004).get (by decide +kernel)).2.1, ((locate 0x200004).get (by decide +kernel)).2.2, 0,
    by decide +kernel⟩

theorem witness_WritesWhileResettingDrop_3 : ∃ s : State, ∃ fn, ∃ o, ∃ v, s.fnExists fn = true ∧ o % 4 = 0 ∧ v < 2 ^ 32 ∧
    s.hostWaits (.wordWrite fn o v) = true :=
  ⟨{ hrt := { hostWait := [.regWrite 0 0 0] } }, 0, 0x10, 1, by decide +kernel⟩

theorem witness_WritesWhileResettingDrop_4 : ∃ s : State, ∃ fn, ∃ o, ∃ a, ∃ v : Nat, ∃ d, ∃ i, ∃ j, ∃ p, s.place fn o = .reg a ∧
    locate a = some (d, i, j) ∧ instPart d i = some p ∧ s.inReset p = true ∧ d.name ≠ "PRT_CTRL" :=
  ⟨wPart {} { st := .resetting ⟨3, false, false, false⟩ }, 0, 0x800000, 0x800000, 1, ((locate 0x800000).get
    (by decide +kernel)).1, ((locate 0x800000).get (by decide +kernel)).2.1, ((locate 0x800000).get (by decide +kernel)).2.2, 0,
    by decide +kernel⟩

/-! SemaphoreRegisterWrites. -/

theorem witness_SemaphoreRegisterWrites_1 : ∃ s : State, ∃ fn, ∃ p, ∃ i, ∃ v, Reaches s fn p ∧ i < 256 ∧ v < 2 ^ 32 ∧ (s.sem p
    i).waiters = [] :=
  ⟨{}, 0, 0, 255, 0xFFFFFFFF, ⟨by decide +kernel, by decide +kernel, by decide +kernel, by decide +kernel⟩, by decide +kernel⟩

theorem witness_SemaphoreRegisterWrites_2 : ∃ s : State, ∃ fn, ∃ p, ∃ i, ∃ v, Reaches s fn p ∧ i < 256 ∧ v < 2 ^ 32 ∧ (s.sem p
    i).waiters ≠ [] :=
  ⟨wPart {} { sems := [(255, { waiters := [(.tong 0, 1)] })] }, 0, 0, 255, 1, ⟨by decide +kernel, by decide +kernel,
    by decide +kernel, by decide +kernel⟩, by decide +kernel⟩

theorem witness_SemaphoreRegisterWrites_3 : ∃ s : State, ∃ fn, ∃ p, ∃ i, ∃ v, Reaches s fn p ∧ i < 256 ∧ 1 ≤ v ∧ v ≤ 255 :=
  ⟨{}, 0, 0, 0, 255, ⟨by decide +kernel, by decide +kernel, by decide +kernel, by decide +kernel⟩, by decide +kernel⟩

theorem witness_SemaphoreRegisterWrites_4 : ∃ s : State, ∃ fn, ∃ p, ∃ i, ∃ v, Reaches s fn p ∧ i < 256 ∧ v < 2 ^ 32 ∧ (v % 256 =
    0 ∨ 255 < v) :=
  ⟨{}, 0, 0, 0, 256, ⟨by decide +kernel, by decide +kernel, by decide +kernel, by decide +kernel⟩, by decide +kernel⟩

theorem witness_SemaphoreRegisterWrites_5 : ∃ s : State, ∃ fn, ∃ p, ∃ i, ∃ v, Reaches s fn p ∧ i < 256 ∧ 1 ≤ v ∧ v ≤ 255 ∧
    (s.sem p i).waiters = [] ∧ (s.sem p i).value + v ≤ 0xFFFFFFFF :=
  ⟨wPart {} { sems := [(0, { value := 0xFFFFFF00 })] }, 0, 0, 0, 255, ⟨by decide +kernel, by decide +kernel, by decide +kernel,
    by decide +kernel⟩, by decide +kernel⟩

theorem witness_SemaphoreRegisterWrites_6 : ∃ s : State, ∃ fn, ∃ p, ∃ i, ∃ v, Reaches s fn p ∧ i < 256 ∧ 1 ≤ v ∧ v ≤ 255 ∧
    (s.sem p i).waiters = [] ∧ 0xFFFFFFFF < (s.sem p i).value + v :=
  ⟨wPart {} { sems := [(0, { value := 0xFFFFFFFF })] }, 0, 0, 0, 1, ⟨by decide +kernel, by decide +kernel, by decide +kernel,
    by decide +kernel⟩, by decide +kernel⟩

/-! LockNeedsReady. -/

theorem witness_LockNeedsReady_1 : ∃ s : State, ∃ fn, ∃ p, p < 8 ∧ s.fnExists fn = true ∧ (fn = 0 ∨ fn = p + 1) ∧ s.hostHeld =
    false ∧ s.rf adrGlbStatus 0 0 = 0 :=
  ⟨{}, 0, 7, by decide +kernel⟩

theorem witness_LockNeedsReady_2 : ∃ s : State, ∃ fn, ∃ p, p < 8 ∧ s.fnExists fn = true ∧ (fn = 0 ∨ fn = p + 1) ∧ s.hostHeld =
    true :=
  ⟨{ hrt := { hostWait := [.regWrite 0 0 0] } }, 0, 7, by decide +kernel⟩

theorem witness_LockNeedsReady_3 : ∃ s : State, ∃ fn, ∃ p, p < 8 ∧ (fn = 0 ∨ fn = p + 1) ∧ s.rf adrGlbStatus 0 0 = 0 :=
  ⟨{}, 0, 7, by decide +kernel⟩

/-! LockConditions. -/

theorem witness_LockConditions_1 : ∃ s : State, ∃ fn, ∃ p, ∃ n, Reaches s fn p ∧ s.hasLock p = false ∧ s.rf adrGlbStatus 0 0 = 1
    ∧ n = (s.granules p).length ∧ s.partState p = 1 ∧ 1 ≤ n ∧ backing (s.reg (adrSeqSlotCfg p)).toNat ≤ n ∧ ((s.reg
    (adrPrtAnvils p)).toNat = 0 ∨ 50 ≤ (s.reg (adrPrtPowerShare p)).toNat) ∧ s.sliceOf p ≠ 0xFFF :=
  ⟨wSet {} [(adrGlbStatus, 1), (adrHrtGranuleOwner 0, 8)], 0, 0, 1, ⟨by decide +kernel, by decide +kernel, by decide +kernel,
    by decide +kernel⟩, by decide +kernel⟩

theorem witness_LockConditions_2 : ∃ s : State, ∃ fn, ∃ p, Reaches s fn p ∧ s.hasLock p = false ∧ s.rf adrGlbStatus 0 0 = 1 ∧
    s.partState p ≠ 1 :=
  ⟨wSet {} [(adrGlbStatus, 1)], 0, 0, ⟨by decide +kernel, by decide +kernel, by decide +kernel, by decide +kernel⟩,
    by decide +kernel⟩

theorem witness_LockConditions_3 : ∃ s : State, ∃ fn, ∃ p, Reaches s fn p ∧ s.hasLock p = false ∧ s.rf adrGlbStatus 0 0 = 1 ∧
    s.partState p = 1 ∧ s.granules p = [] :=
  ⟨wSet {} [(adrGlbStatus, 1), (adrPrtPowerShare 0, 100)], 0, 0, ⟨by decide +kernel, by decide +kernel, by decide +kernel,
    by decide +kernel⟩, by decide +kernel⟩

theorem witness_LockConditions_4 : ∃ s : State, ∃ fn, ∃ p, Reaches s fn p ∧ s.hasLock p = false ∧ s.rf adrGlbStatus 0 0 = 1 ∧
    s.partState p = 1 ∧ s.granules p ≠ [] ∧ (s.granules p).length < backing (s.reg (adrSeqSlotCfg p)).toNat :=
  ⟨wSet {} [(adrGlbStatus, 1), (adrHrtGranuleOwner 0, 8), (adrSeqSlotCfg 0, 0x10001)], 0, 0, ⟨by decide +kernel,
    by decide +kernel, by decide +kernel, by decide +kernel⟩, by decide +kernel⟩

theorem witness_LockConditions_5 : ∃ s : State, ∃ fn, ∃ p, Reaches s fn p ∧ s.hasLock p = false ∧ s.rf adrGlbStatus 0 0 = 1 ∧
    s.partState p = 1 ∧ s.granules p ≠ [] ∧ backing (s.reg (adrSeqSlotCfg p)).toNat ≤ (s.granules p).length ∧ (s.reg
    (adrPrtAnvils p)).toNat ≠ 0 ∧ (s.reg (adrPrtPowerShare p)).toNat < 50 :=
  ⟨wSet {} [(adrGlbStatus, 1), (adrHrtGranuleOwner 0, 8), (adrPrtAnvils 0, 1), (adrPrtPowerShare 0, 49)], 0, 0,
    ⟨by decide +kernel, by decide +kernel, by decide +kernel, by decide +kernel⟩, by decide +kernel⟩

theorem witness_LockConditions_6 : ∃ s : State, ∃ fn, ∃ p, Reaches s fn p ∧ s.hasLock p = false ∧ s.rf adrGlbStatus 0 0 = 1 ∧
    s.partState p = 1 ∧ s.granules p ≠ [] ∧ backing (s.reg (adrSeqSlotCfg p)).toNat ≤ (s.granules p).length ∧ ((s.reg
    (adrPrtAnvils p)).toNat = 0 ∨ 50 ≤ (s.reg (adrPrtPowerShare p)).toNat) ∧ s.sliceOf p = 0xFFF :=
  ⟨wSet {} [(adrGlbStatus, 1), (adrHrtGranuleOwner 0, 8), (adrAntPartSlice 0, 0xFFF)], 0, 0, ⟨by decide +kernel,
    by decide +kernel, by decide +kernel, by decide +kernel⟩, by decide +kernel⟩

theorem witness_LockConditions_7 : ∃ s : State, ∃ fn, ∃ p, Reaches s fn p ∧ s.hasLock p = true ∧ s.rf adrGlbStatus 0 0 = 1 :=
  ⟨wSet (wPart {} { st := .locked }) [(adrGlbStatus, 1)], 0, 0, ⟨by decide +kernel, by decide +kernel, by decide +kernel,
    by decide +kernel⟩, by decide +kernel⟩

theorem witness_LockConditions_8 : ∃ s : State, ∃ fn, ∃ p, fn ≠ 0 ∧ fn ≠ p + 1 :=
  ⟨{}, 1, 1, by decide +kernel⟩

/-! The whole machine. -/

theorem witness_EveryCommandFollows : ∃ c, ∃ s : State, ∃ t, exec c s = .next t := ⟨.nop 0, {}, _, rfl⟩

theorem witness_StepKeepsInv : ∃ s : State, ∃ t, s.Inv ∧ step s = .next t := ⟨{}, _, ⟨rfl, rfl, rfl⟩, rfl⟩

end Sys2Proof.Tests
end

section
/-! PROOFS. Starting a packet: what `runOp` and `runWhen` answer for a packet that may start (R353). -/
namespace Sys2Proof.Machine

/-- A packet that may start at its unit is started, and its opcode acts on the state in which it has started. -/
theorem runOp_starts {s t : State} {op k : Nat} {x : Pkt} (f : Pkt → State → State) (h : Starts s op k x t) :
    runOp op k f s = .next (f x t) := by
  obtain ⟨hx, rfl⟩ := h
  simp [runOp, hx]

/-- So is one that a unit holds back, once it is ready. -/
theorem runWhen_starts {s t : State} {op k : Nat} {x : Pkt} {ready : Pkt → Bool} (f : Pkt → State → State)
    (h : Starts s op k x t) (hr : ready x = true) : runWhen op k ready f s = .next (f x t) := by
  have hx := h.1
  simp [runWhen, hx, hr, runOp_starts f h]

end Sys2Proof.Machine
end

section
/-! PROOFS. The admin opcodes (R21, R369). -/
namespace Sys2Proof.Machine

section
variable {s t : State} {k : Nat} {x : Pkt}

/-- NOP completes with DONE (R369). -/
theorem execNop_completes (h : Starts s 0x00 k x t) : execNop k s = .next (t.done k []) := runOp_starts _ h

/-- IDENTIFY answers CHIP_ID and the firmware version, which the start of its packet leaves alone (R369). -/
theorem execIdentify_completes (h : Starts s 0x02 k x t) :
    execIdentify k s = .next (t.done k (leBytes 8 ownId ++ leBytes 4 (s.reg adrGlbFwVersion).toNat)) := by
  have hv : t.reg adrGlbFwVersion = s.reg adrGlbFwVersion := by
    rw [h.2, State.startPkt_reg]
  rw [execIdentify, runOp_starts _ h, hv]

/-- SET_MODE of the mode in force, which no pending change holds back (R21). -/
theorem execSetMode_present (h : Starts s 0x01 k x t)
    (hr : (s.part x.part).modePend = none ∨ (u8 x.bytes 0x10 == 1) = (s.part x.part).procession)
    (hm : (u8 x.bytes 0x10 == 1) = (t.part x.part).procession) :
    execSetMode k s = .next (t.done k (leBytes 1 (u8 x.bytes 0x10))) := by
  have hready : ((s.part x.part).modePend.isNone || (u8 x.bytes 0x10 == 1) == (s.part x.part).procession) = true := by
    rcases hr with hr | hr <;> simp [hr]
  rw [execSetMode, runWhen_starts _ h hready]
  simp [hm]

/-- SET_MODE from resident to procession mode, without a stream slot held, takes place at once (R21). -/
theorem execSetMode_toProcession (h : Starts s 0x01 k x t) (hp : (s.part x.part).modePend = none) (hm : u8 x.bytes 0x10 = 1)
    (hq : (t.part x.part).procession = false) (hs : (t.part x.part).slots = []) :
    execSetMode k s = .next ((t.setPart x.part { t.part x.part with procession := true }).done k (leBytes 1 1)) := by
  rw [execSetMode, runWhen_starts _ h (by simp [hp])]
  simp [hm, hq, hs]

/-- SET_MODE from procession to resident mode becomes the pending change, which ends the lap-starts without an open lap (R21, log
entry 66). -/
theorem execSetMode_toResident (h : Starts s 0x01 k x t) (hp : (s.part x.part).modePend = none) (hm : u8 x.bytes 0x10 = 0)
    (hq : (t.part x.part).procession = true) :
    execSetMode k s = .next (State.modeSettle (State.dropUnopened (State.dropUnopened
      (t.setPart x.part { t.part x.part with modePend := some k }) x.part 0 0x14) x.part 1 0x14) x.part) := by
  rw [execSetMode, runWhen_starts _ h (by simp [hp])]
  simp [hm, hq]

end

/-- Settles O1: one lemma for each outcome of NOP, IDENTIFY and SET_MODE. -/
theorem adminOpcodesComplete : Obligations.AdminOpcodesComplete :=
  ⟨fun _ _ _ _ h => execNop_completes h,
    fun _ _ _ _ h => execIdentify_completes h,
    fun _ _ _ _ h hr hm => execSetMode_present h hr hm,
    fun _ _ _ _ h hp hm hq hs => execSetMode_toProcession h hp hm hq hs,
    fun _ _ _ _ h hp hm hq => execSetMode_toResident h hp hm hq⟩

end Sys2Proof.Machine
end

section
/-! PROOFS. Stream packets and table loads at the entry member (R23, R75, R80 to R83, R387, R388). -/
namespace Sys2Proof.Machine

/-- Stream packet `k` of opcode `op`, for `n` steps, has joined the queue of the entry member, which is settled. -/
def State.joined (s : State) (op k : Nat) (x : Pkt) (n : Nat) : State :=
  (s.modPart x.part fun q => { q with
    jobs := q.jobs ++ [⟨k, op, u32 x.bytes 0x10, u16 x.bytes 0x14, 0, n, false, [], 0, 0⟩] }).settle x.part

/-- The buffers of a STEP or CHUNK hold `n` steps' inputs and outputs, and the line takes a chunk of `n` (R75, R387). -/
structure Line.Holds (l : Line) (x : Pkt) (n : Nat) : Prop where
  input_ge : n * l.vec ≤ u32 x.bytes 0x28
  input_le : u32 x.bytes 0x28 ≤ n * l.maxPayload
  output_ge : n * l.vec ≤ u32 x.bytes 0x2C
  count_le : n ≤ l.maxChunk

section
variable {s t : State} {op k n : Nat} {x : Pkt} {l : Line}

/-- A stream packet joins the queue of its line's entry member in resident mode, STREAM_RELEASE in either, when the buffers of a STEP
or CHUNK hold what its steps need. -/
theorem State.submit_joins (hm : (s.part x.part).procession = false ∨ op = 0x46)
    (hl : s.line? x.part (u16 x.bytes 0x14) = some l) (he : l.entry = true)
    (hn : n = if op = 0x48 then u16 x.bytes 0x30 else 1) (hb : 0x47 ≤ op → l.Holds x n) :
    s.submit k x op = s.joined op k x n := by
  have hmode : ((s.part x.part).procession && op != 0x46) = false := by
    rcases hm with hm | hm <;> simp [hm]
  by_cases hop : 0x47 ≤ op
  · obtain ⟨hge, hle, hout, hcount⟩ := hb hop
    simp [submit, joined, hmode, hl, he, ← hn, hge.not_gt, hle.not_gt, hout.not_gt, hcount.not_gt]
  · simp [submit, joined, hmode, hl, he, ← hn, hop]

/-- The four packets of a stream's lifecycle carry no step. -/
theorem State.submit_lifecycle (hop : op < 0x47) (hm : (s.part x.part).procession = false ∨ op = 0x46)
    (hl : s.line? x.part (u16 x.bytes 0x14) = some l) (he : l.entry = true) : s.submit k x op = s.joined op k x 1 :=
  submit_joins hm hl he (if_neg (by omega)).symm fun h => absurd h (by omega)

/-- A stream packet that may start joins the queue of the entry member unless it is full (R75). -/
theorem runWhen_joins (h : Starts s op k x t) (hq : s.queueFull x.part = false) (hj : t.submit k x op = t.joined op k x n) :
    runWhen op k (fun x => !s.queueFull x.part) (fun x s => s.submit k x op) s = .next (t.joined op k x n) := by
  rw [runWhen_starts _ h (by simp [hq]), hj]

/-- TABLE_LOAD of a table that no line in use evaluates gathers its bytes (R388). -/
theorem execTableLoad_gathers {j : Job} (h : Starts s 0x49 k x t) (hb : t.tableBusy x.part (u8 x.bytes 0x10) = false)
    (hj : j = ⟨k, 0x49, u8 x.bytes 0x10, 0x10000, 0, 0, true, [], 0, 0⟩) :
    execTableLoad k s = .next ((State.gather (t.modPart x.part fun q => { q with jobs := q.jobs ++ [j] }) x.part j
      (bitAt (u8 x.bytes 0x11) 0) (u64 x.bytes 0x18) 272).jobReady x.part k) := by
  subst hj
  rw [execTableLoad, runOp_starts _ h]
  simp [hb]

end

/-- Settles O15: a packet that may start while the queue has room joins it, since `State.submit` then adds its job. -/
theorem streamPacketsJoin : Obligations.StreamPacketsJoin := by
  refine ⟨fun k s x t l hl he hq hm => ⟨?streamAdmit, ?streamPark, ?streamResume⟩, ?streamRelease,
    ?step, ?chunk, ?tableLoad⟩
  case streamAdmit => exact fun h => runWhen_joins h hq (State.submit_lifecycle (by decide) (.inl hm) hl he)
  case streamPark => exact fun h => runWhen_joins h hq (State.submit_lifecycle (by decide) (.inl hm) hl he)
  case streamResume => exact fun h => runWhen_joins h hq (State.submit_lifecycle (by decide) (.inl hm) hl he)
  case streamRelease => exact fun k s x t l hl he hq h => runWhen_joins h hq (State.submit_lifecycle (by decide) (.inr rfl) hl he)
  case step =>
    intro k s x t l h hl he hq hm hge hle hout hcount
    have hb : l.Holds x 1 := ⟨by simpa using hge, by simpa using hle, by simpa using hout, hcount⟩
    exact runWhen_joins h hq (State.submit_joins (.inl hm) hl he rfl fun _ => hb)
  case chunk =>
    intro k s x t l n h hl he hn hq hm hge hle hout hcount
    exact runWhen_joins h hq (State.submit_joins (.inl hm) hl he hn fun _ => ⟨hge, hle, hout, hcount⟩)
  case tableLoad => exact fun k s x t j h hb hj => execTableLoad_gathers h hb hj

end Sys2Proof.Machine
end

section
/-! PROOFS. Laps: the packets that start and resolve them, and the opening of an epoch (R45, R377, R382, R383). -/
namespace Sys2Proof.Machine

section
variable {s t : State} {k p r : Nat} {x : Pkt} {j : LapJob}

/-- A lap accepted on a closed ring is the next to open (R46 step 1). -/
theorem State.acceptLap_closed (hc : (s.lap p r).phase = .closed) : s.acceptLap p r j =
    s.setLap p r { s.lap p r with phase := .opening, job := some j, leader := j.leader == j.plan.self } := by
  simp [acceptLap, hc]

/-- A plan without a poisoned word that no rule refuses makes the ring accept its lap. -/
theorem State.startLap_accepts {rehome : Bool} {d : List Byte}
    (hd : s.load x.part (u32 x.bytes 0x14) (u32 x.bytes 0x18) = (some d, s))
    (hf : s.lapForbidden x.part (u8 x.bytes 0x10) = false) (hb : s.lapBad k x rehome d = none) :
    s.startLap k x rehome = s.acceptLap x.part (u8 x.bytes 0x10) (lapJob k x.bytes (parsePlan d) rehome) := by
  simp [startLap, hf, hd, hb]

/-- So a packet that describes such a lap, LAP_START or REHOME, makes a closed ring OPENING (R377, R383). -/
theorem runOp_startLap_opening {op : Nat} {rehome : Bool} {d : List Byte} (h : Starts s op k x t)
    (hd : t.load x.part (u32 x.bytes 0x14) (u32 x.bytes 0x18) = (some d, t))
    (hf : t.lapForbidden x.part (u8 x.bytes 0x10) = false) (hb : t.lapBad k x rehome d = none)
    (hj : j = lapJob k x.bytes (parsePlan d) rehome) (hc : (t.lap x.part (u8 x.bytes 0x10)).phase = .closed) :
    runOp op k (fun x s => s.startLap k x rehome) s = .next (t.setLap x.part (u8 x.bytes 0x10)
      { t.lap x.part (u8 x.bytes 0x10) with phase := .opening, job := some j, leader := j.leader == j.plan.self }) := by
  rw [runOp_starts _ h, State.startLap_accepts hd hf hb, ← hj, State.acceptLap_closed hc]

/-- A lap that is no replay opens its epoch once its start time has come (R45). -/
theorem execLapOpen_opens (hj : (s.lap p r).job = some j) (ho : (s.lap p r).phase = .opening) (ht : j.start ≤ s.machineTime)
    (hr : j.replay = false) : execLapOpen p r s = .next (s.openLap p r j) := by
  simp [execLapOpen, hj, ho, ht.not_gt, hr]

/-- LAP_RESOLVE of the epoch in doubt commits or aborts it, and is kept until that epoch closes (R382). -/
theorem execLapResolve_decides {l : Lap} {u : State} (h : Starts s 0x31 k x t) (hl : l = t.lap x.part (u8 x.bytes 0x10))
    (hd : l.inDoubt = true) (he : u16 x.bytes 0x12 = l.epoch)
    (hu : u = t.setLap x.part (u8 x.bytes 0x10) { l with resolver := some k }) : execLapResolve k s = .next
      (if u8 x.bytes 0x11 = 1 then u.commitLap x.part (u8 x.bytes 0x10) else u.abortLap x.part (u8 x.bytes 0x10)) := by
  subst hl hu
  rw [execLapResolve, runOp_starts _ h]
  simp [hd, he]

end

/-- Settles O9: LAP_START and REHOME differ in the plans they allow alone (`runOp_startLap_opening`). -/
theorem lapPacketsComplete : Obligations.LapPacketsComplete :=
  ⟨fun _ _ _ _ _ _ h hd hf hb hj hc => runOp_startLap_opening h hd hf hb hj hc,
    fun _ _ _ _ _ _ h hd hf hb hj hc => runOp_startLap_opening h hd hf hb hj hc,
    fun _ _ _ _ hj ho ht hr => execLapOpen_opens hj ho ht hr,
    fun _ _ _ _ _ _ h hl hd he hu => execLapResolve_decides h hl hd he hu⟩

end Sys2Proof.Machine
end

section
/-! PROOFS. Billets: departure, arrival, verdicts and landing slots (R34, R38 to R43, R256, R380). -/
namespace Sys2Proof.Machine

/-- An epoch is not newer than itself. -/
@[simp] theorem newer_self (e : Nat) : newer e e = false := by
  simp [newer]

/-- What R29, R30 and R38 ask of a billet header by itself. -/
theorem billetLegal_iff (h : BHdr) : billetLegal h = true ↔
    kindOk h.kind h.format = true ∧ h.segs * 4096 = h.len ∧ 1048576 ≤ h.len ∧ h.len ≤ 8388608 := by
  simp [billetLegal, and_assoc]

/-- A legal billet frame `f` waits at partition `p`; no relay entry runs on its ring, its epoch is open there, and its header agrees
with record `b` of the open plan (R38). -/
structure State.BilletOpen (s : State) (p : Nat) (f : List Byte) (j : LapJob) (b : BRec) : Prop where
  arrived : s.arrived 1 p f = true
  good : billetGood f = true
  noRelay : s.relay? p (parseBillet f).ring = none
  legal : billetLegal (parseBillet f) = true
  epoch : (parseBillet f).epoch = (s.lap p (parseBillet f).ring).epoch
  isOpen : (s.lap p (parseBillet f).ring).isOpen = true
  job : (s.lap p (parseBillet f).ring).job = some j
  record : (s.lap p (parseBillet f).ring).rec? (parseBillet f).order = some b
  agrees : planAgrees j (parseBillet f) = true

section
variable {s t u : State} {p r n i port : Nat} {f : List Byte} {h : BHdr} {j : LapJob} {b : BRec} {e : Entry}

/-- A billet other than a RETURN header leaves from a free retain slot that holds its copy (R60, R380). The departure drops a SEM_USED
wait that it did not need (log entry 51). -/
theorem execBilletDepart_staged {unused : Bool} (hj : (s.lap p r).job = some j) (hb : (s.lap p r).rec? n = some b)
    (ho : (s.lap p r).isOpen = true) (hd : s.mayDepart p r n unused j b = true) (hr : j.plan.returnHop b = false)
    (hi : (s.lap p r).nextRetain j.plan = some i) (ht : s.stage p r n b (j.plan.retainAddr i) = some t) :
    execBilletDepart p r n unused s = .next ((t.dropUsed p r n j).depart p r n j b i) := by
  simp [execBilletDepart, State.departOne, hj, hb, ho, hd, hr, hi, ht]

/-- A frame of that kind passes every check of R38. -/
theorem execBilletReceived_open (hf : s.BilletOpen p f j b) :
    execBilletReceived p f s = .next (s.openBillet p (s.arrivalPort p f) f (parseBillet f) j b) := by
  simp [execBilletReceived, State.billetFrame, hf.arrived, hf.good, hf.noRelay, hf.legal, hf.epoch, hf.isOpen, hf.job, hf.record,
    hf.agrees]

/-- A billet with its payload that the member has not taken in this epoch is taken in. -/
theorem State.openBillet_fresh (hp : bitAt h.flags 0 = false) (hs : ((s.lap p h.ring).entry h.order).st = .fresh) :
    s.openBillet p port f h j b = s.intake p port f h j b := by
  simp [openBillet, billetNew, hp, hs]

/-- A RETURN header goes to the billet's home. -/
theorem State.openBillet_return (hp : bitAt h.flags 0 = true) : s.openBillet p port f h j b = s.returnHdr p f h j b := by
  simp [openBillet, hp]

/-- The entry of a billet whose frame is being taken into receive slot `i`, to be answered to the frame's sender. -/
def Entry.receiving (e : Entry) (f : List Byte) (h : BHdr) (pl : Plan) (i : Nat) : Entry :=
  { e with slot := i, recv := pl.recvAddr i, sr := bitAt h.flags 1, hdr := true, from_ := (parseHdr f).src, back := (parseHdr f).back,
           seq := h.resend }

/-- State `s` after a frame has been taken into receive slot `i`: its good segments are stored and the others asked for again (R39,
R40). -/
def State.received (s : State) (p : Nat) (f : List Byte) (h : BHdr) (pl : Plan) (i : Nat) : State :=
  (((s.consume p f).modLap p h.ring fun l => l.setEntry h.order ((l.entry h.order).receiving f h pl i)).storeSegs p h.ring h.order f
    h).askAgain p f h

/-- A weight billet of another home with all its segments is taken (R40, R42): no admission holds it back. -/
theorem State.intake_complete (hk : b.kind = 1) (hh : b.home ≠ j.plan.self)
    (hw : ((s.lap p h.ring).entry h.order).waiting = false) (hi : s.recvSlot p h.ring h.order port 1 j.plan = (some i, u))
    (hs : h.segs ≤ (((u.received p f h j.plan i).lap p h.ring).entry h.order).segs.length) :
    s.intake p port f h j b = (u.received p f h j.plan i).takeBillet p h.ring h.order b := by
  have hlt := hs.not_gt
  simp only [received, Entry.receiving] at hlt
  simp [intake, received, Entry.receiving, kindVc, hk, hh, hw, hi, hlt]

/-- At its home, a RETURN header retires a weight billet whose custody has passed on (R32, R34). -/
theorem State.returnHdr_passed (hk : b.kind = 1) (hh : b.home = j.plan.self) (ht : t = s.discard p f)
    (he : e = (t.lap p h.ring).entry h.order) (hr : e.returned = false) (hs : e.st = .passed) : s.returnHdr p f h j b =
      State.verdict (t.setLap p h.ring ((t.lap p h.ring).setEntry h.order { e with st := .retired })) p f h 1 0 0 := by
  subst ht he
  simp [returnHdr, hk, hh, hr, hs]

/-- While the verdict on the home's own hop is out, the retained copy stays (R33, log entry 68). -/
theorem State.returnHdr_onWire (hk : b.kind = 1) (hh : b.home = j.plan.self) (ht : t = s.discard p f)
    (he : e = (t.lap p h.ring).entry h.order) (hr : e.returned = false) (hs : e.st = .onWire) : s.returnHdr p f h j b =
      State.verdict (t.setLap p h.ring ((t.lap p h.ring).setEntry h.order { e with returned := true })) p f h 1 0 0 := by
  subst ht he
  simp [returnHdr, hk, hh, hr, hs]

/-- A billet held back in its landing slot is taken once its contribution is complete (R43). -/
theorem execGradientAdmit_granted (hj : (s.lap p r).job = some j) (hb : (s.lap p r).rec? n = some b)
    (hw : ((s.lap p r).entry n).waiting = true) (hg : s.granted (.contrib p r n) = true) :
    execGradientAdmit p r n s = .next (s.takeBillet p r n b) := by
  simp [execGradientAdmit, hj, hb, hw, hg]

/-- A verdict on a billet that is ON_WIRE in the open epoch is acted on (R36). -/
theorem execVerdictReceived_onWire {v : VBody} (ha : s.arrived 2 p f = true) (hv : v = parseVerdict f)
    (hg : verdictGood f = true) (ht : t = s.consume p f) (hid : v.id ≠ tokenId) (hc : v.code ≤ 7)
    (hj : (t.lap p v.ring).job = some j) (hn : j.plan.billets.findIdx? (fun b => b.id == v.id) = some n)
    (ho : (t.lap p v.ring).isOpen = true) (he : v.epoch = (t.lap p v.ring).epoch) (hs : ((t.lap p v.ring).entry n).st = .onWire) :
    execVerdictReceived p f s = .next (t.onVerdict p n v) := by
  subst hv ht
  simp [execVerdictReceived, ha, hg, hid, hc.not_gt, hj, hn, ho, he, hs]

/-- TAKEN releases the retained copy (R36). -/
theorem State.onVerdict_taken {v : VBody} (hc : v.code = 1) : s.onVerdict p n v = s.released p v.ring n .passed := by
  simp [onVerdict, hc]

/-- The receiver of an open ring's campus hop may grant a landing slot (R256). -/
theorem execLandingSlotGrant_campus {d : Nat} (hj : (s.lap p r).job = some j) (hd : d = 6 ∨ d = 7)
    (ho : (s.lap p r).isOpen = true) (hw : s.wiredPort j.plan.pred = some d) :
    execLandingSlotGrant d p r s = .next (s.grantSlot d p r j) := by
  simp [execLandingSlotGrant, hj, hd, ho, hw]

end

/-- Settles O10: a billet frame of the open epoch passes the checks of R38 (`execBilletReceived_open`) and is then taken in, or, as a
RETURN header, meets its home; the other commands find their conditions met. -/
theorem billetCommandsComplete : Obligations.BilletCommandsComplete := by
  refine ⟨fun _ _ _ _ _ _ _ _ _ hj hb ho hd hr hi ht => execBilletDepart_staged hj hb ho hd hr hi ht, ?take, ?return_,
    fun _ _ _ _ _ _ hj hb hw hg => execGradientAdmit_granted hj hb hw hg, ?taken,
    fun _ _ _ _ _ hj hd ho hw => execLandingSlotGrant_campus hj hd ho hw⟩
  case take =>
    rintro s p f _ _ j b i u _ _ _ ha rfl rfl hg hr hk hl hmin hmax he ho hj hb hp hret hs hw hkind hh rfl hi rfl rfl hall
    have hf : s.BilletOpen p f j b := ⟨ha, hg, hr, (billetLegal_iff _).mpr ⟨hk, hl, hmin, hmax⟩, he, ho, hj, hb, hp⟩
    exact (execBilletReceived_open hf).trans
      (congrArg _ ((State.openBillet_fresh hret hs).trans (State.intake_complete hkind hh hw hi hall)))
  case return_ =>
    rintro s p f _ _ j b t e ha rfl rfl hg hr hk hl hmin hmax he ho hj hb hp hret hkind hh ht hent hnew
    have hf : s.BilletOpen p f j b := ⟨ha, hg, hr, (billetLegal_iff _).mpr ⟨hk, hl, hmin, hmax⟩, he, ho, hj, hb, hp⟩
    have hx := (execBilletReceived_open hf).trans (congrArg _ (State.openBillet_return hret))
    exact ⟨fun hs => hx.trans (congrArg _ (State.returnHdr_passed hkind hh ht hent hnew hs)),
      fun hs => hx.trans (congrArg _ (State.returnHdr_onWire hkind hh ht hent hnew hs))⟩
  case taken =>
    intro s p f v t j n ha hv hg ht hid hc hj hn ho he hs
    exact (execVerdictReceived_onWire ha hv hg ht hid (by omega) hj hn ho he hs).trans (congrArg _ (State.onVerdict_taken hc))

end Sys2Proof.Machine
end

section
/-! PROOFS. The timers of a hop, on a billet that is ON_WIRE or on a retained token (R36, R54, R56, R134). -/
namespace Sys2Proof.Machine

section
variable {s : State} {p r n : Nat} {l : Lap} {e : Entry} {t : Token}

/-- After NOT_OPEN the whole retained copy goes again, unless it holds poison (R36, R134). -/
theorem execNotOpenResendTimer_billet (hl : l = s.lap p r) (he : e = l.entry n) (hs : e.st = .onWire) (hn : e.notOpen = true) :
    execNotOpenResendTimer p r false n s = .next (if s.retainPoisoned p r n then s.poisonAbort p r n else
      (s.setLap p r (l.setEntry n { e with notOpen := false, deadline := false })).sendBillet p r n 0
        ((l.rec? n).elim 0 fun b => b.len / 4096)) := by
  subst hl he
  simp [execNotOpenResendTimer, hs, hn]

/-- After NOT_OPEN a token goes again (R36, R48). -/
theorem execNotOpenResendTimer_token {u : Token} (ht : (s.lapTokens p r)[n]? = some t) (hn : t.notOpen = true)
    (hu : u = { t with notOpen := false, deadline := false }) :
    execNotOpenResendTimer p r true n s = .next ((s.setToken p r n u).tokenFrame p r u) := by
  subst hu
  simp [execNotOpenResendTimer, ht, hn]

/-- A billet whose custody deadline runs out takes its next detour (R54). -/
theorem execCustodyDeadlineExpiry_billet (he : e = (s.lap p r).entry n) (hs : e.st = .onWire) (hd : e.deadline = true)
    (hw : e.stopped = false) : execCustodyDeadlineExpiry p r false n s = .next ((s.event 0x1301 r p).takeDetour p r n) := by
  subst he
  simp [execCustodyDeadlineExpiry, hs, hd, hw]

/-- So does a token (R48, R54). -/
theorem execCustodyDeadlineExpiry_token (ht : (s.lapTokens p r)[n]? = some t) (hd : t.deadline = true) :
    execCustodyDeadlineExpiry p r true n s = .next ((s.event 0x1301 r p).tokenDetour p r n) := by
  simp [execCustodyDeadlineExpiry, ht, hd]

/-- The end of a billet's recovery window makes its sender originate ABORT (R56). -/
theorem execHopRecoveryExpiry_billet (hl : l = s.lap p r) (he : e = l.entry n) (hs : e.st = .onWire) (hr : e.recovery = true) :
    execHopRecoveryExpiry p r false n s = .next
      (((s.setLap p r (l.setEntry n { e with recovery := false })).event 0x1306 r p).originateAbort p r) := by
  subst hl he
  simp [execHopRecoveryExpiry, hs, hr]

/-- The end of a token's recovery window does so for the ring's present epoch only (R56). -/
theorem execHopRecoveryExpiry_token {u : State} (ht : (s.lapTokens p r)[n]? = some t) (hr : t.recovery = true)
    (hu : u = (s.setToken p r n { t with recovery := false }).event 0x1306 r p) :
    execHopRecoveryExpiry p r true n s = .next (if t.epoch == (s.lap p r).epoch then u.originateAbort p r else u) := by
  subst hu
  simp [execHopRecoveryExpiry, ht, hr]

end

/-- Settles O11: one lemma for each timer and each thing it may act on. -/
theorem hopTimersComplete : Obligations.HopTimersComplete := by
  refine ⟨?resend, ?poisoned, fun s p r n t u ht hn hu => execNotOpenResendTimer_token ht hn hu,
    fun s p r n e he hs hd hw => execCustodyDeadlineExpiry_billet he hs hd hw,
    fun s p r n t ht hd => execCustodyDeadlineExpiry_token ht hd,
    fun s p r n l e hl he hs hr => execHopRecoveryExpiry_billet hl he hs hr,
    fun s p r n t u ht hr hu => execHopRecoveryExpiry_token ht hr hu⟩
  case resend =>
    intro s p r n l e hl he hs hn hp
    exact (execNotOpenResendTimer_billet hl he hs hn).trans (by simp [hp])
  case poisoned =>
    intro s p r n e he hs hn hp
    exact (execNotOpenResendTimer_billet rfl he hs hn).trans (by simp [hp])

end Sys2Proof.Machine
end

section
/-! PROOFS. Lap tokens: PREPARE, COMMIT and ABORT, the commit window and the relay window (R46 to R50, R59). -/
namespace Sys2Proof.Machine

/-- A good token frame `f` of a code waits at partition `p`; `t` is the state in which it has been taken, where no relay entry runs
on the ring that its body `v` names and the token's epoch is open. -/
structure State.TokenOpen (s : State) (p code : Nat) (f : List Byte) (v : VBody) (t : State) : Prop where
  arrived : s.arrived 2 p f = true
  body : v = parseVerdict f
  id : v.id = tokenId
  code : v.code = code
  good : verdictGood f = true
  taken : t = s.consume p f
  noRelay : t.relay? p v.ring = none
  isOpen : (t.lap p v.ring).isOpen = true
  epoch : v.epoch = (t.lap p v.ring).epoch

section
variable {s t u : State} {p r code : Nat} {f : List Byte} {v : VBody} {l : Lap} {j : LapJob}

/-- Such a token does what its code says. -/
theorem State.onToken_open (hf : s.TokenOpen p code f v t) (g : VBody → State → State) : s.onToken p code f g = g v t := by
  obtain ⟨ha, rfl, hid, hc, hg, rfl, hr, ho, he⟩ := hf
  simp [onToken, ha, hid, hc, hg, hr, ho, he]

/-- A member whose billets are all retired or held becomes PREPARED (R46 step 5, R47). -/
theorem execMemberPrepared_prepares (hb : (s.lap p r).phase = .backward) (hp : s.preparedNow p r = true) :
    execMemberPrepared p r s = .next ((s.modLap p r fun l => { l with phase := .prepared }).sendPrepare p r) := by
  simp [execMemberPrepared, hb, hp]

/-- PREPARE that returns to an undecided leader makes it record COMMIT and send it (R46 step 6). -/
theorem execPrepareTokenReceived_leader (hf : s.TokenOpen p 0x11 f v t) (hu : u = t.tokenAck p f v 1) (hl : l = u.lap p v.ring)
    (hj : l.job = some j) (hlead : l.leader = true) (hs : l.prepSent = true) (hd : l.decision = 0) :
    execPrepareTokenReceived p f s = .next
      ((u.setLap p v.ring { l with decision := 1, window := false }).sendToken p v.ring j.plan 0x12 j.plan.succ) := by
  subst hu hl
  rw [execPrepareTokenReceived, State.onToken_open hf]
  simp [hj, hlead, hs, hd]

/-- A PREPARED member forwards COMMIT and applies it (R46 step 7). -/
theorem execCommitTokenReceived_member (hf : s.TokenOpen p 0x12 f v t) (hu : u = t.tokenAck p f v 1) (hl : l = u.lap p v.ring)
    (hj : l.job = some j) (hp : l.phase = .prepared) (hd : l.deferred = false) (hm : l.leader = false) :
    execCommitTokenReceived p f s = .next ((u.sendToken p v.ring j.plan 0x12 j.plan.succ).commitLap p v.ring) := by
  subst hu hl
  rw [execCommitTokenReceived, State.onToken_open hf]
  simp [hj, hp, hd, hm]

/-- COMMIT that returns to the leader that recorded it is applied there (R46 step 8). -/
theorem execCommitTokenReceived_leader (hf : s.TokenOpen p 0x12 f v t) (hu : u = t.tokenAck p f v 1) (hl : l = u.lap p v.ring)
    (hj : l.job = some j) (hp : l.phase = .prepared) (hd : l.deferred = false) (hm : l.leader = true) (hc : l.decision = 1) :
    execCommitTokenReceived p f s = .next (u.commitLap p v.ring) := by
  subst hu hl
  rw [execCommitTokenReceived, State.onToken_open hf]
  simp [hj, hp, hd, hm, hc]

/-- A member forwards ABORT the way it travels and aborts (R49). -/
theorem execAbortTokenReceived_obeys (hf : s.TokenOpen p 0x13 f v t) (hu : u = t.tokenAck p f v 1)
    (hj : (u.lap p v.ring).job = some j) : execAbortTokenReceived p f s = .next ((u.sendToken p v.ring j.plan 0x13
      (if v.sender == j.plan.pred then j.plan.succ else j.plan.pred)).abortLap p v.ring) := by
  subst hu
  rw [execAbortTokenReceived, State.onToken_open hf]
  simp [hj]

/-- At the end of the commit window the leader decides ABORT (R50). -/
theorem execCommitWindowExpiry_leader (hl : l = s.lap p r) (hw : l.window = true) (hm : l.leader = true) :
    execCommitWindowExpiry p r s = .next ((s.setLap p r { l with window := false }).originateAbort p r) := by
  subst hl
  simp [execCommitWindowExpiry, hw, hm]

/-- At the end of the commit window another member falls in doubt (R50). -/
theorem execCommitWindowExpiry_member (hl : l = s.lap p r) (hw : l.window = true) (hm : l.leader = false) :
    execCommitWindowExpiry p r s = .next ((((s.setLap p r { l with window := false }).modLap p r
      fun y => { y with inDoubt := true }).event 0x1307 r p).lapDone p r 0x30) := by
  subst hl
  simp [execCommitWindowExpiry, hw, hm]

end

/-- Settles O12: a token of the open epoch is handed to what its code does (`State.onToken_open`), where the leader and another member
differ; the relay window's end is its definition. -/
theorem lapTokensComplete : Obligations.LapTokensComplete := by
  refine ⟨fun s p r hb hp => execMemberPrepared_prepares hb hp, ?prepare, ?commit, ?abort,
    fun s p r l hl hw hm => execCommitWindowExpiry_leader hl hw hm,
    fun s p r l hl hw hm => execCommitWindowExpiry_member hl hw hm, fun s p r => rfl⟩
  case prepare =>
    intro s p f v t u l j ha hv hid hc hg ht hr ho he hu hl hj hm hs hd
    exact execPrepareTokenReceived_leader ⟨ha, hv, hid, hc, hg, ht, hr, ho, he⟩ hu hl hj hm hs hd
  case commit =>
    intro s p f v t u l j ha hv hid hc hg ht hr ho he hu hl hj hp hd
    have hf : s.TokenOpen p 0x12 f v t := ⟨ha, hv, hid, hc, hg, ht, hr, ho, he⟩
    exact ⟨execCommitTokenReceived_member hf hu hl hj hp hd, execCommitTokenReceived_leader hf hu hl hj hp hd⟩
  case abort =>
    intro s p f v t u j ha hv hid hc hg ht hr ho he hu hj
    exact execAbortTokenReceived_obeys ⟨ha, hv, hid, hc, hg, ht, hr, ho, he⟩ hu hj

end Sys2Proof.Machine
end

section
/-! PROOFS. Frames of a stream and of its line: ADMIT and UNDO, the state frames, and the line-broken notice (R80, R83). The bodies of these
frames are the model's choice (log entry 22). -/
namespace Sys2Proof.Machine

/-- A frame that waits at the partition is taken, and acts on the state without it. -/
theorem onFrame_arrived {s : State} {typ p : Nat} {f : List Byte} (g : State → State) (h : s.arrived typ p f = true) :
    onFrame typ p f g s = .next (g (s.consume p f)) := by
  simp [onFrame, h]

/-- A good sequence-state frame `f` waits at partition `p`; `t` is the state in which it has been taken, where `l` is the line that it
names. -/
structure State.LineFrame (s : State) (p : Nat) (f : List Byte) (l : Line) (t : State) : Prop where
  arrived : s.arrived 4 p f = true
  good : lineFrameGood f = true
  taken : t = s.consume p f
  line : t.line? p (u16 f 0x24) = some l

section
variable {s t u : State} {p e : Nat} {f d : List Byte} {l : Line} {j : Job}

/-- A member that claims a slot sends the ADMIT frame on, with the length gathered so far (R80). -/
theorem execAdmitFrameReceived_claims (hop : u8 f 0x20 = 0x20) (hf : s.LineFrame p f l t) (he : l.entry = false)
    (hm : t.memberPart p l 0x20 (u16 f 0x22) (u32 f 0x30) (strmData f) = (0, d, u)) :
    execAdmitFrameReceived p f s = .next (u.sendLine p l
      (streamBody 0x20 0 (u16 f 0x22) l.id (u32 f 0x28) (u32 f 0x30) (u32 f 0x34 + l.partLen) d)) := by
  obtain ⟨ha, hg, rfl, hl⟩ := hf
  simp [execAdmitFrameReceived, hop, onFrame_arrived _ ha, hg, hl, he, hm]

/-- An ADMIT frame that returns to the entry member admits its stream (R80). -/
theorem execAdmitFrameReceived_admits (hop : u8 f 0x20 = 0x20) (hf : s.LineFrame p f l t) (he : l.entry = true)
    (hj : t.jobTag? p (u32 f 0x28) = some j) : execAdmitFrameReceived p f s = .next (t.admitted p l j (u32 f 0x34)) := by
  obtain ⟨ha, hg, rfl, hl⟩ := hf
  simp [execAdmitFrameReceived, hop, onFrame_arrived _ ha, hg, hl, he, hj]

/-- Another member frees its claim and sends the UNDO frame on (R80). -/
theorem execUndoFrameReceived_frees (hop : u8 f 0x20 = 0x21) (hf : s.LineFrame p f l t) (he : l.entry = false) :
    execUndoFrameReceived p f s = .next ((t.memberPart p l 0x21 (u16 f 0x22) (u32 f 0x30) []).2.2.sendLine p l
      (streamBody 0x21 (u8 f 0x21) (u16 f 0x22) l.id (u32 f 0x28) (u32 f 0x30) 0 [])) := by
  obtain ⟨ha, hg, rfl, hl⟩ := hf
  simp [execUndoFrameReceived, hop, onFrame_arrived _ ha, hg, hl, he]

/-- Another member whose slot is not BUSY applies a park, resume or release frame without a failure and sends it on with its own
result (R83). -/
theorem execStreamStateFrameReceived_applies (hmin : 0x22 ≤ u8 f 0x20) (hmax : u8 f 0x20 ≤ 0x24) (hf : s.LineFrame p f l t)
    (he : l.entry = false) (hst : u8 f 0x21 = 0) (hph : u16 f 0x22 ≠ 2) (hb : s.slotBusy p (u16 f 0x24) (u32 f 0x30) = false)
    (hm : t.memberPart p l (u8 f 0x20) (u16 f 0x22) (u32 f 0x30) (strmData f) = (e, d, u)) :
    execStreamStateFrameReceived p f s = .next (u.sendLine p l
      (streamBody (u8 f 0x20) e (u16 f 0x22) l.id (u32 f 0x28) (u32 f 0x30) (u32 f 0x34 + l.partLen) d)) := by
  obtain ⟨ha, hg, rfl, hl⟩ := hf
  have hstate : ¬ (u8 f 0x20 < 0x22 ∨ 0x26 < u8 f 0x20) := by omega
  have hteardown : u8 f 0x20 ≠ 0x25 := by omega
  simp [execStreamStateFrameReceived, hstate, hteardown, hb, onFrame_arrived _ ha, hg, hl, he, hst, hph, hm]

/-- A line-broken notice marks the line at its entry member, whose packets of the line complete with LINK_LOST. -/
theorem execLineBrokenNoticeReceived_breaks (ha : s.arrived 5 p f = true) (ht : t = s.consume p f)
    (hc : u32 f 0x24 = crc32c (slice f 0x20 4)) (hl : t.line? p (u16 f 0x20) = some l) (hk : u8 f 0x22 = 0) (he : l.entry = true) :
    execLineBrokenNoticeReceived p f s = .next ((State.lineLost (t.modPart p fun q => { q with lines := q.lines.map fun x =>
      if x.id == (u16 f 0x20) then { x with broken := true } else x }) p (u16 f 0x20) 0x30).settle p) := by
  subst ht
  simp [execLineBrokenNoticeReceived, onFrame_arrived _ ha, hc, hl, hk, he]

end

/-- Settles O16: a good frame of the line is taken (`onFrame_arrived`), where the entry member and another member differ. -/
theorem streamFramesComplete : Obligations.StreamFramesComplete := by
  refine ⟨?claim, ?returned, ?undo, ?state, fun s p f t l ha ht hc hl hk he => execLineBrokenNoticeReceived_breaks ha ht hc hl hk he⟩
  case claim =>
    exact fun s p f t l d u hop hg ha ht hl he hm => execAdmitFrameReceived_claims hop ⟨ha, hg, ht, hl⟩ he hm
  case returned =>
    exact fun s p f t l j hop hg ha ht hl he hj => execAdmitFrameReceived_admits hop ⟨ha, hg, ht, hl⟩ he hj
  case undo =>
    exact fun s p f t l hop hg ha ht hl he => execUndoFrameReceived_frees hop ⟨ha, hg, ht, hl⟩ he
  case state =>
    rintro s p f t l e d u _ rfl hmin hmax hg ha ht hl he hst hph hb hm
    exact execStreamStateFrameReceived_applies hmin hmax ⟨ha, hg, ht, hl⟩ he hst hph hb hm

end Sys2Proof.Machine
end

section
/-! PROOFS. The step engine: dispatch, activation frames, layers, the step deadline and the batch window (R70 to R75, R85 to R90, R95). -/
namespace Sys2Proof.Machine

/-- Activation frame `f` waits at partition `p` as the oldest one of its port; its header `h` and payload `pay` are good, and `l` is the
line that the header names (R70, R73). -/
structure State.ActFrame (s : State) (p : Nat) (f h pay : List Byte) (l : Line) : Prop where
  arrived : s.arrived 3 p f = true
  header : h = slice f 32 32
  payload : pay = slice f 64 (f.length - 68)
  headerCrc : u32 h 0x1C = crc32c (slice h 0 0x1C)
  payloadCrc : u32 f (f.length - 4) = crc32c pay
  line : s.line? p (u16 h 8) = some l
  oldest : s.actFirst p f = true

/-- Step or chunk `j`, packet `k`, is next in its stream: no earlier packet of the stream waits and no lifecycle packet of it runs, and
the stream has nothing in flight or stays within MAX_INFLIGHT with it (R74, R75). That a chunk longer than MAX_INFLIGHT runs alone is
the model's choice (log entry 23). -/
structure State.StepNext (s : State) (p k : Nat) (j : Job) : Prop where
  waits : j.inFlight = false
  step : j.op = 0x47 ∨ j.op = 0x48
  first : ((s.part p).jobs.takeWhile (fun e => e.pkt != k)).any (fun e => (e.line == j.line && e.stream == j.stream) &&
    (!e.inFlight || e.op < 0x47)) = false
  room : s.inFlight p j.line j.stream = 0 ∨ s.inFlight p j.line j.stream + j.count ≤ s.rf (adrSeqStepCfg p) 22 16

section
variable {s t u : State} {p k i n : Nat} {f h pay : List Byte} {j z : Job} {x : Pkt} {l : Line} {y : Strm} {w : Work} {r : LayerRec}
  {e : LayerEnv} {ws : List (Nat × Work)} {tal : Tally}

/-- The next step of an admitted stream of its own ring is dispatched: it takes the stream's next number, and its input is gathered
(R74, R75, R85). -/
theorem execStepDispatch_dispatches (hj : s.job? p k = some j) (hx : s.pkt k = some x) (hn : s.StepNext p k j)
    (hl : s.line? p j.line = some l) (hy : s.strm? p j.line j.stream = some y) (hb : l.broken = false) (hst : y.st = .admitted)
    (hsq : y.sq = x.sq) (hz : z = { j with inFlight := true, first := y.next })
    (hu : u = (s.modJob p k fun _ => z).putStrm p { y with next := (y.next + j.count) % 2 ^ 32 }) :
    execStepDispatch p k s = .next
      ((u.gather p z (bitAt (u8 x.bytes 0x16) 0) (u64 x.bytes 0x18) (u32 x.bytes 0x28)).jobReady p k) := by
  subst hz hu
  obtain ⟨hw, hop, hf, hr⟩ := hn
  have hop' : (j.op != 0x47 && j.op != 0x48) = false := by
    rcases hop with hop | hop <;> simp [hop]
  have hroom : (s.inFlight p j.line j.stream != 0 && decide (s.rf (adrSeqStepCfg p) 22 16 < s.inFlight p j.line j.stream + j.count))
      = false := by
    rcases hr with hr | hr <;> simp [hr]
  simp only [execStepDispatch, hj, hx, hl, hy, hw, hop', hf, hroom]
  simp [hb, hst, hsq]

/-- A good activation frame goes on along the line that its header names. -/
theorem State.ActFrame.actLine (hf : s.ActFrame p f h pay l) : s.actLine p f = some l := by
  obtain ⟨-, rfl, rfl, hh, hp, hl, -⟩ := hf
  simp [State.actLine, actParts, hh, hp, hl]

/-- Such a frame is taken into a buffer of its line at a member that is not the entry member, once one is free or the frame has drained
(R72, R73, R149, log entry 82). -/
theorem execActivationFrameReceived_takes (hf : s.ActFrame p f h pay l) (he : l.entry = false)
    (hd : s.actDrained p f = true ∨ s.bufFree p l.id 8 = true) :
    execActivationFrameReceived p f s = .next (((s.consume p f).fillBuf p l pay).actTake p l h pay) := by
  have hline := hf.actLine
  obtain ⟨ha, rfl, rfl, hh, hp, -, ho⟩ := hf
  have hbuf : (!s.actDrained p f && !s.bufFree p l.id 8) = false := by
    rcases hd with hd | hd <;> simp [hd]
  simp [execActivationFrameReceived, actParts, ho, hline, he, hbuf, onFrame_arrived _ ha, hh, hp]

/-- Outside PARK, a member other than the entry member takes a frame that fits, and that reports no failure, as work (R72, R73). -/
theorem State.actTake_work (hp : s.parked = false) (he : l.entry = false) (hfl : bitAt (u16 h 0x14) 1 = false)
    (hfit : actFits l h (s.slot? p l.id (u32 h 0)).isSome pay.length = true) :
    s.actTake p l h pay = s.addWork p l h (payloadRows l (u16 h 0xC) pay) (u16 h 0x14) true := by
  simp [State.actTake, hp, he, hfl, hfit]

/-- The engine takes the works `ws` with the `i`-th one, `w`, which waits at layer `r` of line `l`; `t` is the state in which the layer's
settings `e` have been read (R95). -/
structure State.LayerRun (s : State) (p i : Nat) (w : Work) (l : Line) (r : LayerRec) (ws : List (Nat × Work)) (e : LayerEnv)
    (t : State) : Prop where
  work : (s.part p).works[i]? = some w
  line : s.line? p w.line = some l
  layer : l.layers[w.layer]? = some r
  batch : ws = s.batch p i w r
  nonempty : ws ≠ []
  env : s.layerEnv p l r = (.ok e, t)

/-- The steps of a batch are applied to their layer (R95, R96). -/
theorem execLayerComputeDone_steps (hr : s.LayerRun p i w l r ws e t) (hk : u8 w.hdr 0xE ≠ 1)
    (hs : State.runSteps p l r e ws (t.takeWorks p (ws.map (·.1))) = (tal, u)) :
    execLayerComputeDone p i s = .next ((u.noteTally p l.id r tal).settle p) := by
  obtain ⟨hw, hl, hlayer, rfl, hne, henv⟩ := hr
  simp [execLayerComputeDone, hw, hl, hlayer, hne, henv, hk, hs]

/-- A chunk is applied to its layer alone (R89). -/
theorem execLayerComputeDone_chunk (hr : s.LayerRun p i w l r ws e t) (hk : u8 w.hdr 0xE = 1) :
    execLayerComputeDone p i s = .next ((t.runChunk p i l r e w).settle p) := by
  obtain ⟨hw, hl, hlayer, rfl, hne, henv⟩ := hr
  simp [execLayerComputeDone, hw, hl, hlayer, hne, henv, hk]

/-- The deadline of a step in flight tears its stream and completes it with TIMEOUT (R88). -/
theorem execStepDeadlineExpiry_tears (hx : s.pkt k = some x) (hj : s.job? x.part k = some j) (hf : j.inFlight = true)
    (hop : j.op = 0x47 ∨ j.op = 0x48) : execStepDeadlineExpiry k s = .next ((((s.seqEvent 0x1201 x.part j.line).tear x.part j.line
      j.stream).endJobX x.part j 0x20 0 0 0x1201 0xFFFF).settle x.part) := by
  have hop' : (j.op != 0x47 && j.op != 0x48) = false := by
    rcases hop with hop | hop <;> simp [hop]
  simp [execStepDeadlineExpiry, hx, hj, hf, hop']

end

/-- Settles O17: the packet, frame or work that each command needs is there and nothing holds it back; the batch window's end is its
definition. -/
theorem stepEngineCompletes : Obligations.StepEngineCompletes := by
  refine ⟨?dispatch, ?activation, ?steps, ?chunk,
    fun s k x j hx hj hf hop => execStepDeadlineExpiry_tears hx hj hf hop, fun s p n i => rfl⟩
  case dispatch =>
    intro s p k j x l y z u hj hx hw hop hfirst hroom hl hy hb hst hsq hz hu
    exact execStepDispatch_dispatches hj hx ⟨hw, hop, hfirst, hroom⟩ hl hy hb hst hsq hz hu
  case activation =>
    rintro s p f _ l h pay _ ha rfl hh hp hhc hpc hl ho he hd rfl hpark hfl hfit
    have hf : s.ActFrame p f h pay l := ⟨ha, hh, hp, hhc, hpc, hl, ho⟩
    exact (execActivationFrameReceived_takes hf he hd).trans (congrArg _ (State.actTake_work hpark he hfl hfit))
  case steps =>
    intro s p i w l r e t ws tal u hw hl hr hws hne henv hk hs
    exact execLayerComputeDone_steps ⟨hw, hl, hr, hws, hne, henv⟩ hk hs
  case chunk =>
    intro s p i w l r e t hw hl hr hne henv hk
    exact execLayerComputeDone_chunk ⟨hw, hl, hr, rfl, hne, henv⟩ hk

end Sys2Proof.Machine
end

section
/-! PROOFS. What a register write makes of a word, field by field, and when it has the effect of its register (R516 to R518, R526). -/
namespace Sys2Proof.Machine

/-- A number that fits a field at bit 0 is what the field reads. -/
theorem bits_of_lt {v hi : Nat} (h : v < 2 ^ (hi + 1)) : bits v hi 0 = v := by
  simp [bits, Nat.mod_eq_of_lt h]

/-- Replacing all the bits that a number has replaces the number. -/
theorem putBits_of_lt {w v hi : Nat} (hw : w < 2 ^ (hi + 1)) (hv : v < 2 ^ (hi + 1)) : putBits w hi 0 v = v := by
  rw [putBits_eq w hi 0 v (by omega)]
  simp [Nat.div_eq_of_lt hw, Nat.mod_eq_of_lt hv, Nat.mod_one]

section
variable {s : State} {pf lk : Bool} {d : RegDesc} {old v : Nat} {r u : RegWrite} {f : Fld}

/-- Without a lock no field is held back. -/
theorem RegWrite.field_locked : (RegWrite.field pf false v r f).locked = r.locked := by
  obtain ⟨_, _, acc, _, _, _, _⟩ := f
  cases acc <;> simp [field, apply_ite RegWrite.locked]

/-- The PF is denied no carve field. -/
theorem RegWrite.field_carve : (RegWrite.field true lk v r f).carve = r.carve := by
  obtain ⟨_, _, acc, _, _, _, _⟩ := f
  cases acc <;> simp [field, apply_ite RegWrite.carve]

/-- A field that the function may write, and that no lock holds, makes the write act. -/
theorem RegWrite.field_live (ha : f.acc ≠ .ro) (hd : f.dom ≠ .carve) : (RegWrite.field pf false v r f).live = true := by
  obtain ⟨_, _, acc, _, _, _, _⟩ := f
  cases acc <;> simp_all [field]

/-- A write that acts goes on to act. -/
theorem RegWrite.field_live_of_live (h : r.live = true) : (RegWrite.field pf lk v r f).live = true := by
  obtain ⟨_, _, acc, _, _, _, _⟩ := f
  cases acc <;> simp [field, apply_ite RegWrite.live, h]

/-- A lock holds RWL fields only. -/
theorem RegWrite.field_lockFree (h : f.acc ≠ .rwl) : RegWrite.field pf lk v r f = RegWrite.field pf false v r f := by
  obtain ⟨_, _, acc, _, _, _, _⟩ := f
  cases acc <;> simp_all [field]

/-- What is no carve field takes the same bits from the PF and from a VF. -/
theorem RegWrite.field_carveFree (h : f.dom ≠ .carve) : RegWrite.field pf lk v r f = RegWrite.field true lk v r f := by
  simp [field, h]

theorem regWrite_locked : (regWrite pf false d old v).locked = false :=
  List.foldlRecOn (motive := fun (r : RegWrite) => r.locked = false) d.flds _ rfl fun _ h _ _ => RegWrite.field_locked.trans h

theorem regWrite_carve : (regWrite true lk d old v).carve = false :=
  List.foldlRecOn (motive := fun (r : RegWrite) => r.carve = false) d.flds _ rfl fun _ h _ _ => RegWrite.field_carve.trans h

theorem regWrite_live (hf : f ∈ d.flds) (ha : f.acc ≠ .ro) (hd : f.dom ≠ .carve) : (regWrite pf false d old v).live = true := by
  obtain ⟨before, after, hs⟩ := List.append_of_mem hf
  simp only [regWrite, hs, List.foldl_append, List.foldl_cons]
  exact List.foldlRecOn (motive := fun (r : RegWrite) => r.live = true) after _ (RegWrite.field_live ha hd)
    fun _ h _ _ => RegWrite.field_live_of_live h

theorem regWrite_lockFree (h : ∀ f ∈ d.flds, f.acc ≠ .rwl) : regWrite pf lk d old v = regWrite pf false d old v :=
  List.foldl_ext _ _ _ fun _ f hf => RegWrite.field_lockFree (h f hf)

theorem regWrite_carveFree (h : ∀ f ∈ d.flds, f.dom ≠ .carve) : regWrite pf lk d old v = regWrite true lk d old v :=
  List.foldl_ext _ _ _ fun _ f hf => RegWrite.field_carveFree (h f hf)

/-- A write in range that no lock and no carve field holds back is its new word. -/
theorem regWrite_acts (hf : f ∈ d.flds) (ha : f.acc ≠ .ro) (hd : f.dom ≠ .carve) (hu : u = regWrite pf false d old v)
    (hc : u.carve = false) (hb : u.bad = false) : regWrite pf false d old v = { new := u.new, live := true } := by
  have hlocked : u.locked = false := hu ▸ regWrite_locked
  have hlive : u.live = true := hu ▸ regWrite_live hf ha hd
  rw [← hu]
  cases u
  simp_all

/-- A register with a single field of 32 bits takes every word. -/
theorem regWrite_word {rst : Nat} (hd : d.flds = [⟨31, 0, .rw, rst, 0, 4294967295, .part⟩]) (ho : old < 2 ^ 32) (hv : v < 2 ^ 32) :
    regWrite pf lk d old v = { new := v, live := true } := by
  simp [regWrite, RegWrite.field, hd, bits_of_lt (hi := 31) hv, putBits_of_lt (hi := 31) ho hv]
  omega

theorem State.written_eq {i j a : Nat} (h : locate a = some (d, i, j)) : s.written pf a v = regWrite pf false d (s.reg a).toNat v := by
  simp [State.written, h]

end

/-- Function `fn` writes `v` to the register at `a`, the one of `d` at place `i` and index `j`, and breaks no rule: `new` is the
word that results (R326, R518, R522). -/
structure State.LegalWrite (s : State) (fn : Nat) (d : RegDesc) (i j a v new : Nat) : Prop where
  word : v < 2 ^ 32
  fields : regWrite (fn == 0) false d (s.reg a).toNat v = { new := new, live := true }
  unlocked : s.rwlLocked d i j = false ∨ ∀ f ∈ d.flds, f.acc ≠ .rwl
  carve : fn = 0 → s.carveBad d i j (s.reg a).toNat new = none
  rule : s.writeOk d i j (s.reg a).toNat new = true
  recorded : roRecorded d = false

section
variable {s : State} {fn p i j a v new : Nat} {d : RegDesc}

theorem eq_of_instPart (h : instPart d i = some p) : p = i := by
  unfold instPart at h
  split at h
  · exact (Option.some.inj h).symm
  · cases h

/-- Such a write has the effect of its register. -/
theorem State.LegalWrite.applyWrite (h : s.LegalWrite fn d i j a v new) :
    s.applyWrite fn d i j a v = s.effect fn d i j a (s.reg a).toNat new v := by
  obtain ⟨hv, hf, hu, hc, hr, ho⟩ := h
  have hm : v % 2 ^ 32 = v := Nat.mod_eq_of_lt hv
  have hlock : regWrite (fn == 0) (s.rwlLocked d i j) d (s.reg a).toNat v = { new := new, live := true } := by
    rcases hu with hu | hu
    · rw [hu, hf]
    · rw [regWrite_lockFree hu, hf]
  rw [applyWrite_acts (hm.symm ▸ hlock) (by rw [hm, hf]; exact hc) rfl rfl rfl rfl hr ho, hm]

/-- A write outside a RESETTING partition reaches the register, which the function may write (R517, R526). -/
theorem State.writeAt_applies (hl : locate a = some (d, i, j)) (hi : ∀ p, instPart d i = some p → s.inReset p = false)
    (hf : fn = 0 ∨ vfWrites d = true) : s.writeAt fn a v = s.applyWrite fn d i j a v := by
  have hfree : (instPart d i).filter s.inReset = none := by
    rw [Option.filter_eq_none_iff]
    intro p hp
    simp [hi p hp]
  have hsees : (fn != 0 && !vfWrites d) = false := by
    rcases hf with hf | hf <;> simp [hf]
  simp [State.writeAt, hl, hfree, hsees]

/-- A legal write of a partition's own register, by the PF or its VF, has the effect of the register. -/
theorem partWrite_effect (h : Reaches s fn p) (hl : locate a = some (d, p, j)) (hg : d.name ≠ "HRT_GRANULE_OWNER")
    (hf : fn = 0 ∨ vfWrites d = true) (hw : s.LegalWrite fn d p j a v new) :
    s.partWrite fn p a v = s.effect fn d p j a (s.reg a).toNat new v := by
  have hreach := h
  obtain ⟨-, -, -, hreset, -⟩ := h
  rw [partWrite_reaches hreach (granuleBusy_of_name hl hg), State.writeAt_applies hl (fun q hq => eq_of_instPart hq ▸ hreset) hf,
    hw.applyWrite]

/-- A legal write of a register of no partition, by the PF, has the effect of the register. -/
theorem hostWrites_effect (hh : s.hostHeld = false) (hg : s.granuleBusy a = false) (hl : locate a = some (d, i, j))
    (hi : instPart d i = none) (hw : s.LegalWrite 0 d i j a v new) :
    s.hostWrites 0 a v = s.effect 0 d i j a (s.reg a).toNat new v := by
  rw [hostWrites_acts hh rfl hg, State.writeAt_applies hl (fun q hq => by simp [hi] at hq) (.inl rfl), hw.applyWrite]

end
end Sys2Proof.Machine
end

section
/-! PROOFS. The registers of partitions: control, granules, anvils, slots and their pool, seed, semaphores and barriers (R77 to R79, R124,
R139, R148, R150, R326, R329, R333, R337, R548). -/
namespace Sys2Proof.Machine

/-- A HRT_GRANULE_OWNER word `o` with the owner that a written word `v` names. -/
def ownerWord (o v : Nat) : Nat := putBits (putBits o 2 0 (bits v 2 0)) 3 3 (bits v 3 3)

theorem bits_ownerWord {o v : Nat} (hv : v < 16) : bits (ownerWord o v) 3 0 = v := by
  have hlow : bits (ownerWord o v) 2 0 = bits v 2 0 := by
    rw [ownerWord, bits_putBits_below _ _ _ _ _ _ (by omega) (by omega), bits_putBits_same _ _ _ _ (by omega),
      Nat.mod_eq_of_lt (bits_lt v 2 0)]
  have hhigh : bits (ownerWord o v) 3 3 = bits v 3 3 := by
    rw [ownerWord, bits_putBits_same _ _ _ _ (by omega), Nat.mod_eq_of_lt (bits_lt v 3 3)]
  simp only [bits] at hlow hhigh ⊢
  omega

/-- The owner that a word names is in its low four bits. -/
theorem ownerField_bits (w : Nat) : ownerField (bits w 3 0) = ownerField w := by
  have hlow : bits (bits w 3 0) 2 0 = bits w 2 0 := by simp only [bits]; omega
  have hhigh : bitAt (bits w 3 0) 3 = bitAt w 3 := by simp only [bitAt, bits]; congr 1; omega
  simp only [ownerField, hlow, hhigh]

theorem ownerField_ownerWord {o v : Nat} (hv : v < 16) : ownerField (ownerWord o v) = ownerField v := by
  rw [← ownerField_bits, bits_ownerWord hv]

/-- A SEM_SIGNAL word `o` with the bits of a written word `v`. -/
def signalWord (o v : Nat) : Nat := putBits (putBits o 7 0 (bits v 7 0)) 31 8 (bits v 31 8)

theorem bits_signalWord_count {o v : Nat} (hv : v < 256) : bits (signalWord o v) 7 0 = v := by
  rw [signalWord, bits_putBits_below _ _ _ _ _ _ (by omega) (by omega), bits_putBits_same _ _ _ _ (by omega),
    Nat.mod_eq_of_lt (bits_lt v 7 0), bits_of_lt (hi := 7) hv]

theorem bits_signalWord_above {o v : Nat} (hv : v < 256) : bits (signalWord o v) 31 8 = 0 := by
  rw [signalWord, bits_putBits_same _ _ _ _ (by omega), Nat.mod_eq_of_lt (bits_lt v 31 8), bits,
    Nat.div_eq_of_lt (show v < 2 ^ 8 from hv), Nat.zero_mod]

section
variable {s t : State} {fn p g i j m n o a new v : Nat} {d : RegDesc} {u : RegWrite}

/-! PRT_CTRL (R329, R333, R337). -/

theorem State.prtControl_lock : s.prtControl fn p 1 = s.setLock p := by
  simp [prtControl, bitAt, bits]

theorem State.prtControl_reset : s.prtControl 0 p 2 = s.resetPart p 3 false := by
  simp [prtControl, bitAt, bits]

theorem State.prtControl_release : s.prtControl 0 p 4 = s.resetPart p 4 true := by
  simp [prtControl, bitAt, bits]

/-- A legal write of PRT_CTRL acts in every state of its partition, RESETTING included (R526). -/
theorem State.writeAt_ctrl (hl : locate a = some (d, i, j)) (hd : d.name = "PRT_CTRL") (hw : s.LegalWrite fn d i j a v new) :
    s.writeAt fn a v = s.prtControl fn i v := by
  have happly : s.writeAt fn a v = s.applyWrite fn d i j a v := by
    simp only [State.writeAt, hl]
    split <;> simp [hd, vfWrites]
  rw [happly, hw.applyWrite]
  simp [State.effect, hd]

/-- PRT_CTRL takes every word. -/
theorem State.writeAt_prtCtrl (hp : p < 8) (hv : v < 2 ^ 32) : s.writeAt fn (adrPrtCtrl p) v = s.prtControl fn p v :=
  State.writeAt_ctrl (locate_adrPrtCtrl hp) rfl ⟨hv, rfl, .inr (by simp), fun _ => by simp [State.carveBad], by simp [State.writeOk], rfl⟩

/-- A write of PRT_CTRL by a function that reaches the partition. -/
theorem partWrite_prtCtrl (h : Reaches s fn p) (hv : v < 2 ^ 32) : s.partWrite fn p (adrPrtCtrl p) v = s.prtControl fn p v := by
  rw [partWrite_reaches h (granuleBusy_of_name (locate_adrPrtCtrl h.1) (by simp)), State.writeAt_prtCtrl h.1 hv]

/-- A write of PRT_CTRL by the PF, whatever the state of the partition. -/
theorem partWrite_prtCtrl_pf (hp : p < 8) (hh : s.hostHeld = false) (hv : v < 2 ^ 32) :
    s.partWrite 0 p (adrPrtCtrl p) v = s.prtControl 0 p v := by
  have hwrite : s.partWrite 0 p (adrPrtCtrl p) v = s.hostWrites 0 (adrPrtCtrl p) v := by simp [State.partWrite, hp]
  rw [hwrite, hostWrites_acts hh rfl (granuleBusy_of_name (locate_adrPrtCtrl hp) (by simp)), State.writeAt_prtCtrl hp hv]

/-- LOCK sets the lock of a partition that meets the conditions of R329, and the doorbells kept until then are checked (R328). -/
theorem execPrtLock_locks (h : Reaches s fn p) (hk : s.hasLock p = false) (hr : s.rf adrGlbStatus 0 0 = 1) (hf : s.lockFails p = none) :
    execPrtLock fn p s = .next (State.keptBells (s.modPart p fun q => { q with st := .locked }) p) := by
  rw [execPrtLock, partWrite_prtCtrl h (by decide), State.prtControl_lock]
  simp [State.setLock, hk, hr, hf]

/-- LOCK records the first condition of R329 that the partition does not meet. -/
theorem execPrtLock_fails (h : Reaches s fn p) (hk : s.hasLock p = false) (hr : s.rf adrGlbStatus 0 0 = 1) (hf : s.lockFails p = some n) :
    execPrtLock fn p s = .next (s.eventD 0x0202 p p [n]) := by
  rw [execPrtLock, partWrite_prtCtrl h (by decide), State.prtControl_lock]
  simp [State.setLock, hk, hr, hf]

/-- RESET starts a reset of the partition (R333). -/
theorem execPrtReset_resets (hp : p < 8) (hh : s.hostHeld = false) : execPrtReset p s = .next (s.resetPart p 3 false) := by
  rw [execPrtReset, partWrite_prtCtrl_pf hp hh (by decide), State.prtControl_reset]

/-- RELEASE starts one that takes the partition's carve away (R337). -/
theorem execPrtRelease_resets (hp : p < 8) (hh : s.hostHeld = false) : execPrtRelease p s = .next (s.resetPart p 4 true) := by
  rw [execPrtRelease, partWrite_prtCtrl_pf hp hh (by decide), State.prtControl_release]

/-! Granules and anvils (R139, R326, R548). -/

/-- The owner's fields take every owner. -/
theorem regWrite_owner {lk : Bool} (hd : d.flds = [⟨2, 0, .rw, 0, 0, 7, .carve⟩, ⟨3, 3, .rw, 0, 0, 1, .carve⟩,
    ⟨4, 4, .ro, 0, 0, 1, .chip⟩]) : regWrite true lk d o v = { new := ownerWord o v, live := true } := by
  have hlow := bits_lt v 2 0
  have hhigh := bits_lt v 3 3
  simp [regWrite, RegWrite.field, hd, ownerWord]
  omega

/-- A change of owner that R326 allows may take place. -/
theorem State.carveBad_granule (hd : d.name = "HRT_GRANULE_OWNER") (hb : s.handBad (ownerField o) (ownerField new) = false) :
    s.carveBad d i j o new = none := by
  simp [carveBad, hd, hb]

theorem State.handGranule_other (hn : ownerField o ≠ ownerField new)
    (ht : t = State.zeroGranule (s.setRf (adrHrtGranuleOwner g) 3 0 (bits new 3 0)) g) :
    s.handGranule g o new = { t with hrt := { t.hrt with zeroing := insNat t.hrt.zeroing g } } := by
  subst ht
  simp [handGranule, hn]

/-- A granule passes to another owner, and its zeroing starts (R139, log entry 44). -/
theorem execGranuleOwnerWrite_hands (hh : s.hostHeld = false) (hg : s.granuleBusy (adrHrtGranuleOwner g) = false) (hlt : g < 128)
    (hv : v < 16) (ho : o = (s.reg (adrHrtGranuleOwner g)).toNat) (hn : ownerField o ≠ ownerField v)
    (hb : s.handBad (ownerField o) (ownerField v) = false) (ht : t = State.zeroGranule (s.setRf (adrHrtGranuleOwner g) 3 0 v) g) :
    execGranuleOwnerWrite g v s = .next { t with hrt := { t.hrt with zeroing := insNat t.hrt.zeroing g } } := by
  subst ho
  rw [← ownerField_ownerWord (o := (s.reg (adrHrtGranuleOwner g)).toNat) hv] at hn hb
  rw [← bits_ownerWord (o := (s.reg (adrHrtGranuleOwner g)).toNat) hv] at ht
  rw [execGranuleOwnerWrite, if_pos hlt, hostWrites_effect hh hg (locate_adrHrtGranuleOwner hlt) rfl
    ⟨by omega, regWrite_owner rfl, .inr (by simp), fun _ => State.carveBad_granule rfl hb, by simp [State.writeOk], rfl⟩]
  exact congrArg _ (State.handGranule_other hn ht)

/-- PRT_ANVILS takes every mask of 8 anvils. -/
theorem regWrite_mask {lk : Bool} (hd : d.flds = [⟨7, 0, .rw, 0, 0, 255, .carve⟩]) (ho : o < 256) (hm : m < 256) :
    regWrite true lk d o m = { new := m, live := true } := by
  simp [regWrite, RegWrite.field, hd, bits_of_lt (hi := 7) hm, putBits_of_lt (hi := 7) ho hm]
  omega

/-- An unfrozen partition may take anvils that no other partition has (R326). -/
theorem State.carveBad_anvils (hd : d.name = "PRT_ANVILS") (hf : s.frozen p = false)
    (ha : ∀ a, a < 8 → bitAt m a = true → s.anvilTaken p a = false) : s.carveBad d p j o m = none := by
  have hfree : (onesOf 8 m).any (s.anvilTaken p) = false := by
    simpa [onesOf] using ha
  simp [carveBad, hd, hf, hfree]

/-- The anvils whose bits change are cleared before they change hands (R548). -/
theorem execAnvilOwnerWrite_hands (hp : p < 8) (hh : s.hostHeld = false) (hr : s.inReset p = false) (hm : m < 256)
    (ho : o = (s.reg (adrPrtAnvils p)).toNat) (hlt : o < 256) (hf : s.frozen p = false)
    (ha : ∀ a, a < 8 → bitAt m a = true → s.anvilTaken p a = false) : execAnvilOwnerWrite p m s = .next (s.anvilMask p o m) := by
  subst ho
  have hreach : Reaches s 0 p := ⟨hp, rfl, .inl rfl, hr, hh⟩
  rw [execAnvilOwnerWrite, partWrite_effect hreach (locate_adrPrtAnvils hp) (by simp) (.inl rfl)
    ⟨by omega, regWrite_mask rfl hlt hm, .inr (by simp), fun _ => State.carveBad_anvils rfl hf ha, by simp [State.writeOk],
      rfl⟩]
  simp [State.effect]

/-! Slots and the pool (R78, R79). -/

/-- SEQ_SLOT_CFG takes a word in range that fits the free quota and the pool (R78, R79). -/
theorem execSlotQuotaWrite_sets (h : Reaches s fn p) (hv : v < 2 ^ 32) (hk : s.hasLock p = false) (hf : s.frozen p = false)
    (hu : u = s.written (fn == 0) (adrSeqSlotCfg p) v) (hc : u.carve = false) (hb : u.bad = false)
    (hok : s.slotCfgOk p (s.reg (adrSeqSlotCfg p)).toNat u.new = true) :
    execSlotQuotaWrite fn p v s = .next (s.setReg (adrSeqSlotCfg p) (wd u.new)) := by
  have hl := locate_adrSeqSlotCfg h.1
  rw [State.written_eq hl] at hu
  rw [execSlotQuotaWrite, partWrite_effect h hl (by simp) (.inr rfl)
    ⟨hv, regWrite_acts (f := ⟨9, 8, .rwl, 3, 0, 3, .part⟩) (by simp) (by simp) (by simp) hu hc hb, .inl hk,
      fun _ => by simp [State.carveBad, hf], by simpa [State.writeOk] using hok, rfl⟩]
  simp [State.effect]

/-- SEQ_POOL takes every limit from 8 to 32 and keeps what is free (R79). -/
theorem regWrite_pool {pf lk : Bool} {rst : Nat} (hd : d.flds = [⟨5, 0, .rw, 0x8, 8, 32, .chip⟩, ⟨30, 16, .ro, rst, 0, 32767, .chip⟩])
    (hmin : 8 ≤ v) (hmax : v ≤ 32) : regWrite pf lk d o v = { new := putBits o 5 0 v, live := true } := by
  simp [regWrite, RegWrite.field, hd, bits_of_lt (show v < 2 ^ (5 + 1) by omega)]
  omega

/-- SEQ_POOL takes a limit that no lock and no slot's backing contradicts (R79). -/
theorem execPoolLimitWrite_sets (hh : s.hostHeld = false) (hmin : 8 ≤ v) (hmax : v ≤ 32) (hk : ∀ p, p < 8 → s.hasLock p = false)
    (hb : s.backingBut 8 ≤ v) : execPoolLimitWrite v s = .next (s.setRf adrSeqPool 5 0 v) := by
  have hfree : allParts.any s.hasLock = false := by
    simpa [allParts] using hk
  have hnew : bits (putBits (s.reg adrSeqPool).toNat 5 0 v) 5 0 = v := by
    rw [bits_putBits_same _ _ _ _ (by omega), Nat.mod_eq_of_lt (by omega)]
  rw [execPoolLimitWrite, hostWrites_effect hh (granuleBusy_of_name locate_adrSeqPool (by simp)) locate_adrSeqPool rfl
    ⟨by omega, regWrite_pool rfl hmin hmax, .inr (by simp), fun _ => by simp [State.carveBad],
      by simp [State.writeOk, hfree, hnew, hb], rfl⟩]
  simp [State.effect, State.setRf, setFld, wd]

/-! Seed, semaphores and barriers (R124, R148, R150). -/

/-- VEC_SR_SEED seeds the generators of the partition's anvils (R124). -/
theorem execVecSrSeedWrite_seeds (h : Reaches s fn p) (hv : v < 2 ^ 32) :
    execVecSrSeedWrite fn p v s = .next (State.reseed (s.setReg (adrVecSrSeed p) (wd v)) p v) := by
  rw [execVecSrSeedWrite, partWrite_effect h (locate_adrVecSrSeed h.1) (by simp) (.inr rfl)
    ⟨hv, regWrite_word rfl (s.reg _).isLt hv, .inr (by simp), fun _ => by simp [State.carveBad], by simp [State.writeOk], rfl⟩]
  simp [State.effect]

/-- SEM_VALUE replaces the value of a semaphore for which nothing waits (R148). -/
theorem execSemValueWrite_sets (h : Reaches s fn p) (hi : i < 256) (hv : v < 2 ^ 32) (hw : (s.sem p i).waiters = []) :
    execSemValueWrite fn p i v s = .next (s.semWrite p i v) := by
  rw [execSemValueWrite, if_pos hi, partWrite_effect h (locate_adrSemValue h.1 hi) (by simp) (.inr rfl)
    ⟨hv, regWrite_word rfl (s.reg _).isLt hv, .inr (by simp), fun _ => by simp [State.carveBad], by simp [State.writeOk, hw], rfl⟩]
  simp [State.effect]

/-- SEM_SIGNAL takes the count and the reserved bits above it. -/
theorem regWrite_signal {pf lk : Bool} (hd : d.flds = [⟨7, 0, .wo, 0x0, 0, 255, .part⟩, ⟨31, 8, .wo, 0x0, 0, 16777215, .part⟩]) :
    regWrite pf lk d o v = { new := signalWord o v, live := true } := by
  simp [regWrite, RegWrite.field, hd, signalWord]

/-- SEM_SIGNAL adds a count (R148). -/
theorem execSemSignalWrite_signals (h : Reaches s fn p) (hi : i < 256) (hmin : 0 < v) (hmax : v < 256) :
    execSemSignalWrite fn p i v s = .next (s.semSignal p i v) := by
  rw [execSemSignalWrite, if_pos hi, partWrite_effect h (locate_adrSemSignal h.1 hi) (by simp) (.inr rfl)
    ⟨by omega, regWrite_signal rfl, .inr (by simp), fun _ => by simp [State.carveBad],
      by simp [State.writeOk, bits_signalWord_count hmax, bits_signalWord_above hmax, hmin.ne'], rfl⟩]
  simp [State.effect, bits_of_lt (hi := 7) hmax]

/-- SEM_BARRIER takes a word in range at a barrier without arrivals (R148, R150). -/
theorem execSemBarrierWrite_sets (h : Reaches s fn p) (hj : j < 64) (hv : v < 2 ^ 32) (hu : u = s.written true (adrSemBarrier p j) v)
    (hb : u.bad = false) (ha : (s.barrier p j).arrivals = 0) :
    execSemBarrierWrite fn p j v s = .next (s.setReg (adrSemBarrier p j) (wd u.new)) := by
  have hl := locate_adrSemBarrier h.1 hj
  rw [State.written_eq hl] at hu
  have hc : u.carve = false := hu ▸ regWrite_carve
  rw [execSemBarrierWrite, if_pos hj, partWrite_effect h hl (by simp) (.inr rfl)
    ⟨hv, (regWrite_carveFree (by simp)).trans (regWrite_acts (List.mem_cons_self ..) (by simp) (by simp) hu hc hb), .inr (by simp),
      fun _ => by simp [State.carveBad], by simp [State.writeOk, ha], rfl⟩]
  simp [State.effect]

end

/-- Settles O24: each write reaches its register (`partWrite_effect`, `hostWrites_effect`), whose fields and rules allow the word; a
write of PRT_CTRL does so in every state of the partition (`State.writeAt_prtCtrl`). -/
theorem partitionRegisterWritesComplete : Obligations.PartitionRegisterWritesComplete :=
  ⟨fun _ _ _ h hk hr hf => execPrtLock_locks h hk hr hf,
    fun _ _ _ _ h hk hr hf => execPrtLock_fails h hk hr hf,
    fun _ _ hp hh => execPrtReset_resets hp hh,
    fun _ _ hp hh => execPrtRelease_resets hp hh,
    fun _ _ _ _ _ hh hg hlt hv ho hn hb ht => execGranuleOwnerWrite_hands hh hg hlt hv ho hn hb ht,
    fun _ _ _ _ hp hh hr hm ho hlt hf ha => execAnvilOwnerWrite_hands hp hh hr hm ho hlt hf ha,
    fun _ _ _ _ _ h hv hk hf hu hc hb hok => execSlotQuotaWrite_sets h hv hk hf hu hc hb hok,
    fun _ _ hh hmin hmax hk hb => execPoolLimitWrite_sets hh hmin hmax hk hb,
    fun _ _ _ _ h hv => execVecSrSeedWrite_seeds h hv,
    fun _ _ _ _ _ h hi hv hw => execSemValueWrite_sets h hi hv hw,
    fun _ _ _ _ _ h hi hmin hmax => execSemSignalWrite_signals h hi hmin hmax,
    fun _ _ _ _ _ _ h hj hv hu hb ha => execSemBarrierWrite_sets h hj hv hu hb ha⟩

end Sys2Proof.Machine
end

section
/-! PROOFS. The work of an anvil ends: a weight load, a pass, an epilogue and a vector operation (R103 to R105, R375, R376). -/
namespace Sys2Proof.Machine

/-- The vector operations that work lane by lane and need no table have the codes up to 0xC (R376). -/
theorem vecOp_laneByLane {op : Nat} (h : op ≤ 0xC) :
    (decide (0x10 ≤ op) && decide (op ≤ 0x12)) = false ∧ (op == 0x18) = false ∧ (op == 0x19) = false ∧ (op == 0x1A) = false := by
  simp only [Bool.and_eq_false_iff, decide_eq_false_iff_not, beq_eq_false_iff_ne]
  omega

section
variable {s t u : State} {a k n : Nat} {ks : List Nat} {x : Pkt} {ecc acc : List (Nat × Bool)} {v w : Anvil} {r : Region}
  {b d da db dc : List Byte} {rows : List (List Nat)}

/-- A packet that is still in the machine is acted on. -/
theorem State.withPkt_some {f : Pkt → State → State} (h : s.pkt k = some x) : s.withPkt k f = f x s := by
  simp only [State.withPkt, h]

/-- An operation that counted nothing raises no event (R547). -/
@[simp] theorem State.onceEvent_zero (code src p : Nat) : s.onceEvent code src p 0 = s := rfl

/-- A single tile that reads well joins the loading buffer, and a load with NEW clears the buffer's invalid mark (R103, R105). -/
theorem State.endLoad_joins (hr : r = loadRegion x.bytes) (hp : r.paired = false)
    (hd : t.load x.part (u32 x.bytes 0x1C) (loadLen x.bytes) = (some d, t)) (hv : v = { t.anvil a with load := none }) :
    t.endLoad a k x = (t.setAnvil a (v.setLoading
      ⟨v.loading.regions ++ [{ r with tile := d, tile2 := [] }], v.loading.invalid && !loadNew x.bytes⟩)).done k
        (leBytes 4 (loadLen x.bytes)) := by
  subst hr hv
  simp [State.endLoad, hd, hp]

/-- Packet `k` of a pass in OVERWRITE mode ends at anvil `a`: `v` is the anvil without it, `r` its region and `d` its vectors, and its
rows make `w` of the anvil, with no saturation and no NaN scale (R104, R118). -/
structure State.PassEnds (t : State) (a k : Nat) (x : Pkt) (v : Anvil) (r : Region) (d : List Byte) (w : Anvil) : Prop where
  left : v = { t.anvil a with passes := (t.anvil a).passes.filter (· != k) }
  region : v.activeBuf.region? (u8 x.bytes 0x11) = some r
  vectors : t.load x.part (u32 x.bytes 0x1C) (u16 x.bytes 0x14 * vecBytes (u8 x.bytes 0x13) r.rows) = (some d, t)
  overwrite : bitAt (u8 x.bytes 0x18) 0 = false
  rows : passRows v r (u8 x.bytes 0x13) (t.rf (adrVecCvtCfg x.part) 12 8) (u16 x.bytes 0x14) (u16 x.bytes 0x16) false d = (w, 0, 0)

/-- Such a pass, without a parity error, writes its rows and counts (R104, R374). -/
theorem State.endPass_writes (h : t.PassEnds a k x v r d w) :
    t.endPass a k x false = ((((t.setAnvil a w).bumpBy (adrAnvIntSat a) 0).bumpBy (adrAnvNanScale a) 0).bump (adrPasses a)).done k
      (leBytes 4 (passLatency r.rows + u16 x.bytes 0x14 - 1)) := by
  obtain ⟨rfl, hr, hd, ho, hw⟩ := h
  simp [State.endPass, hr, hd, ho, hw]

/-- Packet `x` of an epilogue without a gate ends at anvil `a`: none of its lanes is uncorrectable, `rows` are its lanes as FP32, and
`d` is what they convert to, which leaves `w` of the anvil (R105, R375). -/
structure State.EpilogueEnds (t : State) (a : Nat) (x : Pkt) (rows : List (List Nat)) (d : List Byte) (w : Anvil) : Prop where
  correctable : (t.anvil a).leaveVec.uncIn (u16 x.bytes 0x14) (u16 x.bytes 0x16) (u16 x.bytes 0x18) (u16 x.bytes 0x1A) = false
  ungated : u8 x.bytes 0x12 = 0xFF
  lanes : rows = (t.anvil a).leaveVec.rowsF32 (u16 x.bytes 0x14) (u16 x.bytes 0x16) (u16 x.bytes 0x18) (u16 x.bytes 0x1A)
  converted : convertRows (u8 x.bytes 0x11) (t.satOf x.part (u8 x.bytes 0x13)) (bitAt (u8 x.bytes 0x13) 0) a (u16 x.bytes 0x18) rows
    (t.anvil a) = (d, w)

/-- Such an epilogue writes its vectors (R375). -/
theorem State.endEpilogue_writes (h : t.EpilogueEnds a x rows d w) :
    t.endEpilogue a k x = ((((t.setAnvil a w.leaveVec).notePwlNan x.part 0xFF 0).noteNan a x.part (u8 x.bytes 0x11) rows).writeHearth
      x.part (u32 x.bytes 0x1C) d).done k [] := by
  obtain ⟨hu, hg, rfl, hd⟩ := h
  simp [State.endEpilogue, hu, hg, hd]

/-- Packet `x` of a vector operation that works lane by lane ends: its sources are `da`, `db` and `dc`, each empty when the operation does
not use it (R376). -/
structure State.VecEnds (t : State) (x : Pkt) (n : Nat) (da db dc : List Byte) : Prop where
  laneByLane : u8 x.bytes 0x10 ≤ 0xC
  size : n = u16 x.bytes 0x24 * roundUp (4 * u16 x.bytes 0x26) 64
  first : t.vecSrc x.part (vecOpUses (u8 x.bytes 0x10)).1 (u32 x.bytes 0x14) n = (some da, t)
  second : t.vecSrc x.part (vecOpUses (u8 x.bytes 0x10)).2.1 (u32 x.bytes 0x18) n = (some db, t)
  third : t.vecSrc x.part (vecOpUses (u8 x.bytes 0x10)).2.2 (u32 x.bytes 0x1C) n = (some dc, t)

/-- Such an operation writes its rows, padded to 64 bytes (R126, R376). -/
theorem State.endVec_writes (h : t.VecEnds x n da db dc) (hu : u = t.setAnvil a (t.anvil a).leaveVec) :
    t.endVec a k x = (u.writeHearth x.part (u32 x.bytes 0x20) ((vecRows (u8 x.bytes 0x10) (u16 x.bytes 0x24) (u16 x.bytes 0x26)
      (u.table x.part (u8 x.bytes 0x28)) da db dc).flatMap padRow)).done k [] := by
  subst hu
  obtain ⟨hop, rfl, ha, hb, hc⟩ := h
  obtain ⟨hreduce, hconvert, hgate, hscan⟩ := vecOp_laneByLane hop
  simp [State.endVec, ha, hb, hc, hreduce, hconvert, hgate, hscan]

/-! The commands note the errors that they were given, and end the work of the packet that is at the unit. -/

theorem execWeightLoadDone_ends (hl : (s.anvil a).load = some k) (ht : t = s.eccFinds ecc) (hx : t.pkt k = some x) :
    execWeightLoadDone a ecc s = .next (t.endLoad a k x) := by
  subst ht
  simp only [execWeightLoadDone, hl, State.withPkt_some hx]

theorem execPassDone_ends {parity : Bool} (hp : (s.anvil a).passes = k :: ks) (ht : t = (s.eccFinds ecc).accFinds a acc)
    (hx : t.pkt k = some x) : execPassDone a parity ecc acc s = .next (t.endPass a k x parity) := by
  subst ht
  simp only [execPassDone, hp, State.withPkt_some hx]

theorem execEpilogueDone_ends (hv : (s.anvil a).vec = some k) (ht : t = s.accFinds a acc) (hx : t.pkt k = some x)
    (ho : x.opcode = 0x22) : execEpilogueDone a acc s = .next (t.endEpilogue a k x) := by
  subst ht
  simp [execEpilogueDone, hv, State.withPkt_some hx, ho]

theorem execVecOpDone_ends (hv : (s.anvil a).vec = some k) (ht : t = s.eccFinds ecc) (hx : t.pkt k = some x)
    (ho : x.opcode = 0x23) : execVecOpDone a ecc s = .next (t.endVec a k x) := by
  subst ht
  simp [execVecOpDone, hv, State.withPkt_some hx, ho]

end

/-- Settles O8: each command ends the work of the packet at its unit (the `…_ends` lemmas), and such work, when nothing that it reads is
lost, writes its result (`State.endLoad_joins` and the `…_writes` lemmas). -/
theorem anvilWorkEnds : Obligations.AnvilWorkEnds := by
  refine ⟨?load, ?pass, ?epilogue, ?vecOp⟩
  case load =>
    intro s a k x ecc t d v r hl ht hx hr hp hd hv
    exact (execWeightLoadDone_ends hl ht hx).trans (congrArg _ (State.endLoad_joins hr hp hd hv))
  case pass =>
    rintro s a k ks x ecc acc t v r _ d w hp ht hx hv hr rfl hd ho hw
    exact (execPassDone_ends hp ht hx).trans (congrArg _ (State.endPass_writes ⟨hv, hr, hd, ho, hw⟩))
  case epilogue =>
    rintro s a k x acc t _ _ rows d w hk ht hx hop rfl rfl hu hg hr hd
    exact (execEpilogueDone_ends hk ht hx hop).trans (congrArg _ (State.endEpilogue_writes ⟨hu, hg, hr, hd⟩))
  case vecOp =>
    rintro s a k x ecc t _ n da db dc u hk ht hx hop rfl hl hn ha hb hc hu
    exact (execVecOpDone_ends hk ht hx hop).trans (congrArg _ (State.endVec_writes ⟨hl, hn, ha, hb, hc⟩ hu))

end Sys2Proof.Machine
end

section
/-! PROOFS. The products of a lightbank: their rows, and the verdict of the shadow anvil (R163, R165, R170 to R173). -/
namespace Sys2Proof.Machine

section
variable {s u : State} {p i b k : Nat} {c0 c1 : List Int} {r : Prod} {l : Line} {q : LayerRec} {x : LBlock} {y d : List Nat}

/-- Without a pair of readings there is no comparison of rows (R166). -/
@[simp] theorem State.compareRow_none : s.compareRow b none = s := by
  cases h : (s.bank b).rot <;> simp only [State.compareRow, h]

@[simp] theorem State.each_singleton {α : Type} (e : α) (f : State → α → State) : s.each [e] f = f s e := rfl

/-- The product of a layer on one block counts there with its clipped results, and its rows are delivered (R163, R165). -/
theorem execLbkProductDone_delivers (hr : (s.part p).prods[i]? = some r) (ha : r.analog = true) (hy : r.y = none)
    (hb : s.layerBlocks p r.line r.layer = [(b, k, x)]) :
    execLbkProductDone p i c0 c1 none none s = .next (((s.bump (adrProducts b)).bumpBy (adrClips b)
      (clipsOf (if b == 0 then c0 else c1) x.rowCnt)).deliverRows p i r
        (joinRows [x] (ceilLog2 (stateMax r.h)) (if b == 0 then c0 else c1) [])) := by
  simp [execLbkProductDone, hr, ha, hy, hb]

/-- The shadow's value takes the place of an analog one in fallback (R173). -/
theorem State.shadowVerdict_fallback (ha : r.analog = false) :
    s.shadowVerdict p i r q d = (s.modPart p fun z => { z with prods := z.prods.eraseIdx i }).setTerm p r.line r.stream r.layer d false
      (r.h.all isFinite) := by
  simp [State.shadowVerdict, ha]

/-- A check that agrees with the analog value on one block ends the block's run of diverging checks, and delivers that value (R170,
R171). -/
theorem State.shadowVerdict_agrees (ha : r.analog = true) (hy : r.y = some y) (hb : s.layerBlocks p r.line r.layer = [(b, k, x)])
    (hd : firstDiverging q (ceilLog2 (stateMax r.h)) (joinScales [x]) y d = none) :
    s.shadowVerdict p i r q d = (State.modPart ((s.bump (adrShadowChecks b)).setBlock b k { x with divs := 0 }) p
      fun z => { z with prods := z.prods.eraseIdx i }).setTerm p r.line r.stream r.layer y false false := by
  simp [State.shadowVerdict, ha, hy, hb, hd]

/-- A pass of the shadow anvil counts and gives its verdict, unless the analog value that it checks is still to come (R170). -/
theorem execShadowVerdict_verdict (hr : (s.part p).prods[i]? = some r) (hl : s.line? p r.line = some l)
    (hq : l.layers[r.layer]? = some q) (hy : (r.analog && r.y.isNone) = false) :
    execShadowVerdict p i s = .next ((s.bump (adrPasses q.shadowAnvil)).shadowVerdict p i r q
      (digitalTerm q (s.rf (adrVecCvtCfg p) 0 0 == 1) r.h)) := by
  simp [execShadowVerdict, hr, hl, hq, hy]

end

/-- Settles O18: an analog product delivers its rows, and a verdict (`execShadowVerdict_verdict`) replaces the analog value or agrees
with it. -/
theorem lightbankProductsComplete : Obligations.LightbankProductsComplete := by
  refine ⟨fun s p i c0 c1 r b k x hr ha hy hb => execLbkProductDone_delivers hr ha hy hb, ?fallback, ?agrees⟩
  case fallback =>
    intro s p i r l q hr hl hq ha
    exact (execShadowVerdict_verdict hr hl hq (by simp [ha])).trans (congrArg _ (State.shadowVerdict_fallback ha))
  case agrees =>
    rintro s p i r l q b k x y _ hr hl hq ha hy rfl hb hd
    exact (execShadowVerdict_verdict hr hl hq (by simp [hy])).trans (congrArg _ (State.shadowVerdict_agrees ha hy hb hd))

end Sys2Proof.Machine
end

section
/-! PROOFS. What the machine keeps: every command follows the state that it met, and a step keeps the canonical forms (R129, R456, R514). -/
namespace Sys2Proof.Machine

/-- What any command answers follows the state that it met: each command by its own follow lemma. -/
theorem exec_follows {s₀ s : State} (c : Instr) (h : Follows s₀ s) : ResFollows s₀ (exec c s) :=
  match c with
  | .nop k => execNop_follows k h
  | .setMode k => execSetMode_follows k h
  | .identify k => execIdentify_follows k h
  | .tongDesc k => execTongDesc_follows k h
  | .tongList k => execTongList_follows k h
  | .tongDescriptorStart t => execTongDescriptorStart_follows t h
  | .tongDescriptorDone t ecc => execTongDescriptorDone_follows t ecc h
  | .tongWaitTimeout t => execTongWaitTimeout_follows t h
  | .fill k => execFill_follows k h
  | .fillDone t => execFillDone_follows t h
  | .bulkReceive k => execBulkReceive_follows k h
  | .bulkUnbind k => execBulkUnbind_follows k h
  | .weightLoad k => execWeightLoad_follows k h
  | .weightLoadDone a ecc => execWeightLoadDone_follows a ecc h
  | .pass k => execPass_follows k h
  | .passDone a parity ecc acc => execPassDone_follows a parity ecc acc h
  | .epilogue k => execEpilogue_follows k h
  | .epilogueDone a acc => execEpilogueDone_follows a acc h
  | .vecOp k => execVecOp_follows k h
  | .vecOpDone a ecc => execVecOpDone_follows a ecc h
  | .cqInterruptTimer p j => execCqInterruptTimer_follows p j h
  | .lapStart k => execLapStart_follows k h
  | .lapOpen p r => execLapOpen_follows p r h
  | .lapResolve k => execLapResolve_follows k h
  | .rehome k => execRehome_follows k h
  | .billetDepart p r n unused => execBilletDepart_follows p r n unused h
  | .billetReceived p frame => execBilletReceived_follows p frame h
  | .gradientAdmit p r n => execGradientAdmit_follows p r n h
  | .verdictReceived p frame => execVerdictReceived_follows p frame h
  | .notOpenResendTimer p r tok n => execNotOpenResendTimer_follows p r tok n h
  | .custodyDeadlineExpiry p r tok n => execCustodyDeadlineExpiry_follows p r tok n h
  | .hopRecoveryExpiry p r tok n => execHopRecoveryExpiry_follows p r tok n h
  | .landingSlotGrant d p r => execLandingSlotGrant_follows d p r h
  | .memberPrepared p r => execMemberPrepared_follows p r h
  | .prepareTokenReceived p frame => execPrepareTokenReceived_follows p frame h
  | .commitTokenReceived p frame => execCommitTokenReceived_follows p frame h
  | .abortTokenReceived p frame => execAbortTokenReceived_follows p frame h
  | .commitWindowExpiry p r => execCommitWindowExpiry_follows p r h
  | .relayWindowExpiry p r => execRelayWindowExpiry_follows p r h
  | .lineSetup k => execLineSetup_follows k h
  | .lineReroute k => execLineReroute_follows k h
  | .lineTeardown k => execLineTeardown_follows k h
  | .setupFrameReceived p frame => execSetupFrameReceived_follows p frame h
  | .setupCommitReceived p frame => execSetupCommitReceived_follows p frame h
  | .setupUndoReceived p frame => execSetupUndoReceived_follows p frame h
  | .setupFetchTimeout p frame => execSetupFetchTimeout_follows p frame h
  | .setupFrameWaitTimeout k => execSetupFrameWaitTimeout_follows k h
  | .streamAdmit k => execStreamAdmit_follows k h
  | .admitFrameReceived p frame => execAdmitFrameReceived_follows p frame h
  | .undoFrameReceived p frame => execUndoFrameReceived_follows p frame h
  | .streamPark k => execStreamPark_follows k h
  | .streamResume k => execStreamResume_follows k h
  | .streamRelease k => execStreamRelease_follows k h
  | .streamStateFrameReceived p frame => execStreamStateFrameReceived_follows p frame h
  | .step k => execStep_follows k h
  | .chunk k => execChunk_follows k h
  | .stepDispatch p k => execStepDispatch_follows p k h
  | .activationFrameReceived p frame => execActivationFrameReceived_follows p frame h
  | .layerComputeDone p ix => execLayerComputeDone_follows p ix h
  | .stepDeadlineExpiry k => execStepDeadlineExpiry_follows k h
  | .lineBrokenNoticeReceived p frame => execLineBrokenNoticeReceived_follows p frame h
  | .batchWindowExpiry p line layer => execBatchWindowExpiry_follows p line layer h
  | .tableLoad k => execTableLoad_follows k h
  | .lbkProductDone p ix c0 c1 cmp0 cmp1 => execLbkProductDone_follows p ix c0 c1 cmp0 cmp1 h
  | .shadowVerdict p ix => execShadowVerdict_follows p ix h
  | .lbkTempSample b t => execLbkTempSample_follows b t h
  | .lbkSweepTimer b => execLbkSweepTimer_follows b h
  | .lbkSweep k => execLbkSweep_follows k h
  | .rowSettled b r => execRowSettled_follows b r h
  | .rowFitDone b residual inputs => execRowFitDone_follows b residual inputs h
  | .lbkTablesStale b => execLbkTablesStale_follows b h
  | .lbkStagePowerLoss b stage idx => execLbkStagePowerLoss_follows b stage idx h
  | .lbkLaserChangeDone b => execLbkLaserChangeDone_follows b h
  | .lbkBlockStatus k => execLbkBlockStatus_follows k h
  | .lbkForceFallback k => execLbkForceFallback_follows k h
  | .linkConfig k => execLinkConfig_follows k h
  | .addressAssign k => execAddressAssign_follows k h
  | .linkMeasure k => execLinkMeasure_follows k h
  | .semSet k => execSemSet_follows k h
  | .semSignal k => execSemSignal_follows k h
  | .semWaitTimeout p ix j => execSemWaitTimeout_follows p ix j h
  | .barrierSet k => execBarrierSet_follows k h
  | .barrierArrive k => execBarrierArrive_follows k h
  | .powerCap k => execPowerCap_follows k h
  | .thermalHint k => execThermalHint_follows k h
  | .powerRead k => execPowerRead_follows k h
  | .evrCopy k => execEvrCopy_follows k h
  | .evrClear k => execEvrClear_follows k h
  | .evrPersist k => execEvrPersist_follows k h
  | .fwStage k => execFwStage_follows k h
  | .fwActivate k => execFwActivate_follows k h
  | .configWrite k => execConfigWrite_follows k h
  | .flashRead k => execFlashRead_follows k h
  | .bulkFrameReceived p frame => execBulkFrameReceived_follows p frame h
  | .managementFrameReceived p frame => execManagementFrameReceived_follows p frame h
  | .sqDoorbell fn p ix v => execSqDoorbell_follows fn p ix v h
  | .cqDoorbell fn p j v => execCqDoorbell_follows fn p j v h
  | .proxyDoorbellWrite fn p lo hi => execProxyDoorbellWrite_follows fn p lo hi h
  | .sqStop fn p ix => execSqStop_follows fn p ix h
  | .sqRestart fn p ix => execSqRestart_follows fn p ix h
  | .ringEnable fn p cq ix v => execRingEnable_follows fn p cq ix v h
  | .ringDisable fn p cq ix v => execRingDisable_follows fn p cq ix v h
  | .fetchBurstIssue => execFetchBurstIssue_follows h
  | .fetchBurstArrive p ix => execFetchBurstArrive_follows p ix h
  | .packetDispatch p ix => execPacketDispatch_follows p ix h
  | .packetTimeout k => execPacketTimeout_follows k h
  | .prtLock fn p => execPrtLock_follows fn p h
  | .prtReset p => execPrtReset_follows p h
  | .prtRelease p => execPrtRelease_follows p h
  | .partitionResetDone p => execPartitionResetDone_follows p h
  | .partitionStateLost p => execPartitionStateLost_follows p h
  | .granuleOwnerWrite g v => execGranuleOwnerWrite_follows g v h
  | .granuleZeroingDone g => execGranuleZeroingDone_follows g h
  | .anvilOwnerWrite p mask => execAnvilOwnerWrite_follows p mask h
  | .slotQuotaWrite fn p v => execSlotQuotaWrite_follows fn p v h
  | .poolLimitWrite v => execPoolLimitWrite_follows v h
  | .vecSrSeedWrite fn p v => execVecSrSeedWrite_follows fn p v h
  | .semValueWrite fn p ix v => execSemValueWrite_follows fn p ix v h
  | .semSignalWrite fn p ix v => execSemSignalWrite_follows fn p ix v h
  | .semBarrierWrite fn p j v => execSemBarrierWrite_follows fn p j v h
  | .registerWrite fn addr len val => execRegisterWrite_follows fn addr len val h
  | .lowWordRead fn addr len => execLowWordRead_follows fn addr len h
  | .bar0IllegalAccess fn addr len write => execBar0IllegalAccess_follows fn addr len write h
  | .hostBar2Read fn addr len ecc => execHostBar2Read_follows fn addr len ecc h
  | .hostBar2Write fn addr data ecc => execHostBar2Write_follows fn addr data ecc h
  | .pciConfigWrite fn field val => execPciConfigWrite_follows fn field val h
  | .vfEnableWrite enable num => execVfEnableWrite_follows enable num h
  | .hostPortReset kind => execHostPortReset_follows kind h
  | .perstDeassert => execPerstDeassert_follows h
  | .hostLinkSettled rate width flit => execHostLinkSettled_follows rate width flit h
  | .functionLevelReset v => execFunctionLevelReset_follows v h
  | .hostRequestIssue r => execHostRequestIssue_follows r h
  | .hostCompletionReceived tag fn status poison data => execHostCompletionReceived_follows tag fn status poison data h
  | .completionTimeout tag => execCompletionTimeout_follows tag h
  | .tagQuarantineExpiry tag => execTagQuarantineExpiry_follows tag h
  | .msixUnmask fn v => execMsixUnmask_follows fn v h
  | .proxyRequestReceived p frame => execProxyRequestReceived_follows p frame h
  | .proxyResponseReceived p frame => execProxyResponseReceived_follows p frame h
  | .proxyDeadlineExpiry p tag => execProxyDeadlineExpiry_follows p tag h
  | .proxyTagQuarantineExpiry p tag => execProxyTagQuarantineExpiry_follows p tag h
  | .linkTrainingStart d => execLinkTrainingStart_follows d h
  | .trainingStepTimeout d passed => execTrainingStepTimeout_follows d passed h
  | .linkInitReceived d os => execLinkInitReceived_follows d os h
  | .configFlitReceived d flit fec cor => execConfigFlitReceived_follows d flit fec cor h
  | .dataFlitReceived d flit fec cor => execDataFlitReceived_follows d flit fec cor h
  | .controlFlitReceived d flit fec cor => execControlFlitReceived_follows d flit fec cor h
  | .ackReportDue d => execAckReportDue_follows d h
  | .nakRepeatTimer d => execNakRepeatTimer_follows d h
  | .replayTimerExpiry d tie => execReplayTimerExpiry_follows d tie h
  | .linkReqReceived d os => execLinkReqReceived_follows d os h
  | .linkAckReceived d os => execLinkAckReceived_follows d os h
  | .linkReqResendTimer d => execLinkReqResendTimer_follows d h
  | .linkReqTimeout d => execLinkReqTimeout_follows d h
  | .pauseReceived d => execPauseReceived_follows d h
  | .quadsReady d => execQuadsReady_follows d h
  | .resumeReceived d os => execResumeReceived_follows d os h
  | .pauseLimitExpiry d => execPauseLimitExpiry_follows d h
  | .linkSilenceExpiry d => execLinkSilenceExpiry_follows d h
  | .quadFault d quads => execQuadFault_follows d quads h
  | .failedQuadRetrain d => execFailedQuadRetrain_follows d h
  | .quadPrbsPassed d k => execQuadPrbsPassed_follows d k h
  | .lnkCtrlRetrain d => execLnkCtrlRetrain_follows d h
  | .lnkCtrlDown d => execLnkCtrlDown_follows d h
  | .lnkTargetQuadsWrite d n => execLnkTargetQuadsWrite_follows d n h
  | .helloSendTimer d => execHelloSendTimer_follows d h
  | .helloReceived d frame => execHelloReceived_follows d frame h
  | .neighbourLostTimer d => execNeighbourLostTimer_follows d h
  | .assignReceived d frame => execAssignReceived_follows d frame h
  | .frameIngress d v => execFrameIngress_follows d v h
  | .antFenceWrite d fence => execAntFenceWrite_follows d fence h
  | .lineFrameReceived d c frame fec => execLineFrameReceived_follows d c frame fec h
  | .swapReqReceived d os => execSwapReqReceived_follows d os h
  | .swapToVerified d ok => execSwapToVerified_follows d ok h
  | .swapAckReceived d os => execSwapAckReceived_follows d os h
  | .swapDoneReceived d os => execSwapDoneReceived_follows d os h
  | .swapTimeLimit d => execSwapTimeLimit_follows d h
  | .channelCalVisit d => execChannelCalVisit_follows d h
  | .channelCalDone d pass m => execChannelCalDone_follows d pass m h
  | .laserFailed ix bias power => execLaserFailed_follows ix bias power h
  | .laserWorn ix bias power => execLaserWorn_follows ix bias power h
  | .ringLockLost d c rx err => execRingLockLost_follows d c rx err h
  | .lightMonitorLow d stage c reading => execLightMonitorLow_follows d stage c reading h
  | .signalAbsent d => execSignalAbsent_follows d h
  | .aprProbeTimer d => execAprProbeTimer_follows d h
  | .signalRestored d => execSignalRestored_follows d h
  | .tclkPresent => execTclkPresent_follows h
  | .tclkLost => execTclkLost_follows h
  | .rtsyncPulse => execRtsyncPulse_follows h
  | .rtsyncMissDecision => execRtsyncMissDecision_follows h
  | .rackTick => execRackTick_follows h
  | .rtLoadArm tick => execRtLoadArm_follows tick h
  | .mtOffsetArm => execMtOffsetArm_follows h
  | .aclkPllLockLost => execAclkPllLockLost_follows h
  | .aclkChangeDone => execAclkChangeDone_follows h
  | .timeMeasureStart d => execTimeMeasureStart_follows d h
  | .timeReqSend d => execTimeReqSend_follows d h
  | .timeReqReceived d os => execTimeReqReceived_follows d os h
  | .timeRspReceived d os => execTimeRspReceived_follows d os h
  | .timeMeasureEnd d => execTimeMeasureEnd_follows d h
  | .inputOut bus vb vr vn => execInputOut_follows bus vb vr vn h
  | .inputQualified bus vb vr vn => execInputQualified_follows bus vb vr vn h
  | .fetDeadtimeExpiry => execFetDeadtimeExpiry_follows h
  | .nodeSettled vb vr vn => execNodeSettled_follows vb vr vn h
  | .nodeAt32v vn => execNodeAt32v_follows vn h
  | .railPowerGood r vout straps => execRailPowerGood_follows r vout straps h
  | .railRampTimeout r => execRailRampTimeout_follows r h
  | .railRetryTimer r => execRailRetryTimer_follows r h
  | .railFault r status comm => execRailFault_follows r status comm h
  | .bellowsControlPeriod pout est seqEst steps hearth flits banks status vb vr vn =>
    execBellowsControlPeriod_follows pout est seqEst steps hearth flits banks status vb vr vn h
  | .vcoreDroop => execVcoreDroop_follows h
  | .vcoreDroopRecovery => execVcoreDroopRecovery_follows h
  | .belCapWrite watts => execBelCapWrite_follows watts h
  | .belAclkWrite steps => execBelAclkWrite_follows steps h
  | .valveCycleStart v duty meas => execValveCycleStart_follows v duty meas h
  | .forecastTick heat meas => execForecastTick_follows heat meas h
  | .pullTimeEnd v closing => execPullTimeEnd_follows v closing h
  | .profileEnd v closing => execProfileEnd_follows v closing h
  | .releaseWaitEnd v => execReleaseWaitEnd_follows v h
  | .forcedOffEnd v => execForcedOffEnd_follows v h
  | .pullInLimit v => execPullInLimit_follows v h
  | .onTimeLimit v => execOnTimeLimit_follows v h
  | .coilFault v => execCoilFault_follows v h
  | .sectionTempSample x t ma => execSectionTempSample_follows x t ma h
  | .tempSourceFault x => execTempSourceFault_follows x h
  | .forecastSilence => execForecastSilence_follows h
  | .throttleStepPeriod => execThrottleStepPeriod_follows h
  | .stopHoldTimeout k => execStopHoldTimeout_follows k h
  | .qchCalibrate => execQchCalibrate_follows h
  | .qchCalibrationDone closing opening transit idle => execQchCalibrationDone_follows closing opening transit idle h
  | .valveClear v => execValveClear_follows v h
  | .auxRise => execAuxRise_follows h
  | .chipReset cause => execChipReset_follows cause h
  | .glbChipReset => execGlbChipReset_follows h
  | .chipReady => execChipReady_follows h
  | .smithWatchdogExpiry k => execSmithWatchdogExpiry_follows k h
  | .flashOpDone blank => execFlashOpDone_follows blank h
  | .flashBusyTimeout => execFlashBusyTimeout_follows h
  | .calibrationSaveTimer => execCalibrationSaveTimer_follows h
  | .mctpControlMessage cmd data => execMctpControlMessage_follows cmd data h
  | .pldmMonitorRequest typ cmd data => execPldmMonitorRequest_follows typ cmd data h
  | .pldmUpdateCommand cmd data => execPldmUpdateCommand_follows cmd data h
  | .pldmActivateFirmware => execPldmActivateFirmware_follows h
  | .spdmRequest code p1 p2 data => execSpdmRequest_follows code p1 p2 data h
  | .debugTapToken key token => execDebugTapToken_follows key token h
  | .jtagInstruction instr => execJtagInstruction_follows instr h
  | .evrEventTaken => execEvrEventTaken_follows h
  | .evrTokenRefill code => execEvrTokenRefill_follows code h
  | .evrCtrlClear force => execEvrCtrlClear_follows force h
  | .evrCtrlPersist => execEvrCtrlPersist_follows h
  | .evrCursorFirst fn => execEvrCursorFirst_follows fn h
  | .evrCursorNext fn idx => execEvrCursorNext_follows fn idx h
  | .archiveRecord => execArchiveRecord_follows h
  | .chipFatalFault cause book => execChipFatalFault_follows cause book h
  | .fatalResetTimeout => execFatalResetTimeout_follows h
  | .fatalCountExpiry => execFatalCountExpiry_follows h
  | .glbFaultRelease => execGlbFaultRelease_follows h
  | .scrubRead find => execScrubRead_follows find h
  | .flitSlot d => execFlitSlot_follows d h
  | .trainingLockAchieved d => execTrainingLockAchieved_follows d h
  | .retrainAdvanceTimeout d => execRetrainAdvanceTimeout_follows d h
  | .aclkPllLockRestored => execAclkPllLockRestored_follows h
  | .anvilClearingDone a => execAnvilClearingDone_follows a h
  | .auxFall => execAuxFall_follows h
  | .laserSectionOutOfRange => execLaserSectionOutOfRange_follows h
  | .pciRefclkRestored => execPciRefclkRestored_follows h
  | .bootImageLoaded fit => execBootImageLoaded_follows fit h
  | .hostPortStage => execHostPortStage_follows h
  | .vcoreSettled => execVcoreSettled_follows h
  | .armatureNoMotion v => execArmatureNoMotion_follows v h

section
variable {s t : State} {c : Instr} {cs : List Instr}

/-- The invariant is kept by whatever follows a state. -/
theorem Follows.inv (h : Follows s t) (hs : s.Inv) : t.Inv := by
  obtain ⟨hmem, hflash, hregs⟩ := hs
  exact ⟨h.mem hmem, h.flash hflash, h.regs hregs⟩

/-- On an empty queue one OSC cycle passes (log entry 2). -/
theorem step_nil (h : s.pending = []) : step s = .next s.idle := by
  simp only [step, h]

/-- On any other queue the command at its front runs, on the machine with the queue's rest (log entry 2). -/
theorem step_cons (h : s.pending = c :: cs) : step s = exec c { s with pending := cs } := by
  simp only [step, h]

/-- An OSC cycle leaves every addressed store alone. -/
theorem State.idle_inv (hs : s.Inv) : s.idle.Inv := hs

end

/-- Settles O60: an OSC cycle leaves the addressed stores alone, and a command follows the state that it met (`exec_follows`), whose
canonical forms it keeps. -/
theorem stepKeepsInv : Obligations.StepKeepsInv := by
  intro s t hs hstep
  cases hp : s.pending with
  | nil =>
    obtain rfl : s.idle = t := Host.Outcome.next.inj ((step_nil hp).symm.trans hstep)
    exact State.idle_inv hs
  | cons c cs =>
    have hexec : exec c { s with pending := cs } = .next t := (step_cons hp).symm.trans hstep
    exact (exec_follows c (.rfl' _) t hexec).inv hs

end Sys2Proof.Machine
end

section
/-! PROOFS. The machine after an AUX rise (R139, R397, R448, R472, R524). -/
namespace Sys2Proof.Machine

/-- Nothing is stored at reset, so every addressed store is in its canonical form (log entries 6, 14, 59). -/
theorem State.reset_inv : State.reset.Inv := ⟨rfl, rfl, rfl⟩

/-- An unlisted register holds its reset word (R524). -/
theorem State.reset_reg (a : Nat) : State.reset.reg a = resetWord a := rfl

/-- An unlisted byte of Hearth reads 0 (log entry 6). -/
theorem State.reset_byteAt (a : Nat) : State.reset.byteAt a = 0#8 := rfl

/-- What the device keeps for a partition is at its initial value, which has no lock. -/
theorem State.reset_part (p : Nat) : State.reset.part p = {} := rfl

/-- Settles O58: the stores are empty, so each register, byte and partition reads its default; the other parts are fields of
`State.reset`. -/
theorem resetState : Obligations.ResetState :=
  ⟨State.reset_inv, State.reset_reg, State.reset_byteAt, fun p => congrArg Part.st (State.reset_part p), rfl, rfl, rfl, rfl, rfl, rfl,
    rfl⟩

end Sys2Proof.Machine
end

section
/-! PROOFS. Semaphore values under their registers (R143, R146, R148). -/
namespace Sys2Proof.Machine

section
variable {s : State} {fn p i j a v c new code src part : Nat} {x : Sem} {d : RegDesc}

/-! Semaphores: what each operation leaves of a value (R143 to R146). -/

@[simp] theorem State.setSem_sem_same : (s.setSem p i x).sem p i = x := by
  simp [State.setSem, State.modPart, State.sem]

@[simp] theorem State.setSem_regs : (s.setSem p i x).regs = s.regs := rfl
@[simp] theorem State.setSem_evr : (s.setSem p i x).evr = s.evr := rfl
@[simp] theorem State.semServe_regs : (s.semServe p i).regs = s.regs := rfl
@[simp] theorem State.semServe_evr : (s.semServe p i).evr = s.evr := rfl

/-- An event is recorded alike whatever a semaphore holds. -/
theorem State.setSem_event : (s.setSem p i x).event code src part = (s.event code src part).setSem p i x := by
  have hevr : (s.setSem p i x).evr = s.evr := State.setSem_evr
  by_cases hfull : s.evr.queue.length ≥ 256
  · simp only [State.event, State.eventD, hevr, if_pos hfull]; rfl
  · simp only [State.event, State.eventD, hevr, if_neg hfull]; rfl

/-- Serving a semaphore for which nothing waits leaves it as it is. -/
theorem State.semServe_sem (h : (s.sem p i).waiters = []) : (s.semServe p i).sem p i = s.sem p i := by
  have hsem : (s.semServe p i).sem p i = { s.sem p i with value := (s.sem p i).value, waiters := [] } := by
    simp only [State.semServe, h, serveWaiters]
    exact State.setSem_sem_same
  rw [hsem, ← h]

/-- A value written is the semaphore's value, where nothing waits for it (R148). -/
theorem State.semWrite_value (hw : (s.sem p i).waiters = []) (hv : v < 2 ^ 32) : ((s.semWrite p i v).sem p i).value = v := by
  rw [State.semWrite, State.semServe_sem (by simp [hw]), State.setSem_sem_same]
  exact Nat.mod_eq_of_lt hv

/-- A signal within the range of the value (R143). -/
theorem State.semSignal_fits (h : (s.sem p i).value + c ≤ 0xFFFFFFFF) :
    s.semSignal p i c = (s.setSem p i { s.sem p i with value := (s.sem p i).value + c }).semServe p i := by
  simp [State.semSignal, Nat.not_lt.mpr h]

/-- A signal beyond it (R146). -/
theorem State.semSignal_overflows (h : 0xFFFFFFFF < (s.sem p i).value + c) :
    s.semSignal p i c =
      ((s.setSem p i { s.sem p i with value := 0xFFFFFFFF, ovf := true }).event 0x1105 i p).semServe p i := by
  simp [State.semSignal, h]

/-! Writes that a register's rule refuses (R148, R514). -/

/-- A write of a partition's own register that its rule forbids does nothing but record the illegal-write event of its block. -/
theorem partWrite_refused (h : Reaches s fn p) (hl : locate a = some (d, p, j)) (hg : d.name ≠ "HRT_GRANULE_OWNER")
    (hf : fn = 0 ∨ vfWrites d = true) (hv : v < 2 ^ 32)
    (hw : ∀ lk, regWrite (fn == 0) lk d (s.reg a).toNat v = { new := new, live := true })
    (hc : s.carveBad d p j (s.reg a).toNat new = none) (hr : s.writeOk d p j (s.reg a).toNat new = false) :
    s.partWrite fn p a v = s.illegal fn d p j := by
  have hreach := h
  obtain ⟨-, -, -, hreset, -⟩ := h
  rw [partWrite_reaches hreach (granuleBusy_of_name hl hg), State.writeAt_applies hl (fun q hq => eq_of_instPart hq ▸ hreset) hf]
  simp only [State.applyWrite, Nat.mod_eq_of_lt hv, hw, hc]
  simp [hr]

/-- A word of SEM_SIGNAL that names no count from 1 to 255 is outside what its rule allows (R148). -/
theorem signalWord_refused {o : Nat} (hv : v < 2 ^ 32) (h : v % 256 = 0 ∨ 255 < v) :
    (bits (signalWord o v) 7 0 != 0 && bits (signalWord o v) 31 8 == 0) = false := by
  have hcount : bits (signalWord o v) 7 0 = v % 256 := by
    rw [signalWord, bits_putBits_below _ _ _ _ _ _ (by omega) (by omega), bits_putBits_same _ _ _ _ (by omega)]
    simp [bits]
  have habove : bits (signalWord o v) 31 8 = v / 256 := by
    rw [signalWord, bits_putBits_same _ _ _ _ (by omega)]
    simp only [bits]
    omega
  rw [hcount, habove]
  rcases h with h | h
  · simp [h]
  · have : v / 256 ≠ 0 := by omega
    simp [this]

/-! The two registers (R148). -/

/-- SEM_VALUE is not written while something waits (R148). -/
theorem execSemValueWrite_refused (h : Reaches s fn p) (hi : i < 256) (hv : v < 2 ^ 32) (hw : (s.sem p i).waiters ≠ []) :
    execSemValueWrite fn p i v s = .next (s.event 0x1108 0 p) := by
  rw [execSemValueWrite, if_pos hi, partWrite_refused h (locate_adrSemValue h.1 hi) (by simp) (.inr rfl) hv
    (fun _ => regWrite_word rfl (s.reg _).isLt hv) (by simp [State.carveBad]) (by simpa [State.writeOk] using hw)]
  rfl

/-- SEM_SIGNAL takes no count but 1 to 255 (R148). -/
theorem execSemSignalWrite_refused (h : Reaches s fn p) (hi : i < 256) (hv : v < 2 ^ 32) (hn : v % 256 = 0 ∨ 255 < v) :
    execSemSignalWrite fn p i v s = .next (s.event 0x1108 0 p) := by
  rw [execSemSignalWrite, if_pos hi, partWrite_refused h (locate_adrSemSignal h.1 hi) (by simp) (.inr rfl) hv
    (fun _ => regWrite_signal rfl) (by simp [State.carveBad]) (signalWord_refused hv hn)]
  rfl

end

/-- Settles O54: each write has its effect (`execSemValueWrite_sets`, `execSemSignalWrite_signals`) or is refused
(`partWrite_refused`); a signal where nothing waits leaves the value it has reached (`State.semServe_sem`), below the limit or at it. -/
theorem semaphoreRegisterWrites : Obligations.SemaphoreRegisterWrites := by
  refine ⟨fun s fn p i v h hi hv hw => ⟨execSemValueWrite_sets h hi hv hw, State.semWrite_value hw hv⟩,
    fun s fn p i v h hi hv hw => execSemValueWrite_refused h hi hv hw,
    fun s fn p i v h hi hmin hmax => execSemSignalWrite_signals h hi hmin (Nat.lt_succ_of_le hmax),
    fun s fn p i v h hi hv hn => execSemSignalWrite_refused h hi hv hn, ?fits, ?overflows⟩
  case fits =>
    intro s fn p i v h hi hmin hmax hw hfit
    refine ⟨s.semSignal p i v, execSemSignalWrite_signals h hi hmin (Nat.lt_succ_of_le hmax), ?_⟩
    rw [State.semSignal_fits hfit, State.semServe_sem (by simp [hw]), State.setSem_sem_same]
    simp
  case overflows =>
    intro s fn p i v h hi hmin hmax hw hover
    refine ⟨s.semSignal p i v, execSemSignalWrite_signals h hi hmin (Nat.lt_succ_of_le hmax), ?_⟩
    rw [State.semSignal_overflows hover, State.setSem_event, State.semServe_sem (by simp [hw]), State.setSem_sem_same]
    simp

end Sys2Proof.Machine
end

section
/-! PROOFS. The tongs at their descriptors and fills (R141, R147, R371). -/
namespace Sys2Proof.Machine

section
variable {s t : State} {n k : Nat} {x : Pkt} {ecc : List (Nat × Bool)}

/-- A descriptor that passes its check waits for its semaphore and its port, and copies (R141). -/
theorem execTongDescriptorStart_advances (hk : (s.tong n).pkt = some k) (hx : s.pkt k = some x) (hc : (s.tong n).copying = false)
    (hf : (s.tong n).fill = false) (hi : s.issueOn x.part = true) (hd : s.descBad x.part (s.tong n).desc = 0) :
    execTongDescriptorStart n s = .next (s.descAdvance x.part n) := by
  simp [execTongDescriptorStart, hk, hx, hc, hf, hi, hd]

/-- A copy whose host reads have ended moves its bytes, on the state in which the errors that its reads find are recorded (R133,
R141). -/
theorem execTongDescriptorDone_moves (hk : (s.tong n).pkt = some k) (hc : (s.tong n).copying = true) (hr : (s.tong n).reads = 0)
    (ha : (s.tong n).acking = false) (hx : (s.eccFinds ecc).pkt k = some x) :
    execTongDescriptorDone n ecc s = .next ((s.eccFinds ecc).moveRows x.part n k) := by
  simp [execTongDescriptorDone, hk, hc, hr, ha, State.withPkt_some hx]

/-- A wait with a limit that nothing has met when it runs out fails its descriptor (R147). -/
theorem execTongWaitTimeout_fails (hk : (s.tong n).pkt = some k) (hx : s.pkt k = some x) (hw : (s.tong n).waitMade = true)
    (hg : s.granted (.tong n) = false) (hl : u32 (s.tong n).desc 0x28 ≠ 0) :
    execTongWaitTimeout n s = .next ((s.event 0x1106 (dWaitSem (s.tong n).desc) x.part).failTong x.part n 0x20) := by
  simp [execTongWaitTimeout, State.tongTimeout, hk, hx, hw, hg, hl]

/-- A fill writes its pattern, frees its tong and completes (R371). -/
theorem execFillDone_completes (hk : (s.tong n).pkt = some k) (hx : s.pkt k = some x) (hf : (s.tong n).fill = true) :
    execFillDone n s = .next
      (((s.writeHearth x.part (u32 x.bytes 0x14) (fillBytes (u32 x.bytes 0x1C) (u32 x.bytes 0x18))).setTong n {}).done k []) := by
  simp [execFillDone, hk, hf, State.withPkt_some hx]

end

/-- Settles O5: one lemma for each event of a tong. -/
theorem tongEngineCompletes : Obligations.TongEngineCompletes := by
  refine ⟨fun s n k x hk hx hc hf hi hd => execTongDescriptorStart_advances hk hx hc hf hi hd, ?done,
    fun s n k x hk hx hw hg hl => execTongWaitTimeout_fails hk hx hw hg hl,
    fun s n k x hk hx hf => execFillDone_completes hk hx hf⟩
  rintro s n k x ecc _ hk hc hr ha rfl hx
  exact execTongDescriptorDone_moves hk hc hr ha hx

end Sys2Proof.Machine
end

section
/-! PROOFS. Bulk receive bindings (R149, R372, R395). -/
namespace Sys2Proof.Machine

section
variable {s t u : State} {k p j : Nat} {x : Pkt} {b y : Bulk} {f : List Byte}

/-- A free binding is bound, its FULL and EMPTY are written, and the packet completes (R372). -/
theorem execBulkReceive_binds (h : Starts s 0x13 k x t) (hb : tfind (t.part x.part).bulk (u8 x.bytes 0x10) = none)
    (hy : y = { slots := u8 x.bytes 0x11, full := u8 x.bytes 0x12, empty := u8 x.bytes 0x13, base := u32 x.bytes 0x14,
                size := u32 x.bytes 0x18 }) :
    execBulkReceive k s = .next (((((t.modPart x.part fun q => { q with goneBulk := q.goneBulk.filter (· != u8 x.bytes 0x10) }).setBulk
      x.part (u8 x.bytes 0x10) y).semWrite x.part y.full 0).semWrite x.part y.empty y.slots).done k []) := by
  subst hy
  rw [execBulkReceive, runOp_starts _ h]
  simp [hb]

/-- A binding into which no frame drains is unbound, with its wait for EMPTY withdrawn, and the packet completes (R372). -/
theorem execBulkUnbind_unbinds (h : Starts s 0x14 k x t) (hb : tfind (t.part x.part).bulk (u8 x.bytes 0x10) = some b)
    (hf : s.bulkFilling x.part (u8 x.bytes 0x10) 8 = false) :
    execBulkUnbind k s = .next ((((t.semDrop x.part b.empty (.bulk x.part (u8 x.bytes 0x10))).takeGrant
      (.bulk x.part (u8 x.bytes 0x10))).modPart x.part fun q => { q with bulk := tdel q.bulk (u8 x.bytes 0x10) }).done k []) := by
  rw [execBulkUnbind, runWhen_starts _ h (by simp [hf])]
  simp [hb]

/-- EMPTY 1 is asked for and, where the semaphore has it, taken at once (R149). -/
theorem State.bulkEmpty_takes (ht : b.taken = false) (ha : b.asked = false)
    (hs : t = (s.setBulk p j { b with asked := true }).semWait p b.empty 1 (.bulk p j)) (hg : t.granted (.bulk p j) = true) :
    s.bulkEmpty p j b = (true, (t.takeGrant (.bulk p j)).setBulk p j { b with asked := false, taken := true }) := by
  have hask : (b.taken || b.asked) = false := by simp [ht, ha]
  simp only [State.bulkEmpty, hask, Bool.false_eq_true, if_false, ← hs, hg, if_true]
  simp [ht]

/-- A good frame is written to the next slot of its binding once EMPTY 1 is taken, its buffer is free, and FULL is signalled (R149,
R395). -/
theorem execBulkFrameReceived_fills (hf : s.arrived 6 p f = true) (hj : j = u8 f 0x20) (hb : tfind (s.part p).bulk j = some b)
    (hok : bulkOk (some b) f = true) (hd : bulkDataGood f = true) (he : s.bulkEmpty p j b = (true, u)) :
    execBulkFrameReceived p f s = .next (((State.consume
      (u.setBulk p j { b with asked := false, taken := false, next := (b.next + 1) % b.slots }) p f).writeHearth p
        (b.base + b.next * b.size) (slice f 48 (u32 f 0x28))).semSignal p b.full 1) := by
  subst hj
  simp [execBulkFrameReceived, State.bulkFill, hf, hb, hok, hd, he]

end

/-- Settles O6: BULK_RECEIVE and BULK_UNBIND act on the state in which their packet has started (`runOp_starts`); a frame's EMPTY is
granted as it is asked for (`State.bulkEmpty_takes`). -/
theorem bulkCommandsComplete : Obligations.BulkCommandsComplete := by
  refine ⟨fun k s x t y h hb hy => execBulkReceive_binds h hb hy, fun k s x t b h hb hf => execBulkUnbind_unbinds h hb hf, ?_⟩
  rintro s p f j b t _ hf hj hb hok hd ht ha hs hg rfl
  exact execBulkFrameReceived_fills hf hj hb hok hd (State.bulkEmpty_takes ht ha hs hg)

end Sys2Proof.Machine
end

section
/-! PROOFS. The ends of resets, zeroing and clearing, the scrubber, and the chip's faults (R133, R135, R139, R334, R337, R499, R501 to
R504, R548). -/
namespace Sys2Proof.Machine

section
variable {s t : State} {p g a o n c b : Nat} {x : Resetting}

/-- A partition reset ends, and the waiting requests of the host go on (R334, R336). -/
theorem execPartitionResetDone_ends (hp : p < 8) (hx : (s.part p).st = .resetting x) :
    execPartitionResetDone p s = .next (s.partResetDone p x).serveHost := by
  simp [execPartitionResetDone, hx, hp]

/-- A reset without a release leaves the partition its carve (R334). -/
theorem State.partResetDone_keeps (hr : x.release = false) : s.partResetDone p x = (s.clearPart p).eventD 0x0201 p p [x.cause] := by
  simp [State.partResetDone, hr]

/-- One with a release takes the carve away (R337). -/
theorem State.partResetDone_releases (hr : x.release = true) :
    s.partResetDone p x = ((s.clearPart p).freeCarve p).eventD 0x0201 p p [x.cause] := by
  simp [State.partResetDone, hr]

/-- An uncorrectable error in what the device keeps for a partition faults it (R499). -/
theorem execPartitionStateLost_faults (hp : p < 8) : execPartitionStateLost p s = .next (s.faultPartition p 2) := by
  simp [execPartitionStateLost, hp]

/-- A granule's zeroing ends, and the waiting requests of the host go on (R139). -/
theorem execGranuleZeroingDone_ends (hg : s.hrt.zeroing.contains g = true) :
    execGranuleZeroingDone g s =
      .next (State.serveHost { s with hrt := { s.hrt with zeroing := s.hrt.zeroing.filter (· != g) } }) := by
  simp only [execGranuleZeroingDone, hg, if_true]

/-- An anvil that has been cleared for a partition is its, and takes its seed (R548). -/
theorem execAnvilClearingDone_hands (ha : a < 8) (hc : (s.anvil a).clearing = some o) (ho : o < 8)
    (ht : t = s.each allParts (fun u p => u.setRf (adrPrtAnvils p) a a (b2n (p == o)))) :
    execAnvilClearingDone a s = .next (t.setAnvil a { clearedAnvil with seed := (t.reg (adrVecSrSeed o)).toNat }) := by
  subst ht
  simp [execAnvilClearingDone, State.handAnvil, hc, ha, ho]

/-- The scrubber reads the next word, and what it finds there is an error of Hearth (R133, R135). -/
theorem execScrubRead_reads (hb : s.boot ≠ .off)
    (ht : t = { s with hrt := { s.hrt with scrubPos := (s.hrt.scrubPos + 1) % hearthWords } }) :
    execScrubRead n s = .next (if n = 1 then t.eccHearth s.hrt.scrubPos false
      else if n = 2 then t.eccHearth s.hrt.scrubPos true else t) := by
  subst ht
  simp [execScrubRead, hb]

/-- One of the four causes of R501 that a unit observes stops the chip. -/
theorem execChipFatalFault_stops (hb : s.boot ≠ .off) (hmin : 1 ≤ c) (hmax : c ≤ 4) :
    execChipFatalFault c b s = .next (s.chipFatal c b) := by
  simp [execChipFatalFault, hb, hmin, hmax]

/-- After 2.0 s the sequence of a chip-fatal fault goes on (R502). -/
theorem execFatalResetTimeout_steps (hf : s.fatal = some c) :
    execFatalResetTimeout s = .next (State.fatalStep { s with fatalDue := true }) := by
  simp [execFatalResetTimeout, hf]

/-- After 600 s without one the count of resets by cause 5 starts again (R504). -/
theorem execFatalCountExpiry_clears : execFatalCountExpiry s = .next (s.setRf adrGlbFaultStatus 19 16 0) := rfl

end

/-- Settles O27: one lemma for each command; the two ends of a partition reset differ in its release
(`State.partResetDone_keeps`, `State.partResetDone_releases`). -/
theorem partitionCommandsComplete : Obligations.PartitionCommandsComplete :=
  ⟨fun _ _ _ hp hx hr => (execPartitionResetDone_ends hp hx).trans (by rw [State.partResetDone_keeps hr]),
    fun _ _ _ hp hx hr => (execPartitionResetDone_ends hp hx).trans (by rw [State.partResetDone_releases hr]),
    fun _ _ hp => execPartitionStateLost_faults hp,
    fun _ _ hg => execGranuleZeroingDone_ends hg,
    fun _ _ _ _ ha hc ho ht => execAnvilClearingDone_hands ha hc ho ht,
    fun _ _ _ hb ht => execScrubRead_reads hb ht,
    fun _ _ _ hb hmin hmax => execChipFatalFault_stops hb hmin hmax,
    fun _ _ hf => execFatalResetTimeout_steps hf,
    fun _ => execFatalCountExpiry_clears⟩

end Sys2Proof.Machine
end

section
/-! PROOFS. Writes of Hearth by the PF (R133, R294, R303). -/
namespace Sys2Proof.Machine

/-- `t` has the bytes `d` at physical address `a` of Hearth, and every other byte as in `s`. -/
def Stored (a : Nat) (d : List Byte) (s t : State) : Prop :=
  ∀ y, t.byteAt y = if a ≤ y ∧ y < a + d.length then d.getD (y - a) 0 else s.byteAt y

section
variable {s t u : State} {a w n fuel : Nat} {d b : List Byte} {e : List (Nat × Bool)}

theorem Stored.nil : Stored a [] s s := by
  intro y
  rw [if_neg (by simp)]

/-- Bytes stored one after the other, at addresses that follow one another. -/
theorem Stored.append (h : Stored a d s t) (k : Stored (a + d.length) b t u) : Stored a (d ++ b) s u := by
  intro y
  rw [k y, h y, List.length_append]
  by_cases hlow : y < a + d.length
  · rw [if_neg (by omega)]
    by_cases ha : a ≤ y
    · rw [if_pos ⟨ha, hlow⟩, if_pos (by omega), List.getD_append _ _ _ _ (by omega)]
    · rw [if_neg (by omega), if_neg (by omega)]
  · by_cases hhigh : y < a + d.length + b.length
    · rw [if_pos (by omega), if_pos (by omega), List.getD_append_right _ _ _ _ (by omega)]
      congr 1
      omega
    · rw [if_neg (by omega), if_neg (by omega), if_neg (by omega)]

/-- A write by physical address stores its bytes. -/
theorem State.writePhys_stored (s : State) (a : Nat) (d : List Byte) : Stored a d s (s.writePhys a d) := by
  intro y
  split
  case isTrue h =>
    obtain ⟨i, rfl⟩ := Nat.exists_eq_add_of_le h.1
    have hi : i < d.length := by omega
    rw [Nat.add_sub_cancel_left, List.getD_eq_getElem _ _ hi]
    exact memWrite_in d s.hrt.mem a i hi
  case isFalse h => exact memWrite_out d s.hrt.mem a y (by omega)

/-- A correctable error found in Hearth changes none of its bytes (R133). -/
theorem State.eccHearth_byteAt (y : Nat) : (s.eccHearth w false).byteAt y = s.byteAt y := by
  unfold State.eccHearth
  dsimp only
  split
  · rfl
  · obtain ⟨r, v, h⟩ := State.event_touches s 0x1101 (lineDie (32 * w)) ((s.granOwner (w * 32 / granBytes)).getD 0xFF)
    rw [if_neg (by simp), h]
    rfl

/-- Nor do several of them. -/
theorem State.eccFinds_byteAt (he : ∀ x ∈ e, x.2 = false) (y : Nat) : (s.eccFinds e).byteAt y = s.byteAt y := by
  refine List.foldlRecOn (motive := fun t : State => t.byteAt y = s.byteAt y) e _ rfl fun t ht x hx => ?_
  obtain ⟨w, c⟩ := x
  obtain rfl : c = false := he _ hx
  exact (State.eccHearth_byteAt y).trans ht

/-! Pieces at granule boundaries. -/

@[simp] theorem State.each_cons {α : Type} (x : α) (l : List α) (f : State → α → State) :
    s.each (x :: l) f = (f s x).each l f := rfl

/-- A granule starts where the one before ends. -/
theorem granule_next_mod (hn : n = granBytes - a % granBytes) : (a + n) % granBytes = 0 := by
  have hmod := Nat.mod_lt a (show 0 < granBytes by decide)
  have hdiv := Nat.div_add_mod a granBytes
  have hnext : a + n = granBytes * (a / granBytes + 1) := by
    rw [Nat.mul_succ]
    omega
  rw [hnext, Nat.mul_mod_right]

@[simp] theorem granPieces_nil : granPieces fuel a [] = [] := by
  cases fuel <;> rfl

/-- The bytes up to the next granule are the first piece. -/
theorem granPieces_cons (hd : d ≠ []) (hn : n = granBytes - a % granBytes) :
    granPieces (fuel + 1) a d = (a, d.take n) :: granPieces fuel (a + n) (d.drop n) := by
  subst hn
  simp [granPieces, hd]

/-- Pieces each stored at its address store the whole. -/
theorem each_granPieces_stored {f : State → Nat × List Byte → State}
    (hf : ∀ s x b, b ≠ [] → x + b.length ≤ 128 * granBytes → Stored x b s (f s (x, b))) (hd : a + d.length ≤ 128 * granBytes)
    (hfuel : a % granBytes + d.length ≤ fuel * granBytes) : Stored a d s (s.each (granPieces fuel a d) f) := by
  induction fuel generalizing s a d with
  | zero =>
    obtain rfl : d = [] := List.length_eq_zero_iff.mp (by omega)
    exact .nil
  | succ fuel ih =>
    rcases eq_or_ne d [] with rfl | hne
    · exact .nil
    obtain ⟨n, hn⟩ : ∃ n, n = granBytes - a % granBytes := ⟨_, rfl⟩
    have hmod : a % granBytes < granBytes := Nat.mod_lt _ (by decide)
    have hpos := List.length_pos_iff.mpr hne
    have hlen : (d.take n).length = min n d.length := List.length_take
    have hfirst : Stored a (d.take n) s (f s (a, d.take n)) :=
      hf s a _ (List.ne_nil_of_length_pos (by omega)) (by omega)
    rw [granPieces_cons hne hn, State.each_cons]
    rcases Nat.lt_or_ge d.length n with hshort | hlong
    case inl =>
      rw [List.take_of_length_le hshort.le] at hfirst ⊢
      rw [List.drop_of_length_le hshort.le, granPieces_nil]
      exact hfirst
    case inr =>
      have hnext := granule_next_mod hn
      have hdrop : (d.drop n).length = d.length - n := List.length_drop
      rw [Nat.succ_mul] at hfuel
      have hrest := ih (s := f s (a, d.take n)) (a := a + n) (d := d.drop n) (by omega) (by omega)
      have hall := hfirst.append (b := d.drop n) (by rwa [hlen, min_eq_left hlong])
      rwa [List.take_append_drop] at hall

/-! The PF's window (R294, R303). -/

/-- The PF's addresses in BAR2 are physical, below the hole (R294). -/
theorem State.barPhys_pf (h : a < 128 * granBytes) : s.barPhys 0 a = some a := by
  have hg : a / granBytes < 128 := Nat.div_lt_of_lt_mul (by omega)
  simp only [State.barPhys, State.barGranule, beq_self_eq_true, if_true, if_pos hg, Option.map_some, Nat.div_add_mod']

/-- A write of the PF that avoids the hole, and whose internal reads find correctable errors alone, stores its bytes (R133, R294). -/
theorem State.barWrite_stored (he : ∀ x ∈ e, x.2 = false) (hd : d ≠ []) (ha : a + d.length ≤ 128 * granBytes) :
    Stored a d s (s.barWrite 0 a d e) := by
  have hpos := List.length_pos_iff.mpr hd
  have hhole : s.inHole 0 a d.length = false := by
    simp [State.inHole, State.barPhys_pf (show a < 128 * granBytes by omega),
      State.barPhys_pf (show a + d.length - 1 < 128 * granBytes by omega)]
  have hfuel : a % granBytes + d.length ≤ (d.length / granBytes + 2) * granBytes := by
    have := Nat.mod_lt a (show 0 < granBytes by decide)
    have := Nat.mod_lt d.length (show 0 < granBytes by decide)
    have := Nat.div_add_mod' d.length granBytes
    rw [Nat.add_mul]
    omega
  simp only [State.barWrite, hhole, Bool.false_eq_true, if_false]
  refine each_granPieces_stored (fun u x b hb hx => ?_) ha hfuel
  have hbpos := List.length_pos_iff.mpr hb
  rw [State.barPhys_pf (show x < 128 * granBytes by omega)]
  intro y
  rw [State.writePhys_stored _ x b y, State.eccFinds_byteAt (fun z hz => he z (List.mem_of_mem_filter hz))]

/-- A BAR2 write that waits for nothing, and touches no RESETTING owner, is carried out (R303, R336). -/
theorem execHostBar2Write_writes {fn : Nat} (hf : s.fnExists fn = true) (hd : d ≠ []) (hr : s.barReset fn a d.length = none)
    (hw : s.hostWaits (.bar2Write fn a d e) = false) : execHostBar2Write fn a d s e = .next (s.barWrite fn a d e) := by
  simp [execHostBar2Write, State.hostReq, State.hostAct, hf, hd, hr, hw]

end

/-- Settles O52: the write is carried out (`execHostBar2Write_writes`), granule by granule (`each_granPieces_stored`). -/
theorem pfHearthWrite : Obligations.PfHearthWrite :=
  fun s a d e hd ha hr he hw => ⟨s.barWrite 0 a d e, execHostBar2Write_writes rfl hd hr hw, State.barWrite_stored he hd ha⟩

end Sys2Proof.Machine
end

section
/-! PROOFS. The commands of a lightbank: temperature, sweeps, rows, stages, the spare laser, and the two packets on a block (R161, R162,
R166 to R169, R173, R246, R389). -/
namespace Sys2Proof.Machine

section
variable {s t u : State} {b k n op r temp : Nat} {inputs : List Nat} {x : Pkt} {y : LBlock} {z : Rot}

/-- A packet's start leaves the lightbanks alone. -/
theorem Starts.bank (h : Starts s op k x t) (b : Nat) : t.bank b = s.bank b := by
  obtain ⟨_, rfl⟩ := h
  exact State.startPkt_bank s k x b

/-- A temperature within 40 to 70 °C, near the one that the codes were computed for, is stored and moves nothing (R161, R162). -/
theorem execLbkTempSample_stores (hu : u = s.setRf (adrLbkStatus b) 31 16 temp) (hmin : 4000 ≤ temp) (hmax : temp ≤ 7000)
    (hh : (u.bank b).hot = false) (hg : gap temp (u.bank b).codeTemp ≤ u.rf (adrLbkCalCfg b) 17 12 * 5) :
    execLbkTempSample b temp s = .next u := by
  have hcold : ¬ temp < 4000 := by omega
  have hwarm : ¬ 7000 < temp := by omega
  simp [execLbkTempSample, ← hu, hcold, hwarm, hh, Nat.not_lt.mpr hg]

/-- One far enough from it drives every row anew (R161). -/
theorem execLbkTempSample_redrives (hu : u = s.setRf (adrLbkStatus b) 31 16 temp) (hmin : 4000 ≤ temp) (hmax : temp ≤ 7000)
    (hh : (u.bank b).hot = false) (hg : u.rf (adrLbkCalCfg b) 17 12 * 5 < gap temp (u.bank b).codeTemp)
    (hr : (u.bank b).rot = none) :
    execLbkTempSample b temp s = .next (u.modBank b fun x => { x.redrive temp with rot := none }) := by
  have hcold : ¬ temp < 4000 := by omega
  have hwarm : ¬ 7000 < temp := by omega
  simp [execLbkTempSample, ← hu, hcold, hwarm, hh, hg, hr, State.modBank, Bank.redrive]

/-- One outside 40 to 70 °C records 0x1407 and moves every block to fallback (R162). -/
theorem execLbkTempSample_falls (hu : u = s.setRf (adrLbkStatus b) 31 16 temp) (ho : temp < 4000 ∨ 7000 < temp)
    (hh : (u.bank b).hot = false) (hg : gap temp (u.bank b).codeTemp ≤ u.rf (adrLbkCalCfg b) 17 12 * 5) :
    execLbkTempSample b temp s = .next
      (((u.modBank b fun x => { x with hot := true, owes := insNat x.owes 0 }).bankEvent 0x1407 b [temp]).bankFall b 0) := by
  simp [execLbkTempSample, ← hu, ho, hh, Nat.not_lt.mpr hg]

/-- At the sweep period a sweep starts, when none is running (R166). -/
theorem execLbkSweepTimer_starts (hw : (s.bank b).sweep = none) : execLbkSweepTimer b s = .next (s.startSweep b) := by
  simp [execLbkSweepTimer, hw]

/-- LBK_SWEEP starts a sweep and waits for its end, when none is running and sweeps have not stopped (R389). -/
theorem execLbkSweep_starts (h : Starts s 0x50 k x t) (hb : b = u8 x.bytes 0x10 % 2) (hs : (s.bank b).stopped = false)
    (hw : (s.bank b).sweep = none) :
    execLbkSweep k s = .next ((t.modBank b fun y => { y with sweepPkts := y.sweepPkts ++ [k] }).startSweep b) := by
  rw [execLbkSweep, runOp_starts _ h]
  simp [← hb, h.bank, hs, hw]

/-- Once the spare of a rotation has settled its comparison begins (R166). -/
theorem execRowSettled_compares (hs : (s.bank b).settling.contains r = false) (hz : (s.bank b).rot = some z) (hr : z.spare = r)
    (hp : z.phase = .settling) :
    execRowSettled b r s = .next (s.modBank b fun x => { x with rot := some { z with phase := .comparing 0 } }) := by
  simp only [execRowSettled, hs, hz, hr, hp, Bool.false_eq_true, if_false, beq_self_eq_true, Bool.and_self, if_true]

/-- A row fitted with a residual of at most 2^-7 is a spare, and the next visit of the sweep follows (R166). -/
theorem execRowFitDone_spares (hz : (s.bank b).rot = some z) (hp : z.phase = .fitting) (hr : z.retry = false) (hn : n ≤ 8)
    (hu : u = State.setHealth (State.modBank (((s.setRf (adrLbkRowHealth b z.spare) 15 8 n).stagesHealthy b inputs).refitRow b z.spare)
      b fun x => { x with rot := none }) b z.spare 1) (hs : (u.bank b).stopped = false) :
    execRowFitDone b n inputs s = .next (u.nextVisit 80 b) := by
  have hmin : min n 255 = n := by omega
  simp [execRowFitDone, hz, hp, hr, hn, hmin, ← hu, hs]

/-- With sweeps stopped, tables that have grown stale move every block to fallback (R168). -/
theorem execLbkTablesStale_falls (hs : (s.bank b).stopped = true) :
    execLbkTablesStale b s = .next ((s.modBank b fun x => { x with stale := true }).bankFall b 6) := by
  simp only [execLbkTablesStale, hs, if_true]

/-- The loss of stage 0 is that of the laser in use (R169, R246). -/
theorem execLbkStagePowerLoss_laser : execLbkStagePowerLoss b 0 n s = .next ((s.bankEvent 0x1405 b [0, n]).bankLaser b) := rfl

/-- The loss of the row bus is that of its row, unless the row has failed before (R168, R169). -/
theorem execLbkStagePowerLoss_row (hu : u = s.bankEvent 0x1405 b [3, n]) (hn : n < 68) (hh : u.rowHealth b n ≠ 3) :
    execLbkStagePowerLoss b 3 n s = .next (u.rowLost b n) := by
  simp [execLbkStagePowerLoss, ← hu, hn, hh]

/-- The spare laser takes the place of the lost one, and a sweep follows (R166, R246). -/
theorem execLbkLaserChangeDone_switches (hl : (s.bank b).laserLost = true) (hf : s.rf (adrLbkStatus b) 7 7 = 0)
    (hs : s.rf (adrGldLaser (47 + 2 * b)) 2 0 ≠ 5) :
    execLbkLaserChangeDone b s = .next ((((s.setRf (adrLbkStatus b) 7 7 1).setRf (adrGldLaser (47 + 2 * b)) 2 0 2).modBank b fun x =>
      { x with laserLost := false }).startSweep b) := by
  simp [execLbkLaserChangeDone, hl, hf, hs]

/-- LBK_BLOCK_STATUS returns a block's fallback and its counts (R389). -/
theorem execLbkBlockStatus_reports (h : Starts s 0x51 k x t)
    (hy : tfind (s.bank (u8 x.bytes 0x10 % 2)).blocks (u8 x.bytes 0x11) = some y) :
    execLbkBlockStatus k s = .next (t.done k (leBytes 4 (b2n !y.why.isEmpty) ++ leBytes 4 y.nDiv ++ leBytes 4 y.nFall)) := by
  rw [execLbkBlockStatus, runOp_starts _ h]
  simp only [h.bank, hy]

/-- LBK_FORCE_FALLBACK with FORCE 1 holds a block in fallback (R173, R389). -/
theorem execLbkForceFallback_holds (h : Starts s 0x52 k x t) (hb : b = u8 x.bytes 0x10 % 2)
    (hy : tfind (s.bank b).blocks (u8 x.bytes 0x11) = some y) (hf : u8 x.bytes 0x12 = 1) :
    execLbkForceFallback k s = .next
      (((t.setBlock b (u8 x.bytes 0x11) { y with released := false }).blockFall b (u8 x.bytes 0x11) 3).done k []) := by
  rw [execLbkForceFallback, runOp_starts _ h]
  simp [← hb, h.bank, hy, hf]

end

/-- Settles O19: one lemma for each command and course; the packets act on the banks as they met them (`Starts.bank`). -/
theorem lightbankCommandsComplete : Obligations.LightbankCommandsComplete :=
  ⟨fun _ _ _ _ hu hmin hmax hh hg => execLbkTempSample_stores hu hmin hmax hh hg,
    fun _ _ _ _ hu hmin hmax hh hg hr => execLbkTempSample_redrives hu hmin hmax hh hg hr,
    fun _ _ _ _ hu ho hh hg => execLbkTempSample_falls hu ho hh hg,
    fun _ _ hw => execLbkSweepTimer_starts hw,
    fun _ _ _ _ _ h hb hs hw => execLbkSweep_starts h hb hs hw,
    fun _ _ _ _ hs hz hr hp => execRowSettled_compares hs hz hr hp,
    fun _ _ _ _ _ _ hz hp hr hn hu hs => execRowFitDone_spares hz hp hr hn hu hs,
    fun _ _ hs => execLbkTablesStale_falls hs,
    fun _ _ _ => execLbkStagePowerLoss_laser,
    fun _ _ _ _ hu hn hh => execLbkStagePowerLoss_row hu hn hh,
    fun _ _ hl hf hs => execLbkLaserChangeDone_switches hl hf hs,
    fun _ _ _ _ _ h hy => execLbkBlockStatus_reports h hy,
    fun _ _ _ _ _ _ h hb hy hf => execLbkForceFallback_holds h hb hy hf⟩

end Sys2Proof.Machine
end

section
/-! PROOFS. The registers of links, ports, clocks, Bellows and Quench: what a write of each makes of its word and sets going (R203, R209,
R220, R226, R275, R278, R403, R417, R435, R438). -/
namespace Sys2Proof.Machine

/-- A field that stands at the bottom of a written word, below the bits that a command sets, reads as it stood. -/
theorem bits_field_add {w hi c hi' lo' : Nat} (h : hi' ≤ hi) :
    bits (bits w hi 0 + 2 ^ (hi + 1) * c) hi' lo' = bits w hi' lo' := by
  have hlow : (bits w hi 0 + 2 ^ (hi + 1) * c) % 2 ^ (hi + 1) = w % 2 ^ (hi + 1) := by
    simp [bits]
  rw [← bits_mod _ (hi + 1) hi' lo' (by omega), hlow, bits_mod _ _ _ _ (by omega)]

/-- Only the bits of the field that is replaced matter. -/
theorem putBits_congr {w hi x y : Nat} (h : bits x hi 0 = bits y hi 0) : putBits w hi 0 x = putBits w hi 0 y := by
  simp only [bits, Nat.pow_zero, Nat.div_one] at h
  simp only [putBits, h]

section
variable {s t : State} {d n o v x least most hi rst old new : Nat} {pf lk : Bool} {r : RegDesc} {u : RegWrite}

/-! Registers of one field, and of one command (R278, R403, R417, R435). -/

/-- A register with a single field takes a number in its range. -/
theorem regWrite_field (hr : r.flds = [⟨hi, 0, .rw, rst, least, most, .chip⟩]) (hv : v < 2 ^ (hi + 1)) (hmin : least ≤ v)
    (hmax : v ≤ most) : regWrite pf lk r o v = { new := putBits o hi 0 v, live := true } := by
  simp [regWrite, RegWrite.field, hr, bits_of_lt hv, hmin, hmax]

/-- A register with a single command takes it. -/
theorem regWrite_command (hr : r.flds = [⟨0, 0, .w1s, rst, 0, 1, .chip⟩]) :
    regWrite pf lk r o 1 = { new := putBits o 0 0 1, live := true } := by
  simp [regWrite, RegWrite.field, hr, bits]

/-- The offset of machine time is armed (R278). -/
theorem execMtOffsetArm_arms (hh : s.hostHeld = false) : execMtOffsetArm s = .next (s.setRf adrClkMtArm 0 0 1) := by
  rw [execMtOffsetArm, hostWrites_effect hh (granuleBusy_of_name locate_adrClkMtArm (by simp)) locate_adrClkMtArm rfl
    ⟨by decide, regWrite_command rfl, .inr (by simp), fun _ => by simp [State.carveBad], by simp [State.writeOk], rfl⟩]
  simp [State.effect, State.setRf, setFld, wd]

/-- BEL_CAP takes 400 to 1,250 W (R417). -/
theorem execBelCapWrite_sets (hh : s.hostHeld = false) (hmin : 400 ≤ n) (hmax : n ≤ 1250) :
    execBelCapWrite n s = .next (s.setRf adrBelCap 10 0 n) := by
  rw [execBelCapWrite, hostWrites_effect hh (granuleBusy_of_name locate_adrBelCap (by simp)) locate_adrBelCap rfl
    ⟨by omega, regWrite_field rfl (by omega) hmin hmax, .inr (by simp), fun _ => by simp [State.carveBad],
      by simp [State.writeOk], rfl⟩]
  simp [State.effect, State.setRf, setFld, wd]

/-- BEL_ACLK takes a target of 24 to 56 steps (R403). -/
theorem execBelAclkWrite_sets (hh : s.hostHeld = false) (hmin : 24 ≤ n) (hmax : n ≤ 56) :
    execBelAclkWrite n s = .next (s.setTarget n) := by
  have htarget : bits (putBits (s.reg adrBelAclk).toNat 5 0 n) 5 0 = n := by
    rw [bits_putBits_same _ _ _ _ (by omega), Nat.mod_eq_of_lt (by omega)]
  rw [execBelAclkWrite, hostWrites_effect hh (granuleBusy_of_name locate_adrBelAclk (by simp)) locate_adrBelAclk rfl
    ⟨by omega, regWrite_field rfl (by omega) hmin hmax, .inr (by simp), fun _ => by simp [State.carveBad],
      by simp [State.writeOk], rfl⟩]
  simp [State.effect, htarget]

/-- Valves are calibrated while no partition is LOCKED (R435). -/
theorem execQchCalibrate_calibrates (hh : s.hostHeld = false) (hk : ∀ p, p < 8 → s.locked p = false) :
    execQchCalibrate s = .next s.calibrate := by
  have hfree : allParts.any s.locked = false := by simpa [allParts] using hk
  rw [execQchCalibrate, hostWrites_effect hh (granuleBusy_of_name locate_adrQchCtrl (by simp)) locate_adrQchCtrl rfl
    ⟨by decide, regWrite_command rfl, .inr (by simp), fun _ => by simp [State.carveBad], by simp [State.writeOk, hfree], rfl⟩]
  simp [State.effect, bitAt]

/-! LNK_CTRL (R203, R209). -/

/-- LNK_CTRL's word `o` with TARGET_QUADS and the commands of a written word `v`. -/
def linkWord (o v : Nat) : Nat :=
  let a := putBits o 3 0 (bits v 3 0)
  let b := if bits v 4 4 = 1 then putBits a 4 4 1 else a
  if bits v 5 5 = 1 then putBits b 5 5 1 else b

theorem bits_linkWord : bits (linkWord o v) 3 0 = bits v 3 0 := by
  simp only [linkWord, apply_ite (bits · 3 0), bits_putBits_below _ _ _ _ _ _ (show 4 ≤ 4 + 1 by omega) (show 3 < 4 by omega),
    bits_putBits_below _ _ _ _ _ _ (show 5 ≤ 5 + 1 by omega) (show 3 < 5 by omega), bits_putBits_same _ _ _ _ (show 0 ≤ 3 + 1 by omega),
    Nat.mod_eq_of_lt (bits_lt v 3 0), ite_self]

/-- TARGET_QUADS takes 1 to 8 quads. -/
theorem regWrite_linkWord (hr : r.flds = [⟨3, 0, .rw, 0x8, 1, 8, .chip⟩, ⟨4, 4, .w1s, 0x0, 0, 1, .chip⟩,
    ⟨5, 5, .w1s, 0x0, 0, 1, .chip⟩])
    (hmin : 1 ≤ bits v 3 0) (hmax : bits v 3 0 ≤ 8) : regWrite pf lk r o v = { new := linkWord o v, live := true } := by
  simp [regWrite, RegWrite.field, hr, linkWord]
  omega

/-- A write of LNK_CTRL acts by TARGET_QUADS and the commands written. -/
theorem State.linkControl_congr (h : bits new 3 0 = bits n 3 0) : s.linkControl d old new v = s.linkControl d old n v := by
  simp only [linkControl, putBits_congr h, h]

/-- LNK_CTRL takes a word whose TARGET_QUADS is in range. -/
theorem hostWrites_lnkCtrl (hh : s.hostHeld = false) (hd : d < 8) (hv : v < 2 ^ 32) (hmin : 1 ≤ bits v 3 0) (hmax : bits v 3 0 ≤ 8) :
    s.hostWrites 0 (adrLnkCtrl d) v = s.linkControl d (s.reg (adrLnkCtrl d)).toNat v v := by
  have hl := locate_adrLnkCtrl hd
  rw [hostWrites_effect hh (granuleBusy_of_name hl (by simp)) hl rfl
    ⟨hv, regWrite_linkWord rfl hmin hmax, .inr (by simp), fun _ => by simp [State.carveBad],
      by simp [State.writeOk], rfl⟩]
  simp only [State.effect, State.linkControl_congr bits_linkWord]

/-- With TARGET_QUADS as it stands, the commands alone act. -/
theorem State.linkControl_commands (hv : bits v 3 0 = s.rf (adrLnkCtrl d) 3 0)
    (ht : t = s.setReg (adrLnkCtrl d) (s.reg (adrLnkCtrl d))) : s.linkControl d (s.reg (adrLnkCtrl d)).toNat v v =
      let u := if bitAt v 4 && t.flitUp d then (t.setRf (adrLnkCtrl d) 4 4 1).startReq d 0 else t
      if bitAt v 5 && !u.quiet d && (u.link d).st != .fenced then (u.linkDown d).setRf (adrLnkCtrl d) 5 5 1 else u := by
  rw [rf, fld] at hv
  have hself : wd (putBits (s.reg (adrLnkCtrl d)).toNat 3 0 v) = s.reg (adrLnkCtrl d) := by
    have hsame : bits v 3 0 = bits (bits (s.reg (adrLnkCtrl d)).toNat 3 0) 3 0 := by rw [hv]; simp [bits]
    rw [putBits_congr hsame, putBits_self _ _ _ (by omega)]
    simp [wd]
  simp only [linkControl, hself, hv, ← ht, beq_self_eq_true, if_true]

/-- RETRAIN asks for one while flits flow (R203). -/
theorem execLnkCtrlRetrain_asks (hh : s.hostHeld = false) (hd : d < 8) (hmin : 1 ≤ s.rf (adrLnkCtrl d) 3 0)
    (hmax : s.rf (adrLnkCtrl d) 3 0 ≤ 8) (ht : t = s.setReg (adrLnkCtrl d) (s.reg (adrLnkCtrl d))) (hup : t.flitUp d = true) :
    execLnkCtrlRetrain d s = .next (State.startReq (t.setRf (adrLnkCtrl d) 4 4 1) d 0) := by
  have hlow : bits (s.rf (adrLnkCtrl d) 3 0 + 2 ^ 4) 3 0 = s.rf (adrLnkCtrl d) 3 0 := bits_field_add (c := 1) (le_refl 3)
  have h4 : bitAt (s.rf (adrLnkCtrl d) 3 0 + 2 ^ 4) 4 = true := by simp [bitAt]; omega
  have h5 : bitAt (s.rf (adrLnkCtrl d) 3 0 + 2 ^ 4) 5 = false := by simp [bitAt]; omega
  rw [execLnkCtrlRetrain, if_pos hd, hostWrites_lnkCtrl hh hd (by omega) (hlow.symm ▸ hmin) (hlow.symm ▸ hmax),
    State.linkControl_commands hlow ht]
  simp only [h4, h5, hup, Bool.and_self, Bool.false_and, if_true, Bool.false_eq_true, if_false]

/-- DOWN takes a link down that is not down or fenced already (R209). -/
theorem execLnkCtrlDown_downs (hh : s.hostHeld = false) (hd : d < 8) (hmin : 1 ≤ s.rf (adrLnkCtrl d) 3 0)
    (hmax : s.rf (adrLnkCtrl d) 3 0 ≤ 8) (ht : t = s.setReg (adrLnkCtrl d) (s.reg (adrLnkCtrl d))) (hq : t.quiet d = false)
    (hf : (t.link d).st ≠ .fenced) : execLnkCtrlDown d s = .next (State.setRf (t.linkDown d) (adrLnkCtrl d) 5 5 1) := by
  have hlow : bits (s.rf (adrLnkCtrl d) 3 0 + 2 ^ 5) 3 0 = s.rf (adrLnkCtrl d) 3 0 := bits_field_add (c := 2) (le_refl 3)
  have h4 : bitAt (s.rf (adrLnkCtrl d) 3 0 + 2 ^ 5) 4 = false := by simp [bitAt]; omega
  have h5 : bitAt (s.rf (adrLnkCtrl d) 3 0 + 2 ^ 5) 5 = true := by simp [bitAt]; omega
  rw [execLnkCtrlDown, if_pos hd, hostWrites_lnkCtrl hh hd (by omega) (hlow.symm ▸ hmin) (hlow.symm ▸ hmax),
    State.linkControl_commands hlow ht]
  simp only [h4, h5, hq, bne_iff_ne.mpr hf, Bool.false_and, Bool.and_self, Bool.not_false, if_true, Bool.false_eq_true, if_false]

/-- A change of TARGET_QUADS asks for another width (R203). -/
theorem execLnkTargetQuadsWrite_asks (hh : s.hostHeld = false) (hd : d < 8) (hmin : 1 ≤ n) (hmax : n ≤ 8)
    (hn : n ≠ s.rf (adrLnkCtrl d) 3 0) (ht : t = s.setRf (adrLnkCtrl d) 3 0 n) : execLnkTargetQuadsWrite d n s =
      .next (t.startReq d (if t.desired d < popcount 8 (t.link d).active then 1 else 2)) := by
  have hlow : bits n 3 0 = n := bits_of_lt (by omega)
  have h4 : bitAt n 4 = false := by simp [bitAt]; omega
  have h5 : bitAt n 5 = false := by simp [bitAt]; omega
  have hnew : (bits (s.reg (adrLnkCtrl d)).toNat 3 0 == n) = false := beq_false_of_ne hn.symm
  have hset : s.setReg (adrLnkCtrl d) (wd (putBits (s.reg (adrLnkCtrl d)).toNat 3 0 n)) = t := ht.symm
  rw [execLnkTargetQuadsWrite, if_pos hd, Nat.mod_eq_of_lt (by omega), hostWrites_lnkCtrl hh hd (by omega) (by omega) (by omega)]
  simp [State.linkControl, hlow, hset, hnew, h4, h5]

/-! ANT_PORT_CFG (R220, R226). -/

/-- With the owner as it stands, FENCE alone is written. -/
theorem regWrite_fence (hr : r.flds = [⟨2, 0, .rw, 0x0, 0, 7, .carve⟩, ⟨3, 3, .rw, 0x0, 0, 1, .carve⟩, ⟨4, 4, .rw, 0x0, 0, 1, .chip⟩,
    ⟨5, 5, .w1c, 0x0, 0, 1, .chip⟩]) (hlow : bits v 2 0 = bits o 2 0) (h3 : bits v 3 3 = bits o 3 3) (h5 : bits v 5 5 = 0) :
    regWrite true lk r o v = { new := putBits o 4 4 (bits v 4 4), live := true } := by
  have hmax := bits_lt o 2 0
  have hmax3 := bits_lt o 3 3
  have hmax4 := bits_lt v 4 4
  simp [regWrite, RegWrite.field, hr, hlow, h3, h5, putBits_self]
  omega

theorem hostWrites_antPortCfg {f : Bool} (hh : s.hostHeld = false) (hd : d < 8) :
    s.hostWrites 0 (adrAntPortCfg d) (s.rf (adrAntPortCfg d) 3 0 + 2 ^ 4 * b2n f) =
      s.portCfg d (s.reg (adrAntPortCfg d)).toNat (putBits (s.reg (adrAntPortCfg d)).toNat 4 4 (b2n f)) := by
  have hl := locate_adrAntPortCfg hd
  have hown : s.rf (adrAntPortCfg d) 3 0 < 16 := bits_lt _ 3 0
  have hf : b2n f < 2 := by cases f <;> decide
  have hlow : bits (s.rf (adrAntPortCfg d) 3 0 + 2 ^ 4 * b2n f) 2 0 = bits (s.reg (adrAntPortCfg d)).toNat 2 0 :=
    bits_field_add (by decide)
  have h3 : bits (s.rf (adrAntPortCfg d) 3 0 + 2 ^ 4 * b2n f) 3 3 = bits (s.reg (adrAntPortCfg d)).toNat 3 3 :=
    bits_field_add (by decide)
  have h4 : bits (s.rf (adrAntPortCfg d) 3 0 + 2 ^ 4 * b2n f) 4 4 = b2n f := by rw [bits]; omega
  have h5 : bits (s.rf (adrAntPortCfg d) 3 0 + 2 ^ 4 * b2n f) 5 5 = 0 := by rw [bits]; omega
  have hkept : bits (putBits (s.reg (adrAntPortCfg d)).toNat 4 4 (b2n f)) 3 0 = bits (s.reg (adrAntPortCfg d)).toNat 3 0 :=
    bits_putBits_below _ _ _ _ _ _ (by omega) (by omega)
  rw [hostWrites_effect hh (granuleBusy_of_name hl (by simp)) hl rfl
    ⟨by omega, (regWrite_fence rfl hlow h3 h5).trans (by rw [h4]), .inr (by simp),
      fun _ => by simp [State.carveBad, hkept], by simp [State.writeOk], rfl⟩]
  simp [State.effect]

/-- FENCE fences a port (R226). -/
theorem execAntFenceWrite_fences (hh : s.hostHeld = false) (hd : d < 8) (hf : s.rf (adrAntPortCfg d) 4 4 = 0) :
    execAntFenceWrite d true s = .next (State.fencePort (s.setRf (adrAntPortCfg d) 4 4 1) d) := by
  have hold : bitAt (s.reg (adrAntPortCfg d)).toNat 4 = false := by
    rw [bitAt_bits]
    exact beq_eq_false_iff_ne.mpr fun h => Nat.zero_ne_one (hf.symm.trans h)
  have hnew : bitAt (putBits (s.reg (adrAntPortCfg d)).toNat 4 4 1) 4 = true := by
    rw [bitAt_bits, bits_putBits_same _ _ _ _ (by omega)]
    rfl
  rw [execAntFenceWrite, if_pos hd, hostWrites_antPortCfg hh hd]
  simp [State.portCfg, b2n, hold, hnew, State.setRf, setFld, wd]

/-- Without FENCE a fenced link is DOWN, and may train again (R185, R226). -/
theorem execAntFenceWrite_lifts (hh : s.hostHeld = false) (hd : d < 8) (hf : s.rf (adrAntPortCfg d) 4 4 = 1)
    (hs : (s.link d).st = .fenced) :
    execAntFenceWrite d false s = .next ((s.setRf (adrAntPortCfg d) 4 4 0).setLink d { s.link d with st := .down }) := by
  have hold : bitAt (s.reg (adrAntPortCfg d)).toNat 4 = true := by rw [bitAt_bits]; exact beq_iff_eq.mpr hf
  have hnew : bitAt (putBits (s.reg (adrAntPortCfg d)).toNat 4 4 0) 4 = false := by
    rw [bitAt_bits, bits_putBits_same _ _ _ _ (by omega)]
    rfl
  rw [execAntFenceWrite, if_pos hd, hostWrites_antPortCfg hh hd]
  simp [State.portCfg, b2n, hold, hnew, State.setRf, setFld, wd, State.modLink, hs]

/-! CLK_RT_LOAD (R275). -/

/-- The high word of the tick to load, and ARM. -/
theorem regWrite_load (hr : r.flds = [⟨11, 0, .rw, 0x0, 0, 4095, .chip⟩, ⟨31, 31, .w1s, 0x0, 0, 1, .chip⟩]) (hlow : bits v 11 0 = x)
    (harm : bits v 31 31 = 1) : regWrite pf lk r o v = { new := putBits (putBits o 11 0 x) 31 31 1, live := true } := by
  have hlt := bits_lt v 11 0
  simp [regWrite, RegWrite.field, hr, hlow, harm]
  omega

/-- Both words of the tick are written, and the load is armed (R275). -/
theorem execRtLoadArm_arms (hh : s.hostHeld = false) (hn : n < 2 ^ 44) : execRtLoadArm n s =
    .next ((s.setReg adrClkRtLoadLo (wd (n % 2 ^ 32))).setReg adrClkRtLoadHi
      (wd (putBits (putBits (s.reg adrClkRtLoadHi).toNat 11 0 (n / 2 ^ 32)) 31 31 1))) := by
  have hhigh : bits n 43 32 = n / 2 ^ 32 := by simp only [bits]; omega
  have htick : bits (n / 2 ^ 32 + 2 ^ 31) 11 0 = n / 2 ^ 32 := by simp only [bits]; omega
  have harm : bits (n / 2 ^ 32 + 2 ^ 31) 31 31 = 1 := by simp only [bits]; omega
  have hlow : s.hostWrites 0 adrClkRtLoadLo (n % 2 ^ 32) = s.setReg adrClkRtLoadLo (wd (n % 2 ^ 32)) := by
    have hlt : n % 2 ^ 32 < 2 ^ 32 := Nat.mod_lt _ (by decide)
    rw [hostWrites_effect hh (granuleBusy_of_name locate_adrClkRtLoadLo (by simp)) locate_adrClkRtLoadLo rfl
      ⟨hlt, regWrite_field rfl hlt (Nat.zero_le _) (by omega), .inr (by simp), fun _ => by simp [State.carveBad],
        by simp [State.writeOk], rfl⟩, putBits_of_lt (hi := 31) (s.reg _).isLt hlt]
    simp [State.effect]
  have hfree : (s.setReg adrClkRtLoadLo (wd (n % 2 ^ 32))).hostHeld = false := hh
  rw [execRtLoadArm, hlow, hhigh,
    hostWrites_effect hfree (granuleBusy_of_name locate_adrClkRtLoadHi (by simp)) locate_adrClkRtLoadHi rfl
      ⟨by omega, regWrite_load rfl htick harm, .inr (by simp), fun _ => by simp [State.carveBad], by simp [State.writeOk], rfl⟩,
    State.setReg_reg_other _ _ _ _ (by decide)]
  simp [State.effect]

/-! QCH_VALVE_CFG (R438). -/

/-- With the other fields as they stand, CLEAR alone is written. -/
theorem regWrite_clear_new (hr : r.flds = [⟨5, 0, .rw, 0x14, 5, 50, .chip⟩, ⟨12, 6, .rw, 0x78, 50, 120, .chip⟩,
    ⟨19, 13, .rw, 0x23, 20, 60, .chip⟩, ⟨20, 20, .rw, 0x0, 0, 1, .chip⟩, ⟨27, 21, .rw, 0x64, 0, 100, .chip⟩,
    ⟨28, 28, .w1s, 0x0, 0, 1, .chip⟩]) (hkept : ∀ {hi lo}, hi ≤ 27 → bits v hi lo = bits o hi lo) (hset : bits v 28 28 = 1) :
    (regWrite pf lk r o v).new = putBits o 28 28 1 := by
  simp [regWrite, RegWrite.field, hr, hkept, hset, putBits_self]

/-- CLEAR clears the valve's failure, and leaves its other fields as they stand (R438). -/
theorem execValveClear_clears (hh : s.hostHeld = false) (hv : v < 8) (ho : o = (s.reg (adrQchValveCfg v)).toNat)
    (hu : u = s.written true (adrQchValveCfg v) (bits o 27 0 + 2 ^ 28)) (hb : u.bad = false) :
    execValveClear v s = .next (State.clearValve (s.setReg (adrQchValveCfg v) (wd (putBits u.new 28 28 0))) v) := by
  subst ho
  have hl := locate_adrQchValveCfg hv
  rw [State.written_eq hl] at hu
  have hc : u.carve = false := hu ▸ regWrite_carve
  have hlt := bits_lt (s.reg (adrQchValveCfg v)).toNat 27 0
  have hset : bits (bits (s.reg (adrQchValveCfg v)).toNat 27 0 + 2 ^ 28) 28 28 = 1 := by
    rw [bits]
    omega
  have hclear : bitAt (bits (s.reg (adrQchValveCfg v)).toNat 27 0 + 2 ^ 28) 28 = true := by rw [bitAt_bits, hset]; rfl
  have hnew : u.new = putBits (s.reg (adrQchValveCfg v)).toNat 28 28 1 := hu ▸ regWrite_clear_new rfl (bits_field_add (c := 1)) hset
  have hdecay : bitAt u.new 20 = bitAt (s.reg (adrQchValveCfg v)).toNat 20 := by
    rw [hnew, bitAt_bits, bits_putBits_below _ _ _ _ _ _ (by omega) (by omega), ← bitAt_bits]
  rw [execValveClear, if_pos hv, State.rf, fld, hostWrites_effect hh (granuleBusy_of_name hl (by simp)) hl rfl
    ⟨by omega, regWrite_acts (List.mem_cons_self ..) (by simp) (by simp) hu hc hb, .inr (by simp), fun _ => by simp [State.carveBad],
      by simp [State.writeOk], rfl⟩]
  simp only [State.effect, State.valveConfig, hdecay, hclear, beq_self_eq_true, if_true]

end

/-- Settles O25: each write reaches its register (`hostWrites_effect`) with a word that its fields allow, and has the register's effect. -/
theorem unitRegisterWritesComplete : Obligations.UnitRegisterWritesComplete :=
  ⟨fun _ _ _ hh hd hmin hmax ht hup => execLnkCtrlRetrain_asks hh hd hmin hmax ht hup,
    fun _ _ _ hh hd hmin hmax ht hq hf => execLnkCtrlDown_downs hh hd hmin hmax ht hq hf,
    fun _ _ _ _ hh hd hmin hmax hn ht => execLnkTargetQuadsWrite_asks hh hd hmin hmax hn ht,
    fun _ _ hh hd hf => execAntFenceWrite_fences hh hd hf,
    fun _ _ hh hd hf hs => execAntFenceWrite_lifts hh hd hf hs,
    fun _ _ hh hn => execRtLoadArm_arms hh hn,
    fun _ hh => execMtOffsetArm_arms hh,
    fun _ _ hh hmin hmax => execBelCapWrite_sets hh hmin hmax,
    fun _ _ hh hmin hmax => execBelAclkWrite_sets hh hmin hmax,
    fun _ hh hk => execQchCalibrate_calibrates hh hk,
    fun _ _ _ _ hh hv ho hu hb => execValveClear_clears hh hv ho hu hb⟩

end Sys2Proof.Machine
end

section
/-! PROOFS. Links in training: an attempt, its quads, LINK_INIT and the exchange of CONFIG flits (R184, R190, R194), and what a flit that
arrives is to its command (R188, R211). -/
namespace Sys2Proof.Machine

section
variable {s u : State} {d k m n w : Nat} {b : List Byte} {e : Bool} {f : Flit} {act : State → Flit → State}

/-- The corrected codewords that a flit brings are counted in a register, and the link is as before (R211). -/
theorem State.bumpBy_link (s : State) (a n i : Nat) : (s.bumpBy a n).link i = s.link i := rfl

theorem State.bumpBy_flitUp (s : State) (a n i : Nat) : (s.bumpBy a n).flitUp i = s.flitUp i := rfl

/-- A good flit of the command's KIND is taken (R188). -/
theorem State.flitArrive_good (hu : u = s.bumpBy (adrFecCorrected d) n) (hg : flitGood b = true) (hk : (parseFlit b).kind = k) :
    s.flitArrive d k b false n act = act u (parseFlit b) := by
  simp [flitArrive, ← hu, hg, hk]

/-- A flit that fails R188 is discarded while flits flow. -/
theorem State.flitArrive_bad (hu : u = s.bumpBy (adrFecCorrected d) n) (hup : u.flitUp d = true)
    (hbad : e = true ∨ flitGood b = false) :
    s.flitArrive d k b e n act = u.badFlit d e (k == 0 && (parseFlit b).kind == 0) := by
  have hfail : (e || !flitGood b) = true := by simpa using hbad
  simp [flitArrive, ← hu, hfail, hup]

/-- An attempt starts at a port that may train (R184 step 1, R258). -/
theorem execLinkTrainingStart_starts (hd : d < 8) (hs : (s.link d).st = .down) (ha : 0 < (s.link d).allot)
    (hh : (s.link d).heldDown = false) (hf : s.fenced d = false) (hp : s.portPowered d = true)
    (hapr : d < 4 ∨ (s.gleed d).apr = false) : execLinkTrainingStart d s = .next (s.startTraining d) := by
  have hfull : (isGleed d && (s.gleed d).apr) = false := by
    rcases hapr with hmesh | hapr
    · simp [isGleed, hmesh]
    · simp [hapr]
  have hmay : s.mayTrain d = true := by simp [State.mayTrain, hd, hs, ha, hh, hf, hp, hfull]
  rw [execLinkTrainingStart, if_pos hmay]

/-- At the limit of steps 2 to 4 the link goes on with the quads that passed (R184). -/
theorem execTrainingStepTimeout_some (hs : (s.link d).st = .training) (h1 : (s.link d).step = 1)
    (hm : Nat.land m (s.link d).allotMask ≠ 0)
    (hu : u = s.each (onesOf 8 (s.link d).allotMask) (fun t k => if bitAt (Nat.land m (s.link d).allotMask) k
      then t.modLink d fun l => { l with fails := tset 0 l.fails k 0 } else t.failQuad d k)) :
    execTrainingStepTimeout d m s = .next (u.startInit d (Nat.land m (s.link d).allotMask)) := by
  have hsome : (Nat.land m (s.link d).allotMask == 0) = false := beq_false_of_ne hm
  simp [execTrainingStepTimeout, hs, h1, hsome, hu, -Nat.land_eq]

/-- With none that passed every quad has failed, and the link stays DOWN (R184, R263). -/
theorem execTrainingStepTimeout_none (hs : (s.link d).st = .training) (h1 : (s.link d).step = 1)
    (hm : Nat.land m (s.link d).allotMask = 0)
    (hu : u = State.modLink (s.each (onesOf 8 (s.link d).allotMask) (fun t k => t.failQuad d k)) d
      (fun l => { l with st := .down, step := 0 })) :
    execTrainingStepTimeout d m s = .next (if d < 6 then u else u.portEvent 0x220B d []) := by
  have hbit : ∀ k, bitAt 0 k = false := by simp [bitAt]
  by_cases hd : d < 6
  · simp [execTrainingStepTimeout, hs, h1, hm, hbit, hu, hd, isCampus, -Nat.land_eq]
  · simp [execTrainingStepTimeout, hs, h1, hm, hbit, hu, hd, isCampus, not_lt.mp hd, -Nat.land_eq]

/-- Past its limit in step 5 or 6 the attempt has failed (R184). -/
theorem execTrainingStepTimeout_fails (hs : (s.link d).st = .training) (h5 : (s.link d).step = 5 ∨ (s.link d).step = 6) :
    execTrainingStepTimeout d m s =
      .next (State.dropMeasure (s.setLink d { s.link d with st := .down, step := 0, active := 0, timeQ := [] }) d) := by
  simp [execTrainingStepTimeout, hs, h5]

/-- With every quad locked LINK_INIT starts on all of them (R184 step 5). -/
theorem execTrainingLockAchieved_starts (hs : (s.link d).st = .training) (h1 : (s.link d).step = 1) :
    execTrainingLockAchieved d s = .next (State.startInit (s.modLink d fun l => { l with fails := [] }) d (s.link d).allotMask) := by
  simp [execTrainingLockAchieved, hs, h1]

/-- A peer's LINK_INIT that allots as many quads agrees the active set (R190). -/
theorem execLinkInitReceived_agrees (hg : osGood b = true) (ht : u8 b 0 = 0xA1) (hs : (s.link d).st = .training)
    (h5 : (s.link d).step = 5) (hid : u64 b 4 ≠ ownId) (ha : bits (u16 b 0xC) 7 4 = (s.link d).allot)
    (hw : w = agree (s.link d).sustain (u8 b 2) (s.desired d) (u8 b 1 / 16)) (hw0 : w ≠ 0) :
    execLinkInitReceived d b s = .next (s.modLink d fun l =>
      { l with active := w, peer := u64 b 4, step := 6, seq := 0, ackd := 0xFFF, last := 0xFFF }) := by
  simp [execLinkInitReceived, State.initRx, State.initAgree, hg, ht, hs, h5, hid, ha, ← hw, hw0]

/-- This chip's own LINK_INIT holds the link down (R186). -/
theorem execLinkInitReceived_own (hg : osGood b = true) (ht : u8 b 0 = 0xA1) (hs : (s.link d).st = .training)
    (h5 : (s.link d).step = 5) (hid : u64 b 4 = ownId) : execLinkInitReceived d b s =
      .next (State.portEvent (s.modLink d fun l => { l with st := .down, step := 0, heldDown := true }) 0x200B d []) := by
  simp [execLinkInitReceived, State.initRx, hg, ht, hs, h5, hid]

/-- CONFIG that says SEEN, at an end that has had one before, brings the link up once one has gone (R184 step 6, R194). -/
theorem State.configFlit_seen (h6 : (s.link d).step = 6) (hseen : (s.link d).seen = true) (hf : u8 f.pay 0x10 = 1) :
    s.configFlit d f = if (s.link d).seenSent then State.linkUp (s.modLink d fun l => { l with peerSeen := true }) d
      else s.modLink d fun l => { l with peerSeen := true } := by
  simp [configFlit, h6, hseen, hf]

/-- CONFIG on a link that is up is answered by an end that has heard nothing else yet (log entry 72). -/
theorem State.configFlit_up (h6 : (s.link d).step ≠ 6) (hup : s.flitUp d = true) (hseen : (s.link d).seen = true) :
    s.configFlit d f = if (s.link d).watch then s.modLink d fun l => { l with config := true } else s := by
  simp [configFlit, h6, hup, hseen]

theorem execConfigFlitReceived_seen (hg : flitGood b = true) (hf : f = parseFlit b) (hk : f.kind = 2) (hsaid : u8 f.pay 0x10 = 1)
    (h6 : (s.link d).step = 6) (hseen : (s.link d).seen = true) (hu : u = s.bumpBy (adrFecCorrected d) n) :
    execConfigFlitReceived d b false s n =
      .next (if (s.link d).seenSent then State.linkUp (u.modLink d fun l => { l with peerSeen := true }) d
        else u.modLink d fun l => { l with peerSeen := true }) := by
  have hlink : u.link d = s.link d := by rw [hu, State.bumpBy_link]
  rw [← hlink] at h6 hseen ⊢
  rw [hf] at hk hsaid
  rw [execConfigFlitReceived, State.flitArrive_good hu hg hk, State.configFlit_seen h6 hseen hsaid]

theorem execConfigFlitReceived_up (hg : flitGood b = true) (hk : (parseFlit b).kind = 2) (h6 : (s.link d).step ≠ 6)
    (hup : s.flitUp d = true) (hseen : (s.link d).seen = true) (hu : u = s.bumpBy (adrFecCorrected d) n) :
    execConfigFlitReceived d b false s n =
      .next (if (s.link d).watch then u.modLink d fun l => { l with config := true } else u) := by
  have hlink : u.link d = s.link d := by rw [hu, State.bumpBy_link]
  have hflow : u.flitUp d = true := by rw [hu, State.bumpBy_flitUp, hup]
  rw [← hlink] at h6 hseen ⊢
  rw [execConfigFlitReceived, State.flitArrive_good hu hg hk, State.configFlit_up h6 hflow hseen]

end

/-- Settles O32: one lemma for each command and course; a CONFIG flit is first taken (`State.flitArrive_good`), then acts by the step of
the link that it meets (`State.configFlit_seen`, `State.configFlit_up`). -/
theorem linkTrainingCompletes : Obligations.LinkTrainingCompletes :=
  ⟨fun _ _ hd hs ha hh hf hp hapr => execLinkTrainingStart_starts hd hs ha hh hf hp hapr,
    fun _ _ _ _ hs h1 hm hu => execTrainingStepTimeout_some hs h1 hm hu,
    fun _ _ _ _ hs h1 hm hu => execTrainingStepTimeout_none hs h1 hm hu,
    fun _ _ _ hs h5 => execTrainingStepTimeout_fails hs h5,
    fun _ _ hs h1 => execTrainingLockAchieved_starts hs h1,
    fun _ _ _ _ hg ht hs h5 hid ha hw hw0 => execLinkInitReceived_agrees hg ht hs h5 hid ha hw hw0,
    fun _ _ _ hg ht hs h5 hid => execLinkInitReceived_own hg ht hs h5 hid,
    fun _ _ _ _ _ _ hg hf hk hsaid h6 hseen hu => execConfigFlitReceived_seen hg hf hk hsaid h6 hseen hu,
    fun _ _ _ _ _ hg hk h6 hup hseen hu => execConfigFlitReceived_up hg hk h6 hup hseen hu⟩

end Sys2Proof.Machine
end

section
/-! PROOFS. Flits of a link: those that arrive (R188 to R199), what a flit slot sends (R192, R280, log entries 71 and 72), and the timers
of acknowledgement (R198 to R202). -/
namespace Sys2Proof.Machine

section
variable {s u : State} {d n v : Nat} {b : List Byte} {e : Bool} {f : TxFlit} {fs : List TxFlit} {x : TimeOs} {xs : List TimeOs}
  {t : Tbl Nat}

theorem execDataFlitReceived_takes (hu : u = s.bumpBy (adrFecCorrected d) n) (hup : u.flitUp d = true) (hg : flitGood b = true)
    (hk : (parseFlit b).kind = 0) : execDataFlitReceived d b false s n = .next (u.dataFlit d (parseFlit b)) := by
  rw [execDataFlitReceived, State.flitArrive_good hu hg hk, if_pos hup]

theorem execControlFlitReceived_takes (hu : u = s.bumpBy (adrFecCorrected d) n) (hup : u.flitUp d = true) (hg : flitGood b = true)
    (hk : (parseFlit b).kind = 1) : execControlFlitReceived d b false s n = .next (u.applyReports d (parseFlit b)) := by
  rw [execControlFlitReceived, State.flitArrive_good hu hg hk, if_pos hup]

/-- A flit that fails R188 is discarded by each of the three commands; only one of DATA can leave a gap of DATA flits (R199). -/
theorem flitReceived_discards (hu : u = s.bumpBy (adrFecCorrected d) n) (hup : u.flitUp d = true)
    (hbad : e = true ∨ flitGood b = false) :
    execDataFlitReceived d b e s n = .next (u.badFlit d e ((parseFlit b).kind == 0))
      ∧ execControlFlitReceived d b e s n = .next (u.badFlit d e false)
      ∧ execConfigFlitReceived d b e s n = .next (u.badFlit d e false) := by
  refine ⟨?_, ?_, ?_⟩
  · rw [execDataFlitReceived, State.flitArrive_bad hu hup hbad]
    rfl
  · rw [execControlFlitReceived, State.flitArrive_bad hu hup hbad]
    rfl
  · rw [execConfigFlitReceived, State.flitArrive_bad hu hup hbad]
    rfl

/-- On an ACTIVE link that exchanges no CONFIG flits a flit slot makes the choice of R192. -/
theorem execFlitSlot_active (hs : (s.link d).st = .active) (h6 : (s.link d).step ≠ 6) :
    execFlitSlot d s = .next (s.slotActive d) := by
  simp [execFlitSlot, State.flitSlot, hs, h6]

/-- In the exchange of CONFIG flits a slot without a time ordered set sends one (R184 step 6). -/
theorem execFlitSlot_exchange (h6 : (s.link d).step = 6) (ht : (s.link d).timeQ = []) : execFlitSlot d s = .next (s.slotConfig d) := by
  simp [execFlitSlot, State.flitSlot, h6, ht]

/-- A replay goes first (R200). -/
theorem State.slotActive_replays (hr : (s.link d).replay = f :: fs) : s.slotActive d =
    State.sendFlit (State.bump (s.setLink d { s.link d with replay := fs }) (adrFlitsTx d)) d
      { vc := f.vc, kind := 0, pos := f.pos, abort := f.abort, seq := f.seq, ack := 0, nak := false, cvc := 0, ctot := 0,
        pay := f.payload } := by
  simp only [slotActive, hr]

/-- A time ordered set waits for replayed flits only (R280). -/
theorem State.slotActive_times (hr : (s.link d).replay = []) (ht : (s.link d).timeQ = x :: xs) : s.slotActive d = s.sendTime d x := by
  simp only [slotActive, hr, ht]

/-- It also leaves while CONFIG flits are exchanged. -/
theorem execFlitSlot_times (h : (s.link d).step = 6 ∨ (s.link d).st = .active ∧ (s.link d).replay = [])
    (ht : (s.link d).timeQ = x :: xs) : execFlitSlot d s = .next (s.sendTime d x) := by
  by_cases h6 : (s.link d).step = 6
  · simp [execFlitSlot, State.flitSlot, h6, ht]
  · obtain ⟨hs, hr⟩ := h.resolve_left h6
    rw [execFlitSlot_active hs h6, State.slotActive_times hr ht]

/-- The answer to a CONFIG flit comes before reports and data (log entry 72). -/
theorem State.slotActive_answers (hr : (s.link d).replay = []) (ht : (s.link d).timeQ = []) (hc : (s.link d).config = true) :
    s.slotActive d = State.sendConfig (s.setLink d { s.link d with config := false }) d := by
  simp only [slotActive, hr, ht, hc, if_true]

/-- A report that is due, or owed for 32 flits, comes before data (R198). -/
theorem State.slotActive_reports (hr : (s.link d).replay = []) (ht : (s.link d).timeQ = []) (hc : (s.link d).config = false)
    (hdue : (s.link d).due = true ∨ 32 ≤ (s.link d).unacked) : s.slotActive d = s.sendFlit d (s.controlFlit d) := by
  simp [slotActive, hr, ht, hc, hdue]

/-- Data goes last: the next flit of the VC that R192 picks. -/
theorem State.slotActive_sends (hr : (s.link d).replay = []) (ht : (s.link d).timeQ = []) (hc : (s.link d).config = false)
    (hdue : (s.link d).due = false) (hack : (s.link d).unacked < 32)
    (hu : u = s.setLink d { s.link d with share := min 256 ((s.link d).share + s.rf adrAntCfg 22 18) })
    (hv : u.pickVc d = some (v, t)) : s.slotActive d = State.sendVc (u.modLink d fun l =>
      { l with deficit := t, rrPtr := if 1 ≤ v && v ≤ 5 then v else l.rrPtr }) d v := by
  generalize hl : s.link d = l at *
  cases l
  subst hr ht hc hdue
  simp only [slotActive, hl, ← hu, hv]
  simp [Nat.not_le.mpr hack]

/-- A report that is owed becomes due (R198). -/
theorem execAckReportDue_owed (h : (s.link d).owed = true) :
    execAckReportDue d s = .next (s.modLink d fun l => { l with due := true }) := by
  rw [execAckReportDue, if_pos h]

/-- While a gap lasts NAK is sent again (R199). -/
theorem execNakRepeatTimer_gap (h : (s.link d).gap = true) :
    execNakRepeatTimer d s = .next (s.modLink d fun l => { l with nak := true }) := by
  rw [execNakRepeatTimer, if_pos h]

theorem execReplayTimerExpiry_replays (hs : (s.link d).st = .active) : execReplayTimerExpiry d s false = .next (s.startReplay d) := by
  simp [execReplayTimerExpiry, hs]

/-- An advance in the same cycle wins over the timer (R202). -/
theorem execReplayTimerExpiry_tie : execReplayTimerExpiry d s true = .next s := by
  simp [execReplayTimerExpiry]

/-- No advance after the RETRAIN of an escalation takes the link down (R201). -/
theorem execRetrainAdvanceTimeout_downs (h : (s.link d).escal = 2) : execRetrainAdvanceTimeout d s = .next (s.linkDown d) := by
  simp [execRetrainAdvanceTimeout, h]

end

/-- Settles O33: a flit that arrives is taken or discarded (`State.flitArrive_good`, `State.flitArrive_bad`); a slot of an ACTIVE link is
that of R192 (`execFlitSlot_active`), with one lemma for each thing that it can send, each under the absence of those before it. -/
theorem flitCommandsComplete : Obligations.FlitCommandsComplete :=
  ⟨fun _ _ _ _ _ hu hup hg hk => execDataFlitReceived_takes hu hup hg hk,
    fun _ _ _ _ _ hu hup hg hk => execControlFlitReceived_takes hu hup hg hk,
    fun _ _ _ _ _ _ hu hup hbad => flitReceived_discards hu hup hbad,
    fun _ _ _ _ hs h6 hr => (execFlitSlot_active hs h6).trans (congrArg _ (State.slotActive_replays hr)),
    fun _ _ _ _ h ht => execFlitSlot_times h ht,
    fun _ _ h6 ht => execFlitSlot_exchange h6 ht,
    fun _ _ hs h6 hr ht hc => (execFlitSlot_active hs h6).trans (congrArg _ (State.slotActive_answers hr ht hc)),
    fun _ _ hs h6 hr ht hc hdue => (execFlitSlot_active hs h6).trans (congrArg _ (State.slotActive_reports hr ht hc hdue)),
    fun _ _ _ _ _ hs h6 hr ht hc hdue hack hu hv =>
      (execFlitSlot_active hs h6).trans (congrArg _ (State.slotActive_sends hr ht hc hdue hack hu hv)),
    fun _ _ h => execAckReportDue_owed h,
    fun _ _ h => execNakRepeatTimer_gap h,
    fun _ _ hs => execReplayTimerExpiry_replays hs,
    fun _ _ => execReplayTimerExpiry_tie,
    fun _ _ h => execRetrainAdvanceTimeout_downs h⟩

end Sys2Proof.Machine
end

section
/-! PROOFS. Handshakes of a link: requests, their answers, the pause and its end, and quads that fail and come back (R203 to R209). -/
namespace Sys2Proof.Machine

section
variable {s t : State} {d k m q w : Nat} {b : List Byte} {ks : List Nat} {r : LinkReq} {p : Pause}

/-- A request that meets none of this end's is answered, and the pause begins (R203). -/
theorem execLinkReqReceived_answers (hg : osGood b = true) (ht : u8 b 0 = 0xA2) (hs : (s.link d).st = .active)
    (hr : (s.link d).req = none) : execLinkReqReceived d b s = .next (s.answerReq d b) := by
  simp [execLinkReqReceived, State.reqRx, hg, ht, hs, hr]

/-- Of two requests that cross the end with the lower CHIP_ID leads; the other end answers, and its own need remains (R206). -/
theorem execLinkReqReceived_crosses (hg : osGood b = true) (ht : u8 b 0 = 0xA2) (hs : (s.link d).st = .active)
    (hr : (s.link d).req = some r) (hev : t = s.portEvent 0x200D d []) :
    execLinkReqReceived d b s = .next (if ownId < u64 b 4 then t
      else State.answerReq (t.modLink d fun l =>
        { l with req := none, need := if l.need.contains r.kind then l.need else l.need ++ [r.kind] }) d b) := by
  simp only [execLinkReqReceived, State.reqRx, hg, ht, hs, hr, hev]
  rfl

/-- A request resent to an end that has paused is acknowledged again, with what that end first sent (R203). -/
theorem execLinkReqReceived_repeats (hg : osGood b = true) (ht : u8 b 0 = 0xA2) (hs : (s.link d).st = .paused)
    (hp : (s.link d).pause = some p) :
    execLinkReqReceived d b s = .next (if p.lead then s else s.sendOs d (s.link d).osQuad
      (osBytes 0xA3 (u8 b 1 % 4 + 16 * p.ownDesired) p.ownSustain (u8 b 3) 0)) := by
  simp [execLinkReqReceived, State.reqRx, hg, ht, hs, hp]

/-- The acknowledgement of this end's request begins the pause that it leads (R204 step 1). -/
theorem execLinkAckReceived_pauses (hg : osGood b = true) (ht : u8 b 0 = 0xA3) (hr : (s.link d).req = some r) (hn : u8 b 3 = r.num) :
    execLinkAckReceived d b s = .next (s.beginPause d r.kind true r.desired r.sustain (u8 b 1 / 16) (u8 b 2)) := by
  simp [execLinkAckReceived, State.ackRx, hg, ht, hr, hn]

/-- A resend is the request first sent (R203). -/
theorem execLinkReqResendTimer_resends (hr : (s.link d).req = some r) : execLinkReqResendTimer d s =
    .next (s.sendOs d (s.link d).osQuad (osBytes 0xA2 (r.kind + 16 * r.desired) r.sustain r.num 0)) := by
  simp only [execLinkReqResendTimer, State.sendReq, hr]

/-- A request that nobody acknowledges takes the link down (R203, R209). -/
theorem execLinkReqTimeout_downs (hr : (s.link d).req = some r) : execLinkReqTimeout d s = .next (s.linkDown d) := by
  simp [execLinkReqTimeout, hr]

/-- The peer's PAUSE fixes the new active set, or takes the link down when none is left (R190, R204 step 2). -/
theorem execPauseReceived_fixes (hp : (s.link d).pause = some p) (hr : p.recv = false)
    (hw : w = agree p.ownSustain p.sustain p.ownDesired p.desired) :
    execPauseReceived d s = .next (if w = 0 then s.linkDown d
      else s.setLink d { s.link d with pause := some { p with recv := true, newMask := w } }) := by
  simp [execPauseReceived, State.pauseRx, State.fixSet, hp, hr, ← hw]

/-- A PAUSE that overtakes the acknowledgement it follows is kept (R203). -/
theorem execPauseReceived_keeps (hp : (s.link d).pause = none) (hs : (s.link d).st = .active) (hr : (s.link d).req = some r) :
    execPauseReceived d s = .next (s.setLink d { s.link d with early := true }) := by
  simp [execPauseReceived, State.pauseRx, hp, hs, hr]

/-- With the new quads ready RESUME goes out on them (R204 step 4). -/
theorem execQuadsReady_resumes (hp : (s.link d).pause = some p) (hr : p.recv = true) (hq : p.ready = false) :
    execQuadsReady d s = .next (State.endPause (State.sendOsAll
      (s.setLink d { s.link d with active := p.newMask, pause := some { p with ready := true } }) d p.newMask
      (osBytes 0xA5 (p.kind + 16 * p.ownDesired) p.ownSustain 0 (if isGleed d then 0xFFF else (s.link d).last))) d) := by
  simp [execQuadsReady, hp, hr, hq]

/-- The peer's RESUME ends the pause once both ends are ready (R204 step 5). -/
theorem execResumeReceived_ends (hp : (s.link d).pause = some p) (hg : osGood b = true) (ht : u8 b 0 = 0xA5) :
    execResumeReceived d b s =
      .next (State.endPause (s.setLink d { s.link d with pause := some { p with resumed := some (u16 b 0xC % 4096) } }) d) := by
  simp [execResumeReceived, State.resumeRx, hp, hg, ht]

/-- A pause past its limit takes the link down (R209). -/
theorem execPauseLimitExpiry_downs (hp : (s.link d).pause = some p) : execPauseLimitExpiry d s = .next (s.linkDown d) := by
  simp [execPauseLimitExpiry, hp]

/-- So does silence (R209). -/
theorem execLinkSilenceExpiry_downs (h : s.flitUp d = true) : execLinkSilenceExpiry d s = .next (s.linkDown d) := by
  rw [execLinkSilenceExpiry, if_pos h]

/-- Quads found faulty together ask for one NARROW, or take the link down with the last active quad (R207). -/
theorem execQuadFault_narrows (h : s.flitUp d = true) (hks : ks = onesOf 8 (Nat.land (s.link d).sustain q)) (hne : ks ≠ [])
    (hm : m = (ks.map fun k => 2 ^ k).sum)
    (ht : t = State.each (s.setLink d { s.link d with sustain := (s.link d).sustain - m, failed := Nat.lor (s.link d).failed m }) ks
      (fun u k => u.portEvent 0x2005 d [k])) :
    execQuadFault d q s =
      .next (if Nat.land (s.link d).active ((s.link d).sustain - m) = 0 then t.linkDown d else t.startReq d 1) := by
  have hflow : ((s.link d).st == .active || (s.link d).st == .paused) = true := h
  subst hks hm ht
  simp [execQuadFault, State.quadFault, hne, hflow, -Nat.land_eq, -Nat.lor_eq]

/-- Failed quads train while the link runs on the others, or is DOWN without a fence (R208). -/
theorem execFailedQuadRetrain_tries (h : (s.link d).st = .active ∨ (s.link d).st = .down ∧ s.fenced d = false) :
    execFailedQuadRetrain d s = .next (s.setLink d { s.link d with trying := Nat.land (s.link d).failed (s.link d).allotMask }) := by
  rcases h with hs | ⟨hs, hf⟩
  · simp [execFailedQuadRetrain, hs]
  · simp [execFailedQuadRetrain, hs, hf]

/-- One that passes its pattern returns (R208). -/
theorem execQuadPrbsPassed_returns (h : bitAt (s.link d).trying k = true) : execQuadPrbsPassed d k s = .next (s.quadBack d k) := by
  rw [execQuadPrbsPassed, if_pos h]

end

/-- Settles O34: one lemma for each command and course, by the request or the pause that the link has. -/
theorem handshakesComplete : Obligations.HandshakesComplete :=
  ⟨fun _ _ _ hg ht hs hr => execLinkReqReceived_answers hg ht hs hr,
    fun _ _ _ _ _ hg ht hs hr hev => execLinkReqReceived_crosses hg ht hs hr hev,
    fun _ _ _ _ hg ht hs hp => execLinkReqReceived_repeats hg ht hs hp,
    fun _ _ _ _ hg ht hr hn => execLinkAckReceived_pauses hg ht hr hn,
    fun _ _ _ hr => ⟨execLinkReqResendTimer_resends hr, execLinkReqTimeout_downs hr⟩,
    fun _ _ _ _ hp hr hw => execPauseReceived_fixes hp hr hw,
    fun _ _ _ hp hs hr => execPauseReceived_keeps hp hs hr,
    fun _ _ _ hp hr hq => execQuadsReady_resumes hp hr hq,
    fun _ _ _ _ hp hg ht => execResumeReceived_ends hp hg ht,
    fun _ _ _ hp => execPauseLimitExpiry_downs hp,
    fun _ _ h => execLinkSilenceExpiry_downs h,
    fun _ _ _ _ _ _ h hks hne hm ht => execQuadFault_narrows h hks hne hm ht,
    fun _ _ h => execFailedQuadRetrain_tries h,
    fun _ _ _ h => execQuadPrbsPassed_returns h⟩

end Sys2Proof.Machine
end

section
/-! PROOFS. Frames that enter the fabric, line frames of a campus port, and the link packets (R227, R243, R390). -/
namespace Sys2Proof.Machine

section
variable {s t u : State} {k d v c q : Nat} {b : List Byte} {e : Bool} {n : Align} {x : Pkt} {f : Nat × List Byte × Nat}

/-- The oldest whole frame of a VC is routed and waits no longer (R227, R229). -/
theorem execFrameIngress_routes (hf : (s.link d).frames.find? (fun g => g.1 == v) = some f) : execFrameIngress d v s =
    .next (State.ingress (s.modLink d fun l => { l with frames := l.frames.erase f }) d v f.2.2 f.2.1) := by
  rw [execFrameIngress, hf]

section
variable (hd : d = 6 ∨ d = 7) (hc : c < 5)
    (hn : n = Align.next (tget {} (s.gleed d).aligns c) (lineGood b && !e))
    (ht : t = s.modGleed d (fun g => { g with aligns := tset {} g.aligns c n }))
    (hu : u = (if e then t.bump (adrFecUncorrected (d - 4)) else t)) (hq : u.rxLaneOf d c = some q)
include hd hc hn ht hu hq

/-- A line frame on a carrier in use for quad `q` moves the carrier's alignment to `n` and is counted when its oFEC fails; `n` and the
alignment before decide what becomes of the quad (R243, R188). -/
theorem execLineFrameReceived_aligns :
    execLineFrameReceived d c b s e = .next (if n.locked then u.lineRx d q (if lineGood b && !e then b else [])
      else if (tget {} (s.gleed d).aligns c).locked then u.quadFault d (2 ^ q) else u) := by
  have hcampus : (!(d == 6 || d == 7) || decide (c ≥ 5)) = false := by
    rcases hd with rfl | rfl <;> simp [hc]
  rw [execLineFrameReceived, hcampus]
  simp only [← hn, ← ht, ← hu, hq]
  rfl

/-- The frame is unpacked on an aligned carrier, and stands for lost slots when it failed (R243). -/
theorem execLineFrameReceived_unpacks (hl : n.locked = true) :
    execLineFrameReceived d c b s e = .next (u.lineRx d q (if lineGood b && !e then b else [])) := by
  rw [execLineFrameReceived_aligns hd hc hn ht hu hq, if_pos hl]

/-- The frame that loses the alignment makes its quad faulty (R243, R207). -/
theorem execLineFrameReceived_faults (hl : n.locked = false) (ha : (tget {} (s.gleed d).aligns c).locked = true) :
    execLineFrameReceived d c b s e = .next (u.quadFault d (2 ^ q)) := by
  rw [execLineFrameReceived_aligns hd hc hn ht hu hq, hl, if_neg Bool.false_ne_true, if_pos ha]

end

/-- LINK_CONFIG writes the VC weights of its port (R390). -/
theorem execLinkConfig_writes (h : Starts s 0x60 k x t) : execLinkConfig k s =
    .next (State.done (t.setReg (adrLnkVcWeight (u8 x.bytes 0x10)) (BitVec.ofNat 32 (u32 x.bytes 0x14))) k []) := runOp_starts _ h

/-- ADDRESS_ASSIGN of a newer generation makes the chip the seed and answers the address taken (R221, R390). -/
theorem execAddressAssign_takes (h : Starts s 0x61 k x t) (hg : newer (u16 x.bytes 0x14) (t.rf adrAntGen 15 0) = true)
    (hu : u = t.takeAddress (u16 x.bytes 0x14) (u32 x.bytes 0x10) ownId true 8) :
    execAddressAssign k s = .next (u.done k (leBytes 4 (u.reg adrAntAddr).toNat)) := by
  rw [execAddressAssign, runOp_starts _ h]
  simp [hg, hu]

/-- Another generation is a bad parameter (R390). -/
theorem execAddressAssign_refuses (h : Starts s 0x61 k x t) (hg : newer (u16 x.bytes 0x14) (t.rf adrAntGen 15 0) = false) :
    execAddressAssign k s = .next (t.badParam k 0x14) := by
  rw [execAddressAssign, runOp_starts _ h]
  simp [hg]

/-- LINK_MEASURE starts the measurement of a link that is ACTIVE (R390, R281). -/
theorem execLinkMeasure_measures (h : Starts s 0x62 k x t) (hs : (t.link (u8 x.bytes 0x10)).st = .active) :
    execLinkMeasure k s = .next (t.startMeasure (u8 x.bytes 0x10) [k]) := by
  rw [execLinkMeasure, runOp_starts _ h]
  simp [hs]

/-- It fails on any other link (R390). -/
theorem execLinkMeasure_fails (h : Starts s 0x62 k x t) (hs : (t.link (u8 x.bytes 0x10)).st ≠ .active) :
    execLinkMeasure k s = .next (t.failPkt k 0x30) := by
  rw [execLinkMeasure, runOp_starts _ h]
  simp [hs]

end

/-- Settles O35: a line frame first moves its carrier's alignment (`execLineFrameReceived_aligns`), and a link packet acts on the state in
which it has started (`runOp_starts`). -/
theorem fabricCommandsComplete : Obligations.FabricCommandsComplete :=
  ⟨fun _ _ _ _ hf => execFrameIngress_routes hf,
    fun _ _ _ _ _ _ _ _ _ hd hc hn ht hu hq hl => execLineFrameReceived_unpacks hd hc hn ht hu hq hl,
    fun _ _ _ _ _ _ _ _ _ hd hc hn ht hu hq hl ha => execLineFrameReceived_faults hd hc hn ht hu hq hl ha,
    fun _ _ _ _ h => execLinkConfig_writes h,
    fun _ _ _ _ _ h hg hu => execAddressAssign_takes h hg hu,
    fun _ _ _ _ h hg => execAddressAssign_refuses h hg,
    fun _ _ _ _ h hs => execLinkMeasure_measures h hs,
    fun _ _ _ _ h hs => execLinkMeasure_fails h hs⟩

end Sys2Proof.Machine
end

section
/-! PROOFS. Antennation: HELLO frames and ASSIGN frames, and a neighbour that falls silent (R217 to R222). -/
namespace Sys2Proof.Machine

section
variable {s : State} {d k n : Nat} {b : List Byte} {x : Deliv}

/-- An antennation frame of the kind asked for leaves the chip's store, frees its buffer space, and acts (R217). -/
theorem State.takeAnt_takes (f : State → State)
    (hx : s.delivered.find? (fun y => y.part == 8 && y.port == d && y.bytes == b) = some x) (hk : u8 b 32 = k) :
    s.takeAnt d b k f = f (State.freeFlits { s with delivered := s.delivered.erase x } d x.vc x.flits) := by
  simp [State.takeAnt, hx, hk]

/-- A HELLO leaves while flits flow, and its port's sequence number advances (R218). -/
theorem execHelloSendTimer_sends (h : s.flitUp d = true) : execHelloSendTimer d s =
    .next (State.modLink (s.sendAnt d (s.helloBody d)) d fun l => { l with hello := (l.hello + 1) % 256 }) := by
  rw [execHelloSendTimer, if_pos h]

/-- A HELLO in the store acts (R218 to R220). -/
theorem execHelloReceived_takes (hx : s.delivered.find? (fun y => y.part == 8 && y.port == d && y.bytes == b) = some x)
    (hk : u8 b 32 = 1) : execHelloReceived d b s = .next (State.hello
      (State.freeFlits { s with delivered := s.delivered.erase x } d x.vc x.flits) d (slice b 32 48)) := by
  rw [execHelloReceived, State.takeAnt_takes _ hx hk]

/-- So does an ASSIGN (R221, R222). -/
theorem execAssignReceived_takes (hx : s.delivered.find? (fun y => y.part == 8 && y.port == d && y.bytes == b) = some x)
    (hk : u8 b 32 = 2) : execAssignReceived d b s = .next (State.assign
      (State.freeFlits { s with delivered := s.delivered.erase x } d x.vc x.flits) d (slice b 32 48)) := by
  rw [execAssignReceived, State.takeAnt_takes _ hx hk]

/-- A neighbour that was found as a chip or as a switch port is lost (R218). -/
theorem execNeighbourLostTimer_loses (hs : (s.link d).st = .active) (hn : n = s.rf (adrAntPortState d) 1 0) (h12 : n = 1 ∨ n = 2) :
    execNeighbourLostTimer d s = .next (State.portEvent (s.setRf (adrAntPortState d) 1 0 3) 0x2102 d []) := by
  have hfound : (s.rf (adrAntPortState d) 1 0 == 1 || s.rf (adrAntPortState d) 1 0 == 2) = true := by simpa [hn] using h12
  simp [execNeighbourLostTimer, State.loseNeighbour, hs, hfound]

end

/-- Settles O43: both kinds of frame are taken from the store alike (`State.takeAnt_takes`). -/
theorem antennationCompletes : Obligations.AntennationCompletes :=
  ⟨fun _ _ h => execHelloSendTimer_sends h,
    fun _ _ _ _ hx hk => execHelloReceived_takes hx hk,
    fun _ _ _ _ hx hk => execAssignReceived_takes hx hk,
    fun _ _ _ hs hn h12 => execNeighbourLostTimer_loses hs hn h12⟩

end Sys2Proof.Machine
end

section
/-! PROOFS. Channel swaps of a Gleed port, and the calibration of its channels in use (R249 to R252). -/
namespace Sys2Proof.Machine

section
variable {d : Nat}

/-! Ports 4 and 5 are rack ports, ports 6 and 7 campus ports. -/

theorem isGld_of_range (h4 : 4 ≤ d) (h8 : d < 8) : isGld d = true := by simp [isGld, h4, h8]

theorem isCampus_of_lt (h6 : d < 6) : isCampus d = false := by simp [isCampus, h6]

theorem isCampus_of_le (h6 : 6 ≤ d) : isCampus d = true := by simp [isCampus, h6]

end

section
variable {s t : State} {d c l n : Nat} {b : List Byte} {pass : Bool} {m : ChanCal} {w : Swap}

/-! What a swap ordered set does at a Gleed port. -/

/-- A request that meets no swap of this end's is taken; a rack port's two directions do not meet (R249, R250 step 2). -/
theorem State.swapReq_takes (hg : swapGood d 0xA6 b = true) (hup : s.flitUp d = true) (hfree : d < 6 ∨ (s.gleed d).tx = none) :
    s.swapReq d b = s.setGleed d { s.gleed d with rx := some (swapOf b) } := by
  have hown : (if isCampus d then (s.gleed d).tx else none) = none := by
    rcases hfree with h6 | htx
    · simp [isCampus_of_lt h6]
    · simp [htx]
  simp [swapReq, hg, hup, hown]

/-- Of two requests that cross on a campus port this end's gives way, and is made again later, unless the peer's CHIP_ID is the
higher (R249). -/
theorem State.swapReq_givesWay (h6 : 6 ≤ d) (hg : swapGood d 0xA6 b = true) (hup : s.flitUp d = true)
    (htx : (s.gleed d).tx = some w) (hid : u64 b 4 ≤ ownId) (hm : w.mode ≠ 1) :
    s.swapReq d b = s.setGleed d { s.gleed d with tx := none, rx := some (swapOf b), again := some w.lane } := by
  have hlead : ¬ ownId < u64 b 4 := not_lt.mpr hid
  simp [swapReq, hg, hup, isCampus_of_le h6, htx, hlead, hm]

/-- The acknowledgement of this end's swap ends it here (R250 step 4). -/
theorem State.swapAck_ends (htx : (s.gleed d).tx = some w) (hg : swapGood d 0xA7 b = true) (hw : sameSwap (swapOf b) w = true) :
    s.swapAck d b = s.swapDone d w := by
  simp [swapAck, htx, hg, hw]

/-- The end of the peer's swap on a rack port leaves this end's outward lanes as they are (R250, R251). -/
theorem State.swapDoneRx_ends (h6 : d < 6) (hrx : (s.gleed d).rx = some w) (hg : swapGood d 0xA8 b = true)
    (hw : sameSwap (swapOf b) w = true) (ht : t = s.modGleed d (fun g => { g with rx := none })) :
    s.swapDoneRx d b = (t.tryQuad d w).swapNext d := by
  simp [swapDoneRx, hrx, hg, hw, isCampus_of_lt h6, ht]

section
variable (h4 : 4 ≤ d) (h8 : d < 8)
include h4 h8

/-! The commands of swaps. -/

theorem execSwapReqReceived_acts : execSwapReqReceived d b s = .next (s.swapReq d b) := by
  rw [execSwapReqReceived, if_pos (isGld_of_range h4 h8)]

theorem execSwapAckReceived_acts : execSwapAckReceived d b s = .next (s.swapAck d b) := by
  rw [execSwapAckReceived, if_pos (isGld_of_range h4 h8)]

theorem execSwapDoneReceived_acts : execSwapDoneReceived d b s = .next (s.swapDoneRx d b) := by
  rw [execSwapDoneReceived, if_pos (isGld_of_range h4 h8)]

/-- With TO verified the receiver takes its input from there, and says so (R250 step 3). -/
theorem execSwapToVerified_acks (hrx : (s.gleed d).rx = some w) (hto : s.rxChan d w.lane ≠ w.dest) :
    execSwapToVerified d true s = .next (State.sendSwap (s.setRx d w.lane w.dest) d 0xA7 w) := by
  simp [execSwapToVerified, isGld_of_range h4 h8, hrx, hto]

/-- With TO not verified the receiver abandons the swap (R250 step 3). -/
theorem execSwapToVerified_abandons (hrx : (s.gleed d).rx = some w) : execSwapToVerified d false s =
    .next (State.modGleed (s.dropSwap d (some w)) d fun g => { g with rx := none }) := by
  simp [execSwapToVerified, isGld_of_range h4 h8, hrx]

/-- A swap past its limit is abandoned by the end that leads it (R250). -/
theorem execSwapTimeLimit_abandons (htx : (s.gleed d).tx = some w) (hm : w.mode ≠ 1) : execSwapTimeLimit d s =
    .next (State.modGleed (s.dropSwap d (some w)) d fun g => { g with tx := none }) := by
  simp [execSwapTimeLimit, isGld_of_range h4 h8, htx, hm]

/-! The visits of channels (R252). -/

section
variable (hcal : (s.gleed d).cal = none) (hfree : s.swapFree d = true) (hc : s.nextChan d = some c)
include hcal hfree hc

/-- A channel that carries a lane is visited once the lane has moved to a spare. -/
theorem execChannelCalVisit_swaps (hl : s.laneOf d c = some l) (hn : s.bestSpare d = some n) : execChannelCalVisit d s =
    .next (State.startSwap (s.modGleed d fun g => { g with visited := c + 1 }) d l n 0 true) := by
  simp [execChannelCalVisit, isGld_of_range h4 h8, hcal, hfree, hc, hl, hn]

/-- One that carries none is calibrated at once. -/
theorem execChannelCalVisit_calibrates (hl : s.laneOf d c = none) : execChannelCalVisit d s =
    .next (State.modGleed (s.setChan d c 2) d fun g => { g with cal := some c, visited := c + 1 }) := by
  simp [execChannelCalVisit, isGld_of_range h4 h8, hcal, hfree, hc, hl]

end

/-- A channel whose calibration passed is a spare, and suspect otherwise (R250, R252). -/
theorem execChannelCalDone_ends (hcal : (s.gleed d).cal = some c) (ht : t = (if pass then s.chanCal d c m else s)) :
    execChannelCalDone d pass s m =
      .next (State.swapNext (State.modGleed (t.setChan d c (if pass then 1 else 3)) d fun g => { g with cal := none }) d) := by
  simp only [execChannelCalDone, isGld_of_range h4 h8, if_true, hcal, ht]

end

end

/-- Settles O36: a command of a received ordered set acts at a Gleed port (the `…_acts` lemmas) as the swap that it meets there decides
(`State.swapReq_takes`, `State.swapReq_givesWay`, `State.swapAck_ends`, `State.swapDoneRx_ends`); one lemma for each other course. -/
theorem swapsComplete : Obligations.SwapsComplete := by
  refine ⟨?request, ?crossing, fun _ _ _ h4 h8 hrx hto => execSwapToVerified_acks h4 h8 hrx hto,
    fun _ _ _ h4 h8 hrx => execSwapToVerified_abandons h4 h8 hrx, ?ack, ?done,
    fun _ _ _ h4 h8 htx hm => execSwapTimeLimit_abandons h4 h8 htx hm,
    fun _ _ _ _ _ h4 h8 hcal hfree hc hl hn => execChannelCalVisit_swaps h4 h8 hcal hfree hc hl hn,
    fun _ _ _ h4 h8 hcal hfree hc hl => execChannelCalVisit_calibrates h4 h8 hcal hfree hc hl,
    fun _ _ _ _ _ _ h4 h8 hcal ht => execChannelCalDone_ends h4 h8 hcal ht⟩
  case request =>
    intro s d b h4 h8 hg hup hfree
    exact (execSwapReqReceived_acts h4 h8).trans (congrArg _ (State.swapReq_takes hg hup hfree))
  case crossing =>
    intro s d b w h6 h8 hg hup htx hid hm
    exact (execSwapReqReceived_acts (by omega) h8).trans (congrArg _ (State.swapReq_givesWay h6 hg hup htx hid hm))
  case ack =>
    intro s d b w h4 h8 htx hg hw
    exact (execSwapAckReceived_acts h4 h8).trans (congrArg _ (State.swapAck_ends htx hg hw))
  case done =>
    intro s d b w t h4 h6 hrx hg hw ht
    exact (execSwapDoneReceived_acts h4 (by omega)).trans (congrArg _ (State.swapDoneRx_ends h6 hrx hg hw ht))

end Sys2Proof.Machine
end

section
/-! PROOFS. Lasers, rings and light of a Gleed port: what fails, what reads low, and light that is lost and comes back (R245, R247, R257,
R258, R261). -/
namespace Sys2Proof.Machine

section
variable {s t : State} {d c e i n r w stage : Nat}

/-! Lasers (R245). -/

section
variable (hf : s.rf (adrGldLaser i) 2 0 ≠ 5)
include hf

/-- A laser fails once, with what its monitors read. -/
theorem execLaserFailed_fails (hi : i < 50) : execLaserFailed i s n w = .next (State.laserFail (s.laserReads i n w) i) := by
  simp [execLaserFailed, hi, hf]

/-- A worn laser is reported with what its monitors read, and its channel is the last resort as a spare. -/
theorem execLaserWorn_marks (hi : i < 46) (hp : laserPort i = (d, c))
    (ht : t = State.laserReads (s.setRf (adrGldLaser i) 2 0 4) i n w) : execLaserWorn i n s w =
      .next (State.modGleed (t.eventD 0x2204 i ((t.portOwner d).getD 0xFF) []) d fun g => { g with worn := insNat g.worn c }) := by
  have hlaser : i < 50 := by omega
  simp [execLaserWorn, hlaser, hf, hi, hp, ht]

end

/-! Rings of a rack port (R247). -/

/-- A ring that loses its lock makes its channel suspect, inward or outward as the ring is (log entry 49). -/
theorem execRingLockLost_suspects (hd : d = 4 ∨ d = 5) (hc : c < 18)
    (ht : t = State.portEvent (s.setRf (adrGldChanHealth (d - 4) c) 15 8 e) 0x2205 d [c]) (rx : Bool) :
    execRingLockLost d c rx e s = .next (if rx then t.rxFail d c 3 else t.chanFail d c 3) := by
  simp [execRingLockLost, hd, hc, ht]

/-! Light monitors (R257): a monitor that reads low reports its stage and channel, then acts by the stage. -/

section
variable (r) (h4 : 4 ≤ d) (h8 : d < 8) (hc : c < gldChans (d - 4))
include h4 h8 hc

/-- A command for a stage that the port has acts; stages 1 and 2 are those of a campus splitter. -/
theorem lightStage_watched (h5 : stage ≤ 5) (hsplit : 6 ≤ d ∨ stage ≠ 1 ∧ stage ≠ 2) :
    ¬ (!isGld d || decide (c ≥ gldChans (d - 4)) || decide (stage > 5) || ((stage == 1 || stage == 2) && !isCampus d)) = true := by
  have hbranch : ((stage == 1 || stage == 2) && !isCampus d) = false := by
    rcases hsplit with h6 | ⟨h1, h2⟩
    · simp [isCampus_of_le h6]
    · simp [h1, h2]
  simp [isGld_of_range h4 h8, hbranch, hc, h5]

/-- A laser that reads low has failed, unless it is known to have. -/
theorem execLightMonitorLow_laser (ht : t = s.portEvent 0x2206 d [0, c]) (hi : i = gldLaser0 (d - 4) + c) :
    execLightMonitorLow d 0 c s r =
      .next (if t.rf (adrGldLaser i) 2 0 = 5 then t else State.laserFail (t.setRf (adrGldLaser i) 31 16 r) i) := by
  rw [execLightMonitorLow, if_neg (lightStage_watched h4 h8 hc (by decide) (.inr (by decide)))]
  simp only [beq_iff_eq, ht, hi]

/-- A modulator, or the transmit branch of a campus splitter, fails its channel. -/
theorem execLightMonitorLow_outward (hst : stage = 3 ∨ stage = 1 ∧ 6 ≤ d) (ht : t = s.portEvent 0x2206 d [stage, c]) :
    execLightMonitorLow d stage c s r = .next (t.chanFail d c 4) := by
  rw [execLightMonitorLow, if_neg (lightStage_watched h4 h8 hc (by omega) (by omega)), ht]
  rcases hst with rfl | ⟨rfl, -⟩ <;> rfl

/-- The local-oscillator branch fails the inward channel. -/
theorem execLightMonitorLow_oscillator (h6 : 6 ≤ d) (ht : t = s.portEvent 0x2206 d [2, c]) :
    execLightMonitorLow d 2 c s r = .next (t.rxFail d c 4) := by
  rw [execLightMonitorLow, if_neg (lightStage_watched h4 h8 hc (by decide) (.inl h6)), ht]
  rfl

/-- One receiver that reads low keeps its reading in the channel's health. -/
theorem execLightMonitorLow_receiver (ht : t = s.portEvent 0x2206 d [4, c]) : execLightMonitorLow d 4 c s r =
    .next (State.rxLow (t.setRf (adrGldChanHealth (d - 4) c) 31 16 r) d c) := by
  rw [execLightMonitorLow, if_neg (lightStage_watched h4 h8 hc (by decide) (.inr (by decide))), ht]
  rfl

/-- With every receiver low the link goes down. -/
theorem execLightMonitorLow_receivers (ht : t = s.portEvent 0x2206 d [5, c]) :
    execLightMonitorLow d 5 c s r = .next (t.linkDown d) := by
  rw [execLightMonitorLow, if_neg (lightStage_watched h4 h8 hc (by decide) (.inr (by decide))), ht]
  rfl

end

/-! Light that is lost, and light that comes back (R258). -/

section
variable (h4 : 4 ≤ d) (h8 : d < 8)
include h4 h8

/-- A port without signal takes its link down and limits its power. -/
theorem execSignalAbsent_limits (ha : (s.gleed d).apr = false) : execSignalAbsent d s =
    .next (State.portEvent (State.modGleed (s.linkDown d) d fun g => { g with apr := true }) 0x220A d []) := by
  simp [execSignalAbsent, isGld_of_range h4 h8, ha]

/-- It probes with full power while its power is limited. -/
theorem execAprProbeTimer_probes (ha : (s.gleed d).apr = true) : execAprProbeTimer d s = .next (s.emit (.probe d)) := by
  simp [execAprProbeTimer, isGld_of_range h4 h8, ha]

/-- The signal's return ends the limit, and a port that may train does. -/
theorem execSignalRestored_trains (ha : (s.gleed d).apr = true) (ht : t = s.modGleed d (fun g => { g with apr := false })) :
    execSignalRestored d s = .next (if t.mayTrain d then t.startTraining d else t) := by
  simp [execSignalRestored, isGld_of_range h4 h8, ha, ht]

end

/-- The laser section's range is watched from boot on, and belongs to no laser and no partition (R261, log entry 49). -/
theorem execLaserSectionOutOfRange_reports (hb : s.boot ≠ .off) :
    execLaserSectionOutOfRange s = .next (s.event 0x2208 0xFF 0xFF) := by
  simp [execLaserSectionOutOfRange, hb]

end

/-- Settles O37: one lemma for each command and course; a monitor of a stage that the port has (`lightStage_watched`) acts by that
stage. -/
theorem lightCommandsComplete : Obligations.LightCommandsComplete :=
  ⟨fun _ _ _ _ hi hf => execLaserFailed_fails hf hi,
    fun _ _ _ _ _ _ _ hi hf hp ht => execLaserWorn_marks hf hi hp ht,
    fun _ _ _ _ hd hc => execRingLockLost_suspects hd hc rfl false,
    fun _ _ _ _ hd hc => execRingLockLost_suspects hd hc rfl true,
    fun _ _ _ r _ _ h4 h8 hc ht hi => execLightMonitorLow_laser r h4 h8 hc ht hi,
    fun _ _ _ _ r _ h4 h8 hc hst ht => execLightMonitorLow_outward r h4 h8 hc hst ht,
    fun _ _ _ r _ h6 h8 hc ht => execLightMonitorLow_oscillator r (by omega) h8 hc h6 ht,
    fun _ _ _ r _ h4 h8 hc ht => execLightMonitorLow_receiver r h4 h8 hc ht,
    fun _ _ _ r _ h4 h8 hc ht => execLightMonitorLow_receivers r h4 h8 hc ht,
    fun _ _ h4 h8 ha => execSignalAbsent_limits h4 h8 ha,
    fun _ _ h4 h8 ha => execAprProbeTimer_probes h4 h8 ha,
    fun _ _ _ h4 h8 ha ht => execSignalRestored_trains h4 h8 ha ht,
    fun _ hb => execLaserSectionOutOfRange_reports hb⟩

end Sys2Proof.Machine
end

section
/-! PROOFS. The commands of the clock change nothing beyond it: TCLK's return, RTSYNC, the rack tick and the ACLK PLL (R267, R271 to R275,
R278). -/
namespace Sys2Proof.Machine

section
variable {s t u : State} {bl : List Nat} {a : Nat}

/-! What stays the same outside some blocks of registers. -/

theorem SameOutside.refl (s : State) : SameOutside bl s s := ⟨fun _ => rfl, fun _ _ _ => rfl⟩

theorem SameOutside.trans (h : SameOutside bl s t) (k : SameOutside bl t u) : SameOutside bl s u := by
  obtain ⟨hbyte, hreg⟩ := h
  obtain ⟨kbyte, kreg⟩ := k
  exact ⟨fun x => (kbyte x).trans (hbyte x), fun x hx ho => (kreg x hx ho).trans (hreg x hx ho)⟩

/-- A register of the blocks, or the count of lost events, may be written. -/
theorem State.setReg_sameOutside (s : State) (w : Word) (ha : a / 0x100000 ∈ bl ∨ a = adrEvrOverflow) :
    SameOutside bl s (s.setReg a w) := by
  refine ⟨fun _ => rfl, fun x hx ho => s.setReg_reg_other a w x ?_⟩
  rintro rfl
  exact ha.elim hx ho

/-- An event joins the recorder's queue, or is counted as lost (R482). -/
theorem State.eventD_sameOutside (s : State) (code src part : Nat) (det : List Nat) :
    SameOutside bl s (s.eventD code src part det) := by
  unfold eventD
  split
  · exact s.setReg_sameOutside _ (.inr rfl)
  · exact .refl s

/-! What clock commands are made of. -/

theorem ClockOnly.refl (s : State) : ClockOnly s s := ⟨rfl, .refl s⟩

theorem ClockOnly.trans (h : ClockOnly s t) (k : ClockOnly t u) : ClockOnly s u := by
  obtain ⟨ht, hsame⟩ := h
  obtain ⟨hu, ksame⟩ := k
  rw [ht] at hu
  exact ⟨hu, hsame.trans ksame⟩

theorem ClockOnly.modClk (h : ClockOnly s t) (f : Clk → Clk) : ClockOnly s (t.modClk f) :=
  h.trans ⟨rfl, .refl t⟩

/-- The registers of CLK are those of block 15. -/
theorem ClockOnly.setReg (h : ClockOnly s t) (ha : a / 0x100000 = 15) (w : Word) : ClockOnly s (t.setReg a w) :=
  h.trans ⟨rfl, t.setReg_sameOutside w (.inl (by simp [ha]))⟩

theorem ClockOnly.setRf (h : ClockOnly s t) (ha : a / 0x100000 = 15) (hi lo v : Nat) : ClockOnly s (t.setRf a hi lo v) :=
  h.setReg ha _

theorem ClockOnly.bump (h : ClockOnly s t) (ha : a / 0x100000 = 15) : ClockOnly s (t.bump a) :=
  h.setReg ha _

theorem ClockOnly.event (h : ClockOnly s t) (code src part : Nat) : ClockOnly s (t.event code src part) := by
  obtain ⟨r, e, he⟩ := t.event_touches code src part
  exact h.trans ⟨by rw [he], t.eventD_sameOutside code src part []⟩

/-- A rack tick, with the offset that may take effect at it (R273, R278). -/
theorem ClockOnly.tick (h : ClockOnly s t) : ClockOnly s t.tick := by
  have hdisarmed := h.setRf (a := adrClkMtArm) rfl 0 0 0
  unfold State.tick
  split
  · exact h
  · dsimp only
    split
    · exact hdisarmed.event ..
    · exact (hdisarmed.modClk _).event ..

theorem ClockOnly.setRack (h : ClockOnly s t) (n : Nat) : ClockOnly s (t.setRack n) := (h.modClk _).tick

/-- The alignment of rack time by a pulse (R274). -/
theorem ClockOnly.alignTo (h : ClockOnly s t) (e : Int) : ClockOnly s (t.alignTo e) := by
  have hcounted := ((h.setRf (a := adrClkSync) rfl 19 0 (twos 20 e)).bump (a := adrRtsyncCorrected) rfl).event 0x3004 0 0xFF
  unfold State.alignTo
  split
  · exact h
  · dsimp only
    split
    · exact hcounted.modClk _
    · exact hcounted.setRack _

/-- A pulse that is not ignored aligns rack time, or loads it (R274, R275). -/
theorem ClockOnly.pulseActs (h : ClockOnly s t) (e : Int) : ClockOnly s (t.pulseActs e) := by
  have hdisarmed := h.setRf (a := adrClkRtLoadHi) rfl 31 31 0
  unfold State.pulseActs
  split
  · exact h.alignTo e
  · dsimp only
    split
    · exact (hdisarmed.event ..).alignTo e
    · exact ((hdisarmed.setRf rfl ..).event ..).setRack _

/-! The commands. -/

theorem execTclkPresent_clockOnly (h : execTclkPresent s = .next t) : ClockOnly s t := by
  have hback := (ClockOnly.refl s).modClk fun c => { c with tclk := true, running := true, holdover := false }
  cases h
  split
  · exact .refl s
  · dsimp only
    split
    · exact hback.event ..
    · exact hback

/-- A pulse is taken, or counted as ignored (R274). -/
theorem execRtsyncPulse_clockOnly (h : execRtsyncPulse s = .next t) : ClockOnly s t := by
  have hsampled := (ClockOnly.refl s).modClk fun c => { c with sampled := true, misses := 0 }
  have htaken := hsampled.modClk fun k => { k with pulse := some s.clk.cycles, ignored := none }
  cases h
  split
  · exact .refl s
  dsimp only
  split
  · split
    · exact htaken.modClk _
    · exact (htaken.modClk _).setRack _
  · split
    · exact htaken.pulseActs _
    · exact (((hsampled.modClk _).setRf rfl ..).bump rfl).event ..

theorem execRtsyncMissDecision_clockOnly (h : execRtsyncMissDecision s = .next t) : ClockOnly s t := by
  have hold := ClockOnly.refl s
  cases h
  split
  · exact hold
  split
  · exact hold.modClk _
  · exact ((hold.modClk _).bump rfl).event ..

theorem execRackTick_clockOnly (h : execRackTick s = .next t) : ClockOnly s t := by
  cases h
  split
  · exact (ClockOnly.refl s).tick
  · exact .refl s

theorem execAclkPllLockLost_clockOnly (h : execAclkPllLockLost s = .next t) : ClockOnly s t := by
  cases h
  split
  · exact .refl s
  · exact ((ClockOnly.refl s).modClk _).event ..

theorem execAclkPllLockRestored_clockOnly (h : execAclkPllLockRestored s = .next t) : ClockOnly s t := by
  cases h
  exact (ClockOnly.refl s).modClk _

end

/-- Settles O49: each command is a composition of changes of the clock's state, of registers of CLK and of events, and `ClockOnly` is
kept by each of these (`ClockOnly.modClk`, `ClockOnly.setReg`, `ClockOnly.event`) and by their composition (`ClockOnly.trans`). -/
theorem clockCommandsFrame : Obligations.ClockCommandsFrame :=
  ⟨fun _ _ h => execTclkPresent_clockOnly h, fun _ _ h => execRtsyncPulse_clockOnly h,
    fun _ _ h => execRtsyncMissDecision_clockOnly h, fun _ _ h => execRackTick_clockOnly h,
    fun _ _ h => execAclkPllLockLost_clockOnly h, fun _ _ h => execAclkPllLockRestored_clockOnly h⟩

end Sys2Proof.Machine
end

section
/-! PROOFS. What each command of the clock does (R267, R271 to R275, R278). -/
namespace Sys2Proof.Machine

section
variable {s t : State} {e : Int} {n : Nat}

/-! TCLK (R271, R272). -/

/-- With TCLK present rack time runs, and holdover has ended. -/
theorem execTclkPresent_runs (hc : s.clk.tclk = false) (hb : s.boot ≠ .off)
    (ht : t = s.modClk (fun c => { c with tclk := true, running := true, holdover := false })) :
    execTclkPresent s = .next (if s.clk.holdover then t.event 0x3002 0 0xFF else t) := by
  simp [execTclkPresent, hc, hb, ht]

/-- TCLK's loss begins holdover and takes every link down. -/
theorem execTclkLost_downs (hc : s.clk.tclk = true) (ht : t = s.modClk (fun c => { c with
      tclk := false, holdover := true, synced := false, misses := 0, pulse := none, ignored := none, sampled := false })) :
    execTclkLost s = .next (State.each ((t.bump adrTclkLosses).event 0x3001 0 0xFF) (List.range 8) State.linkDown) := by
  simp [execTclkLost, hc, ht]

/-! The RTSYNC pulse while rack time runs (R274). -/

section
variable (hr : s.clk.running = true) (hc : s.clk.tclk = true)
  (ht : t = s.modClk (fun c => { c with sampled := true, misses := 0 }))
include hr hc ht

/-- The first pulse synchronises rack time, which stands still where it is at a rack tick. -/
theorem execRtsyncPulse_first (hs : s.clk.synced = false) (h0 : s.clk.rack % tickLen = 0) : execRtsyncPulse s =
    .next (State.modClk (t.modClk fun k => { k with pulse := some s.clk.cycles, ignored := none })
      fun k => { k with synced := true }) := by
  simp [execRtsyncPulse, hr, hc, hs, h0, ← ht, sext]

section
variable (hs : s.clk.synced = true) (he : e = sext 20 (s.clk.rack % tickLen))
include hs he

/-- A pulse within 16 cycles of a rack tick acts. -/
theorem execRtsyncPulse_acts (hnear : e.natAbs ≤ 16) : execRtsyncPulse s =
    .next (State.pulseActs (t.modClk fun k => { k with pulse := some s.clk.cycles, ignored := none }) e) := by
  simp [execRtsyncPulse, hr, hc, hs, ← he, hnear, ← ht]

/-- One farther from it is ignored, unless one tick before it another was. -/
theorem execRtsyncPulse_ignores (hfar : 16 < e.natAbs) (hi : s.clk.ignored = none) : execRtsyncPulse s =
    .next ((((t.modClk fun k => { k with ignored := some s.clk.cycles }).setRf adrClkSync 19 0 (twos 20 e)).bump
      adrRtsyncIgnored).event 0x3005 0 0xFF) := by
  simp [execRtsyncPulse, hr, hc, hs, ← he, Nat.not_le.mpr hfar, hi, ← ht]

end

end

/-! Missed pulses (R274), rack ticks (R273), and the ACLK PLL (R267). -/

/-- The fourth miss in a row ends synchronism. -/
theorem execRtsyncMissDecision_misses (hs : s.clk.synced = true) (hp : s.clk.sampled = false) (hn : n = s.clk.misses + 1) :
    execRtsyncMissDecision s = .next (((s.modClk fun c =>
      { c with misses := if n ≥ 4 then 0 else n, synced := decide (n < 4) }).bump adrRtsyncMissed).event 0x3003 0 0xFF) := by
  simp [execRtsyncMissDecision, hs, hp, hn]

/-- A pulse sampled since the last decision is no miss. -/
theorem execRtsyncMissDecision_sampled (hs : s.clk.synced = true) (hp : s.clk.sampled = true) :
    execRtsyncMissDecision s = .next (s.modClk fun c => { c with sampled := false }) := by
  simp [execRtsyncMissDecision, hs, hp]

theorem execRackTick_ticks (hr : s.clk.running = true) (h2 : s.clk.rack % tickLen < 2) : execRackTick s = .next s.tick := by
  simp [execRackTick, hr, h2]

theorem execAclkPllLockLost_reports (hl : s.clk.aclkLost = false) (hb : s.boot ≠ .off) :
    execAclkPllLockLost s = .next (State.event (s.modClk fun c => { c with aclkLost := true }) 0x300A 0 0xFF) := by
  simp [execAclkPllLockLost, hl, hb]

end

/-- Settles O38: one lemma for each command and course; the return of the ACLK PLL's lock has no condition. -/
theorem clockCommandsComplete : Obligations.ClockCommandsComplete :=
  ⟨fun _ _ hc hb ht => execTclkPresent_runs hc hb ht,
    fun _ _ hc ht => execTclkLost_downs hc ht,
    fun _ _ hr hc hs h0 ht => execRtsyncPulse_first hr hc ht hs h0,
    fun _ _ _ hr hc hs he hnear ht => execRtsyncPulse_acts hr hc ht hs he hnear,
    fun _ _ _ hr hc hs he hfar hi ht => execRtsyncPulse_ignores hr hc ht hs he hfar hi,
    fun _ _ hs hp hn => execRtsyncMissDecision_misses hs hp hn,
    fun _ hs hp => execRtsyncMissDecision_sampled hs hp,
    fun _ hr h2 => execRackTick_ticks hr h2,
    fun _ hl hb => execAclkPllLockLost_reports hl hb,
    fun _ => rfl⟩

end Sys2Proof.Machine
end

section
/-! PROOFS. Measurements of the offset and the delay of a link (R280 to R283). -/
namespace Sys2Proof.Machine

section
variable {s t : State} {d g n t1 : Nat} {r o : Int} {b : List Byte} {m : Measure}

/-- A measurement starts with its first request, on a link that none runs on. -/
theorem execTimeMeasureStart_asks (hd : d < 8) (hu : s.timeUp d = true) (hm : s.measure d = none) :
    execTimeMeasureStart d s = .next (s.nextReq d { pkts := [] }) := by
  simp [execTimeMeasureStart, State.startMeasure, hd, hu, hm]

/-- The next of its 8 requests waits for its slot. -/
theorem execTimeReqSend_asks (hu : s.timeUp d = true) (hm : s.measure d = some m) (hn : m.next < 8) :
    execTimeReqSend d s = .next (s.nextReq d m) := by
  simp [execTimeReqSend, hu, hm, hn]

/-- The answer to the peer's request waits for its slot. -/
theorem execTimeReqReceived_answers (hd : d < 8) (hg : osGood b = true) (hk : u8 b 0 = 0xA9) (hu : s.timeUp d = true)
    (hn : n = s.machineTime % 2 ^ 48) : execTimeReqReceived d b s =
      .next (s.modLink d fun l => { l with timeQ := l.timeQ ++ [.rsp (u8 b 1) n] }) := by
  simp [execTimeReqReceived, State.timeReq, hd, hg, hk, hu, hn]

/-- An answer to one of its requests makes a pair: the round trip and twice the offset (R281). -/
theorem execTimeRspReceived_pairs (hd : d < 8) (hg : osGood b = true) (hk : u8 b 0 = 0xAA) (hm : s.measure d = some m)
    (h1 : tfind m.t1 (u8 b 1) = some t1)
    (hr : r = sext 48 ((s.machineTime % 2 ^ 48 + 2 ^ 48 - t1) % 2 ^ 48) - sext 48 ((u48 b 8 + 2 ^ 48 - u48 b 2) % 2 ^ 48))
    (ho : o = sext 48 ((u48 b 2 + 2 ^ 48 - t1) % 2 ^ 48) - sext 48 ((s.machineTime % 2 ^ 48 + 2 ^ 48 - u48 b 8) % 2 ^ 48)) :
    execTimeRspReceived d b s =
      .next (s.setMeasure d { m with t1 := tdel m.t1 (u8 b 1), pairs := m.pairs ++ [(u8 b 1, r, o)] }) := by
  simp only [execTimeRspReceived, State.timeRsp, if_pos hd, hm, h1, hg, hk, ← hr, ← ho]
  rfl

/-- With fewer than 4 pairs the measurement and its packets fail (R281). -/
theorem execTimeMeasureEnd_fails (hm : s.measure d = some m) (hp : m.pairs.length < 4) : execTimeMeasureEnd d s =
    .next (State.each (State.portEvent { s with measures := tdel s.measures d } 0x3008 d []) m.pkts
      fun t k => t.failEv k 0x20 0x3008) := by
  simp only [execTimeMeasureEnd, hm, if_pos hp]

/-- On a mesh port the pair with the smallest round trip gives offset and delay; an offset within the limit is not reported (R281,
R283). -/
theorem execTimeMeasureEnd_measures (hd : d < 4) (hm : s.measure d = some m) (hp : 4 ≤ m.pairs.length)
    (hbest : bestPair m.pairs = some (g, r, o))
    (ht : t = (State.setReg { s with measures := tdel s.measures d } (adrClkPortOffset d) (wd (twos 32 (5 * o)))).setReg
      (adrClkPortDelay d) (wd (twos 31 (5 * r) + 2 ^ 31)))
    (hnear : (5 * o).natAbs ≤ t.rf adrClkTimeCfg 31 16) :
    execTimeMeasureEnd d s =
      .next (t.each m.pkts fun u k => u.done k (leBytes 4 (twos 32 (5 * o)) ++ leBytes 4 (twos 31 (5 * r)))) := by
  have hmesh : isGleed d = false := by simp [isGleed, hd]
  have hwithin : ¬ t.rf adrClkTimeCfg 31 16 < (5 * o).natAbs := by omega
  simp only [execTimeMeasureEnd, hm, if_neg (Nat.not_lt.mpr hp), hbest, hmesh, ← ht, hwithin, decide_false, Bool.false_and,
    Bool.false_eq_true, if_false]

end

/-- Settles O39: one lemma for each command, and two for the end of a measurement. -/
theorem timeMeasurementsComplete : Obligations.TimeMeasurementsComplete :=
  ⟨fun _ _ hd hu hm => execTimeMeasureStart_asks hd hu hm,
    fun _ _ _ hu hm hn => execTimeReqSend_asks hu hm hn,
    fun _ _ _ _ hd hg hk hu ht => execTimeReqReceived_answers hd hg hk hu ht,
    fun _ _ _ _ _ _ _ hd hg hk hm h1 hr ho => execTimeRspReceived_pairs hd hg hk hm h1 hr ho,
    fun _ _ _ hm hp => execTimeMeasureEnd_fails hm hp,
    fun _ _ _ _ _ _ _ hd hm hp hbest ht hnear => execTimeMeasureEnd_measures hd hm hp hbest ht hnear⟩

end Sys2Proof.Machine
end

section
/-! PROOFS. Power: control periods, droops, changes of N, and the power packets (R266, R267, R392, R403, R415 to R418). -/
namespace Sys2Proof.Machine

section
variable {s t : State} {k op n vb vr vn : Nat} {x : Pkt}

/-! What a packet's start leaves alone. -/

theorem Starts.bel (h : Starts s op k x t) : t.bel = s.bel := by
  obtain ⟨q, j, g, hstart⟩ := s.startPkt_touches k x
  rw [h.2, hstart]

theorem Starts.reg (h : Starts s op k x t) (a : Nat) : t.reg a = s.reg a := by
  rw [h.2, State.startPkt_reg]

theorem Starts.rf (h : Starts s op k x t) (a hi lo : Nat) : t.rf a hi lo = s.rf a hi lo :=
  congrArg (fld · hi lo) (h.reg a)

/-- Steps stand in registers and in the state of Bellows, Quench and the clock. -/
theorem Starts.lowestAclk (h : Starts s op k x t) (p : Nat) : t.lowestAclk p = s.lowestAclk p := by
  obtain ⟨q, j, g, hstart⟩ := s.startPkt_touches k x
  rw [h.2, hstart]
  rfl

/-! The control period (R415 to R417). -/

/-- A control period acts on what it measured while the chip is powered and runs its own firmware. -/
theorem execBellowsControlPeriod_controls (po es st he fl ba sw : List Nat) (se : Nat) (hd : s.bel.st ≠ .dark) (ho : s.boot ≠ .off)
    (hr : s.boot ≠ .rom) (hc : s.boot ≠ .recovery) : execBellowsControlPeriod po es se st he fl ba sw vb vr vn s =
      .next ((s.sampleVolts vb vr vn).controlPeriod ⟨po, es, se, st, he, fl, ba⟩ sw) := by
  simp [execBellowsControlPeriod, hd, ho, hr, hc]

/-! Droops (R418) and changes of N (R267, R403). -/

theorem execVcoreDroop_droops (hd : s.bel.st ≠ .dark) (hn : s.bel.droop = false) :
    execVcoreDroop s = .next ((s.modBel fun b => { b with droop := true }).event 0x400A 0 0xFF) := by
  simp [execVcoreDroop, hd, hn]

/-- On a rise the voltage settles first. -/
theorem execVcoreSettled_raises (hn : s.bel.rise = some n) :
    execVcoreSettled s = .next (s.modBel fun b => { b with rise := none, changing := some n }) := by
  simp only [execVcoreSettled, hn]

/-- On a fall the voltage follows N. -/
theorem execAclkChangeDone_changes (hn : s.bel.changing = some n)
    (ht : t = (s.setRf adrClkAclk 5 0 n).modBel (fun b => { b with changing := none })) :
    execAclkChangeDone s = .next (State.aclkGo (if n < s.chipSteps then t.emit (.avs (t.vcoreAt n)) else t)) := by
  simp only [execAclkChangeDone, hn, decide_eq_true_eq, ← ht]

/-! The power packets (R392). -/

/-- POWER_CAP brings its cap within 400 to 1,250 W. -/
theorem execPowerCap_caps (h : Starts s 0x80 k x t) :
    execPowerCap k s = .next (t.setReg adrBelCap (wd (max 400 (min 1250 (u16 x.bytes 0x10))))) := runOp_starts _ h

/-- POWER_READ answers what stood before it started. -/
theorem execPowerRead_reads (h : Starts s 0x82 k x t) : execPowerRead k s = .next (t.done k (leBytes 2 (s.reg adrBelChipPower).toNat
    ++ leBytes 2 (s.rf (adrBelPartPower x.part) 10 0) ++ leBytes 2 s.bel.cap ++ leBytes 2 (s.reg (adrPrtPowerShare x.part)).toNat
    ++ leBytes 2 (s.lowestAclk x.part))) := by
  rw [execPowerRead, runOp_starts _ h]
  simp only [h.reg, h.rf, h.bel, h.lowestAclk]

end

/-- Settles O22: one lemma for each command; the packets act on the state in which they have started (`runOp_starts`). -/
theorem powerControlCompletes : Obligations.PowerControlCompletes :=
  ⟨fun _ po es se st he fl ba sw _ _ _ hd ho hr hc => execBellowsControlPeriod_controls po es st he fl ba sw se hd ho hr hc,
    fun _ hd hn => execVcoreDroop_droops hd hn,
    fun _ => rfl,
    fun _ _ hn => execVcoreSettled_raises hn,
    fun _ _ _ hn ht => execAclkChangeDone_changes hn ht,
    fun _ _ _ _ h => execPowerCap_caps h,
    fun _ _ _ _ h => execPowerRead_reads h⟩

end Sys2Proof.Machine
end

section
/-! PROOFS. When a request of the host takes effect and when it waits (R303). -/
namespace Sys2Proof.Machine

section
variable {s : State} {r : HostReq}

/-- A request with nothing to wait for acts as it arrives. -/
theorem State.hostReq_acts (h : s.hostWaits r = false) : s.hostReq r = s.hostAct r := by
  simp [hostReq, h]

/-- One that must wait is put behind those that wait already. -/
theorem State.hostReq_waits (h : s.hostWaits r = true) :
    s.hostReq r = { s with hrt := { s.hrt with hostWait := s.hrt.hostWait ++ [r] } } := by
  simp [hostReq, h]

/-- A request that waits only behind posted writes acts while none waits. -/
theorem State.hostReq_free (hr : s.hostWaits r = (s.hostHeld || false)) (hh : s.hostHeld = false) : s.hostReq r = s.hostAct r :=
  hostReq_acts (by rw [hr, hh]; rfl)

end
end Sys2Proof.Machine
end

section
/-! PROOFS. EVR_CTRL's PERSIST beside a CLEAR that its register already holds (R489, R490, R514, R518). -/
namespace Sys2Proof.Machine

section
variable {s : State} {pf lk : Bool} {d : RegDesc} {i j a v old new : Nat}

/-- A write by the PF, of a register of no partition, that the register's rule forbids does nothing but record the illegal-write event of
its block (R514). -/
theorem hostWrites_refused (hh : s.hostHeld = false) (hg : s.granuleBusy a = false) (hl : locate a = some (d, i, j))
    (hi : instPart d i = none) (hv : v < 2 ^ 32) (hw : ∀ lk, regWrite true lk d (s.reg a).toNat v = { new := new, live := true })
    (hc : s.carveBad d i j (s.reg a).toNat new = none) (hr : s.writeOk d i j (s.reg a).toNat new = false) :
    s.hostWrites 0 a v = s.illegal 0 d i j := by
  rw [hostWrites_acts hh rfl hg, State.writeAt_applies hl (fun p hp => by simp [hi] at hp) (.inl rfl)]
  simp only [State.applyWrite, Nat.mod_eq_of_lt hv, beq_self_eq_true, hw, hc]
  simp [hr]

/-- Of EVR_CTRL's three commands PERSIST alone is written, and the register keeps the other two. -/
theorem regWrite_persist (hd : d.flds = [⟨0, 0, .w1s, 0x0, 0, 1, .aux⟩, ⟨1, 1, .w1s, 0x0, 0, 1, .aux⟩,
    ⟨2, 2, .w1s, 0x0, 0, 1, .aux⟩]) : regWrite pf lk d old 4 = { new := putBits old 2 2 1, live := true } := by
  simp [regWrite, RegWrite.field, hd, bits]

/-- EVR_CTRL's rule judges the register's word with PERSIST set: where CLEAR stands in it and a clear is refused, PERSIST does nothing but
record the recorder's illegal write. -/
theorem execEvrCtrlPersist_refused (hh : s.hostHeld = false) (hc : bitAt (s.reg adrEvrCtrl).toNat 0 = true)
    (hr : s.clearRefused (bitAt (s.reg adrEvrCtrl).toNat 1) = true) : execEvrCtrlPersist s = .next (s.event 0x600D 0 0xFF) := by
  have hkept : ∀ b, b < 2 → bitAt (putBits (s.reg adrEvrCtrl).toNat 2 2 1) b = bitAt (s.reg adrEvrCtrl).toNat b := by
    intro b hb
    rw [bitAt_bits, bits_putBits_below _ _ _ _ _ _ (by omega) hb, ← bitAt_bits]
  rw [execEvrCtrlPersist, hostWrites_refused hh (granuleBusy_of_name locate_adrEvrCtrl (by simp)) locate_adrEvrCtrl rfl (by decide)
    (fun _ => regWrite_persist rfl) (by simp [State.carveBad]) (by simp [State.writeOk, hkept, hc, hr])]
  rfl

end

/-- A state in which EVR_CTRL's stored word has CLEAR set, and a clear is refused because persistence runs. -/
def clearHeld : State := { regs := [(adrEvrCtrl, 1)], evr := { persist := some ⟨2, 4, 0, []⟩ } }

/-- Refutes O26: the clause on PERSIST has no hypothesis on EVR_CTRL's word. In `clearHeld`, where that word holds CLEAR while persistence
runs, a write of PERSIST is illegal (`execEvrCtrlPersist_refused`) and leaves PERSIST 0, where the clause sets it. -/
theorem not_chipRegisterWritesComplete : ¬ Obligations.ChipRegisterWritesComplete := by
  rintro ⟨-, -, -, -, -, -, hpersist, -⟩
  have hrefused : exec .evrCtrlPersist clearHeld = .next (clearHeld.event 0x600D 0 0xFF) :=
    execEvrCtrlPersist_refused rfl (by decide +kernel) (by decide +kernel)
  have hstate := Host.Outcome.next.inj (hrefused.symm.trans (hpersist clearHeld rfl))
  have hfield : (clearHeld.event 0x600D 0 0xFF).rf adrEvrCtrl 2 2 = 0 := by decide +kernel
  have hclaimed : ((clearHeld.startPersist 2 []).setRf adrEvrCtrl 2 2 1).rf adrEvrCtrl 2 2 = 1 := by decide +kernel
  rw [hstate, hclaimed] at hfield
  exact Nat.one_ne_zero hfield

end Sys2Proof.Machine
end

section
/-! PROOFS. Reads of registers, refused accesses, and reads and writes of Hearth through BAR2 (R294, R295, R303, R334, R336). -/
namespace Sys2Proof.Machine

section
variable {s t r : State} {fn a n p : Nat} {v u : Word} {w : Bool} {d : List Byte} {e : List (Nat × Bool)}

/-! Registers (R295). -/

theorem execLowWordRead_acts (hh : s.hostHeld = false) (hf : s.fnExists fn = true) :
    execLowWordRead fn a n s = .next (s.bar0Read fn a n) := by
  rw [execLowWordRead, if_pos hf, State.hostReq_free rfl hh]
  rfl

/-- A read of 4 bytes answers with the register's word. -/
theorem State.bar0Read_word (ha : a % 4 = 0) (hr : s.readWord fn a = (some v, t)) :
    s.bar0Read fn a 4 = t.emit (.hostData fn (leBytes 4 v.toNat) false) := by
  simp [bar0Read, ha, hr]

/-- One of 8 bytes answers with two words, of which the second is read after the first. -/
theorem State.bar0Read_pair (ha : a % 8 = 0) (hv : s.readWord fn a = (some v, t)) (hu : t.readWord fn (a + 4) = (some u, r)) :
    s.bar0Read fn a 8 = r.emit (.hostData fn (leBytes 4 v.toNat ++ leBytes 4 u.toNat) false) := by
  simp [bar0Read, ha, hv, hu]

theorem execBar0IllegalAccess_acts (hh : s.hostHeld = false) (hf : s.fnExists fn = true) :
    execBar0IllegalAccess fn a n w s = .next (s.bar0Illegal fn a n w) := by
  rw [execBar0IllegalAccess, if_pos hf, State.hostReq_free rfl hh]
  rfl

/-- An access of another size, or one not aligned to its own, is refused. -/
theorem State.bar0Illegal_form (h : ¬(n = 4 ∧ a % 4 = 0 ∨ n = 8 ∧ a % 8 = 0)) : s.bar0Illegal fn a n w = s.bar0Refused fn w := by
  have hform : (n == 4 && a % 4 == 0 || n == 8 && a % 8 == 0) = false := by simpa using h
  simp [bar0Illegal, hform]

/-- So is a read of 4 bytes at an offset that names nothing. -/
theorem State.bar0Illegal_reserved (h : s.place fn a = .none) : s.bar0Illegal fn a 4 false = s.bar0Refused fn false := by
  simp [bar0Illegal, h]

/-! Hearth (R294, R336). -/

theorem execHostBar2Read_asks (hf : s.fnExists fn = true) (hn : 0 < n) :
    execHostBar2Read fn a n e s = .next (s.hostReq (.bar2Read fn a n e)) := by
  simp [execHostBar2Read, hf, hn.ne']

theorem execHostBar2Write_asks (hf : s.fnExists fn = true) (hd : d ≠ []) :
    execHostBar2Write fn a d s e = .next (s.hostReq (.bar2Write fn a d e)) := by
  simp [execHostBar2Write, hf, hd]

/-- A write of Hearth waits for no zeroing where it will be dropped. -/
theorem State.hostWaits_dropped (hh : s.hostHeld = false) (hr : s.barReset fn a d.length = some p) :
    s.hostWaits (.bar2Write fn a d e) = false := by
  simp [hostWaits, hh, hr]

/-- The drop is recorded (R336). -/
theorem State.hostAct_dropped (hr : s.barReset fn a d.length = some p) : s.hostAct (.bar2Write fn a d e) = s.event 0x0206 p p := by
  simp [hostAct, hr]

/-- A write that is not dropped is carried out. -/
theorem State.hostAct_written (hr : s.barReset fn a d.length = none) : s.hostAct (.bar2Write fn a d e) = s.barWrite fn a d e := by
  simp [hostAct, hr]

end

/-- Settles O28: each command asks for one request of the host, which acts (`State.hostReq_acts`) or waits (`State.hostReq_waits`). -/
theorem hostAccessesComplete : Obligations.HostAccessesComplete :=
  ⟨fun _ _ _ _ _ hh hf ha hr => (execLowWordRead_acts hh hf).trans (by rw [State.bar0Read_word ha hr]),
    fun _ _ _ _ _ _ _ hh hf ha hv hu => (execLowWordRead_acts hh hf).trans (by rw [State.bar0Read_pair ha hv hu]),
    fun _ _ _ _ _ hh hf h => (execBar0IllegalAccess_acts hh hf).trans (by rw [State.bar0Illegal_form h]),
    fun _ _ _ hh hf h => (execBar0IllegalAccess_acts hh hf).trans (by rw [State.bar0Illegal_reserved h]),
    fun _ _ _ _ _ hf hn hw => (execHostBar2Read_asks hf hn).trans (by rw [State.hostReq_acts hw]; rfl),
    fun _ _ _ _ _ hf hn hw => (execHostBar2Read_asks hf hn).trans (by rw [State.hostReq_waits hw]),
    fun _ _ _ _ _ hf hd hr hw => (execHostBar2Write_asks hf hd).trans (by rw [State.hostReq_acts hw, State.hostAct_written hr]),
    fun _ _ _ _ _ hf hd hw => (execHostBar2Write_asks hf hd).trans (by rw [State.hostReq_waits hw]),
    fun _ _ _ _ _ _ hf hd hh hr => (execHostBar2Write_asks hf hd).trans
      (by rw [State.hostReq_acts (State.hostWaits_dropped hh hr), State.hostAct_dropped hr])⟩

end Sys2Proof.Machine
end

section
/-! PROOFS. Configuration space, resets of the host port and of a VF, its link and its reference clock, and the firmware's host stage (R289
to R292, R296, R298, R299, R317, R318, R448, R549). -/
namespace Sys2Proof.Machine

section
variable {s t : State} {fn f v n k r w : Nat} {e b : Bool}

/-! Configuration writes (R291, R298, R306, R549) and VF Enable (R296). -/

theorem execPciConfigWrite_acts (hh : s.hostHeld = false) : execPciConfigWrite fn f v s = .next (s.configWrite fn f v) := by
  rw [execPciConfigWrite, State.hostReq_free rfl hh]
  rfl

/-- A field of the function's own takes its value, and what the value lets go goes. -/
theorem State.configWrite_puts (hf : s.fnExists fn = true) (hs : s.hostStage = true) (hv : fn = 0 ∨ vfReserved f = false) (h14 : f ≠ 14)
    (hb : cfgBad f v = false) : s.configWrite fn f v = State.pumpFn ((s.setFn fn ((s.fn fn).put f v)).flushMsix fn) fn := by
  have hown : (fn != 0 && vfReserved f) = false := by
    rcases hv with rfl | hv
    · rfl
    · simp [hv]
  simp [configWrite, hf, hs, hown, hb, h14]

/-- Field 14 of the PF holds for all VFs (R306). -/
theorem State.configWrite_vfTag10 (hs : s.hostStage = true) :
    s.configWrite 0 14 v = s.setHost fun h => { h with vfTag10 := v % 2 == 1 } := by
  simp [configWrite, fnExists, hs, cfgBad]

/-- Before the host stage a configuration request is answered with a retry (R291). -/
theorem State.configWrite_retries (hf : s.fnExists fn = true) (hs : s.hostStage = false) : s.configWrite fn f v = s.emit (.hostRrs fn) := by
  simp [configWrite, hf, hs]

/-- VF Enable and NumVFs change while every partition is UNCONFIGURED (R296). -/
theorem execVfEnableWrite_sets (hh : s.hostHeld = false) (hs : s.hostStage = true) (ha : s.allFree = true) (hn : n ≤ 8) :
    execVfEnableWrite e n s =
      .next (s.setHost fun h => { h with vfEnable := e, numVfs := n, fns := h.fns.filter fun (f, _) => f == 0 }) := by
  rw [execVfEnableWrite, State.hostReq_free rfl hh]
  simp [State.hostAct, State.vfEnableWrite, hs, ha, Nat.not_lt.mpr hn]

/-! Resets (R289, R290, R317). -/

section
variable (hp : s.host.perst = false) (hr : s.host.refclk = true) (hb : s.boot ≠ .off)
include hp hr hb

/-- PCI_PERST_N resets the port and ends training. -/
theorem execHostPortReset_perst :
    execHostPortReset 0 s = .next (State.hostReset (s.setHost fun h => { h with perst := true, training := false })) := by
  simp [execHostPortReset, hp, hr, hb, State.setHost]

/-- A hot reset and DL_Down reset the port, and its pins stay. -/
theorem execHostPortReset_link (h1 : 1 ≤ k) (h2 : k ≤ 2) : execHostPortReset k s = .next s.hostReset := by
  obtain rfl | rfl : k = 1 ∨ k = 2 := by omega
  · simp [execHostPortReset, hp, hr, hb]
  · simp [execHostPortReset, hp, hr, hb]

/-- The loss of PCI_REFCLK resets the port and ends training (log entry 63). -/
theorem execHostPortReset_refclk :
    execHostPortReset 3 s = .next (State.hostReset (s.setHost fun h => { h with refclk := false, training := false })) := by
  simp [execHostPortReset, hp, hr, hb, State.setHost]

end

/-- A function-level reset of a VF resets its partition, and its configuration space (R317). -/
theorem execFunctionLevelReset_resets (hh : s.hostHeld = false) (hs : s.hostStage = true) (hv : 0 < v) (hf : s.fnExists v = true) :
    execFunctionLevelReset v s = .next (((s.event 0x0109 (v - 1) (v - 1)).resetPart (v - 1) 1 false).setFn v {}) := by
  rw [execFunctionLevelReset, State.hostReq_free rfl hh]
  simp [State.hostAct, State.flr, hs, hf, hv.ne']

/-! The link and its clock (R289, R291, R292). -/

/-- Training starts with the end of PCI_PERST_N, where the clock is there. -/
theorem execPerstDeassert_trains (hp : s.host.perst = true) :
    execPerstDeassert s = .next (s.setHost fun h => { h with perst := false, training := h.refclk }) := by
  simp [execPerstDeassert, State.setHost, hp]

/-- It starts with the clock, where PCI_PERST_N has ended. -/
theorem execPciRefclkRestored_trains (hr : s.host.refclk = false) :
    execPciRefclkRestored s = .next (s.setHost fun h => { h with refclk := true, training := !h.perst }) := by
  simp [execPciRefclkRestored, State.setHost, hr]

/-- Training settles at a rate and width, and event 0x0107 records one below the fourth rate or below 4 lanes. -/
theorem execHostLinkSettled_settles (hl : linkForm r w b = true) (ht : s.host.training = true) (hb : s.boot ≠ .off)
    (h3 : s.railGood 3 = true) (h4 : s.railGood 4 = true)
    (hu : t = s.setHost (fun h =>
      { h with training := false, rate := r, width := w, flit := b, degraded := decide (r < 4) || decide (w < 4) })) :
    execHostLinkSettled r w b s = .next (if r < 4 ∨ w < 4 then t.event 0x0107 8 0xFF else t) := by
  simp [execHostLinkSettled, hl, ht, hb, h3, h4, hu]

/-! Vectors (R299) and the host stage (R448). -/

/-- A vector that is unmasked sends the message that it holds back. -/
theorem execMsixUnmask_flushes (hh : s.hostHeld = false) (hf : s.fnExists fn = true) (hv : v < vectors fn) : execMsixUnmask fn v s =
    .next (State.flushMsix (s.setFn fn { s.fn fn with unmasked := insNat (s.fn fn).unmasked v }) fn) := by
  rw [execMsixUnmask, State.hostReq_free rfl hh]
  simp [State.hostAct, State.unmaskVec, hf, hv]

/-- The host stage is reached, and a chip with fewer than 3 fatal resets is not held there (R448, R504). -/
theorem execHostPortStage_reaches (hb : s.boot = .firmware)
    (ht : t = State.setRf (State.emit (((s.applyConfig).applyRole).lightBanks)
      (.avs (State.vcoreAt (((s.applyConfig).applyRole).lightBanks) (State.chipSteps (((s.applyConfig).applyRole).lightBanks)))))
      adrGlbStatus 2 2 1)
    (hc : t.rf adrGlbFaultStatus 19 16 < 3) : execHostPortStage s = .next { t with boot := .stage } := by
  simp [execHostPortStage, hb, ← ht, if_neg (Nat.not_le.mpr hc)]

end

/-- Settles O29: one lemma for each command and course; a configuration write acts (`execPciConfigWrite_acts`) by the field that it
names. Kind 3 of a port reset and field 14 are the model's (log entry 63). -/
theorem hostPortCommandsComplete : Obligations.HostPortCommandsComplete :=
  ⟨fun _ _ _ _ hh hf hs hv h14 hb => (execPciConfigWrite_acts hh).trans (by rw [State.configWrite_puts hf hs hv h14 hb]),
    fun _ _ hh hs => (execPciConfigWrite_acts hh).trans (by rw [State.configWrite_vfTag10 hs]),
    fun _ _ _ _ hh hf hs => (execPciConfigWrite_acts hh).trans (by rw [State.configWrite_retries hf hs]),
    fun _ _ _ hh hs ha hn => execVfEnableWrite_sets hh hs ha hn,
    fun _ hp hr hb => execHostPortReset_perst hp hr hb,
    fun _ _ hp hr hb h1 h2 => execHostPortReset_link hp hr hb h1 h2,
    fun _ hp hr hb => execHostPortReset_refclk hp hr hb,
    fun _ hp => execPerstDeassert_trains hp,
    fun _ hr => execPciRefclkRestored_trains hr,
    fun _ _ _ _ _ hl ht hb h3 h4 hu => execHostLinkSettled_settles hl ht hb h3 h4 hu,
    fun _ _ hh hs hv hf => execFunctionLevelReset_resets hh hs hv hf,
    fun _ _ _ hh hf hv => execMsixUnmask_flushes hh hf hv,
    fun _ _ hb ht hc => execHostPortStage_reaches hb ht hc⟩

end Sys2Proof.Machine
end

section
/-! PROOFS. Requests of the host port, their completions and their tags (R298, R305 to R316). -/
namespace Sys2Proof.Machine

section
variable {s t : State} {r v f x n k : Nat} {po : Bool} {d : List Byte} {u : TagUse}

/-- A waiting request goes out, and what waited for it goes on (R298, R301). -/
theorem execHostRequestIssue_issues (h : s.issueNext r = some t) : execHostRequestIssue r s = .next (t.afterIssue r) := by
  simp [execHostRequestIssue, h]

/-! Completions (R305, R312 to R314). -/

/-- A completion whose value and Requester ID no request carries is unexpected (R312). -/
theorem execHostCompletionReceived_unexpected (hx : x < 3) (h : s.tagOf f v = none) :
    execHostCompletionReceived v f x po d s = .next (s.unexpected f) := by
  simp [execHostCompletionReceived, Nat.not_le.mpr hx, h]

/-- One for an outstanding tag acts on it. -/
theorem execHostCompletionReceived_outstanding (hx : x < 3) (h : s.tagOf f v = some (k, u)) (hq : u.quarantined = false) :
    execHostCompletionReceived v f x po d s = .next (s.completion k u x po d) := by
  simp [execHostCompletionReceived, Nat.not_le.mpr hx, h, hq]

/-- Data short of the request's length leaves its tag outstanding (R305). -/
theorem State.completion_part (h : u.got + d.length < u.len) : s.completion k u 0 false d =
    State.readData (s.setHost fun h => { h with tags := tput h.tags k { u with got := u.got + d.length } }) u.iss (u.dst + u.got) d := by
  have hall : d.take (u.len - u.got) = d := List.take_of_length_le (by omega)
  simp [completion, hall, h]

/-- Data up to the request's length frees its tag and ends the read (R305). -/
theorem State.completion_last (h : u.got + d.length = u.len) :
    s.completion k u 0 false d = State.readEnd ((s.freeTag k).readData u.iss (u.dst + u.got) d) u.iss := by
  have hall : d.take (u.len - u.got) = d := List.take_of_length_le (by omega)
  simp [completion, hall, h]

/-- A poisoned completion frees the tag and fails the read (R314; the bit of AER is log entry 20's). -/
theorem State.completion_poisoned : s.completion k u 0 true d =
    State.readFail ((((s.freeTag k).aer u.fn true 12 1).pciCount 4 u.req).event 0x0105 u.req (reqPart u.req)) u.iss 0x7F := rfl

/-- So does one that reports an error (R313). -/
theorem State.completion_failed (hx : x ≠ 0) : s.completion k u x po d =
    State.readFail (((s.freeTag k).pciCount 3 u.req).event 0x0104 u.req (reqPart u.req)) u.iss 0x14 := by
  simp [completion, hx]

/-! Tags (R308 to R310). -/

/-- A Completion Timeout quarantines the tag and fails the read (R308, R309; the bit of AER is log entry 20's). -/
theorem execCompletionTimeout_fails (h : tfind s.host.tags n = some u) (hq : u.quarantined = false)
    (ht : t = State.event (State.pciCount
      (s.setHost fun h => { h with tags := tput h.tags n { u with quarantined := true, iss := .other } }) 0 u.req)
      0x0101 u.req (reqPart u.req)) :
    execCompletionTimeout n s =
      .next (State.readFail (t.aer u.fn true 14 (if bitAt (t.fn u.fn).aerSev 14 then 3 else 1)) u.iss 0x21) := by
  simp [execCompletionTimeout, h, hq, ht]

/-- The end of its quarantine frees a tag (R310). -/
theorem execTagQuarantineExpiry_frees (h : tfind s.host.tags n = some u) (hq : u.quarantined = true) :
    execTagQuarantineExpiry n s = .next (s.freeTag n) := by
  simp [execTagQuarantineExpiry, h, hq]

end

/-- Settles O30: a completion finds its tag (`execHostCompletionReceived_outstanding`) and acts on it by its status, its poison and its
length. -/
theorem hostRequestsComplete : Obligations.HostRequestsComplete :=
  ⟨fun _ _ _ h => execHostRequestIssue_issues h,
    fun _ _ _ _ _ _ h hq hn => (execHostCompletionReceived_outstanding (by decide) h hq).trans (by rw [State.completion_part hn]),
    fun _ _ _ _ _ _ h hq hn => (execHostCompletionReceived_outstanding (by decide) h hq).trans (by rw [State.completion_last hn]),
    fun _ _ _ _ _ _ _ h hq =>
      ⟨(execHostCompletionReceived_outstanding (by decide) h hq).trans (by rw [State.completion_poisoned]),
        fun hx _ => (execHostCompletionReceived_outstanding (by omega) h hq).trans (by rw [State.completion_failed (by omega)])⟩,
    fun _ _ _ _ _ _ hx h => execHostCompletionReceived_unexpected hx h,
    fun _ _ _ _ h hq ht => execCompletionTimeout_fails h hq ht,
    fun _ _ _ h hq => execTagQuarantineExpiry_frees h hq⟩

end Sys2Proof.Machine
end

section
/-! PROOFS. The host proxy: requests of other chips, responses to this chip's own, and proxy tags (R319 to R321, R362). -/
namespace Sys2Proof.Machine

section
variable {s t : State} {p n : Nat} {f : List Byte} {r : ProxyReq}

/-! Requests of other chips (R319, R320). -/

/-- The oldest good request of its source is served. -/
theorem execProxyRequestReceived_serves (ha : s.arrived 7 p f = true) (hg : proxyGood f = true) (hop : u8 f 32 ≤ 2)
    (hb : s.proxyBehind p f = false) : execProxyRequestReceived p f s = .next ((s.consume p f).serveProxy p f) := by
  simp [execProxyRequestReceived, onFrame_arrived _ ha, hg, Nat.not_lt.mpr hop, hb]

/-- A frame that does not check is discarded (R319). -/
theorem execProxyRequestReceived_discards (ha : s.arrived 7 p f = true) (hg : proxyGood f = false) (hb : s.proxyBehind p f = false) :
    execProxyRequestReceived p f s = .next ((s.consume p f).event 0x010C p p) := by
  simp [execProxyRequestReceived, onFrame_arrived _ ha, hg, hb, State.proxyBad]

/-! Responses to this chip's own (R319, R321). -/

theorem execProxyResponseReceived_discards (ha : s.arrived 7 p f = true) (hg : proxyGood f = false) :
    execProxyResponseReceived p f s = .next ((s.consume p f).event 0x010C p p) := by
  simp [execProxyResponseReceived, onFrame_arrived _ ha, hg, State.proxyBad]

/-- A good response acts. -/
theorem execProxyResponseReceived_acts (ha : s.arrived 7 p f = true) (hg : proxyGood f = true) (hop : 3 ≤ u8 f 32)
    (ht : t = s.consume p f) : execProxyResponseReceived p f s = .next (t.proxyResponse p f) := by
  simp [execProxyResponseReceived, onFrame_arrived _ ha, hg, Nat.not_lt.mpr hop, ht]

/-- A READ_RSP that reports an error ends the read whose tag it carries. -/
theorem State.proxyResponse_readFails (hop : u8 f 32 = 3) (hr : tfind (t.part p).proxy (u32 f 36) = some r) (hq : r.quarantined = false)
    (hw : r.write = false) (hst : u8 f 33 ≠ 0) : t.proxyResponse p f = t.proxyEnd p (u32 f 36) r (u8 f 33) (proxyData f) := by
  simp [proxyResponse, hop, hr, hq, hw, hst]

/-- A WRITE_ACK ends the write. -/
theorem State.proxyResponse_writeEnds (hop : u8 f 32 = 4) (hr : tfind (t.part p).proxy (u32 f 36) = some r) (hq : r.quarantined = false)
    (hw : r.write = true) : t.proxyResponse p f = t.proxyEnd p (u32 f 36) r (u8 f 33) [] := by
  simp [proxyResponse, hop, hr, hq, hw]

/-! Proxy tags (R321). -/

/-- The deadline of a request that has been sent fails it and quarantines its tag. -/
theorem execProxyDeadlineExpiry_fails (hr : tfind (s.part p).proxy n = some r) (hq : r.quarantined = false) (hs : r.sent = true)
    (ht : t = s.modPart p (fun q => { q with proxy := tput q.proxy n { r with quarantined := true, iss := .other } })) :
    execProxyDeadlineExpiry p n s =
      .next (State.flushIrqs (if r.write then t.writeEnd r.iss 0x20 else t.readFail r.iss 0x21) p) := by
  simp [execProxyDeadlineExpiry, hr, hq, hs, ht]

/-- The end of its quarantine frees a proxy tag, and operations that wait go out. -/
theorem execProxyTagQuarantineExpiry_frees (hr : tfind (s.part p).proxy n = some r) (hq : r.quarantined = true)
    (ht : t = s.modPart p (fun q => { q with proxy := tdel q.proxy n })) :
    execProxyTagQuarantineExpiry p n s = .next (State.proxyPump (t.part p).proxyQ.length t p) := by
  simp [execProxyTagQuarantineExpiry, hr, hq, ht]

end

/-- Settles O31: a proxy frame is taken (`onFrame_arrived`) and served, discarded, or acts on the tag that it carries
(`execProxyResponseReceived_acts`). -/
theorem proxyCommandsComplete : Obligations.ProxyCommandsComplete :=
  ⟨fun _ _ _ ha hg hop hb => execProxyRequestReceived_serves ha hg hop hb,
    fun _ _ _ ha hg => ⟨fun hb => execProxyRequestReceived_discards ha hg hb, execProxyResponseReceived_discards ha hg⟩,
    fun _ _ _ _ _ ha hg hop ht hr hq hw hst => (execProxyResponseReceived_acts ha hg (by omega) ht).trans
      (by rw [State.proxyResponse_readFails hop hr hq hw hst]),
    fun _ _ _ _ _ ha hg hop ht hr hq hw => (execProxyResponseReceived_acts ha hg (by omega) ht).trans
      (by rw [State.proxyResponse_writeEnds hop hr hq hw]),
    fun _ _ _ _ _ hr hq hs ht => execProxyDeadlineExpiry_fails hr hq hs ht,
    fun _ _ _ _ _ hr hq ht => execProxyTagQuarantineExpiry_frees hr hq ht⟩

end Sys2Proof.Machine
end

section
/-! PROOFS. What a command answers: a step takes the command at the front of the queue, every command answers a next state, and that
state follows the one that the command met (R451, R454, log entry 2). -/
namespace Sys2Proof.Machine

section
variable {s : State} {c : Prop} [Decidable c] {a b : Res}

/-- An answer that depends on a condition is a next state where both of its answers are. -/
theorem answers_ite (ha : ∃ t, a = .next t) (hb : ∃ t, b = .next t) : ∃ t, (if c then a else b) = .next t := by
  split
  · exact ha
  · exact hb

/-- A packet that may not start, or whose unit is not ready, leaves the state as it is (log entry 16). -/
theorem runWhen_answers (op k : Nat) (ready : Pkt → Bool) (f : Pkt → State → State) : ∃ t, runWhen op k ready f s = .next t := by
  unfold runWhen
  split
  · exact ⟨_, rfl⟩
  · exact answers_ite ⟨_, rfl⟩ ⟨_, rfl⟩

/-- An activation frame waits or is taken, by a line or by none (R70 to R73). -/
theorem execActivationFrameReceived_answers (p : Nat) (f : List Byte) : ∃ t, execActivationFrameReceived p f s = .next t := by
  refine answers_ite ⟨_, rfl⟩ ?_
  split
  · exact ⟨_, rfl⟩
  · exact answers_ite ⟨_, rfl⟩ ⟨_, rfl⟩

end

/-- Every command answers a next state: most are one by their definition, some hold their packet or frame back first. -/
theorem exec_answers (c : Instr) (s : State) : ∃ t, exec c s = .next t := by
  cases c with
  | weightLoad | pass | epilogue | vecOp | tongDesc | tongList | fill | bulkUnbind | setMode | streamAdmit | streamPark
  | streamResume | streamRelease | step | chunk => exact runWhen_answers ..
  | proxyRequestReceived | proxyResponseReceived | setupCommitReceived | setupUndoReceived | setupFetchTimeout | admitFrameReceived
  | undoFrameReceived | streamStateFrameReceived => exact answers_ite ⟨_, rfl⟩ ⟨_, rfl⟩
  | setupFrameReceived => exact answers_ite ⟨_, rfl⟩ (answers_ite ⟨_, rfl⟩ ⟨_, rfl⟩)
  | activationFrameReceived p f => exact execActivationFrameReceived_answers p f
  | _ => exact ⟨_, rfl⟩

/-- Settles O57: the two cases of the queue are those of `step`, and every command answers (`exec_answers`). -/
theorem stepTakesTheFront : Obligations.StepTakesTheFront :=
  ⟨fun _ _ _ => step_cons rfl, fun _ => step_nil rfl, exec_answers⟩

/-- Settles O59: the next state follows the one that the command met (`exec_follows`), and so keeps the invariant (`Follows.inv`). -/
theorem everyCommandFollows : Obligations.EveryCommandFollows := by
  intro c s t hexec
  have h : Follows s t := exec_follows c (.rfl' s) t hexec
  exact ⟨h.pending, h.osc, h.free, h.pkts, h.out, h.inv, h.svn, h.revoked⟩

end Sys2Proof.Machine
end

section
/-! PROOFS. The ring registers: doorbells, CMD_SQ_CTRL, the proxy doorbell and the CFG words (R343, R344, R362, R363, R550). -/
namespace Sys2Proof.Machine

section
variable {s t : State} {fn p i j a v lo hi old x : Nat} {pf lk : Bool} {d : RegDesc} {u : RegWrite}

/-! Registers of commands: nothing holds a write of them back (R518). -/

/-- A register of write-only and write-one-to-set fields that no carve concerns takes every word. -/
theorem regWrite_commands (hd : d.flds ≠ []) (hf : ∀ f ∈ d.flds, (f.acc = .wo ∨ f.acc = .w1s) ∧ f.dom ≠ .carve) :
    regWrite pf lk d old v = { new := (regWrite true false d old v).new, live := true } := by
  obtain ⟨f, hmem⟩ := List.exists_mem_of_ne_nil _ hd
  have hbad : (regWrite true false d old v).bad = false := by
    refine List.foldlRecOn (motive := fun r : RegWrite => r.bad = false) d.flds _ rfl fun r hr g hg => ?_
    rcases (hf g hg).1 with hacc | hacc <;> simp [RegWrite.field, hacc, hr]
  have hopen : ∀ g ∈ d.flds, g.acc ≠ .rwl ∧ g.acc ≠ .ro := fun g hg => by rcases (hf g hg).1 with h | h <;> simp [h]
  rw [regWrite_lockFree fun g hg => (hopen g hg).1, regWrite_carveFree fun g hg => (hf g hg).2]
  exact regWrite_acts hmem (hopen f hmem).2 (hf f hmem).2 rfl regWrite_carve hbad

/-- A submission doorbell is observed with the right of the function that writes it. -/
theorem execSqDoorbell_rings (h : Reaches s fn p) (hi : i < 16) (hv : v < 2 ^ 32) :
    execSqDoorbell fn p i v s = .next (s.sqDoorbell p i v (fn == 0)) := by
  rw [execSqDoorbell, if_pos hi, partWrite_effect h (locate_adrCmdSqDb h.1 hi) (by simp) (.inr rfl)
    ⟨hv, regWrite_commands (by simp) (by simp), .inr (by simp), fun _ => by simp [State.carveBad], by simp [State.writeOk], rfl⟩]
  simp [State.effect]

theorem execCqDoorbell_rings (h : Reaches s fn p) (hj : j < 16) (hv : v < 2 ^ 32) :
    execCqDoorbell fn p j v s = .next (s.cqDoorbell p j v) := by
  rw [execCqDoorbell, if_pos hj, partWrite_effect h (locate_adrCmdCqDb h.1 hj) (by simp) (.inr rfl)
    ⟨hv, regWrite_commands (by simp) (by simp), .inr (by simp), fun _ => by simp [State.carveBad], by simp [State.writeOk], rfl⟩]
  simp [State.effect]

/-- CMD_SQ_CTRL's STOP and RESTART act on the ring, in that order (R363). -/
theorem partWrite_sqCtrl (h : Reaches s fn p) (hi : i < 16) (hv : v < 2 ^ 32) : s.partWrite fn p (adrCmdSqCtrl p i) v =
    if bitAt v 1 then (if bitAt v 0 then s.sqStop p i else s).sqRestart p i else if bitAt v 0 then s.sqStop p i else s := by
  rw [partWrite_effect h (locate_adrCmdSqCtrl h.1 hi) (by simp) (.inr rfl)
    ⟨hv, regWrite_commands (by simp) (by simp), .inr (by simp), fun _ => by simp [State.carveBad], by simp [State.writeOk], rfl⟩]
  simp [State.effect]

theorem execSqStop_stops (h : Reaches s fn p) (hi : i < 16) : execSqStop fn p i s = .next (s.sqStop p i) := by
  rw [execSqStop, if_pos hi, partWrite_sqCtrl h hi (by decide)]
  rfl

theorem execSqRestart_restarts (h : Reaches s fn p) (hi : i < 16) : execSqRestart fn p i s = .next (s.sqRestart p i) := by
  rw [execSqRestart, if_pos hi, partWrite_sqCtrl h hi (by decide)]
  rfl

/-! The proxy doorbell (R362). -/

/-- A stored register word has no part in what a function reaches. -/
theorem Reaches.setReg (h : Reaches s fn p) (a : Nat) (w : Word) : Reaches (s.setReg a w) fn p := h

/-- CMD_PROXY_DB_LO keeps its word, and CMD_PROXY_DB_HI sends the doorbell that both words spell. -/
theorem execProxyDoorbellWrite_sends (h : Reaches s fn p) (hlo : lo < 2 ^ 32) (hhi : hi < 2 ^ 32)
    (ht : t = s.setReg (adrCmdProxyDbLo p) (wd (s.written true (adrCmdProxyDbLo p) lo).new)) :
    execProxyDoorbellWrite fn p lo hi s = .next ((t.setReg (adrCmdProxyDbHi p)
      (wd (t.written true (adrCmdProxyDbHi p) hi).new)).proxyBell p (t.reg (adrCmdProxyDbLo p)).toNat hi) := by
  have hlow := locate_adrCmdProxyDbLo h.1
  have hhigh := locate_adrCmdProxyDbHi h.1
  have hfirst : s.partWrite fn p (adrCmdProxyDbLo p) lo = t := by
    rw [ht, State.written_eq hlow, partWrite_effect h hlow (by simp) (.inr rfl) ⟨hlo, regWrite_commands (by simp) (by simp),
      .inr (by simp), fun _ => by simp [State.carveBad], by simp [State.writeOk], rfl⟩]
    simp [State.effect]
  have ht' : Reaches t fn p := ht ▸ h.setReg _ _
  rw [execProxyDoorbellWrite, hfirst, State.written_eq hhigh, partWrite_effect ht' hhigh (by simp) (.inr rfl)
    ⟨hhi, regWrite_commands (by simp) (by simp), .inr (by simp), fun _ => by simp [State.carveBad], by simp [State.writeOk], rfl⟩]
  simp [State.effect]

/-! The CFG words (R363, R550). -/

/-- A word with the switch in bit 31 replaced. -/
theorem putBits_switch_lt (hv : v < 2 ^ 32) : putBits v 31 31 x < 2 ^ 32 := by
  rw [putBits_eq _ _ _ _ (by omega)]
  omega

/-- A register whose last field is a switch in bit 31 takes the switch as it is written. -/
theorem bits_regWrite_switch {fs : List Fld} (hd : d.flds = fs ++ [⟨31, 31, .rwl, 0, 0, 1, .part⟩]) :
    bits (regWrite pf false d old v).new 31 31 = bits v 31 31 := by
  simp only [regWrite, hd, List.foldl_append, List.foldl_cons, List.foldl_nil]
  exact (bits_putBits_same _ 31 31 _ (by omega)).trans (Nat.mod_eq_of_lt (bits_lt v 31 31))

section
variable (h : Reaches s fn p) (h16 : i < 16) (hv : v < 2 ^ 32) (hk : s.hasLock p = false) (hb : u.bad = false)
include h h16 hv hk hb

/-- While no configuration lock holds them, CMD_SQ_CFG takes a word that R341 allows. -/
theorem partWrite_sqCfg (hu : u = s.written true (adrCmdSqCfg p i) v)
    (hok : s.sqCfgOk p i (s.reg (adrCmdSqCfg p i)).toNat u.new = true) :
    s.partWrite fn p (adrCmdSqCfg p i) v = s.sqConfig p i (s.reg (adrCmdSqCfg p i)).toNat u.new := by
  have hl := locate_adrCmdSqCfg h.1 h16
  rw [State.written_eq hl] at hu
  have hnew := regWrite_acts (List.mem_cons_self ..) (by simp) (by simp) hu (hu ▸ regWrite_carve) hb
  rw [partWrite_effect h hl (by simp) (.inr rfl) ⟨hv, (regWrite_carveFree (by simp)).trans hnew, .inl hk,
    fun _ => by simp [State.carveBad], by simpa [State.writeOk] using hok, rfl⟩]
  simp [State.effect]

/-- So does CMD_CQ_CFG. -/
theorem partWrite_cqCfg (hu : u = s.written true (adrCmdCqCfg p i) v)
    (hok : s.cqCfgOk p i (s.reg (adrCmdCqCfg p i)).toNat u.new = true) :
    s.partWrite fn p (adrCmdCqCfg p i) v = s.cqConfig p i (s.reg (adrCmdCqCfg p i)).toNat u.new := by
  have hl := locate_adrCmdCqCfg h.1 h16
  rw [State.written_eq hl] at hu
  have hnew := regWrite_acts (List.mem_cons_self ..) (by simp) (by simp) hu (hu ▸ regWrite_carve) hb
  rw [partWrite_effect h hl (by simp) (.inr rfl) ⟨hv, (regWrite_carveFree (by simp)).trans hnew, .inl hk,
    fun _ => by simp [State.carveBad], by simpa [State.writeOk] using hok, rfl⟩]
  simp [State.effect]

end

/-- The switches of the two CFG words, as they stand and as they are written. -/
theorem bitAt_written_sqCfg (hp : p < 8) (hi : i < 16) (hx : x < 2) (hu : u = s.written true (adrCmdSqCfg p i) (putBits v 31 31 x)) :
    bitAt u.new 31 = (x == 1) := by
  rw [hu, State.written_eq (locate_adrCmdSqCfg hp hi), bitAt_bits,
    bits_regWrite_switch (fs := [_, _, _, _]) rfl, bits_putBits_same _ _ _ _ (by decide)]
  exact congrArg (· == 1) (Nat.mod_eq_of_lt hx)

theorem bitAt_written_cqCfg (hp : p < 8) (hi : i < 16) (hx : x < 2) (hu : u = s.written true (adrCmdCqCfg p i) (putBits v 31 31 x)) :
    bitAt u.new 31 = (x == 1) := by
  rw [hu, State.written_eq (locate_adrCmdCqCfg hp hi), bitAt_bits,
    bits_regWrite_switch (fs := [_, _]) rfl, bits_putBits_same _ _ _ _ (by decide)]
  exact congrArg (· == 1) (Nat.mod_eq_of_lt hx)

theorem State.bitAt_reg (h : s.rf a 31 31 = x) : bitAt (s.reg a).toNat 31 = (x == 1) := by
  rw [bitAt_bits, ← h]; rfl

section
variable (h : Reaches s fn p) (h16 : i < 16) (hv : v < 2 ^ 32) (hk : s.hasLock p = false) (hb : u.bad = false)
include h h16 hv hk hb

/-- An SQ that is enabled runs from empty. -/
theorem execRingEnable_sq (h0 : s.rf (adrCmdSqCfg p i) 31 31 = 0) (hu : u = s.written true (adrCmdSqCfg p i) (putBits v 31 31 1))
    (hok : s.sqCfgOk p i (s.reg (adrCmdSqCfg p i)).toNat u.new = true) : execRingEnable fn p false i v s =
      .next ((s.setReg (adrCmdSqCfg p i) (wd u.new)).setSq p i { st := .running, err := (s.sq p i).err }) := by
  rw [execRingEnable, if_pos h16, ringCfg, if_neg (by decide), partWrite_sqCfg h h16 (putBits_switch_lt hv) hk hb hu hok]
  simp [State.sqConfig, bitAt_written_sqCfg h.1 h16 (by decide) hu, State.bitAt_reg h0, State.sq]

/-- One that is disabled keeps its place. -/
theorem execRingDisable_sq (h1 : s.rf (adrCmdSqCfg p i) 31 31 = 1) (hu : u = s.written true (adrCmdSqCfg p i) (putBits v 31 31 0))
    (hok : s.sqCfgOk p i (s.reg (adrCmdSqCfg p i)).toNat u.new = true) : execRingDisable fn p false i v s =
      .next ((s.setReg (adrCmdSqCfg p i) (wd u.new)).setSq p i { s.sq p i with st := .disabled }) := by
  rw [execRingDisable, if_pos h16, ringCfg, if_neg (by decide), partWrite_sqCfg h h16 (putBits_switch_lt hv) hk hb hu hok]
  simp [State.sqConfig, bitAt_written_sqCfg h.1 h16 (by decide) hu, State.bitAt_reg h1, State.sq]

/-- A CQ that is enabled starts empty; one that is disabled keeps its place. -/
theorem execRingEnable_cq (h0 : s.rf (adrCmdCqCfg p i) 31 31 = 0) (hu : u = s.written true (adrCmdCqCfg p i) (putBits v 31 31 1))
    (hok : s.cqCfgOk p i (s.reg (adrCmdCqCfg p i)).toNat u.new = true) : execRingEnable fn p true i v s =
      .next ((s.setReg (adrCmdCqCfg p i) (wd u.new)).setCq p i {}) := by
  rw [execRingEnable, if_pos h16, ringCfg, if_pos rfl, partWrite_cqCfg h h16 (putBits_switch_lt hv) hk hb hu hok]
  simp [State.cqConfig, bitAt_written_cqCfg h.1 h16 (by decide) hu, State.bitAt_reg h0]

theorem execRingDisable_cq (hu : u = s.written true (adrCmdCqCfg p i) (putBits v 31 31 0))
    (hok : s.cqCfgOk p i (s.reg (adrCmdCqCfg p i)).toNat u.new = true) : execRingDisable fn p true i v s =
      .next (s.setReg (adrCmdCqCfg p i) (wd u.new)) := by
  rw [execRingDisable, if_pos h16, ringCfg, if_pos rfl, partWrite_cqCfg h h16 (putBits_switch_lt hv) hk hb hu hok]
  simp [State.cqConfig, bitAt_written_cqCfg h.1 h16 (by decide) hu]

end

end

/-- Settles O23: a write of a register of commands has its effect (`regWrite_commands`), and one of a CFG word acts by the switch that it
finds and the one that it writes (`partWrite_sqCfg`, `partWrite_cqCfg`). -/
theorem ringRegisterWritesComplete : Obligations.RingRegisterWritesComplete :=
  ⟨fun _ _ _ _ _ h hi hv => execSqDoorbell_rings h hi hv,
    fun _ _ _ _ _ h hj hv => execCqDoorbell_rings h hj hv,
    fun _ _ _ _ h hi => execSqStop_stops h hi,
    fun _ _ _ _ h hi => execSqRestart_restarts h hi,
    fun _ _ _ _ _ _ h hlo hhi ht => execProxyDoorbellWrite_sends h hlo hhi ht,
    fun _ _ _ _ _ _ h hi hv hk h0 hu hb hok => execRingEnable_sq h hi hv hk hb h0 hu hok,
    fun _ _ _ _ _ _ h hj hv hk h0 hu hb hok => execRingEnable_cq h hj hv hk hb h0 hu hok,
    fun _ _ _ _ _ _ h hi hv hk h1 hu hb hok => execRingDisable_sq h hi hv hk hb h1 hu hok,
    fun _ _ _ _ _ _ h hj hv hk _ hu hb hok => execRingDisable_cq h hj hv hk hb hu hok⟩

end Sys2Proof.Machine
end

section
/-! PROOFS. The lock of a partition, and writes to a partition that is RESETTING (R303, R328, R329, R449, R517, R520, R526). -/
namespace Sys2Proof.Machine

section
variable {s : State} {fn p q n o a v i j c src part : Nat} {d : RegDesc} {x : Part} {l : List Nat}

/-! What keeps a partition's lock. -/

/-- A partition's state and lock stand in what the device keeps for it alone. -/
theorem State.hasLock_of_st {t : State} (h : (t.part p).st = (s.part p).st) : t.hasLock p = s.hasLock p := by
  simp only [State.hasLock, h]

theorem State.dbReject_st : ((s.dbReject p src).part q).st = (s.part q).st := by
  obtain ⟨r, hbump⟩ := s.bump_touches (adrDbRejected p)
  obtain ⟨r', e, hevent⟩ := (s.bump (adrDbRejected p)).event_touches 0x0303 src p
  rw [State.dbReject, hevent, hbump]
  rfl

/-- Checking a doorbell changes its ring, or nothing of the partition (R343). -/
theorem State.sqBell_st {pf : Bool} : ((s.sqBell p i v pf).part p).st = (s.part p).st := by
  unfold State.sqBell
  dsimp only
  split
  · simp [State.setSq, State.modPart]
  · exact State.dbReject_st

/-- So do those kept until the lock (R328). -/
theorem State.keptBells_st : ((s.keptBells p).part p).st = (s.part p).st := by
  refine List.foldlRecOn (motive := fun t : State => (t.part p).st = (s.part p).st) _ _ (by simp [State.modPart]) ?_
  exact fun t ht b _ => State.sqBell_st.trans ht

/-! The conditions of R329, in order. -/

/-- A power share that is not needed, or is large enough. -/
theorem share_suffices {m w : Nat} (h : m = 0 ∨ 50 ≤ w) : (m != 0 && decide (w < 50)) = false := by
  rcases h with h | h <;> simp [h]

/-- A partition that meets every condition. -/
theorem State.lockFails_none (hc : s.partState p = 1) (hg : 1 ≤ (s.granules p).length)
    (hb : backing (s.reg (adrSeqSlotCfg p)).toNat ≤ (s.granules p).length)
    (hw : (s.reg (adrPrtAnvils p)).toNat = 0 ∨ 50 ≤ (s.reg (adrPrtPowerShare p)).toNat) (hs : s.sliceOf p ≠ 0xFFF) :
    s.lockFails p = none := by
  have hgran : s.granules p ≠ [] := List.ne_nil_of_length_pos hg
  simp [State.lockFails, hc, hgran, hb.not_gt, share_suffices hw, hs]

/-- One that is not CONFIGURED. -/
theorem State.lockFails_state (hc : s.partState p ≠ 1) : s.lockFails p = some 1 := by
  simp [State.lockFails, hc]

section
variable (hc : s.partState p = 1)
include hc

/-- One that owns no granule. -/
theorem State.lockFails_granule (hg : s.granules p = []) : s.lockFails p = some 2 := by
  simp [State.lockFails, hc, hg]

variable (hg : s.granules p ≠ [])
include hg

/-- One that owns fewer than its slots and park entries need. -/
theorem State.lockFails_backing (hb : (s.granules p).length < backing (s.reg (adrSeqSlotCfg p)).toNat) : s.lockFails p = some 3 := by
  simp [State.lockFails, hc, hg, hb]

variable (hb : backing (s.reg (adrSeqSlotCfg p)).toNat ≤ (s.granules p).length)
include hb

/-- One without 50 W for its anvils. -/
theorem State.lockFails_power (ha : (s.reg (adrPrtAnvils p)).toNat ≠ 0) (hw : (s.reg (adrPrtPowerShare p)).toNat < 50) :
    s.lockFails p = some 4 := by
  simp [State.lockFails, hc, hg, hb.not_gt, ha, hw]

/-- One without a slice. -/
theorem State.lockFails_slice (hw : (s.reg (adrPrtAnvils p)).toNat = 0 ∨ 50 ≤ (s.reg (adrPrtPowerShare p)).toNat)
    (hs : s.sliceOf p = 0xFFF) : s.lockFails p = some 5 := by
  simp [State.lockFails, hc, hg, hb.not_gt, share_suffices hw, hs]

end

/-! The write of LOCK. -/

/-- A partition that meets the conditions is locked. -/
theorem execPrtLock_hasLock (h : Reaches s fn p) (hk : s.hasLock p = false) (hr : s.rf adrGlbStatus 0 0 = 1)
    (hf : s.lockFails p = none) : ∃ t, execPrtLock fn p s = .next t ∧ t.hasLock p = true := by
  refine ⟨_, execPrtLock_locks h hk hr hf, ?_⟩
  rw [State.hasLock_of_st State.keptBells_st]
  simp [State.hasLock, State.modPart]

/-- A LOCK that reads 1 stays (R520). -/
theorem execPrtLock_again (h : Reaches s fn p) (hk : s.hasLock p = true) (hr : s.rf adrGlbStatus 0 0 = 1) :
    execPrtLock fn p s = .next s := by
  rw [execPrtLock, partWrite_prtCtrl h (by decide), State.prtControl_lock]
  simp [State.setLock, hk, hr]

/-- A function writes the registers of no other partition (R517). -/
theorem execPrtLock_foreign (h0 : fn ≠ 0) (hp : fn ≠ p + 1) : execPrtLock fn p s = .next s := by
  simp [execPrtLock, State.partWrite, h0, hp]

/-- While READY is 0 a LOCK that acts is ignored, and recorded without a detail word (R449, log entry 43). -/
theorem State.writeAt_lock_early (hp : p < 8) (hr : s.rf adrGlbStatus 0 0 = 0) :
    s.writeAt fn (adrPrtCtrl p) 1 = s.event 0x0202 p p := by
  rw [State.writeAt_prtCtrl hp (by decide), State.prtControl_lock]
  simp [State.setLock, hr, State.event]

section
variable (hp : p < 8) (hf : s.fnExists fn = true) (hown : fn = 0 ∨ fn = p + 1)
include hp hf hown

/-- A write of PRT_CTRL is a request of the host, whatever the state of the partition. -/
theorem partWrite_requests : s.partWrite fn p (adrPrtCtrl p) v = s.hostReq (.regWrite fn (adrPrtCtrl p) v) := by
  have hmine : (fn == 0 || fn == p + 1) = true := by simpa using hown
  simp [State.partWrite, State.hostWrites, hp, hmine, hf]

theorem execPrtLock_early (hh : s.hostHeld = false) (hr : s.rf adrGlbStatus 0 0 = 0) :
    execPrtLock fn p s = .next (s.event 0x0202 p p) := by
  have hacts : s.hostWaits (.regWrite fn (adrPrtCtrl p) 1) = false := by
    simp [State.hostWaits, hh, granuleBusy_of_name (locate_adrPrtCtrl hp)]
  rw [execPrtLock, partWrite_requests hp hf hown, State.hostReq_acts hacts, State.hostAct, State.writeAt_lock_early hp hr]

/-- It waits behind an earlier posted write (R303). -/
theorem execPrtLock_waits (hh : s.hostHeld = true) : execPrtLock fn p s =
    .next { s with hrt := { s.hrt with hostWait := s.hrt.hostWait ++ [.regWrite fn (adrPrtCtrl p) 1] } } := by
  rw [execPrtLock, partWrite_requests hp hf hown, State.hostReq_waits (by simp [State.hostWaits, hh])]

end

/-! Writes by BAR0 offset while a partition is RESETTING (R526). -/

section
variable (hpl : s.place fn o = .reg a) (hl : locate a = some (d, i, j)) (hi : instPart d i = some p) (hr : s.inReset p = true)
include hpl hl hi hr

/-- Such a write of any register but PRT_CTRL is dropped. -/
theorem State.writeWord_resetting (hd : d.name ≠ "PRT_CTRL") : s.writeWord fn o v = s.event 0x0206 p p := by
  simp [State.writeWord, State.writeAt, hpl, hl, hi, Option.filter, hr, hd]

/-- One of PRT_CTRL follows its own rules. -/
theorem State.writeWord_prtCtrl (hd : d.name = "PRT_CTRL") : s.writeWord fn o v = s.applyWrite fn d i j a v := by
  simp [State.writeWord, State.writeAt, hpl, hl, hi, Option.filter, hr, hd]

end

section
variable (hf : s.fnExists fn = true) (ho : o % 4 = 0)
include hf ho

/-- A 4-byte write at an aligned offset is one request of the host. -/
theorem execRegisterWrite_requests : execRegisterWrite fn o 4 v s = .next (s.hostReq (.wordWrite fn o (v % 2 ^ 32))) := by
  simp [execRegisterWrite, hf, ho]

/-- It acts at once while no earlier posted write waits, and no read of a granule whose owner it changes (R139, R303). -/
theorem execRegisterWrite_acts (hpl : s.place fn o = .reg a) (hh : s.hostHeld = false) (hg : s.granuleBusy a = false) :
    execRegisterWrite fn o 4 v s = .next (s.writeWord fn o (v % 2 ^ 32)) := by
  rw [execRegisterWrite_requests hf ho, State.hostReq_acts (by simp [State.hostWaits, hh, hpl, hg]), State.hostAct]

end

end

/-- Settles O56: the conditions of R329 in order (the lemmas of `State.lockFails`) decide between a lock, which the checks of the kept
doorbells leave (`State.keptBells_st`), and the event that names the first that fails. -/
theorem lockConditions : Obligations.LockConditions := by
  refine ⟨?_, fun _ _ _ h hk hr hc => execPrtLock_fails h hk hr (State.lockFails_state hc),
    fun _ _ _ h hk hr hc hg => execPrtLock_fails h hk hr (State.lockFails_granule hc hg),
    fun _ _ _ h hk hr hc hg hb => execPrtLock_fails h hk hr (State.lockFails_backing hc hg hb),
    fun _ _ _ h hk hr hc hg hb ha hw => execPrtLock_fails h hk hr (State.lockFails_power hc hg hb ha hw),
    fun _ _ _ h hk hr hc hg hb hw hs => execPrtLock_fails h hk hr (State.lockFails_slice hc hg hb hw hs),
    fun _ _ _ h hk hr => execPrtLock_again h hk hr, fun _ _ _ h0 hp => execPrtLock_foreign h0 hp⟩
  rintro s fn p _ h hk hr rfl hc hg hb hw hs
  exact execPrtLock_hasLock h hk hr (State.lockFails_none hc hg hb hw hs)

/-- Settles O55: a LOCK that acts while READY is 0 does nothing else than record (`State.writeAt_lock_early`), at once or after its wait. -/
theorem lockNeedsReady : Obligations.LockNeedsReady :=
  ⟨fun _ _ _ hp hf hown hh hr => execPrtLock_early hp hf hown hh hr,
    fun _ _ _ hp hf hown hh => execPrtLock_waits hp hf hown hh,
    fun _ _ _ hp _ hr => State.writeAt_lock_early hp hr⟩

/-- Settles O53: the write acts or waits as a request of the host, and acts by the register that its offset names
(`State.writeWord_resetting`, `State.writeWord_prtCtrl`). -/
theorem writesWhileResettingDrop : Obligations.WritesWhileResettingDrop := by
  refine ⟨?drop, ?control, ?wait, fun _ _ _ _ _ _ _ _ _ hpl hl hi hr hd => State.writeWord_resetting hpl hl hi hr hd⟩
  case drop =>
    intro s fn o a v d i j p hf ho hpl hl hi hr hd hh hg
    exact (execRegisterWrite_acts hf ho hpl hh hg).trans (by rw [State.writeWord_resetting hpl hl hi hr hd])
  case control =>
    intro s fn o a v d i j p hf ho hpl hl hi hr hd hh hg
    exact (execRegisterWrite_acts hf ho hpl hh hg).trans (by rw [State.writeWord_prtCtrl hpl hl hi hr hd])
  case wait =>
    intro s fn o v hf ho hv hw
    refine (execRegisterWrite_requests hf ho).trans ?_
    rw [Nat.mod_eq_of_lt hv, State.hostReq_waits hw]

end Sys2Proof.Machine
end

section
/-! PROOFS. The semaphore and barrier opcodes, and the start of packets at tongs and anvils (R103, R367, R370, R371, R373 to R376, R391). -/
namespace Sys2Proof.Machine

section
variable {s t u : State} {k a i j : Nat} {w : Word} {x : Pkt} {b : WBuf}

/-! Semaphores and barriers (R391). -/

theorem execSemSet_sets (h : Starts s 0x70 k x t) (hi : i = u16 x.bytes 0x10) (hw : (t.sem x.part i).waiters = []) :
    execSemSet k s = .next ((t.semWrite x.part i (u32 x.bytes 0x14)).done k (leBytes 4 (t.sem x.part i).value)) := by
  subst hi
  rw [execSemSet, runOp_starts _ h]
  simp [hw]

theorem execSemSignal_signals (h : Starts s 0x71 k x t) (hi : i = u16 x.bytes 0x10) (hu : u = t.semSignal x.part i (u8 x.bytes 0x12)) :
    execSemSignal k s = .next (u.done k (leBytes 4 (u.sem x.part i).value)) := by
  subst hi hu
  exact runOp_starts _ h

/-- A barrier with arrivals keeps its word. -/
theorem execBarrierSet_sets (h : Starts s 0x72 k x t) (hj : j = u16 x.bytes 0x10)
    (hw : w = barrierWord (u16 x.bytes 0x12) (u8 x.bytes 0x14) (u8 x.bytes 0x15))
    (ha : (t.barrier x.part j).arrivals = 0 ∨ w = s.reg (adrSemBarrier x.part j)) :
    execBarrierSet k s = .next ((t.setReg (adrSemBarrier x.part j) w).done k []) := by
  subst hj hw
  rw [← h.reg] at ha
  rw [execBarrierSet, runOp_starts _ h]
  rcases ha with ha | ha <;> simp [ha]

theorem execBarrierArrive_arrives (h : Starts s 0x73 k x t) (hj : j = u16 x.bytes 0x10)
    (hu : u = t.arrive x.part j (u16 x.bytes 0x12)) :
    execBarrierArrive k s = .next (u.done k (leBytes 2 (u.barrier x.part j).gen)) := by
  subst hj hu
  exact runOp_starts _ h

/-! Tongs (R370, R371): a packet starts at its tong while that runs nothing. -/

theorem execTongDesc_starts (h : Starts s 0x10 k x t) (hf : s.tongFree (u8 x.bytes 0x40) = true) : execTongDesc k s =
    .next (t.setTong (u8 x.bytes 0x40) { st := .running, pkt := some k, desc := slice x.bytes 0x10 48 }) :=
  runWhen_starts _ h hf

theorem execTongList_starts (h : Starts s 0x11 k x t) (hf : s.tongFree (u8 x.bytes 0x10) = true) : execTongList k s =
    .next ((t.setTong (u8 x.bytes 0x10) { st := .running, pkt := some k }).loadDesc x.part (u8 x.bytes 0x10) (u32 x.bytes 0x14)) :=
  runWhen_starts _ h hf

theorem execFill_starts (h : Starts s 0x12 k x t) (hf : s.tongFree (u8 x.bytes 0x10) = true) :
    execFill k s = .next (t.setTong (u8 x.bytes 0x10) { st := .running, pkt := some k, fill := true }) :=
  runWhen_starts _ h hf

/-! Anvils (R373 to R376). -/

theorem Starts.anvil {op : Nat} (h : Starts s op k x t) (a : Nat) : t.anvil a = s.anvil a := by
  rw [h.2, State.startPkt_anvil]

/-- A load joins the loading buffer `b` that its NEW leaves, where its region fits beside those of the buffer and of the shadow (R170,
R373). -/
theorem State.startLoad_loads (hv : ((t.anvil (u8 x.bytes 0x10)).loading.invalid && !loadNew x.bytes) = false)
    (hb : b = if loadNew x.bytes then { (t.anvil (u8 x.bytes 0x10)).loading with regions := [] }
      else (t.anvil (u8 x.bytes 0x10)).loading.drop (loadRegion x.bytes).id)
    (ho : b.regions.any (loadRegion x.bytes).overlaps = false)
    (hs : (t.anvil (u8 x.bytes 0x10)).shadow.any (fun (_, _, q) => q.overlaps (loadRegion x.bytes)) = false)
    (hn : b.regions.length + (t.anvil (u8 x.bytes 0x10)).shadow.length < 16) : t.startLoad k x =
    t.setAnvil (u8 x.bytes 0x10) { (t.anvil (u8 x.bytes 0x10)).setLoading b with load := some k } := by
  simp only [State.startLoad, hv, ← hb, ho, hs, hn.not_ge, Bool.or_self, Bool.false_eq_true, if_false]

section
variable (h : Starts s 0x20 k x t) (ha : a = u8 x.bytes 0x10) (hl : (s.anvil a).load = none) (hst : s.stopOn a = false)
  (hs : (s.anvil a).shadow.any (fun (_, _, q) => q.overlaps (loadRegion x.bytes)) = false)
include h ha hl hst hs

/-- Without NEW the load takes the place of the region of its number. -/
theorem execWeightLoad_adds (hnew : loadNew x.bytes = false) (hv : (s.anvil a).loading.invalid = false)
    (hb : b = (s.anvil a).loading.drop (loadRegion x.bytes).id) (ho : b.regions.any (loadRegion x.bytes).overlaps = false)
    (hn : b.regions.length + (s.anvil a).shadow.length < 16) :
    execWeightLoad k s = .next (t.setAnvil a { (s.anvil a).setLoading b with load := some k }) := by
  subst ha
  rw [← h.anvil] at hv hb hs hn ⊢
  rw [execWeightLoad, runWhen_starts _ h (by simp [hl, hst]), State.startLoad_loads (by simp [hv]) (by simpa [hnew] using hb) ho hs hn]

/-- With NEW it is the buffer's only one. -/
theorem execWeightLoad_renews (hnew : loadNew x.bytes = true) (hn : (s.anvil a).shadow.length < 16) : execWeightLoad k s =
    .next (t.setAnvil a { (s.anvil a).setLoading { (s.anvil a).loading with regions := [] } with load := some k }) := by
  subst ha
  rw [← h.anvil] at hs hn ⊢
  rw [execWeightLoad, runWhen_starts _ h (by simp [hl, hst]),
    State.startLoad_loads (by simp [hnew]) (by simp only [hnew, if_true]; rfl) rfl hs (by simpa using hn)]

end

section
variable (h : Starts s 0x21 k x t) (ha : a = u8 x.bytes 0x10) (hi : s.issueOn x.part = true) (hst : s.stopOn a = false)
include h ha hi hst

/-- A pass of the active buffer runs beside those that run. -/
theorem execPass_starts (hsw : passSwap x.bytes = false) (hb : t.passBad x.part x.bytes (s.anvil a).activeBuf = none) :
    execPass k s = .next (t.setAnvil a { s.anvil a with passes := (s.anvil a).passes ++ [k] }) := by
  subst ha
  rw [execPass, runWhen_starts _ h (by simp [hsw, hi, hst])]
  simp [State.startPass, h.anvil, hsw, hb]

/-- SWAP makes the loaded buffer active once nothing runs (R103). -/
theorem execPass_swaps (hsw : passSwap x.bytes = true) (hl : (s.anvil a).load = none) (hp : (s.anvil a).passes = [])
    (hb : t.passBad x.part x.bytes (s.anvil a).loading = none) :
    execPass k s = .next (t.setAnvil a { s.anvil a with active := 1 - (s.anvil a).active % 2, passes := [k] }) := by
  subst ha
  rw [execPass, runWhen_starts _ h (by simp [hl, hp, hi, hst])]
  simp [State.startPass, h.anvil, hsw, hb, hp]

end

section
variable (hf : (s.anvil a).vecFree = true) (hi : s.issueOn x.part = true) (hst : s.stopOn a = false)
include hf hi hst

/-- An epilogue needs a valid table where it names one (R91). -/
theorem execEpilogue_starts (h : Starts s 0x22 k x t) (ha : a = u8 x.bytes 0x10)
    (ht : u8 x.bytes 0x12 = 0xFF ∨ tableValid (t.table x.part (u8 x.bytes 0x12)) = true) :
    execEpilogue k s = .next (t.setAnvil a { s.anvil a with vec := some k }) := by
  subst ha
  have hvalid : (u8 x.bytes 0x12 != 0xFF && !tableValid (t.table x.part (u8 x.bytes 0x12))) = false := by
    rcases ht with ht | ht <;> simp [ht]
  rw [execEpilogue, runWhen_starts _ h (by simp [hf, hi, hst])]
  simp [State.startEpilogue, h.anvil, hvalid]

/-- So does GATE. -/
theorem execVecOp_starts (h : Starts s 0x23 k x t) (ha : a = u8 x.bytes 0x13)
    (ht : u8 x.bytes 0x10 ≠ 0x19 ∨ tableValid (t.table x.part (u8 x.bytes 0x28)) = true) :
    execVecOp k s = .next (t.setAnvil a { s.anvil a with vec := some k }) := by
  subst ha
  have hvalid : (u8 x.bytes 0x10 == 0x19 && !tableValid (t.table x.part (u8 x.bytes 0x28))) = false := by
    rcases ht with ht | ht <;> simp [ht]
  rw [execVecOp, runWhen_starts _ h (by simp [hf, hi, hst])]
  simp [State.startVec, h.anvil, hvalid]

end

end

/-- Settles O2: each packet acts on the state in which it has started (`runOp_starts`). -/
theorem semaphoreOpcodesComplete : Obligations.SemaphoreOpcodesComplete :=
  ⟨fun _ _ _ _ _ h hi hw => execSemSet_sets h hi hw,
    fun _ _ _ _ _ _ h hi hu => execSemSignal_signals h hi hu,
    fun _ _ _ _ _ _ h hj hw ha => execBarrierSet_sets h hj hw ha,
    fun _ _ _ _ _ _ h hj hu => execBarrierArrive_arrives h hj hu⟩

/-- Settles O4: a free tong is what each of the three waits for (`runWhen_starts`). -/
theorem tongOpcodesStart : Obligations.TongOpcodesStart :=
  ⟨fun _ _ _ _ h hf => execTongDesc_starts h hf, fun _ _ _ _ h hf => execTongList_starts h hf,
    fun _ _ _ _ h hf => execFill_starts h hf⟩

/-- Settles O7: the start of a packet leaves the anvils alone (`Starts.anvil`), so that it starts in the anvil it met. -/
theorem anvilOpcodesStart : Obligations.AnvilOpcodesStart :=
  ⟨fun _ _ _ _ _ _ h ha hl hst hnew hv hb ho hs hn => execWeightLoad_adds h ha hl hst hs hnew hv hb ho hn,
    fun _ _ _ _ _ h ha hl hst hnew hs hn => execWeightLoad_renews h ha hl hst hs hnew hn,
    fun _ _ _ _ _ h ha hi hst hsw hb => execPass_starts h ha hi hst hsw hb,
    fun _ _ _ _ _ h ha hi hst hsw hl hp hb => execPass_swaps h ha hi hst hsw hl hp hb,
    fun _ _ _ _ _ h ha hf hi hst ht => execEpilogue_starts hf hi hst h ha ht,
    fun _ _ _ _ _ h ha hf hi hst ht => execVecOp_starts hf hi hst h ha ht⟩

end Sys2Proof.Machine
end

section
/-! PROOFS. Fetch and dispatch of packets, their timeouts, and what reaches a ring from elsewhere (R147, R350 to R353, R358 to R360, R362). -/
namespace Sys2Proof.Machine

section
variable {s t : State} {p i j k n c : Nat} {x : Pkt} {f : List Byte}

/-! Bursts (R350, R352). -/

/-- The fetch engine issues one burst of the ring that the two round robins pick. -/
theorem execFetchBurstIssue_issues (hp : s.nextPart 8 (s.fetchRR + 1) = some p)
    (hi : s.pickRing p 288 (s.part p).ringPtr = some (i, t)) : execFetchBurstIssue s = .next { t.issueBurst p i with fetchRR := p } := by
  simp only [execFetchBurstIssue, State.fetchIssue, hp, hi]

/-- A whole burst makes its entries packets, and the ring goes on unless a stop was asked for. -/
theorem execFetchBurstArrive_takes {b : Burst} (hb : (s.sq p i).burst = some b) (hf : b.fail = 0) (hg : b.got = 64 * b.count)
    (hn : n = s.sqSize p i)
    (ht : t = State.each (s.setSq p i { s.sq p i with burst := none, head := ((s.sq p i).head + b.count) % (2 * n) })
      (entriesOf b.count b.data).zipIdx (fun u e => State.takeEntry State.fetchCheck u p i ((b.start + e.2) % n) e.1))
    (hs : (t.sq p i).stopReq = false) : execFetchBurstArrive p i s = .next t := by
  subst hn ht
  simp only [execFetchBurstArrive, State.burstArrived, hb, hf, hg, lt_irrefl, bne_self_eq_false, Bool.false_eq_true, if_false]
  exact congrArg _ (if_neg (by simp only [hs, Bool.false_eq_true, not_false_eq_true]))

/-! Dispatch (R353). -/

/-- The next packet of a ring goes to its unit where its fences allow. -/
theorem execPacketDispatch_dispatches {ks : List Nat} (hk : (s.sq p i).fetched = k :: ks) (hx : s.pkt k = some x)
    (hf : x.fence = false ∨ s.fenceClear p i k = true) (hp : x.pfence = false ∨ s.pfenceClear p = true) :
    execPacketDispatch p i s = .next (State.unitAdvance
      (State.setPkt { s.setSq p i { s.sq p i with fetched := ks } with nextOrder := s.nextOrder + 1 } k
        { x with phase := .dispatched, order := s.nextOrder, dispT := s.osc }) x.unit) := by
  have hfree : ((x.fence && !s.fenceClear p i k) || (x.pfence && !s.pfenceClear p)) = false := by
    rcases hf with hf | hf <;> rcases hp with hp | hp <;> simp [hf, hp]
  simp only [execPacketDispatch, State.dispatchNext, hk, hx, hfree, Bool.false_eq_true, if_false]
  rfl

/-! Timeouts (R147, R358, R359). -/

/-- An event grants no wait. -/
theorem State.event_granted (s : State) (c src part : Nat) (w : Waiter) : (s.event c src part).granted w = s.granted w := by
  obtain ⟨r, e, h⟩ := s.event_touches c src part
  rw [h]
  rfl

section
variable (hp : x.phase ≠ .started) (hg : s.granted (.pkt k) = false)
include hp hg

/-- The timeout of a packet that has not started withdraws it, and ends the header wait that it has made. -/
theorem State.pktTimeout_withdraws : s.pktTimeout k x = State.withdraw
    (if x.waitMade then ((s.bump (adrTimeouts x.part)).event 0x0302 x.sq x.part).event 0x1106 x.waitSem x.part
      else (s.bump (adrTimeouts x.part)).event 0x0302 x.sq x.part) k x := by
  have hwait : ((s.bump (adrTimeouts x.part)).event 0x0302 x.sq x.part).granted (.pkt k) = false :=
    (State.event_granted ..).trans hg
  simp [State.pktTimeout, hp, hwait]

variable (hx : s.pkt k = some x) (ht : s.timeoutOf x ≠ 0)
include hx ht

/-- Its own timeout is observed where it waits for nothing. -/
theorem execPacketTimeout_withdraws (hl : x.late = false) (hw : x.waitMade = false) : execPacketTimeout k s =
    .next (((s.bump (adrTimeouts x.part)).event 0x0302 x.sq x.part).withdraw k x) := by
  simp [execPacketTimeout, State.withPkt_some hx, ht, hl, State.pktTimeout_withdraws hp hg, hw]

/-- The timeout of a semaphore's waiter is that of its packet. -/
theorem execSemWaitTimeout_withdraws (hj : (s.sem p i).waiters[j]? = some (.pkt k, c)) (hw : x.waitMade = true) :
    execSemWaitTimeout p i j s = .next (State.withdraw
      (((s.bump (adrTimeouts x.part)).event 0x0302 x.sq x.part).event 0x1106 x.waitSem x.part) k x) := by
  simp [execSemWaitTimeout, hj, State.withPkt_some hx, ht, State.pktTimeout_withdraws hp hg, hw]

end

/-- The time limit of a completion ring's interrupt sends its message (R360). -/
theorem execCqInterruptTimer_sends (hr : (s.cq p j).timer = true) (hc : s.rf (adrCmdCqIrq p j) 6 6 = 1) :
    execCqInterruptTimer p j s = .next (s.cqMessage p j) := by
  simp [execCqInterruptTimer, hr, hc]

/-! Doorbells by management frames (R362). -/

/-- A doorbell reaches a partition whose rings a proxy serves. -/
theorem execManagementFrameReceived_rings (ha : s.arrived 8 p f = true) (ht : t = s.consume p f) (hg : mgmtGood f = true)
    (hd : u8 f 32 = 1) (hc : t.rf (adrPciProxyCfg p) 24 24 = 1) : execManagementFrameReceived p f s =
      .next (if bitAt (u8 f 33) 4 then t.cqDoorbell p (u8 f 33 % 16) (u32 f 36) else t.sqDoorbell p (u8 f 33 % 16) (u32 f 36) false) := by
  subst ht
  rw [execManagementFrameReceived, onFrame_arrived _ ha]
  simp [hg, State.mgmt, hd, hc]

end

/-- Settles O3: one lemma for each command; the two timeouts withdraw a packet that has not started alike
(`State.pktTimeout_withdraws`). -/
theorem fetchAndDispatchComplete : Obligations.FetchAndDispatchComplete :=
  ⟨fun _ _ _ _ hp hi => execFetchBurstIssue_issues hp hi,
    fun _ _ _ _ _ _ hb hf hg hn ht hs => execFetchBurstArrive_takes hb hf hg hn ht hs,
    fun _ _ _ _ _ _ hk hx hf hp => execPacketDispatch_dispatches hk hx hf hp,
    fun _ _ _ hx ht hl hp hg hw => execPacketTimeout_withdraws hp hg hx ht hl hw,
    fun _ _ _ _ _ _ _ hj hx ht hp hg hw => execSemWaitTimeout_withdraws hp hg hx ht hj hw,
    fun _ _ _ hr hc => execCqInterruptTimer_sends hr hc,
    fun _ _ _ _ ha ht hg hd hc => execManagementFrameReceived_rings ha ht hg hd hc⟩

end Sys2Proof.Machine
end

section
/-! PROOFS. The setup of a line: its packets at the members, and the frames that go round the line (R385, R386). COMMIT, UNDO and the
teardown frame go the way of log entries 22 and 55. -/
namespace Sys2Proof.Machine

section
variable {s t u : State} {k p : Nat} {re : Bool} {f b : List Byte} {l : Line} {x : Setup} {pk : Pkt}

/-! The packets (R385, R386). -/

/-- State `s` in which partition `p` keeps setup `x` of a line as well. -/
def State.keepSetup (s : State) (p : Nat) (x : Setup) : State := s.modPart p fun q => { q with setups := q.setups ++ [x] }

section
variable (hl : l = t.lineOf pk.part pk.bytes)
include hl

/-- The entry member whose own check passes sends SETUP round the line. -/
theorem State.startSetup_entry (he : l.entry = true) (hu : u = t.noteDesc pk.part pk.bytes re) (hm : (u.part pk.part).procession = false)
    (ha : u.addrValid = true) (hs : u.lineShape pk.part pk.bytes = true) (hh : u.hopCredits l = true)
    (hc : u.lineCheck pk.part pk.bytes re = 0) : t.startSetup k pk re =
      (u.keepSetup pk.part ⟨k, l, re, 0, true, 0⟩).sendLine pk.part l
        (lineBody 0x10 0 0xFFFF l.id ((u.keepSetup pk.part ⟨k, l, re, 0, true, 0⟩).partAddr pk.part)) := by
  simp [State.startSetup, State.keepSetup, ← hl, he, ← hu, hm, ha, hs, hh, hc]

/-- Another member's packet waits for it. -/
theorem State.startSetup_member (he : l.entry = false) (hm : (t.part pk.part).procession = false) (ha : t.addrValid = true) :
    t.startSetup k pk re = t.keepSetup pk.part ⟨k, l, re, 0, false, 0⟩ := by
  simp [State.startSetup, State.keepSetup, ← hl, he, hm, ha]

end

theorem execLineSetup_starts (h : Starts s 0x40 k pk t) : execLineSetup k s = .next (t.startSetup k pk false) := runOp_starts _ h

theorem execLineReroute_starts (h : Starts s 0x41 k pk t) : execLineReroute k s = .next (t.startSetup k pk true) := runOp_starts _ h

/-- The entry member tears a line down that no stream uses (R386). -/
theorem execLineTeardown_sends (h : Starts s 0x42 k pk t) (hl : t.line? pk.part (u16 pk.bytes 0x10) = some l) (he : l.entry = true)
    (hf : (t.part pk.part).strms.any (fun y => y.line == l.id) = false) : execLineTeardown k s =
      .next ((t.modPart pk.part fun q => { q with jobs := q.jobs ++ [⟨k, 0x42, 0, l.id, 0, 0, true, [], 0, 0⟩] }).sendLine pk.part l
        (streamBody 0x25 0 0 l.id (k % 2 ^ 32) 0 0 [])) := by
  rw [execLineTeardown, runOp_starts _ h]
  simp only [hl, he, hf, Bool.not_true, Bool.or_self, Bool.false_eq_true, if_false]

/-! SETUP (R385). -/

/-- State `s` in which the setup of packet `k` has passed its own member's check. -/
def State.passSetup (s : State) (p k : Nat) : State :=
  s.modPart p fun q => { q with setups := q.setups.map fun y => if y.pkt == k then { y with passed := true, result := 0 } else y }

/-- A good SETUP frame `f` waits at partition `p`, which keeps the packet of its line; `t` is the state in which it has been taken, and
`x` the setup that it then meets. -/
structure State.SetupFrame (s : State) (p : Nat) (f : List Byte) (x : Setup) (t : State) : Prop where
  op : u8 f 0x20 = 0x10
  good : lineFrameGood f = true
  arrived : s.arrived 4 p f = true
  kept : (s.setup? p (u16 f 0x24)).isSome = true
  taken : t = s.consume p f
  setup : t.setup? p (u16 f 0x24) = some x

/-- Such a frame is acted on at once. -/
theorem execSetupFrameReceived_acts (h : s.SetupFrame p f x t) : execSetupFrameReceived p f s = .next (t.setupFrame p f) := by
  obtain ⟨hop, hg, ha, hk, rfl, -⟩ := h
  have hkept : (s.setup? p (u16 f 0x24)).isNone = false := by
    simpa [Option.isSome_iff_ne_none] using hk
  simp [execSetupFrameReceived, hop, hg, hkept, onFrame_arrived _ ha]

/-- Back at the entry member, it ends the circuit. -/
theorem State.setupFrame_entry (hx : t.setup? p (u16 f 0x24) = some x) (he : x.line.entry = true) :
    t.setupFrame p f = t.endCircuit p x (u8 f 0x21) (u16 f 0x22) := by
  simp only [State.setupFrame, hx, he, if_true]

/-- At a member whose own check passes, a frame without a failure goes on as it came. -/
theorem State.setupFrame_member {own : Nat} (hx : t.setup? p (u16 f 0x24) = some x) (he : x.line.entry = false)
    (hb : b = ((t.pkt x.pkt).map (·.bytes)).getD []) (hown : own = (t.noteDesc p b x.reroute).lineCheck p b x.reroute)
    (hst : u8 f 0x21 = 0) (h0 : own = 0) (hs : ((t.noteDesc p b x.reroute).passSetup p x.pkt).lineShape p b = true) : t.setupFrame p f =
      ((t.noteDesc p b x.reroute).passSetup p x.pkt).sendLine p x.line
        (lineBody 0x10 0 (u16 f 0x22) (u16 f 0x24) (u32 f 0x28)) := by
  simp only [State.setupFrame, hx, he, ← hb, ← hown, hst, h0, firstFail, beq_self_eq_true, bne_self_eq_false, Bool.and_false,
    Bool.false_eq_true, if_true, if_false]
  exact if_pos hs

/-! COMMIT and UNDO (R385). -/

section
variable (hg : lineFrameGood f = true) (ha : s.arrived 4 p f = true) (ht : t = s.consume p f)
  (hx : t.setup? p (u16 f 0x24) = some x) (he : x.line.entry = false)
include hg ha ht hx he

/-- COMMIT completes the packet of a member that SETUP has passed. -/
theorem execSetupCommitReceived_ends (hop : u8 f 0x20 = 0x11) (hp : x.passed = true) :
    execSetupCommitReceived p f s = .next (t.endSetup p x 0 0xFFFF) := by
  subst ht
  simp [execSetupCommitReceived, hop, onFrame_arrived _ ha, hg, hx, hp, he]

/-- UNDO completes it with the status and the place of the failure. -/
theorem execSetupUndoReceived_ends (hop : u8 f 0x20 = 0x12) :
    execSetupUndoReceived p f s = .next (t.endSetup p x (u8 f 0x21) (u16 f 0x22)) := by
  subst ht
  simp [execSetupUndoReceived, hop, onFrame_arrived _ ha, hg, hx, he]

end

/-! The two time limits (R385). -/

/-- A frame that finds no packet goes back to the entry member with TIMEOUT (log entry 55). -/
theorem execSetupFetchTimeout_returns (hop : u8 f 0x20 = 0x10) (ha : s.arrived 4 p f = true) (hx : s.setup? p (u16 f 0x24) = none)
    (hst : u8 f 0x21 = 0) : execSetupFetchTimeout p f s = .next ((s.consume p f).sendFrame p 4 4 (u32 f 0x28) 0 0
      (lineBody 0x10 0x20 0xFFFE (u16 f 0x24) (u32 f 0x28))) := by
  simp [execSetupFetchTimeout, hop, hx, onFrame_arrived _ ha, hst, firstFail]

/-- A packet that finds no frame completes with TIMEOUT. -/
theorem execSetupFrameWaitTimeout_ends (hk : s.pkt k = some pk)
    (hx : (s.part pk.part).setups.find? (fun y => y.pkt == k && !y.passed) = some x) :
    execSetupFrameWaitTimeout k s = .next (s.endSetup pk.part x 0x20 0xFFFF) := by
  simp only [execSetupFrameWaitTimeout, hk, hx]

end

/-- Settles O13: LINE_SETUP and LINE_REROUTE differ in what their check allows alone (`State.startSetup_entry`). -/
theorem lineSetupStarts : Obligations.LineSetupStarts :=
  ⟨fun _ _ _ _ _ _ h hl he hu hm ha hs hh hc => (execLineSetup_starts h).trans (congrArg _ (State.startSetup_entry hl he hu hm ha hs hh hc)),
    fun _ _ _ _ _ h hl he hm ha => (execLineSetup_starts h).trans (congrArg _ (State.startSetup_member hl he hm ha)),
    fun _ _ _ _ _ _ h hl he hu hm ha hs hh hc => (execLineReroute_starts h).trans (congrArg _ (State.startSetup_entry hl he hu hm ha hs hh hc)),
    fun _ _ _ _ _ h hl he hf => execLineTeardown_sends h hl he hf⟩

/-- Settles O14: a SETUP frame is taken (`execSetupFrameReceived_acts`), where the entry member and another differ; COMMIT, UNDO and the
two time limits end a setup each. -/
theorem lineSetupCompletes : Obligations.LineSetupCompletes := by
  refine ⟨?circuit, ?onward,
    fun _ _ _ _ _ hop hg ha ht hx hp he => execSetupCommitReceived_ends hg ha ht hx he hop hp,
    fun _ _ _ _ _ hop hg ha ht hx he => execSetupUndoReceived_ends hg ha ht hx he hop,
    fun _ _ _ hop ha hx hst => execSetupFetchTimeout_returns hop ha hx hst,
    fun _ _ _ _ hk hx => execSetupFrameWaitTimeout_ends hk hx⟩
  case circuit =>
    intro s p f x t hop hg ha hk ht hx he
    exact (execSetupFrameReceived_acts ⟨hop, hg, ha, hk, ht, hx⟩).trans (congrArg _ (State.setupFrame_entry hx he))
  case onward =>
    intro s p f x t b own hop hg ha hk ht hx he hb hown hst h0 hs
    exact (execSetupFrameReceived_acts ⟨hop, hg, ha, hk, ht, hx⟩).trans
      (congrArg _ (State.setupFrame_member hx he hb hown hst h0 hs))

end Sys2Proof.Machine
end

section
/-! PROOFS. The event recorder: events taken, tokens, the archive and the recorder's packets (R393, R472, R482 to R492). -/
namespace Sys2Proof.Machine

section
variable {s t : State} {k c i : Nat} {e : Ev} {q : List Ev} {r : Rec} {x : Pkt} {m : Persist}

/-- While the steward smith runs, the oldest event of the queue is recorded (R472, R482). -/
theorem execEvrEventTaken_records (hb : s.boot ≠ .off) (hq : s.evr.queue = e :: q) :
    execEvrEventTaken s = .next (State.record (s.setEvr fun v => { v with queue := q }) e) := by
  simp [execEvrEventTaken, hb, hq]

/-! The archive (R490). -/

section
variable (hb : s.boot ≠ .off) (hr : s.nvs.running = none)
include hb hr

/-- The oldest unarchived record goes to the archive while no host work does. -/
theorem execArchiveRecord_archives (hh : s.nvs.host = none) (hu : s.unarchived = some (i, r)) :
    execArchiveRecord s = .next (s.archive i r) := by
  simp [execArchiveRecord, hb, hr, hh, hu]

/-- The mark ends persistence once no record and no event is left. -/
theorem execArchiveRecord_marks (hu : s.unarchived = none) (hm : s.evr.persist = some m) (hq : s.evr.queue = []) :
    execArchiveRecord s = .next (s.writeMark m) := by
  simp [execArchiveRecord, hb, hr, hu, hm, hq]

end

/-! The recorder's packets (R393). -/

/-- EVR_COPY to Hearth of as many records as it asks for answers their number, the slot after them, and the events lost. -/
theorem execEvrCopy_fills {rs : List (Nat × Rec)} (h : Starts s 0x90 k x t) (hl : bitAt (u8 x.bytes 0x14) 0 = true)
    (hrs : rs = (t.evr.slots.filter fun (i, r) => decide (u16 x.bytes 0x10 ≤ i) && sees x.fn r).take (u16 x.bytes 0x12))
    (hn : rs.length = u16 x.bytes 0x12) : execEvrCopy k s =
      .next (State.done (t.writeHearth x.part (u64 x.bytes 0x18) (rs.flatMap fun (_, r) => recBytes r 0xA5)) k
        (leBytes 2 rs.length ++ leBytes 2 (((rs.getLast?).map (·.1 + 1)).getD (u16 x.bytes 0x10)) ++ leBytes 4
          (State.reg (t.writeHearth x.part (u64 x.bytes 0x18) (rs.flatMap fun (_, r) => recBytes r 0xA5)) adrEvrOverflow).toNat)) := by
  rw [execEvrCopy, runOp_starts _ h]
  simp only [← hrs, hn, hl, decide_true, if_true]

/-- EVR_CLEAR clears the recorder, or is refused (R489). -/
theorem execEvrClear_clears (h : Starts s 0x91 k x t) :
    execEvrClear k s = .next (if t.clearRefused false then t.failPkt k 0x14 else t.clearRecorder.done k []) := runOp_starts _ h

/-- EVR_PERSIST completes with the mark (R490). -/
theorem execEvrPersist_starts (h : Starts s 0x92 k x t) : execEvrPersist k s = .next (t.startPersist 2 [k]) := runOp_starts _ h

end

/-- Settles O44: one lemma for each command and course; the refill of a token has no condition. -/
theorem recorderCompletes : Obligations.RecorderCompletes :=
  ⟨fun _ _ _ hb hq => execEvrEventTaken_records hb hq,
    fun _ _ => rfl,
    fun _ _ _ hb hr hh hu => execArchiveRecord_archives hb hr hh hu,
    fun _ _ hb hr hu hm hq => execArchiveRecord_marks hb hr hu hm hq,
    fun _ _ _ _ _ h hl hrs hn => execEvrCopy_fills h hl hrs hn,
    fun _ _ _ _ h hc => (execEvrClear_clears h).trans (by simp [hc]),
    fun _ _ _ _ h hc => (execEvrClear_clears h).trans (by simp [hc]),
    fun _ _ _ _ h => execEvrPersist_starts h⟩

end Sys2Proof.Machine
end

section
/-! PROOFS. The flash packets, and the ends of flash operations (R394, R457 to R468). -/
namespace Sys2Proof.Machine

section
variable {s t : State} {k n c w a : Nat} {h : Bool} {x : Pkt} {j : NvJob} {o : List NvOp} {d : List Byte} {op : NvOp}

/-! The packets (R394, R465 to R467). -/

/-- A packet that stages an image or a configuration, which a slot holds and which is not in use, reads it from the host (R466). -/
theorem State.stagePkt_reads {ops : List HostOp} {config : Bool} {b : List Byte} (hb : t.flashBusy = false)
    (hu : t.slotInUse config ≠ some (u8 b 0x10)) (hl : u32 b 0x20 ≤ slotBytesMax config)
    (ho : ops = t.readOps 8 (u64 b 0x18) (u32 b 0x20) (.firmware k) 0) (hne : ops ≠ []) : t.stagePkt config k b =
      State.enq (t.setNvs fun n => { n with stage := some (k, List.replicate (u32 b 0x20) 0, ops.length, 0) }) 8 ops := by
  simp [State.stagePkt, hb, hu, hl.not_gt, ← ho, hne]

theorem execFwStage_starts (h : Starts s 0xA0 k x t) : execFwStage k s = .next (t.stagePkt false k x.bytes) := runOp_starts _ h

theorem execConfigWrite_starts (h : Starts s 0xA2 k x t) : execConfigWrite k s = .next (t.stagePkt true k x.bytes) := runOp_starts _ h

/-- FW_ACTIVATE of a slot that it may name appends a descriptor record, unless nothing changes (R467). -/
theorem execFwActivate_activates (h : Starts s 0xA1 k x t) (hb : t.flashBusy = false)
    (hr : t.activateRefused (u8 x.bytes 0x10) = false) : execFwActivate k s =
      .next ((t.activation (u8 x.bytes 0x10)).elim (t.done k []) fun c =>
        t.hostJob ⟨4, k, u8 x.bytes 0x10, t.runningSlot == some (u8 x.bytes 0x10), 0, [], [.desc c], true⟩) := by
  rw [execFwActivate, runOp_starts _ h]
  simp only [hb, hr, Bool.or_self, Bool.false_eq_true, if_false]
  cases t.activation (u8 x.bytes 0x10) <;> rfl

/-- FLASH_READ writes what the flash holds to the host. -/
theorem execFlashRead_copies (h : Starts s 0xA3 k x t) (hb : t.flashBusy = false) : execFlashRead k s = .next (State.done
    (t.hostWrite x.part (t.proxied x.part) (u64 x.bytes 0x18) (t.readFlash (u32 x.bytes 0x10) (u32 x.bytes 0x14)) false
      (.input x.part k)) k []) := by
  rw [execFlashRead, runOp_starts _ h]
  simp [hb]

/-! The ends of operations (R457, R460). -/

section
variable (hj : s.nvs.current = some (h, j))
include hj

/-- An erase ends with its blank check. -/
theorem execFlashOpDone_erase (ho : j.ops = .erase n c w :: o) (blank : Bool) : execFlashOpDone blank s =
    .next (if blank then State.nvLeave (s.eraseSector n) h j o else s.eraseFails h j n c w o) := by
  simp only [execFlashOpDone, hj, ho, State.nvEffect]

/-- A program ends whatever such a check would find. -/
theorem execFlashOpDone_prog (ho : j.ops = .prog a d :: o) (blank : Bool) :
    execFlashOpDone blank s = .next (State.nvLeave (s.programFlash a d) h j o) := by
  simp only [execFlashOpDone, hj, ho, State.nvEffect]

/-- An erase that stays busy fails its job, and its sector, unless a log's, is repaired later. -/
theorem execFlashBusyTimeout_fails (ho : j.ops = .erase n c w :: o) (hn : 4 ≤ n)
    (ht : t = State.bump (s.nvCut (.erase n c w)) adrFlashFaults) :
    execFlashBusyTimeout s = .next (State.nvFail (t.setNvs fun v => { v with half := insNat v.half n }) h j) := by
  simp only [execFlashBusyTimeout, hj, ho, State.opInfo, if_neg hn.not_gt, ← ht]

end

/-- The calibration is saved while the chip is READY (R465). -/
theorem execCalibrationSaveTimer_asks (hb : s.boot = .ready) : execCalibrationSaveTimer s = .next (s.ownAsk 2) := by
  simp [execCalibrationSaveTimer, hb]

end

/-- Settles O45: FW_STAGE and CONFIG_WRITE stage alike (`State.stagePkt_reads`); a flash operation ends by its kind. -/
theorem flashCommandsComplete : Obligations.FlashCommandsComplete :=
  ⟨fun _ _ _ _ _ h hb hu hl ho hne => (execFwStage_starts h).trans (congrArg _ (State.stagePkt_reads hb hu hl ho hne)),
    fun _ _ _ _ _ h hb hu hl ho hne => (execConfigWrite_starts h).trans (congrArg _ (State.stagePkt_reads hb hu hl ho hne)),
    fun _ _ _ _ h hb hr => execFwActivate_activates h hb hr,
    fun _ _ _ _ h hb => execFlashRead_copies h hb,
    fun _ _ _ _ _ _ _ hj ho => ⟨(execFlashOpDone_erase hj ho true).trans (congrArg _ (if_pos rfl)),
      (execFlashOpDone_erase hj ho false).trans (congrArg _ (if_neg Bool.false_ne_true))⟩,
    fun _ _ _ _ _ _ b hj ho => execFlashOpDone_prog hj ho b,
    fun _ _ _ _ _ _ _ _ hj ho hn ht => execFlashBusyTimeout_fails hj ho hn ht,
    fun _ hb => execCalibrationSaveTimer_asks hb⟩

end Sys2Proof.Machine
end

section
/-! PROOFS. The changeover between the inputs, and the rails (R398, R400 to R406, R409 to R414, R445). -/
namespace Sys2Proof.Machine

section
variable {s t : State} {r v w n vb vr vn : Nat} {b : Bool}

/-! The changeover (R409 to R414): what each command does by the state of Bellows that the sample meets. -/

section
variable (ht : t = s.sampleVolts vb vr vn)
include ht

/-- A bus that goes out leaves the load to a reserve within limits, or the chip parks. -/
theorem execInputOut_bus (ho : inWithin vb = false) (hs : t.bel.st = .sourceBus) : execInputOut true vb vr vn s =
    .next (if t.bel.within false then t.changeover false else t.enterPark) := by
  simp [execInputOut, ho, ← ht, hs]

/-- So does a reserve to the bus. -/
theorem execInputOut_reserve (ho : inWithin vr = false) (hs : t.bel.st = .sourceReserve) : execInputOut false vb vr vn s =
    .next (if t.bel.within true then t.changeover true else t.enterPark) := by
  simp [execInputOut, ho, ← ht, hs]

/-- A bus that has qualified takes the load back. -/
theorem execInputQualified_returns (hq : inWithin vb = true) (hs : t.bel.st = .sourceReserve) :
    execInputQualified true vb vr vn s = .next (t.changeover true) := by
  simp [execInputQualified, hq, ← ht, hs]

/-- In DARK an input that has qualified powers the chip up, while tries are left (R405). -/
theorem execInputQualified_powersUp (hq : inWithin (if b then vb else vr) = true) (hs : t.bel.st = .dark) (ha : t.aux = true)
    (hu : t.bel.up = none) (hr : t.bel.retry = none) (hn : t.bel.tries < 4) :
    execInputQualified b vb vr vn s = .next (t.powerUp b) := by
  simp only [execInputQualified, hq, ← ht, hs, ha, hu, hr, hn, Bool.not_true, Bool.false_eq_true, if_false, Option.isNone_none, Bool.and_self,
    decide_true, if_true]

end

/-- After the dead time the enable of the other input rises (R411). -/
theorem execFetDeadtimeExpiry_rises (hd : s.bel.dead = some b) : execFetDeadtimeExpiry s = .next (s.fets b (!b)) := by
  simp only [execFetDeadtimeExpiry, hd]

/-- A node within limits behind the FET turned on ends the changeover (R409, R411). -/
theorem execNodeSettled_settles (hn : inWithin vn = true)
    (hs : s.bel.st = .toReserve ∧ s.bel.resEn = true ∧ b = false ∨ s.bel.st = .toBus ∧ s.bel.busEn = true ∧ b = true) :
    execNodeSettled vb vr vn s = .next ((s.sampleVolts vb vr vn).settleOn b) := by
  obtain ⟨hs, he, rfl⟩ | ⟨hs, he, rfl⟩ := hs <;> simp [execNodeSettled, hn, hs, he]

/-- At 32 V in PARK the chip goes down (R414). -/
theorem execNodeAt32v_downs (hp : s.parked = true) (hn : vn ≤ 320) : execNodeAt32v vn s =
    .next (((s.sampleVolts s.bel.bus s.bel.res vn).event 0x4007 0 0xFF).powerDown) := by
  simp [execNodeAt32v, hp, hn]

/-! Rails (R405, R406). -/

/-- What a rail does leaves the power-up sequence where it stands. -/
theorem State.setRail_seq (s : State) (r st : Nat) (x : Option Nat) :
    (s.setRail r st x).bel.up = s.bel.up ∧ (s.setRail r st x).bel.fresh = s.bel.fresh := by
  cases x <;> exact ⟨rfl, rfl⟩

section
variable (hr : tget 0 s.bel.rails r = 1)
include hr

/-- A rail between the first and the last that is good commands the next one on. -/
theorem execRailPowerGood_next (hv : s.voutGood r v = true) (hu : s.bel.up = some (b, r)) (h1 : 1 ≤ r) (h7 : r < 7) :
    execRailPowerGood r v w s =
      .next (((s.setRail r 2 (some v)).modBel fun x => { x with up := some (b, r + 1) }).railOn (r + 1)) := by
  have hup : (s.setRail r 2 (some v)).bel.up = some (b, r) := (State.setRail_seq ..).1.trans hu
  have hfirst : r ≠ 0 := by omega
  simp [execRailPowerGood, hr, hv, hup, hfirst, h7]

/-- A rail that misses its ramp in the power-up sequence takes all of them down (R405). -/
theorem execRailRampTimeout_downs (hu : s.bel.up = some (b, n)) : execRailRampTimeout r s =
    .next ((((s.eventD 0x4008 r 0xFF [r]).setRail r 3 none).powerDown).allowRetry b) := by
  simp [execRailRampTimeout, hr, hu]

end

/-- VCORE, the last, ends the sequence: the chip enters its source state and is reset (R414, R445). -/
theorem execRailPowerGood_last (hr : tget 0 s.bel.rails 7 = 1) (hv : s.voutGood 7 v = true) (hu : s.bel.up = some (b, 7))
    (ht : t = (s.setRail 7 2 (some v)).modBel (fun x => { x with up := none, fresh := false })) : execRailPowerGood 7 v w s =
      .next ((t.belMove (if b then .sourceBus else .sourceReserve)).chipReset (if s.bel.fresh then 0 else 1)) := by
  obtain ⟨hup, hfresh⟩ := State.setRail_seq s 7 2 (some v)
  simp [execRailPowerGood, hr, hv, hup.trans hu, hfresh, ht]

/-- In DARK the retry is a power-up, from the input whose power-up failed where it is within limits (R405). -/
theorem execRailRetryTimer_powersUp (hs : s.bel.st = .dark) (hr : s.bel.retry = some b) (hw : s.bel.within b = true) :
    execRailRetryTimer r s = .next (s.powerUp b) := by
  simp [execRailRetryTimer, hs, hr, hw]

/-- Else it restarts its rail (R406). -/
theorem execRailRetryTimer_restarts (hs : s.bel.st ≠ .dark) (hr : s.bel.restart.contains r = true) : execRailRetryTimer r s =
    .next ((s.modBel fun x => { x with restart := x.restart.filter (· != r), restarted := insNat x.restarted r }).railOn r) := by
  simp only [execRailRetryTimer, beq_iff_eq, hs, hr, if_false, if_true]

/-- A good rail that faults in service takes its course (R404, R406). -/
theorem execRailFault_faults {c : Bool} (h8 : r < 8) (hs : s.bel.st ≠ .dark) (hg : s.railGood r = true) :
    execRailFault r w c s = .next ((s.setRf (adrBelRail r) 31 16 w).railFault r c) := by
  simp [execRailFault, h8, hs, hg]

end

/-- Settles O20: a sampled input acts by the state of Bellows that it meets, and by the other input (`execInputOut_bus`,
`execInputOut_reserve`). -/
theorem changeoverCompletes : Obligations.ChangeoverCompletes :=
  ⟨fun _ _ _ _ _ ho ht hs hw => (execInputOut_bus ht ho hs).trans (congrArg _ (if_pos hw)),
    fun _ _ _ _ _ ho ht hs hw => (execInputOut_bus ht ho hs).trans (congrArg _ (if_neg (Bool.eq_false_iff.mp hw))),
    fun _ _ _ _ _ ho ht hs hw => (execInputOut_reserve ht ho hs).trans (congrArg _ (if_pos hw)),
    fun _ _ _ _ _ hq ht hs => execInputQualified_returns ht hq hs,
    fun _ _ _ _ _ _ hq ht hs ha hu hr hn => execInputQualified_powersUp ht hq hs ha hu hr hn,
    fun _ _ hd => execFetDeadtimeExpiry_rises hd,
    fun _ _ _ _ hn hs he => execNodeSettled_settles hn (.inl ⟨hs, he, rfl⟩),
    fun _ _ _ _ hn hs he => execNodeSettled_settles hn (.inr ⟨hs, he, rfl⟩),
    fun _ _ hp hn => execNodeAt32v_downs hp hn⟩

/-- Settles O21: one lemma for each command and course. -/
theorem railsComplete : Obligations.RailsComplete :=
  ⟨fun _ _ _ _ _ hr hv hu h1 h7 => execRailPowerGood_next hr hv hu h1 h7,
    fun _ _ _ _ _ hr hv hu ht => execRailPowerGood_last hr hv hu ht,
    fun _ _ _ _ hr hu => execRailRampTimeout_downs hr hu,
    fun _ _ _ hs hr hw => execRailRetryTimer_powersUp hs hr hw,
    fun _ _ hs hr => execRailRetryTimer_restarts hs hr,
    fun _ _ _ _ h8 hs hg => execRailFault_faults h8 hs hg⟩

end Sys2Proof.Machine
end

section
/-! PROOFS. Bring-up: AUX power, the chip resets, the boot ROM and READY (R397, R399, R435, R444 to R456, R472, R504). -/
namespace Sys2Proof.Machine

section
variable {s : State} {c k : Nat} {f : Bool} {b : List Byte} {o : NvOp}

/-! AUX power (R397, R448). -/

theorem execAuxRise_rises (ha : s.aux = false) : execAuxRise s = .next s.auxRise := by
  simp [execAuxRise, ha]

section
variable (ha : s.aux = true)
include ha

/-- A fall of AUX leaves the flash as it is where no operation runs in it. -/
theorem execAuxFall_idle (hb : s.nvs.busy = none) : execAuxFall s = .next { s.auxRise with aux := false } := by
  simp [execAuxFall, ha, hb]

/-- It cuts one that runs (R461). -/
theorem execAuxFall_cuts (hb : s.nvs.busy = some o) : execAuxFall s = .next { State.auxRise (s.nvCut o) with aux := false } := by
  simp [execAuxFall, ha, hb]

end

/-! Chip resets (R444, R445). -/

section
variable (hb : s.boot ≠ .off)
include hb

theorem execChipReset_resets (h2 : 2 ≤ c) (h5 : c ≤ 5) : execChipReset c s = .next (s.chipReset c) := by
  simp [execChipReset, hb, h2, h5]

/-- The watchdog of the steward smith, which records events, leaves none. -/
theorem execSmithWatchdogExpiry_steward : execSmithWatchdogExpiry 0 s = .next (s.chipReset 3) := by
  simp [execSmithWatchdogExpiry, hb]

theorem execSmithWatchdogExpiry_other (h1 : 1 ≤ k) (h3 : k ≤ 3) :
    execSmithWatchdogExpiry k s = .next (State.chipReset (s.event 0x6008 k 0xFF) 3) := by
  have hk : k ≠ 0 := by omega
  simp [execSmithWatchdogExpiry, hb, h3.not_gt, hk]

end

/-! The boot ROM (R448, R455, R456). -/

/-- The ROM chooses an image once it has read the flash, which must be 64 MiB. -/
theorem execBootImageLoaded_rom (hb : s.boot = .rom) : execBootImageLoaded f s =
    .next (if f then State.bootImage s.romScan else State.toRecovery (s.event 0x5006 0 0xFF)) := by
  simp only [execBootImageLoaded, hb]

/-- In recovery an image received over the sideband runs. -/
theorem execBootImageLoaded_recovery (hb : s.boot = .recovery) (hi : s.nvs.sideImage = some b) : execBootImageLoaded f s =
    .next (State.startFirmware (s.setNvs fun n => { n with sideImage := none, pldm := {} }) b) := by
  simp only [execBootImageLoaded, hb, hi]

/-! READY (R435, R448). -/

section
variable (hh : s.rf adrGlbFaultStatus 20 20 = 0)
include hh

/-- Valves without valid values are calibrated first. -/
theorem execChipReady_stage (hb : s.boot = .stage) : execChipReady s =
    .next (if s.valvesOpen then { s with qch := { s.qch with cal := some 0 }, boot := .calibrating } else s.goReady) := by
  simp [execChipReady, hh, hb]

theorem execChipReady_calibrated (hb : s.boot = .calibrating) (hc : s.qch.cal = none) : execChipReady s = .next s.goReady := by
  simp [execChipReady, hh, hb, hc]

end

end

/-- Settles O42: one lemma for each command and course. -/
theorem bringUpCompletes : Obligations.BringUpCompletes :=
  ⟨fun _ ha => execAuxRise_rises ha,
    fun _ ha hb => execAuxFall_idle ha hb,
    fun _ _ ha hb => execAuxFall_cuts ha hb,
    fun _ _ hb h2 h5 => execChipReset_resets hb h2 h5,
    fun _ hb => execSmithWatchdogExpiry_steward hb,
    fun _ _ hb h1 h3 => execSmithWatchdogExpiry_other hb h1 h3,
    fun _ hb => ⟨(execBootImageLoaded_rom hb).trans (congrArg _ (if_pos rfl)),
      (execBootImageLoaded_rom hb).trans (congrArg _ (if_neg Bool.false_ne_true))⟩,
    fun _ _ _ hb hi => execBootImageLoaded_recovery hb hi,
    fun _ hh hb hv => (execChipReady_stage hh hb).trans (congrArg _ (if_neg (Bool.eq_false_iff.mp hv))),
    fun _ hh hb hv => (execChipReady_stage hh hb).trans (congrArg _ (if_pos hv)),
    fun _ hh hb hc => execChipReady_calibrated hh hb hc⟩

end Sys2Proof.Machine
end

section
/-! PROOFS. Valves: their cycles, phases, limits and faults (R424 to R427, R434, R438). -/
namespace Sys2Proof.Machine

section
variable {s t : State} {v c o duty meas : Nat} {d : Option Nat}

/-! Cycles (R424). -/

section
variable (hv : v < 8) (hc : s.valveMs % 100 = 12 * v % 100) (ha : s.aux = true) (hd : s.bel.st ≠ .dark) (h5 : v ≠ 5)
  (ho : o = s.openAt v s.valveMs duty meas) (ht : t = s.setSection v { s.section v with openMs := o })
include hv hc ha hd h5 ho ht

/-- A cycle of a valve other than the heaters' closes it for the rest of its 100 ms. -/
theorem execValveCycleStart_cycles : execValveCycleStart v duty meas s =
    .next (if t.closedMs v o = 0 then t else t.energise v s.valveMs (s.valveMs + t.closedMs v o)) := by
  simp [execValveCycleStart, hv.not_ge, hc, ha, hd, h5, ← ho, ← ht]

end

/-! Phases (R425, R426). -/

section
variable (hv : v < 8)
include hv

section
variable (hp : (s.valve v).phase = .pullIn)
include hp

/-- PULL_TIME ends in a release where the profile has ended by then, else in HOLD. -/
theorem execPullTimeEnd_ends (ht : t = s.dip v d) : execPullTimeEnd v d s =
    .next (if (t.valve v).endAt ≤ (t.valve v).startAt + t.pullTime v then t.release v ((t.valve v).startAt + t.pullTime v)
      else (t.setValve v { t.valve v with phase := .hold }).emit (.coil v 2)) := by
  simp [execPullTimeEnd, hv.not_ge, hp, ← ht]

/-- The limit of a pull-in puts the valve in HOLD (R427). -/
theorem execPullInLimit_holds : execPullInLimit v s =
    .next (State.event ((s.setValve v { s.valve v with phase := .hold }).emit (.coil v 2)) 0x4102 v 0xFF) := by
  simp [execPullInLimit, hv, hp]

end

theorem execProfileEnd_releases (hp : (s.valve v).phase = .hold) (ht : t = s.dip v d) :
    execProfileEnd v d s = .next (t.release v (t.valve v).endAt) := by
  simp [execProfileEnd, hv.not_ge, hp, ← ht]

theorem execReleaseWaitEnd_ends (hp : (s.valve v).phase = .releaseWait) : execReleaseWaitEnd v s = .next (s.waitOver v) := by
  simp [execReleaseWaitEnd, hv, hp]

theorem execForcedOffEnd_ends (hp : (s.valve v).phase = .forcedOff) : execForcedOffEnd v s = .next (s.waitOver v) := by
  simp [execForcedOffEnd, hv, hp]

/-! Limits and faults of an energised coil (R427, R434, R438). -/

section
variable (hp : (s.valve v).phase = .pullIn ∨ (s.valve v).phase = .hold)
include hp

/-- The time limit forces a release of 200 ms after 4.0 s. -/
theorem execOnTimeLimit_forces : execOnTimeLimit v s = .next (((State.emit (s.setValve v
      { s.valve v with phase := .forcedOff, endAt := (s.valve v).startAt + 4200, pend := none }) (.coil v 0)).bump
    adrForcedReleases).event 0x4101 v 0xFF) := by
  simp [execOnTimeLimit, hv, hp]

/-- An open or shorted coil makes the valve fail open. -/
theorem execCoilFault_fails : execCoilFault v s =
    .next (State.event ((s.setValve v { s.valve v with phase := .failed, pend := none }).emit (.coil v 0)) 0x4103 v 0xFF) := by
  simp [execCoilFault, hv, hp]

/-- An armature that does not move is reported. -/
theorem execArmatureNoMotion_reports : execArmatureNoMotion v s = .next (s.event 0x4104 v 0xFF) := by
  simp [execArmatureNoMotion, hv, hp]

end
end

end

/-- Settles O40: one lemma for each command; a cycle and PULL_TIME end in one of two ways each. -/
theorem valveCommandsComplete : Obligations.ValveCommandsComplete := by
  refine ⟨?closes, ?opens, ?holds, ?releases, fun _ _ _ _ hv hp ht => execProfileEnd_releases hv hp ht,
    fun _ _ hv hp => execReleaseWaitEnd_ends hv hp, fun _ _ hv hp => execForcedOffEnd_ends hv hp,
    fun _ _ hv hp => execPullInLimit_holds hv hp,
    fun _ _ hv hp => ⟨execOnTimeLimit_forces hv hp, execCoilFault_fails hv hp, execArmatureNoMotion_reports hv hp⟩⟩
  case closes =>
    rintro s v duty meas o t _ hv hc ha hd h5 ho ht rfl hpos
    exact (execValveCycleStart_cycles hv hc ha hd h5 ho ht).trans (congrArg _ (if_neg hpos.ne'))
  case opens =>
    intro s v duty meas o t hv hc ha hd h5 ho ht hzero
    exact (execValveCycleStart_cycles hv hc ha hd h5 ho ht).trans (congrArg _ (if_pos hzero))
  case holds =>
    intro s v d t hv hp ht hlate
    exact (execPullTimeEnd_ends hv hp ht).trans (congrArg _ (if_neg hlate.not_ge))
  case releases =>
    intro s v d t hv hp ht hended
    exact (execPullTimeEnd_ends hv hp ht).trans (congrArg _ (if_pos hended))

end Sys2Proof.Machine
end

section
/-! PROOFS. Heat: the forecast, hints, temperature samples, held packets and calibration visits (R428, R431, R433, R435 to R438). -/
namespace Sys2Proof.Machine

section
variable {s t u : State} {k a x ma temp : Nat} {c m : List Nat} {h : List (List (List Nat))} {d : List Byte} {pk : Pkt}

/-! The forecast (R428, R431, R433). -/

/-- A forecast judges the bin that has ended, replaces the bins, and ends the silence. -/
theorem execForecastTick_forecasts (ho : s.boot ≠ .off) (hr : s.boot ≠ .rom) (hv : s.boot ≠ .recovery)
    (ht : t = State.each (s.each allParts State.dropHints) allSections
      (fun y x => y.setSection x (judgeBin (y.section x) (m.getD x 0))))
    (hu : u = t.each allSections (fun y x =>
      y.setSection x { y.section x with bins := (allSections.map fun z => (List.range 64).map (t.binHeat h z)).getD x [] })) :
    execForecastTick h m s =
      .next (State.each (u.modQch fun q => { q with silent := false, forecastAt := u.valveMs }) allSections State.runSettle) := by
  subst ht hu
  simp only [execForecastTick, beq_iff_eq, ho, hr, hv, Bool.or_eq_true, or_self, if_false]

theorem execForecastSilence_silences (ha : s.aux = true) : execForecastSilence s =
    .next (State.each (s.modQch fun h => { h with silent := true }) allSections State.runSettle) := by
  simp [execForecastSilence, ha]

/-- THERMAL_HINT answers how many of its records are accepted. -/
theorem execThermalHint_takes {n : Nat × State} (hs : Starts s 0x81 k pk t)
    (hd : (t.dropHints pk.part).load pk.part (u32 pk.bytes 0x10) (16 * u16 pk.bytes 0x14) = (some d, u))
    (hn : n = u.takeHints pk.part ((List.range (u16 pk.bytes 0x14)).map fun i => slice d (16 * i) 16) 0) :
    execThermalHint k s = .next (n.2.done k (leBytes 2 n.1)) := by
  rw [execThermalHint, runOp_starts _ hs]
  simp only [hd, hn]

/-! Temperatures (R436 to R438). -/

/-- A sample counts towards the release of each level, and the section goes to the level that it then has. -/
theorem execSectionTempSample_samples (hx : x < 8) (ha : s.aux = true)
    (hc : c = [1, 2, 3].map (fun j => if temp + 200 ≤ 100 * s.limit x j then min 100 ((s.section x).cool.getD (j - 1) 0 + 1) else 0)) :
    execSectionTempSample x temp ma s = .next (State.toLevel ((s.setSection x { s.section x with temp := temp, cool := c }).setRf
      (adrQchValveStatus x) 14 3 (min ma 4095)) x (levelAfter (s.reached x temp) (s.section x).level c)) := by
  simp only [execSectionTempSample, ha, hx.not_ge, decide_false, Bool.not_true, Bool.or_self, Bool.false_eq_true, if_false, ← hc]

/-- A section without a valid reading that is not at STOP or TRIP stands at level 4. -/
theorem execTempSourceFault_faults (hx : x < 8) (hl : s.level x ≠ 4) (ht : t = s.event 0x410A x 0xFF)
    (h2 : (t.section x).level < 2) : execTempSourceFault x s = .next (t.setSection x { t.section x with level := 4, cool := [] }) := by
  simp [execTempSourceFault, hx.not_ge, hl, ← ht, h2.not_ge]

/-- A packet that the STOP level has held too long fails (R437). -/
theorem execStopHoldTimeout_fails (hs : s.startable k pk.opcode = some pk) (hk : s.pkt k = some pk) (ha : stopAnvil pk = some a)
    (hst : s.stopOn a = true) : execStopHoldTimeout k s = .next ((s.failPkt k 0x60).bump adrThermalStops) := by
  simp [execStopHoldTimeout, hk, ha, hs, hst]

/-! Calibration visits (R435). -/

theorem clampDelay_of_range {n : Nat} (h8 : 8 ≤ n) (h60 : n ≤ 60) : clampDelay n = n := by
  simp [clampDelay, h8, h60]

/-- A visit whose delays and transit are in range keeps what it measured, and the next section's follows. -/
theorem execQchCalibrationDone_keeps {closing opening transit idle : Nat} (hcal : s.qch.cal = some x) (hx : x < 7) (h8 : 8 ≤ closing)
    (h60 : closing ≤ 60) (ho : opening ≤ closing) (h5 : 5 ≤ transit) (h96 : transit ≤ 96)
    (ht : t = s.setReg (adrQchValveCal x) (wd (closing + 2 ^ 7 * transit + 2 ^ 14))) :
    execQchCalibrationDone closing opening transit idle s =
      .next (State.modQch ((t.setValve x { t.valve x with closing := [closing], opening := some opening }).setSection x
        { State.section (t.setValve x { t.valve x with closing := [closing], opening := some opening }) x with idle := idle })
        fun h => { h with cal := some (x + 1) }) := by
  subst ht
  simp [execQchCalibrationDone, hcal, hx, Nat.max_eq_left ho, clampDelay_of_range h8 h60, h5, h96]

end

/-- Settles O41: one lemma for each command; the step cap's period has no condition. -/
theorem heatCommandsComplete : Obligations.HeatCommandsComplete :=
  ⟨fun _ _ _ _ _ ho hr hv ht hu => execForecastTick_forecasts ho hr hv ht hu,
    fun _ ha => execForecastSilence_silences ha,
    fun _ _ _ _ _ _ _ hs hd hn => execThermalHint_takes hs hd hn,
    fun _ _ _ _ _ hx ha hc => execSectionTempSample_samples hx ha hc,
    fun _ _ _ hx hl ht h2 => execTempSourceFault_faults hx hl ht h2,
    fun _ => rfl,
    fun _ _ _ _ hs hk ha hst => execStopHoldTimeout_fails hs hk ha hst,
    fun _ _ _ _ _ _ _ hcal hx h8 h60 ho h5 h96 ht => execQchCalibrationDone_keeps hcal hx h8 h60 ho h5 h96 ht⟩

end Sys2Proof.Machine
end

section
/-! PROOFS. The sideband's requests, the update over it, the debug token and boundary scan (R452, R455, R466, R467, R469, R538). -/
namespace Sys2Proof.Machine

section
variable {s t : State} {v : Nat} (d : List Byte)

/-! MCTP control (R469). -/

section
variable (hb : s.boot ≠ .off)
include hb

theorem execMctpControlMessage_setsEid (ht : t = { s with side := { s.side with eid := u8 d 1 } }) :
    execMctpControlMessage 1 d s = .next (t.reply (leBytes 1 0 ++ leBytes 1 0 ++ leBytes 1 (u8 d 1) ++ leBytes 1 0)) := by
  subst ht
  simp [execMctpControlMessage, hb]

/-! The update (R469). -/

theorem execPldmUpdateCommand_begins (hf : s.flashBusy = false) :
    execPldmUpdateCommand 0x10 d s = .next (State.answerCode (s.setPldm fun _ => { st := 1 }) 0) := by
  simp [execPldmUpdateCommand, hb, hf]

theorem execPldmUpdateCommand_takesData (hst : s.nvs.pldm.st = 3) : execPldmUpdateCommand 0x15 d s =
    .next (State.answerCode (s.setPldm fun p => { p with data := (p.data ++ d).take p.size }) 0) := by
  simp [execPldmUpdateCommand, State.pldmStep, hb, hst]

theorem execPldmUpdateCommand_verifies (hst : s.nvs.pldm.st = 4) : execPldmUpdateCommand 0x17 d s = .next s.pldmVerify := by
  simp [execPldmUpdateCommand, hb, hst]

theorem execPldmUpdateCommand_applies (hst : s.nvs.pldm.st = 5) (hh : s.nvs.host = none) :
    execPldmUpdateCommand 0x18 d s = .next s.pldmApply := by
  simp [execPldmUpdateCommand, hb, hst, hh]

/-- The answer goes out before the descriptor is written and the chip resets with cause 4 (R467). -/
theorem execPldmActivateFirmware_resets (hr : s.boot ≠ .recovery) (hst : s.nvs.pldm.st = 6) :
    execPldmActivateFirmware s = .next (State.chipReset (State.pldmSelect (s.answerCode 0)) 4) := by
  simp [execPldmActivateFirmware, hb, hr, hst]

/-! Sensors, SPDM and the debug token (R469); recovery answers neither sensors nor SPDM (R455). -/

theorem execPldmMonitorRequest_reads (hr : s.boot ≠ .recovery) (hv : s.sensor (u16 d 0) = some v) (hn : u16 d 0 ≠ 17) :
    execPldmMonitorRequest 2 0x11 d s = .next (s.reply (leBytes 1 0 ++ leBytes 4 v)) := by
  simp [execPldmMonitorRequest, State.answerSensor, hb, hr, hv, hn]

/-- Sensor 17 is the changeover's state, which has its own command. -/
theorem execPldmMonitorRequest_readsState (hr : s.boot ≠ .recovery) (hv : s.sensor 17 = some v) (hn : u16 d 0 = 17) :
    execPldmMonitorRequest 2 0x21 d s = .next (s.reply (leBytes 1 0 ++ leBytes 4 v)) := by
  simp [execPldmMonitorRequest, State.answerSensor, hb, hr, hv, hn]

theorem execSpdmRequest_version (a b : Nat) (hr : s.boot ≠ .recovery) : execSpdmRequest 0x84 a b d s =
    .next (State.spdm (s.spdmStart 1) 4 0 0 (leBytes 2 0x100 ++ leBytes 2 0x1200) 0) := by
  simp [execSpdmRequest, hb, hr]

/-- An unsigned measurement of a connection that has agreed on its algorithms. -/
theorem execSpdmRequest_measures {p : Nat} (hr : s.boot ≠ .recovery) (hs : s.side.spdm = 3) (h1 : 1 ≤ p) (h4 : p ≤ 4) :
    execSpdmRequest 0xE0 0 p d s = .next (s.spdm 0x60 0 0 (s.measured p) 0) := by
  simp [execSpdmRequest, hb, hr, hs, Nat.ne_of_gt h1, Nat.not_le.2 (Nat.lt_succ_of_le h4), bitAt]

/-- A good token opens the debug TAP, once. -/
theorem execDebugTapToken_opens (k : Nat) (hc : s.rf adrSecState 16 16 = 0) : execDebugTapToken k d s =
    .next (if s.tokenGood k d then State.event (s.setRf adrSecState 16 16 1) 0x600A 0 0xFF else s) := by
  simp [execDebugTapToken, hb, hc]

end

/-- Recovery runs the image received (R455). -/
theorem execPldmActivateFirmware_recovers (hr : s.boot = .recovery) (hst : s.nvs.pldm.st = 6) : execPldmActivateFirmware s =
    .next (State.answerCode (s.setNvs fun n => { n with sideImage := some s.pldmContent, pldm := {} }) 0) := by
  simp [execPldmActivateFirmware, hr, hst]

theorem execJtagInstruction_loads {i : Nat} (ha : s.aux = true) (hi : i ≤ 5) : execJtagInstruction i s =
    .next (State.emit { s with side := { s.side with jtag := i } } (.jtag i (if i = 1 then some idcode else none))) := by
  simp [execJtagInstruction, ha, hi]

end

/-- Settles O46: one lemma for each request. -/
theorem sidebandCompletes : Obligations.SidebandCompletes :=
  ⟨fun _ d _ hb ht => execMctpControlMessage_setsEid d hb ht,
    fun _ d _ hb hr hv hn => execPldmMonitorRequest_reads d hb hr hv hn,
    fun _ d _ hb hr hv hn => execPldmMonitorRequest_readsState d hb hr hv hn,
    fun _ d hb hf => execPldmUpdateCommand_begins d hb hf,
    fun _ d hb hst => execPldmUpdateCommand_takesData d hb hst,
    fun _ d hb hst => execPldmUpdateCommand_verifies d hb hst,
    fun _ d hb hst hh => execPldmUpdateCommand_applies d hb hst hh,
    fun _ hb hr hst => execPldmActivateFirmware_resets hb hr hst,
    fun _ hr hst => execPldmActivateFirmware_recovers hr hst,
    fun _ a b d hb hr => execSpdmRequest_version d hb a b hr,
    fun _ _ d hb hr hs h1 h4 => execSpdmRequest_measures d hb hr hs h1 h4,
    fun _ k d hb hc => execDebugTapToken_opens d hb k hc,
    fun _ _ ha hi => execJtagInstruction_loads ha hi⟩

end Sys2Proof.Machine
end

section
/-! PROOFS. MCTP control, PLDM monitoring, SPDM and boundary-scan requests change nothing but the sideband's own state (R469, R538). -/
namespace Sys2Proof.Machine

section
variable {s t u : State}

/-! What these requests are made of: the sideband's own state, outputs and free values. -/

theorem SidebandOnly.refl (s : State) : SidebandOnly s s := rfl

theorem SidebandOnly.trans (h : SidebandOnly s t) (k : SidebandOnly t u) : SidebandOnly s u := by
  unfold SidebandOnly at h k
  rw [h] at k
  exact k

theorem SidebandOnly.setSide (h : SidebandOnly s t) (x : Side) : SidebandOnly s { t with side := x } := h.trans rfl

theorem SidebandOnly.emit (h : SidebandOnly s t) (o : Out) : SidebandOnly s (t.emit o) := h.trans rfl

theorem SidebandOnly.reply (h : SidebandOnly s t) (b : List Byte) : SidebandOnly s (t.reply b) := h.emit _

theorem SidebandOnly.answerCode (h : SidebandOnly s t) (c : Nat) : SidebandOnly s (t.answerCode c) := h.reply _

theorem SidebandOnly.freeBytes (n : Nat) (h : SidebandOnly s t) : SidebandOnly s (t.freeBytes n).2 := by
  induction n generalizing t with
  | zero => exact h
  | succ n ih => exact ih (h.trans rfl)

theorem SidebandOnly.answerFree (h : SidebandOnly s t) (b : List Byte) (n : Nat) : SidebandOnly s (t.answerFree b n) :=
  (h.freeBytes n).reply _

theorem SidebandOnly.answerSensor (h : SidebandOnly s t) (n : Nat) (b : Bool) : SidebandOnly s (t.answerSensor n b) := by
  unfold State.answerSensor
  split
  · split
    · exact h.reply _
    · exact h.answerCode _
  · exact h.answerCode _

theorem SidebandOnly.spdm (h : SidebandOnly s t) (code p1 p2 : Nat) (b : List Byte) (n : Nat) :
    SidebandOnly s (t.spdm code p1 p2 b n) := h.answerFree _ n

theorem SidebandOnly.spdmError (h : SidebandOnly s t) (e : Nat) : SidebandOnly s (t.spdmError e) := h.spdm ..

/-- A step of the connection's start, answered when the steps before it were taken. -/
theorem SidebandOnly.spdmStart (h : SidebandOnly s t) (st : Nat) : SidebandOnly s (t.spdmStart st) := h.setSide _

/-! The requests. -/

theorem execMctpControlMessage_sidebandOnly (c : Nat) (d : List Byte) (h : execMctpControlMessage c d s = .next t) :
    SidebandOnly s t := by
  have hold := SidebandOnly.refl s
  cases h
  split
  · exact hold
  split
  · exact (hold.setSide _).reply _
  · exact hold.answerFree ..
  · exact hold.answerFree ..
  · exact hold.reply _
  · exact hold.answerCode _

theorem execPldmMonitorRequest_sidebandOnly (y c : Nat) (d : List Byte) (h : execPldmMonitorRequest y c d s = .next t) :
    SidebandOnly s t := by
  have hold := SidebandOnly.refl s
  cases h
  split
  · exact hold
  split
  · exact hold.answerFree ..
  · exact hold.answerFree ..
  · exact hold.reply _
  · exact hold.reply _
  · exact hold.answerSensor ..
  · exact hold.answerSensor ..
  · dsimp only
    split
    · exact hold.answerFree ..
    · exact hold.answerCode _
  · exact hold.answerCode _

/-- A request of a connection is answered, or refused with an error. -/
theorem execSpdmRequest_sidebandOnly (c a b : Nat) (d : List Byte) (h : execSpdmRequest c a b d s = .next t) :
    SidebandOnly s t := by
  have hold := SidebandOnly.refl s
  cases h
  split
  · exact hold
  split
  case h_1 => exact (hold.spdmStart 1).spdm ..
  case h_2 | h_3 =>
    split
    · exact (hold.spdmStart _).spdm ..
    · exact hold.spdmError 4
  case h_4 =>
    split
    · exact hold.spdm ..
    · exact hold.spdmError 4
  case h_6 =>
    split
    · exact hold.spdmError 4
    · exact hold.spdm ..
  case h_5 | h_7 =>
    split
    · exact hold.spdmError 4
    split
    · exact hold.spdmError 1
    · exact hold.spdm ..
  case h_8 => exact hold.spdmError 7

theorem execJtagInstruction_sidebandOnly (i : Nat) (h : execJtagInstruction i s = .next t) : SidebandOnly s t := by
  cases h
  split
  · exact .refl s
  · exact ((SidebandOnly.refl s).setSide _).emit _

end

/-- Settles O51: each request is a composition of changes of the sideband's own state, outputs and free values, and `SidebandOnly` is
kept by each of these and by their composition (`SidebandOnly.trans`). -/
theorem sidebandFrame : Obligations.SidebandFrame :=
  ⟨fun c d _ _ h => execMctpControlMessage_sidebandOnly c d h, fun y c d _ _ h => execPldmMonitorRequest_sidebandOnly y c d h,
    fun c a b d _ _ h => execSpdmRequest_sidebandOnly c a b d h, fun i _ _ h => execJtagInstruction_sidebandOnly i h⟩

end Sys2Proof.Machine
end

section
/-! PROOFS. The commands of valves, and those of Quench that stop no work, change nothing beyond Quench (R424 to R427, R431, R434, R437,
R438). -/
namespace Sys2Proof.Machine

section
variable {s t u : State} {a v x : Nat}

/-! What these commands are made of: Quench's own state, registers of QCH, events and outputs. -/

theorem QuenchOnly.refl (s : State) : QuenchOnly s s := ⟨rfl, .refl s⟩

theorem QuenchOnly.trans (h : QuenchOnly s t) (k : QuenchOnly t u) : QuenchOnly s u := by
  obtain ⟨ht, hsame⟩ := h
  obtain ⟨hu, ksame⟩ := k
  rw [ht] at hu
  exact ⟨hu, hsame.trans ksame⟩

theorem QuenchOnly.modQch (h : QuenchOnly s t) (f : Qch → Qch) : QuenchOnly s (t.modQch f) := h.trans ⟨rfl, .refl t⟩

theorem QuenchOnly.setSection (h : QuenchOnly s t) (x : Nat) (q : Section) : QuenchOnly s (t.setSection x q) := h.modQch _

theorem QuenchOnly.setValve (h : QuenchOnly s t) (v : Nat) (q : Valve) : QuenchOnly s (t.setValve v q) := h.modQch _

theorem QuenchOnly.emit (h : QuenchOnly s t) (o : Out) : QuenchOnly s (t.emit o) := h.trans ⟨rfl, .refl t⟩

/-- The registers of QCH are those of block 17. -/
theorem QuenchOnly.setReg (h : QuenchOnly s t) (ha : a / 0x100000 = 17) (w : Word) : QuenchOnly s (t.setReg a w) :=
  h.trans ⟨rfl, t.setReg_sameOutside w (.inl (by simp [ha]))⟩

theorem QuenchOnly.setRf (h : QuenchOnly s t) (ha : a / 0x100000 = 17) (hi lo n : Nat) : QuenchOnly s (t.setRf a hi lo n) :=
  h.setReg ha _

theorem QuenchOnly.bump (h : QuenchOnly s t) (ha : a / 0x100000 = 17) : QuenchOnly s (t.bump a) := h.setReg ha _

theorem QuenchOnly.event (h : QuenchOnly s t) (code src part : Nat) : QuenchOnly s (t.event code src part) := by
  obtain ⟨r, e, he⟩ := t.event_touches code src part
  exact h.trans ⟨by rw [he], t.eventD_sameOutside code src part []⟩

theorem QuenchOnly.each {α : Type} {l : List α} {f : State → α → State} (h : QuenchOnly s t)
    (hf : ∀ u, ∀ x ∈ l, QuenchOnly u (f u x)) : QuenchOnly s (t.each l f) :=
  List.foldlRecOn l f h fun u hu x hx => hu.trans (hf u x hx)

/-! The courses of a coil (R425, R426). -/

theorem QuenchOnly.pullIn (h : QuenchOnly s t) (v n e : Nat) : QuenchOnly s (t.pullIn v n e) := (h.setValve ..).emit _

theorem QuenchOnly.energise (h : QuenchOnly s t) (v n e : Nat) : QuenchOnly s (t.energise v n e) := by
  unfold State.energise
  dsimp only
  split
  case h_1 => exact h.pullIn ..
  case h_6 => exact h
  all_goals exact h.setValve ..

theorem QuenchOnly.release (h : QuenchOnly s t) (v n : Nat) : QuenchOnly s (t.release v n) := (h.setValve ..).emit _

theorem QuenchOnly.waitOver (h : QuenchOnly s t) (v : Nat) : QuenchOnly s (t.waitOver v) := by
  unfold State.waitOver
  dsimp only
  split
  · split
    · exact h.pullIn ..
    · exact h.setValve ..
  · exact h.setValve ..

theorem adrQchValveCal_block (hv : v < 8) : adrQchValveCal v / 0x100000 = 17 := by
  unfold adrQchValveCal
  omega

/-- The measured delay is kept, and counts once the opening delay is known (R434). -/
theorem QuenchOnly.dip (h : QuenchOnly s t) (hv : v < 8) (d : Option Nat) : QuenchOnly s (t.dip v d) := by
  unfold State.dip
  split
  · exact h
  dsimp only
  split
  · exact h.setValve ..
  refine QuenchOnly.setRf ?_ (adrQchValveCal_block hv) ..
  split
  · exact (h.setValve ..).event ..
  · exact h.setValve ..

/-- A section enters reactive mode, leaves it, or stays (R431). -/
theorem QuenchOnly.runSettle (h : QuenchOnly s t) (x : Nat) : QuenchOnly s (t.runSettle x) := by
  unfold State.runSettle
  extract_lets q m want calmed
  split
  · exact h.setSection ..
  split
  · exact h.setSection ..
  split
  · exact h
  split
  · exact ((h.setSection ..).bump rfl).event ..
  split
  · exact (h.setSection ..).event ..
  · exact h.setSection ..

/-! The commands. -/

theorem execValveCycleStart_quenchOnly (d m : Nat) (h : execValveCycleStart v d m s = .next t) : QuenchOnly s t := by
  have hold := QuenchOnly.refl s
  cases h
  extract_lets n o lasers q opened c
  have hopened : QuenchOnly s opened := by
    refine QuenchOnly.setSection ?_ ..
    dsimp only [lasers]
    split
    · exact hold.modQch _
    · exact hold
  split
  · exact hold
  split
  · exact hopened
  · exact hopened.energise ..

theorem execPullTimeEnd_quenchOnly (c : Option Nat) (h : execPullTimeEnd v c s = .next t) : QuenchOnly s t := by
  cases h
  split
  · exact .refl s
  next hc =>
    have hdip := (QuenchOnly.refl s).dip (v := v) (by simp at hc; omega) c
    dsimp only
    split
    · exact hdip.release ..
    · exact (hdip.setValve ..).emit _

theorem execProfileEnd_quenchOnly (c : Option Nat) (h : execProfileEnd v c s = .next t) : QuenchOnly s t := by
  cases h
  split
  · exact .refl s
  next hc => exact ((QuenchOnly.refl s).dip (by simp at hc; omega) c).release ..

theorem execReleaseWaitEnd_quenchOnly (h : execReleaseWaitEnd v s = .next t) : QuenchOnly s t := by
  cases h
  split
  · exact (QuenchOnly.refl s).waitOver v
  · exact .refl s

theorem execForcedOffEnd_quenchOnly (h : execForcedOffEnd v s = .next t) : QuenchOnly s t := by
  cases h
  split
  · exact (QuenchOnly.refl s).waitOver v
  · exact .refl s

theorem execPullInLimit_quenchOnly (h : execPullInLimit v s = .next t) : QuenchOnly s t := by
  cases h
  split
  · exact (((QuenchOnly.refl s).setValve ..).emit _).event ..
  · exact .refl s

theorem execOnTimeLimit_quenchOnly (h : execOnTimeLimit v s = .next t) : QuenchOnly s t := by
  cases h
  dsimp only
  split
  · exact ((((QuenchOnly.refl s).setValve ..).emit _).bump rfl).event ..
  · exact .refl s

theorem execCoilFault_quenchOnly (h : execCoilFault v s = .next t) : QuenchOnly s t := by
  cases h
  dsimp only
  split
  · exact (((QuenchOnly.refl s).setValve ..).emit _).event ..
  · exact .refl s

theorem execArmatureNoMotion_quenchOnly (h : execArmatureNoMotion v s = .next t) : QuenchOnly s t := by
  cases h
  split
  · exact (QuenchOnly.refl s).event ..
  · exact .refl s

theorem execForecastSilence_quenchOnly (h : execForecastSilence s = .next t) : QuenchOnly s t := by
  cases h
  split
  · exact .refl s
  · exact ((QuenchOnly.refl s).modQch _).each fun u y _ => (QuenchOnly.refl u).runSettle y

theorem execTempSourceFault_quenchOnly (h : execTempSourceFault x s = .next t) : QuenchOnly s t := by
  have hreported := (QuenchOnly.refl s).event 0x410A x 0xFF
  cases h
  split
  · exact .refl s
  dsimp only
  split
  · exact hreported
  · exact hreported.setSection ..

/-- Every section's cap moves but S5's (R437). -/
theorem execThrottleStepPeriod_quenchOnly (h : execThrottleStepPeriod s = .next t) : QuenchOnly s t := by
  cases h
  refine (QuenchOnly.refl s).each fun u y _ => ?_
  split
  · exact .refl u
  · exact (QuenchOnly.refl u).setSection ..

end

/-- Settles O47: each command is a composition of changes of Quench's state, of registers of QCH, of events and of outputs, and
`QuenchOnly` is kept by each of these (`QuenchOnly.modQch`, `QuenchOnly.setReg`, `QuenchOnly.event`, `QuenchOnly.emit`) and by their
composition (`QuenchOnly.trans`). -/
theorem valveCommandsFrame : Obligations.ValveCommandsFrame :=
  ⟨fun _ d m _ _ h => execValveCycleStart_quenchOnly d m h, fun _ c _ _ h => execPullTimeEnd_quenchOnly c h,
    fun _ c _ _ h => execProfileEnd_quenchOnly c h, fun _ _ _ h => execReleaseWaitEnd_quenchOnly h,
    fun _ _ _ h => execForcedOffEnd_quenchOnly h, fun _ _ _ h => execPullInLimit_quenchOnly h,
    fun _ _ _ h => execOnTimeLimit_quenchOnly h, fun _ _ _ h => execCoilFault_quenchOnly h,
    fun _ _ _ h => execArmatureNoMotion_quenchOnly h, fun _ _ h => execForecastSilence_quenchOnly h,
    fun _ _ _ h => execTempSourceFault_quenchOnly h, fun _ _ h => execThrottleStepPeriod_quenchOnly h⟩

end Sys2Proof.Machine
end
